-- ==== Sys2Proof/Word.lean ====
section
/-! DEFINITION. The word types of the Ngacel-240 (spec/00_scope.md R4, 04_numbers.md R63, R64): bytes, lane registers,
scalar registers and 57-bit virtual addresses. -/

namespace Sys2Proof

/-- One byte of memory (R4: little-endian everywhere). -/
abbrev Byte := BitVec 8
/-- A packed 16-bit element (R63). -/
abbrev W16 := BitVec 16
/-- A lane register (Table 5). -/
abbrev W32 := BitVec 32
/-- A scalar register or an even-odd pair (R28, R64). -/
abbrev W64 := BitVec 64
/-- A virtual byte address (Table 3: 57 bits), the width of a PC (Table 69). -/
abbrev W57 := BitVec 57
/-- One instruction word (R24). -/
abbrev IWord := BitVec 32

end Sys2Proof
end

