-- ==== Sys2Proof/Syntax.lean ====
section
/-! DEFINITION. The one syntax of the part's steps: every row of spec/opcode_table.json, the 241 instructions and three hint words
(Tables 8 and 13) with their operand fields, and the 76 events that other agents (engines, firmware, the host, the package) make. -/

namespace Sys2Proof

/-- An entry of a block's tables, each protected alone (Table 106, code 4): the n-th of the tag table, a handle, a reservation record by its handle, a
scoreboard entry. -/
inductive TableEntry where
  | tag (n : Nat)
  | handle (n : Nat)
  | resv (n : Nat)
  | score (n : Nat)
  deriving DecidableEq, Repr

/-- A place where a soft error can strike (Table 106). -/
inductive StoreLoc where
  /-- code 0: a word of the vector register file -/
  | vreg (wid lane reg : Nat)
  /-- code 0: a 32-bit word of a lane's state as Table 99 lays it out: 0 and 1 the key word, 2 to 9 the on-chip return entries (entry e at
  2 + 2((e - 1) mod 4)), 10 predicates and abort depths -/
  | laneState (wid lane word : Nat)
  /-- code 1: the 8-byte scratchpad word at a team-view address, in the base or an overlay -/
  | spad (team addr : Nat)
  /-- code 1: an entry of a lane's spill area, from 1 -/
  | spill (wid lane entry : Nat)
  /-- code 1: an 8-byte word of the local area that a domestique handler uses -/
  | dom (core word : Nat)
  /-- code 2: a word of an accumulator row: an entry, 0 to 63, or its status, 64 -/
  | row (team blk row word : Nat)
  /-- code 3: an 8-byte cassette word -/
  | cass (team blk off : Nat)
  /-- code 4: an entry of a block's tables -/
  | table (team blk : Nat) (entry : TableEntry)
  /-- code 5: a scalar register -/
  | sreg (wid reg : Nat)
  /-- code 5: a wave register: 0 `fpmode`, 1 `fpflags`, 2 the row window, 3 the held latch, 4 to 6 the abort addresses of wave, block and team -/
  | waveReg (wid word : Nat)
  /-- code 5: the 8-byte word of the wave's pannier at a team-view address -/
  | pannier (wid addr : Nat)
  /-- code 6: an L2 line, by device physical address -/
  | l2 (dpa : Nat)
  /-- code 6: the pending data of an outward copy for the line of an address (R159, R320) -/
  | pending (copy dpa : Nat)
  /-- code 7: a memory-side line -/
  | ms (dpa : Nat)
  /-- code 8: an HBM4 line -/
  | hbm (dpa : Nat)
  /-- code 8: the line of the spare to which the page of the address is being copied (R323) -/
  | spare (dpa : Nat)
  /-- code 9: an exact reduction cell -/
  | cell (dpa : Nat)
  /-- code 10: a 32-bit word of the engines of a pseudo-channel: 128 for each of 16 x registers, then 64 for each of 16 accumulators -/
  | bank (pc word : Nat)
  /-- code 11: instruction cache, L1 and translation stores -/
  | icache (core : Nat)
  deriving DecidableEq, Repr

/-- A register of the host interface that software writes (Tables 77, 86, 87, 109, R273, R333). -/
inductive HostReg where
  | rbase (vf ring : Nat)
  | rcfg (vf ring : Nat)
  | cbase (vf ring : Nat)
  | ccfg (vf ring : Nat)
  | status (vf ring : Nat)
  | troot (vf ring : Nat)
  | gtbase (vf : Nat)
  | gtcnt (vf : Nat)
  | pctl (part : Nat)
  | vfctl (vf : Nat)
  | s2root (vf : Nat)
  | elbase
  | elhead
  | publish (vf ring : Nat)
  | notify (vf ring : Nat)
  | chead (vf ring : Nat)
  | hpol (vf : Nat)
  | qen (part : Nat)
  | ticket (vf ring : Nat)
  | head (vf ring : Nat)
  | tail (vf ring : Nat)
  | ctail (vf ring : Nat)
  | ndrop (vf : Nat)
  | eltail
  | ellost
  /-- the lower or the upper 8 bytes of an entry of a function's MSI-X table (R264; notes/assumptions/22) -/
  | msixWord (vf entry : Nat) (upper : Bool)
  /-- any register whose every field is RO (HEAD, TAIL, CTAIL, NDROP, ELTAIL, ELLOST) -/
  | readOnly
  deriving DecidableEq, Repr

/-- What a flip of bits leaves (R313-R315): an error that the code corrects, one that it only detects, or one that only the line's check value
shows. -/
inductive ErrorSort where
  | correctable
  | uncorrectable
  | checkValue
  deriving DecidableEq, Repr

/-- One item of a job's memory move (R259, R348). -/
inductive MoveItem where
  /-- write the cells of an exact-reduction page into the save area -/
  | saveCells (page area : Nat)
  /-- write saved cells into the cell block of a page -/
  | restoreCells (page area : Nat)
  /-- write the bank context of the page's pseudo-channel into the save area -/
  | saveBank (page area : Nat)
  /-- write a saved bank context into the page's pseudo-channel -/
  | restoreBank (page area : Nat)
  deriving DecidableEq, Repr

/-- What an accepted flit carries between parts (R270, R310). -/
inductive SpokeMsg where
  /-- the reply to a request this part sent -/
  | reply (request : Nat) (value : W64)
  /-- a request this part sent names no such place in a record (R300) -/
  | refused (request : Nat)
  /-- a peer's handler reads a record of this part -/
  | ksread (tag : Nat) (handle : W32) (offset : Nat)
  /-- a peer's handler writes a record of this part -/
  | kswrite (tag : Nat) (handle : W32) (offset : Nat) (value : W64)
  /-- a peer's handler claims a record of this part -/
  | ksclaim (tag : Nat) (handle : W32)
  /-- a peer's handler disposes of a record: code of Table 98's disp, redirect address -/
  | dispose (tag : Nat) (handle : W32) (code : Nat) (addr : W57)
  /-- a peer's handler posts a record: its partition's ordinal, queue, priority -/
  | post (tag : Nat) (handle : W32) (ord queue prio : Nat)
  /-- the peer reports that a post of this part could not be delivered (R310) -/
  | undeliverable (handle : W32)
  /-- the peer reports that the handler task it placed ended without a disposition (Table 100) -/
  | handlerEnded (handle : W32)
  /-- the peer reports that a handler of it, holding the record, met the nesting bound (R307) -/
  | nestMet (handle : W32)
  /-- the home part reports that a record a handler here holds has expired (R309) -/
  | expired (handle : W32)
  deriving DecidableEq, Repr

/-- What the scheduler orders off its cores (R257, R261): a team, or every team of a partition. -/
inductive EvictUnit where
  | team (id : Nat)
  | partition (part : Nat)
  deriving DecidableEq, Repr

/-- A kind 3 fault task on its way to this part (R310, R364). -/
structure RemotePost where
  vf : Nat
  pord : Nat
  queue : Nat
  link : Nat
  handle : W32
  handler : Nat
  deadline : Nat
  budget : Nat
  prio : Nat
  depth : Nat
  arg : W64
  /-- the communication group that its flit carries (R270) -/
  group : Nat := 0
  /-- its flit passed authentication (R270) -/
  authentic : Bool := true
  deriving DecidableEq, Repr

/-- A ring of a function, and the word that the host writes to that ring's register (Table 77). -/
structure RingWord where
  ring : Nat
  value : W64
  deriving DecidableEq, Repr

/-- The host's answer to an assist-ring request (R283). -/
inductive AssistAnswer where
  /-- the prologue was run by the host: `s31` at its exit, the area's bytes 0x000-0x3FF -/
  | prologue (launch : Nat) (s31 : W64) (area : List Byte)
  /-- page retirement, page-fault service, triage or logging has been done -/
  | done
  /-- the host disposes of a parked record: the code of Table 98's disp, the redirect address -/
  | dispose (record code : Nat) (addr : W57)
  deriving DecidableEq, Repr

/-- The steps of the part, one constructor per row of the table. -/
inductive Instr where
  /-- `ADD_B32` (R92): Writes a + b modulo 2^32 to d in each active lane. -/
  | addB32 (n : BitVec 1) (d : BitVec 7) (a : BitVec 7) (b : BitVec 7)
  /-- `SUB_B32` (R92): Writes a − b modulo 2^32 to d in each active lane. -/
  | subB32 (n : BitVec 1) (d : BitVec 7) (a : BitVec 7) (b : BitVec 7)
  /-- `ADDS_S32` (R92): Writes the signed sum clamped to 32 bits and sets sat when any lane clamps. -/
  | addsS32 (n : BitVec 1) (d : BitVec 7) (a : BitVec 7) (b : BitVec 7)
  /-- `SUBS_S32` (R92): Writes the signed difference clamped to 32 bits and sets sat when any lane clamps. -/
  | subsS32 (n : BitVec 1) (d : BitVec 7) (a : BitVec 7) (b : BitVec 7)
  /-- `MIN_S32` (R92): Writes the smaller of a and b read as signed. -/
  | minS32 (n : BitVec 1) (d : BitVec 7) (a : BitVec 7) (b : BitVec 7)
  /-- `MIN_Z32` (R92): Writes the smaller of a and b read as unsigned. -/
  | minZ32 (n : BitVec 1) (d : BitVec 7) (a : BitVec 7) (b : BitVec 7)
  /-- `MAX_S32` (R92): Writes the larger of a and b read as signed. -/
  | maxS32 (n : BitVec 1) (d : BitVec 7) (a : BitVec 7) (b : BitVec 7)
  /-- `MAX_Z32` (R92): Writes the larger of a and b read as unsigned. -/
  | maxZ32 (n : BitVec 1) (d : BitVec 7) (a : BitVec 7) (b : BitVec 7)
  /-- `MUL_B32` (R92): Writes the low 32 bits of a × b. -/
  | mulB32 (n : BitVec 1) (d : BitVec 7) (a : BitVec 7) (b : BitVec 7)
  /-- `MULHI_S32` (R92): Writes the high 32 bits of the signed product. -/
  | mulhiS32 (n : BitVec 1) (d : BitVec 7) (a : BitVec 7) (b : BitVec 7)
  /-- `MULHI_Z32` (R92): Writes the high 32 bits of the unsigned product. -/
  | mulhiZ32 (n : BitVec 1) (d : BitVec 7) (a : BitVec 7) (b : BitVec 7)
  /-- `DIV_S32` (R95): Writes the signed quotient truncated toward zero, with the limits and traps of Table 20. -/
  | divS32 (n : BitVec 1) (d : BitVec 7) (a : BitVec 7) (b : BitVec 7)
  /-- `DIV_Z32` (R95): Writes the unsigned quotient, with the divide-by-zero limits and trap of Table 20. -/
  | divZ32 (n : BitVec 1) (d : BitVec 7) (a : BitVec 7) (b : BitVec 7)
  /-- `REM_S32` (R95): Writes the signed remainder with the dividend's sign. -/
  | remS32 (n : BitVec 1) (d : BitVec 7) (a : BitVec 7) (b : BitVec 7)
  /-- `REM_Z32` (R95): Writes the unsigned remainder. -/
  | remZ32 (n : BitVec 1) (d : BitVec 7) (a : BitVec 7) (b : BitVec 7)
  /-- `AND_B32` (R92): Writes the bitwise AND of a and b. -/
  | andB32 (n : BitVec 1) (d : BitVec 7) (a : BitVec 7) (b : BitVec 7)
  /-- `OR_B32` (R92): Writes the bitwise OR of a and b. -/
  | orB32 (n : BitVec 1) (d : BitVec 7) (a : BitVec 7) (b : BitVec 7)
  /-- `XOR_B32` (R92): Writes the bitwise XOR of a and b. -/
  | xorB32 (n : BitVec 1) (d : BitVec 7) (a : BitVec 7) (b : BitVec 7)
  /-- `SHL_B32` (R93): Shifts a left by the unsigned amount in b. -/
  | shlB32 (n : BitVec 1) (d : BitVec 7) (a : BitVec 7) (b : BitVec 7)
  /-- `SHR_Z32` (R93): Shifts a right logically by the unsigned amount in b. -/
  | shrZ32 (n : BitVec 1) (d : BitVec 7) (a : BitVec 7) (b : BitVec 7)
  /-- `SHR_S32` (R93): Shifts a right arithmetically by the unsigned amount in b. -/
  | shrS32 (n : BitVec 1) (d : BitVec 7) (a : BitVec 7) (b : BitVec 7)
  /-- `POPC_B32` (R92): Writes the number of one bits in a. -/
  | popcB32 (n : BitVec 1) (d : BitVec 7) (a : BitVec 7)
  /-- `CLZ_B32` (R92): Writes the number of leading zero bits in a. -/
  | clzB32 (n : BitVec 1) (d : BitVec 7) (a : BitVec 7)
  /-- `ADD_B32_IMM` (R92): Writes a plus the widened immediate modulo 2^32. -/
  | addB32Imm (n : BitVec 1) (d : BitVec 7) (a : BitVec 7) (i : BitVec 7)
  /-- `AND_B32_IMM` (R92): Writes a AND the sign-extended immediate. -/
  | andB32Imm (n : BitVec 1) (d : BitVec 7) (a : BitVec 7) (i : BitVec 7)
  /-- `SHL_B32_IMM` (R93): Shifts a left by the unsigned immediate amount. -/
  | shlB32Imm (n : BitVec 1) (d : BitVec 7) (a : BitVec 7) (i : BitVec 7)
  /-- `SHR_Z32_IMM` (R93): Shifts a right logically by the unsigned immediate amount. -/
  | shrZ32Imm (n : BitVec 1) (d : BitVec 7) (a : BitVec 7) (i : BitVec 7)
  /-- `ADD_B64` (R92): Writes the 64-bit sum of two register pairs. -/
  | addB64 (n : BitVec 1) (d : BitVec 7) (a : BitVec 7) (b : BitVec 7)
  /-- `SUB_B64` (R92): Writes the 64-bit difference of two register pairs. -/
  | subB64 (n : BitVec 1) (d : BitVec 7) (a : BitVec 7) (b : BitVec 7)
  /-- `MUL_B64` (R92): Writes the low 64 bits of the product of two pairs. -/
  | mulB64 (n : BitVec 1) (d : BitVec 7) (a : BitVec 7) (b : BitVec 7)
  /-- `SHL_B64` (R93): Shifts a 64-bit pair left by the unsigned amount in b. -/
  | shlB64 (n : BitVec 1) (d : BitVec 7) (a : BitVec 7) (b : BitVec 7)
  /-- `SHR_Z64` (R93): Shifts a 64-bit pair right logically. -/
  | shrZ64 (n : BitVec 1) (d : BitVec 7) (a : BitVec 7) (b : BitVec 7)
  /-- `SHR_S64` (R93): Shifts a 64-bit pair right arithmetically. -/
  | shrS64 (n : BitVec 1) (d : BitVec 7) (a : BitVec 7) (b : BitVec 7)
  /-- `BFX_Z32` (R94): Extracts a zero-extended bit field of a at the position and width in b. -/
  | bfxZ32 (n : BitVec 1) (d : BitVec 7) (a : BitVec 7) (b : BitVec 7)
  /-- `BFX_S32` (R94): Extracts a sign-extended bit field of a at the position and width in b. -/
  | bfxS32 (n : BitVec 1) (d : BitVec 7) (a : BitVec 7) (b : BitVec 7)
  /-- `BFI_B32` (R94): Inserts the low bits of a into the field of d named by b. -/
  | bfiB32 (n : BitVec 1) (d : BitVec 7) (a : BitVec 7) (b : BitVec 7)
  /-- `CMP_EQ_B32` (R96): Sets predicate p to whether the 32-bit operands are equal. -/
  | cmpEqB32 (n : BitVec 1) (p : BitVec 3) (a : BitVec 7) (b : BitVec 7)
  /-- `CMP_NE_B32` (R96): Sets predicate p to whether the 32-bit operands differ. -/
  | cmpNeB32 (n : BitVec 1) (p : BitVec 3) (a : BitVec 7) (b : BitVec 7)
  /-- `CMP_LT_S32` (R96): Sets predicate p to signed a < b. -/
  | cmpLtS32 (n : BitVec 1) (p : BitVec 3) (a : BitVec 7) (b : BitVec 7)
  /-- `CMP_LT_Z32` (R96): Sets predicate p to unsigned a < b. -/
  | cmpLtZ32 (n : BitVec 1) (p : BitVec 3) (a : BitVec 7) (b : BitVec 7)
  /-- `CMP_EQ_B64` (R96): Sets predicate p to whether the 64-bit operands are equal. -/
  | cmpEqB64 (n : BitVec 1) (p : BitVec 3) (a : BitVec 7) (b : BitVec 7)
  /-- `CMP_LT_S64` (R96): Sets predicate p to signed 64-bit a < b. -/
  | cmpLtS64 (n : BitVec 1) (p : BitVec 3) (a : BitVec 7) (b : BitVec 7)
  /-- `CMP_LT_Z64` (R96): Sets predicate p to unsigned 64-bit a < b. -/
  | cmpLtZ64 (n : BitVec 1) (p : BitVec 3) (a : BitVec 7) (b : BitVec 7)
  /-- `SADD_B64` (R98): Writes scalar sa + sb to sd once per issue. -/
  | saddB64 (d : BitVec 5) (a : BitVec 5) (b : BitVec 5)
  /-- `SADD_B64_IMM` (R98): Writes scalar sa plus the widened immediate to sd. -/
  | saddB64Imm (d : BitVec 5) (a : BitVec 5) (i : BitVec 11)
  /-- `SSUB_B64` (R98): Writes scalar sa − sb to sd. -/
  | ssubB64 (d : BitVec 5) (a : BitVec 5) (b : BitVec 5)
  /-- `SSUB_B64_IMM` (R98): Writes scalar sa minus the immediate to sd. -/
  | ssubB64Imm (d : BitVec 5) (a : BitVec 5) (i : BitVec 11)
  /-- `SMUL_B64` (R98): Writes the low 64 bits of sa × sb to sd. -/
  | smulB64 (d : BitVec 5) (a : BitVec 5) (b : BitVec 5)
  /-- `SMUL_B64_IMM` (R98): Writes the low 64 bits of sa times the immediate to sd. -/
  | smulB64Imm (d : BitVec 5) (a : BitVec 5) (i : BitVec 11)
  /-- `SAND_B64` (R98): Writes scalar sa AND sb to sd. -/
  | sandB64 (d : BitVec 5) (a : BitVec 5) (b : BitVec 5)
  /-- `SAND_B64_IMM` (R98): Writes scalar sa AND the immediate to sd. -/
  | sandB64Imm (d : BitVec 5) (a : BitVec 5) (i : BitVec 11)
  /-- `SOR_B64` (R98): Writes scalar sa OR sb to sd. -/
  | sorB64 (d : BitVec 5) (a : BitVec 5) (b : BitVec 5)
  /-- `SOR_B64_IMM` (R98): Writes scalar sa OR the immediate to sd. -/
  | sorB64Imm (d : BitVec 5) (a : BitVec 5) (i : BitVec 11)
  /-- `SXOR_B64` (R98): Writes scalar sa XOR sb to sd. -/
  | sxorB64 (d : BitVec 5) (a : BitVec 5) (b : BitVec 5)
  /-- `SXOR_B64_IMM` (R98): Writes scalar sa XOR the immediate to sd. -/
  | sxorB64Imm (d : BitVec 5) (a : BitVec 5) (i : BitVec 11)
  /-- `SSHL_B64` (R98): Shifts scalar sa left by sb. -/
  | sshlB64 (d : BitVec 5) (a : BitVec 5) (b : BitVec 5)
  /-- `SSHL_B64_IMM` (R98): Shifts scalar sa left by the immediate. -/
  | sshlB64Imm (d : BitVec 5) (a : BitVec 5) (i : BitVec 11)
  /-- `SSHR_Z64` (R98): Shifts scalar sa right logically by sb. -/
  | sshrZ64 (d : BitVec 5) (a : BitVec 5) (b : BitVec 5)
  /-- `SSHR_Z64_IMM` (R98): Shifts scalar sa right logically by the immediate. -/
  | sshrZ64Imm (d : BitVec 5) (a : BitVec 5) (i : BitVec 11)
  /-- `SMOV_B64` (R98): Copies scalar sa to sd. -/
  | smovB64 (d : BitVec 5) (a : BitVec 5)
  /-- `SMOV_B64_IMM` (R98): Writes the widened immediate to scalar sd. -/
  | smovB64Imm (d : BitVec 5) (i : BitVec 11)
  /-- `SCMP_EQ_B64` (R98): Writes 1 to sd when sa equals sb, else 0. -/
  | scmpEqB64 (d : BitVec 5) (a : BitVec 5) (b : BitVec 5)
  /-- `SCMP_EQ_B64_IMM` (R98): Writes 1 to sd when sa equals the immediate, else 0. -/
  | scmpEqB64Imm (d : BitVec 5) (a : BitVec 5) (i : BitVec 11)
  /-- `SCMP_LT_S64` (R98): Writes 1 to sd when sa < sb signed. -/
  | scmpLtS64 (d : BitVec 5) (a : BitVec 5) (b : BitVec 5)
  /-- `SCMP_LT_S64_IMM` (R98): Writes 1 to sd when sa is below the immediate, signed. -/
  | scmpLtS64Imm (d : BitVec 5) (a : BitVec 5) (i : BitVec 11)
  /-- `SCMP_LT_Z64` (R98): Writes 1 to sd when sa < sb unsigned. -/
  | scmpLtZ64 (d : BitVec 5) (a : BitVec 5) (b : BitVec 5)
  /-- `SCMP_LT_Z64_IMM` (R98): Writes 1 to sd when sa is below the immediate, unsigned. -/
  | scmpLtZ64Imm (d : BitVec 5) (a : BitVec 5) (i : BitVec 11)
  /-- `ADD_F32` (R100): Writes the correctly rounded FP32 sum. -/
  | addF32 (n : BitVec 1) (d : BitVec 7) (a : BitVec 7) (b : BitVec 7)
  /-- `SUB_F32` (R100): Writes the correctly rounded FP32 difference. -/
  | subF32 (n : BitVec 1) (d : BitVec 7) (a : BitVec 7) (b : BitVec 7)
  /-- `MUL_F32` (R100): Writes the correctly rounded FP32 product. -/
  | mulF32 (n : BitVec 1) (d : BitVec 7) (a : BitVec 7) (b : BitVec 7)
  /-- `FMA_F32` (R101): Writes a × b + d rounded once in FP32. -/
  | fmaF32 (n : BitVec 1) (d : BitVec 7) (a : BitVec 7) (b : BitVec 7)
  /-- `DIV_F32` (R100): Writes the correctly rounded FP32 quotient. -/
  | divF32 (n : BitVec 1) (d : BitVec 7) (a : BitVec 7) (b : BitVec 7)
  /-- `MIN_F32` (R100): Writes the smaller FP32 operand under Table 22. -/
  | minF32 (n : BitVec 1) (d : BitVec 7) (a : BitVec 7) (b : BitVec 7)
  /-- `MAX_F32` (R100): Writes the larger FP32 operand under Table 22. -/
  | maxF32 (n : BitVec 1) (d : BitVec 7) (a : BitVec 7) (b : BitVec 7)
  /-- `SQRT_F32` (R100): Writes the correctly rounded FP32 square root. -/
  | sqrtF32 (n : BitVec 1) (d : BitVec 7) (a : BitVec 7)
  /-- `RCP_F32` (R100): Writes the correctly rounded FP32 reciprocal. -/
  | rcpF32 (n : BitVec 1) (d : BitVec 7) (a : BitVec 7)
  /-- `RSQ_F32` (R100): Writes the correctly rounded FP32 reciprocal square root. -/
  | rsqF32 (n : BitVec 1) (d : BitVec 7) (a : BitVec 7)
  /-- `EXP2_F32` (R100): Writes 2^a correctly rounded in FP32. -/
  | exp2F32 (n : BitVec 1) (d : BitVec 7) (a : BitVec 7)
  /-- `LOG2_F32` (R100): Writes log2 a correctly rounded in FP32. -/
  | log2F32 (n : BitVec 1) (d : BitVec 7) (a : BitVec 7)
  /-- `SINPI_F32` (R102): Writes sin(πa) correctly rounded in FP32. -/
  | sinpiF32 (n : BitVec 1) (d : BitVec 7) (a : BitVec 7)
  /-- `COSPI_F32` (R102): Writes cos(πa) correctly rounded in FP32. -/
  | cospiF32 (n : BitVec 1) (d : BitVec 7) (a : BitVec 7)
  /-- `ADD_F64` (R100): Writes the correctly rounded FP64 sum. -/
  | addF64 (n : BitVec 1) (d : BitVec 7) (a : BitVec 7) (b : BitVec 7)
  /-- `SUB_F64` (R100): Writes the correctly rounded FP64 difference. -/
  | subF64 (n : BitVec 1) (d : BitVec 7) (a : BitVec 7) (b : BitVec 7)
  /-- `MUL_F64` (R100): Writes the correctly rounded FP64 product. -/
  | mulF64 (n : BitVec 1) (d : BitVec 7) (a : BitVec 7) (b : BitVec 7)
  /-- `FMA_F64` (R101): Writes a × b + d rounded once in FP64. -/
  | fmaF64 (n : BitVec 1) (d : BitVec 7) (a : BitVec 7) (b : BitVec 7)
  /-- `DIV_F64` (R100): Writes the correctly rounded FP64 quotient. -/
  | divF64 (n : BitVec 1) (d : BitVec 7) (a : BitVec 7) (b : BitVec 7)
  /-- `MIN_F64` (R100): Writes the smaller FP64 operand under Table 22. -/
  | minF64 (n : BitVec 1) (d : BitVec 7) (a : BitVec 7) (b : BitVec 7)
  /-- `MAX_F64` (R100): Writes the larger FP64 operand under Table 22. -/
  | maxF64 (n : BitVec 1) (d : BitVec 7) (a : BitVec 7) (b : BitVec 7)
  /-- `SQRT_F64` (R100): Writes the correctly rounded FP64 square root. -/
  | sqrtF64 (n : BitVec 1) (d : BitVec 7) (a : BitVec 7)
  /-- `ADD_F16` (R100): Adds two packed FP16 pairs element by element. -/
  | addF16 (n : BitVec 1) (d : BitVec 7) (a : BitVec 7) (b : BitVec 7)
  /-- `SUB_F16` (R100): Subtracts packed FP16 pairs element by element. -/
  | subF16 (n : BitVec 1) (d : BitVec 7) (a : BitVec 7) (b : BitVec 7)
  /-- `MUL_F16` (R100): Multiplies packed FP16 pairs element by element. -/
  | mulF16 (n : BitVec 1) (d : BitVec 7) (a : BitVec 7) (b : BitVec 7)
  /-- `FMA_F16` (R101): Fused multiply-add of packed FP16 pairs with d as addend. -/
  | fmaF16 (n : BitVec 1) (d : BitVec 7) (a : BitVec 7) (b : BitVec 7)
  /-- `DIV_F16` (R100): Divides packed FP16 pairs element by element. -/
  | divF16 (n : BitVec 1) (d : BitVec 7) (a : BitVec 7) (b : BitVec 7)
  /-- `ADD_BF16` (R100): Adds packed BF16 pairs element by element. -/
  | addBf16 (n : BitVec 1) (d : BitVec 7) (a : BitVec 7) (b : BitVec 7)
  /-- `SUB_BF16` (R100): Subtracts packed BF16 pairs element by element. -/
  | subBf16 (n : BitVec 1) (d : BitVec 7) (a : BitVec 7) (b : BitVec 7)
  /-- `MUL_BF16` (R100): Multiplies packed BF16 pairs element by element. -/
  | mulBf16 (n : BitVec 1) (d : BitVec 7) (a : BitVec 7) (b : BitVec 7)
  /-- `FMA_BF16` (R101): Fused multiply-add of packed BF16 pairs with d as addend. -/
  | fmaBf16 (n : BitVec 1) (d : BitVec 7) (a : BitVec 7) (b : BitVec 7)
  /-- `SQRT_F16` (R100): Square root of each packed FP16 element. -/
  | sqrtF16 (n : BitVec 1) (d : BitVec 7) (a : BitVec 7)
  /-- `RCP_F16` (R100): Reciprocal of each packed FP16 element. -/
  | rcpF16 (n : BitVec 1) (d : BitVec 7) (a : BitVec 7)
  /-- `RSQ_F16` (R100): Reciprocal square root of each packed FP16 element. -/
  | rsqF16 (n : BitVec 1) (d : BitVec 7) (a : BitVec 7)
  /-- `EXP2_F16` (R100): 2^x of each packed FP16 element. -/
  | exp2F16 (n : BitVec 1) (d : BitVec 7) (a : BitVec 7)
  /-- `LOG2_F16` (R100): log2 of each packed FP16 element. -/
  | log2F16 (n : BitVec 1) (d : BitVec 7) (a : BitVec 7)
  /-- `CMP_EQ_F32` (R97): Sets predicate p to FP32 a = b, false on NaN. -/
  | cmpEqF32 (n : BitVec 1) (p : BitVec 3) (a : BitVec 7) (b : BitVec 7)
  /-- `CMP_LT_F32` (R97): Sets predicate p to FP32 a < b, raising invalid on any NaN. -/
  | cmpLtF32 (n : BitVec 1) (p : BitVec 3) (a : BitVec 7) (b : BitVec 7)
  /-- `CMP_LE_F32` (R97): Sets predicate p to FP32 a ≤ b, raising invalid on any NaN. -/
  | cmpLeF32 (n : BitVec 1) (p : BitVec 3) (a : BitVec 7) (b : BitVec 7)
  /-- `CMP_EQ_F64` (R97): Sets predicate p to FP64 a = b. -/
  | cmpEqF64 (n : BitVec 1) (p : BitVec 3) (a : BitVec 7) (b : BitVec 7)
  /-- `CMP_LT_F64` (R97): Sets predicate p to FP64 a < b. -/
  | cmpLtF64 (n : BitVec 1) (p : BitVec 3) (a : BitVec 7) (b : BitVec 7)
  /-- `CMP_LE_F64` (R97): Sets predicate p to FP64 a ≤ b. -/
  | cmpLeF64 (n : BitVec 1) (p : BitVec 3) (a : BitVec 7) (b : BitVec 7)
  /-- `CVT_F64_F32` (R104): Widens FP32 to FP64 exactly. -/
  | cvtF64F32 (n : BitVec 1) (d : BitVec 7) (a : BitVec 7)
  /-- `CVT_F32_F64` (R104): Narrows FP64 to FP32 with rounding. -/
  | cvtF32F64 (n : BitVec 1) (d : BitVec 7) (a : BitVec 7)
  /-- `CVT_F32_F16` (R104): Widens FP16 element 0 to FP32. -/
  | cvtF32F16 (n : BitVec 1) (d : BitVec 7) (a : BitVec 7)
  /-- `CVT_F16_F32` (R104): Narrows FP32 to FP16 element 0 and zeroes the upper half. -/
  | cvtF16F32 (n : BitVec 1) (d : BitVec 7) (a : BitVec 7)
  /-- `CVT_F32_BF16` (R104): Widens BF16 element 0 to FP32. -/
  | cvtF32Bf16 (n : BitVec 1) (d : BitVec 7) (a : BitVec 7)
  /-- `CVT_BF16_F32` (R104): Narrows FP32 to BF16 element 0. -/
  | cvtBf16F32 (n : BitVec 1) (d : BitVec 7) (a : BitVec 7)
  /-- `CVT_S32_F32` (R105): Converts FP32 to a saturated signed 32-bit integer. -/
  | cvtS32F32 (n : BitVec 1) (d : BitVec 7) (a : BitVec 7)
  /-- `CVT_Z32_F32` (R105): Converts FP32 to a saturated unsigned 32-bit integer. -/
  | cvtZ32F32 (n : BitVec 1) (d : BitVec 7) (a : BitVec 7)
  /-- `CVT_F32_S32` (R104): Converts a signed 32-bit integer to FP32. -/
  | cvtF32S32 (n : BitVec 1) (d : BitVec 7) (a : BitVec 7)
  /-- `CVT_F32_Z32` (R104): Converts an unsigned 32-bit integer to FP32. -/
  | cvtF32Z32 (n : BitVec 1) (d : BitVec 7) (a : BitVec 7)
  /-- `CVT_S64_F64` (R105): Converts FP64 to a saturated signed 64-bit integer. -/
  | cvtS64F64 (n : BitVec 1) (d : BitVec 7) (a : BitVec 7)
  /-- `CVT_F64_S64` (R104): Converts a signed 64-bit integer to FP64. -/
  | cvtF64S64 (n : BitVec 1) (d : BitVec 7) (a : BitVec 7)
  /-- `RDC_ADD_F32` (R106): Sums a across Active with the pairwise lane tree and writes the result to every active lane. -/
  | rdcAddF32 (n : BitVec 1) (d : BitVec 7) (a : BitVec 7)
  /-- `RDC_ADD_F64` (R106): FP64 pairwise-tree lane reduction sum. -/
  | rdcAddF64 (n : BitVec 1) (d : BitVec 7) (a : BitVec 7)
  /-- `RDC_MIN_F32` (R106): FP32 minimum across active lanes. -/
  | rdcMinF32 (n : BitVec 1) (d : BitVec 7) (a : BitVec 7)
  /-- `RDC_MAX_F32` (R106): FP32 maximum across active lanes. -/
  | rdcMaxF32 (n : BitVec 1) (d : BitVec 7) (a : BitVec 7)
  /-- `RDC_ADD_S32` (R107): Exact signed sum across active lanes, clamped once to 32 bits. -/
  | rdcAddS32 (n : BitVec 1) (d : BitVec 7) (a : BitVec 7)
  /-- `RDC_ADD_Z64` (R106): Sum modulo 2^64 across active lanes. -/
  | rdcAddZ64 (n : BitVec 1) (d : BitVec 7) (a : BitVec 7)
  /-- `RNGX_B32` (R108): Writes the low 32 bits of the counter-based function of key a and counter b. -/
  | rngxB32 (n : BitVec 1) (d : BitVec 7) (a : BitVec 7) (b : BitVec 7)
  /-- `RNGX_B64` (R108): Writes the 64-bit counter-based random value of key a and counter b. -/
  | rngxB64 (n : BitVec 1) (d : BitVec 7) (a : BitVec 7) (b : BitVec 7)
  /-- `MMA` (R125): Checks and snapshots a parameter block and enters a matrix operation into the engine, owning its destination rows. -/
  | mma (a : BitVec 7)
  /-- `MREAD` (R128): Moves 8 entries of an accumulator row into 8 lane registers after the row is free. -/
  | mread (d : BitVec 7) (a : BitVec 7)
  /-- `MWRITE` (R128): Moves 8 lane registers into 8 entries of an accumulator row. -/
  | mwrite (a : BitVec 7) (b : BitVec 7)
  /-- `MZERO` (R129): Zeroes a range of accumulator rows and their status. -/
  | mzero (a : BitVec 7)
  /-- `MSTAT` (R130): Reads row status words and clears the W1C bits named by b. -/
  | mstat (d : BitVec 7) (a : BitVec 7) (b : BitVec 7)
  /-- `MWIN` (R131): Sets accumulator windows of target waves and writes per-lane status. -/
  | mwin (d : BitVec 7) (a : BitVec 7) (b : BitVec 7)
  /-- `CRSV` (R132): Creates a cassette reservation from a descriptor and returns its handle or a null reason. -/
  | crsv (d : BitVec 7) (a : BitVec 7)
  /-- `CREL` (R133): Ends a cassette reservation handle. -/
  | crel (d : BitVec 7) (a : BitVec 7)
  /-- `QUANT_AQ8` (R139): Quantises a group of FP16 values into an AQ8 group image. -/
  | quantAq8 (d : BitVec 7) (a : BitVec 7) (g : BitVec 7)
  /-- `QUANT_AQ4` (R139): Quantises a group of FP16 values into an AQ4 group image. -/
  | quantAq4 (d : BitVec 7) (a : BitVec 7) (g : BitVec 7)
  /-- `DQUANT_AQ8` (R140): Dequantises an AQ8 group image to FP16 values. -/
  | dquantAq8 (d : BitVec 7) (a : BitVec 7) (g : BitVec 7)
  /-- `DQUANT_AQ4` (R140): Dequantises an AQ4 group image to FP16 values. -/
  | dquantAq4 (d : BitVec 7) (a : BitVec 7) (g : BitVec 7)
  /-- `LD_Z8` (R173): Loads a byte from scratchpad through the wave's view, zero-extended. -/
  | ldZ8 (d : BitVec 7) (a : BitVec 7) (o : BitVec 7)
  /-- `LD_S8` (R173): Loads a byte from scratchpad, sign-extended. -/
  | ldS8 (d : BitVec 7) (a : BitVec 7) (o : BitVec 7)
  /-- `LD_Z16` (R173): Loads 2 bytes from scratchpad, zero-extended. -/
  | ldZ16 (d : BitVec 7) (a : BitVec 7) (o : BitVec 7)
  /-- `LD_S16` (R173): Loads 2 bytes from scratchpad, sign-extended. -/
  | ldS16 (d : BitVec 7) (a : BitVec 7) (o : BitVec 7)
  /-- `LD_B32` (R173): Loads 4 bytes from scratchpad. -/
  | ldB32 (d : BitVec 7) (a : BitVec 7) (o : BitVec 7)
  /-- `LD_B64` (R173): Loads 8 bytes from scratchpad into a register pair. -/
  | ldB64 (d : BitVec 7) (a : BitVec 7) (o : BitVec 7)
  /-- `ST_B8` (R175): Stores the low byte of d into the wave's pannier. -/
  | stB8 (d : BitVec 7) (a : BitVec 7) (o : BitVec 7)
  /-- `ST_B16` (R175): Stores 2 bytes into the wave's pannier. -/
  | stB16 (d : BitVec 7) (a : BitVec 7) (o : BitVec 7)
  /-- `ST_B32` (R175): Stores 4 bytes into the wave's pannier. -/
  | stB32 (d : BitVec 7) (a : BitVec 7) (o : BitVec 7)
  /-- `ST_B64` (R175): Stores 8 bytes of a register pair into the wave's pannier. -/
  | stB64 (d : BitVec 7) (a : BitVec 7) (o : BitVec 7)
  /-- `TAGQ` (R177): Looks up a key in the block's tag entries and returns its slot or 0xFFFF. -/
  | tagq (d : BitVec 7) (a : BitVec 7)
  /-- `TAGSET` (R177): Sets or creates a tag entry, returning a status. -/
  | tagset (d : BitVec 7) (a : BitVec 7) (b : BitVec 7)
  /-- `TAGCLR` (R177): Removes the tag entry of a key. -/
  | tagclr (d : BitVec 7) (a : BitVec 7)
  /-- `TAGINV` (R177): Removes every tag entry of the block and returns the count. -/
  | taginv (d : BitVec 7)
  /-- `COPY_IN` (R178): Checks and issues an inward copy of a box from a layout-described tensor into scratchpad or cassette. -/
  | copyIn (a : BitVec 7)
  /-- `COPY_OUT` (R178): Checks and issues an outward copy held pending until a device commit publishes it. -/
  | copyOut (a : BitVec 7)
  /-- `COPY_OUT_DIGEST` (R188): Issues an outward copy that also writes SHAKE256 digests of each 64 KiB chunk. -/
  | copyOutDigest (d : BitVec 7) (a : BitVec 7)
  /-- `HGET` (R186): Allocates the block's lowest free copy handle. -/
  | hget (d : BitVec 7)
  /-- `HFREE` (R186): Releases a copy handle that is free or full. -/
  | hfree (d : BitVec 7) (a : BitVec 7)
  /-- `HWAIT` (R186): Waits until each lane's handle reaches its named state and returns status. -/
  | hwait (d : BitVec 7) (a : BitVec 7)
  /-- `ATOM_ADD_Z32` (R191): Immediate 32-bit atomic add at the line's home, returning the old value. -/
  | atomAddZ32 (n : BitVec 1) (d : BitVec 7) (a : BitVec 7) (b : BitVec 7)
  /-- `ATOM_ADD_Z64` (R191): Immediate 64-bit atomic add. -/
  | atomAddZ64 (n : BitVec 1) (d : BitVec 7) (a : BitVec 7) (b : BitVec 7)
  /-- `ATOM_XCHG_B32` (R191): Immediate 32-bit atomic exchange. -/
  | atomXchgB32 (n : BitVec 1) (d : BitVec 7) (a : BitVec 7) (b : BitVec 7)
  /-- `ATOM_CAS_B32` (R191): Immediate 32-bit compare-and-swap with d as comparand. -/
  | atomCasB32 (n : BitVec 1) (d : BitVec 7) (a : BitVec 7) (b : BitVec 7)
  /-- `ATOM_CAS_B64` (R191): Immediate 64-bit compare-and-swap. -/
  | atomCasB64 (n : BitVec 1) (d : BitVec 7) (a : BitVec 7) (b : BitVec 7)
  /-- `RED_ADD_F32` (R192): Holds a deferred FP32 memory-side add in the pannier, applied after the publishing device commit. -/
  | redAddF32 (a : BitVec 7) (b : BitVec 7)
  /-- `RED_ADD_F64` (R192): Holds a deferred FP64 memory-side add in the pannier. -/
  | redAddF64 (a : BitVec 7) (b : BitVec 7)
  /-- `XADD_F32` (R192): Holds a deferred exact-cell addition in the pannier. -/
  | xaddF32 (a : BitVec 7) (b : BitVec 7)
  /-- `XSEAL` (R86): Reads an exact cell and returns its once-rounded FP32 value with status. -/
  | xseal (d : BitVec 7) (a : BitVec 7)
  /-- `XZERO` (R85): Sets every field of an exact cell to zero. -/
  | xzero (a : BitVec 7)
  /-- `BKMODE` (R193): Sends a mode change to a pseudo-channel's bank engines. -/
  | bkmode (a : BitVec 7) (b : BitVec 7)
  /-- `BKLD` (R194): Sends scratchpad bytes to the bank engines' x registers. -/
  | bkld (a : BitVec 7) (b : BitVec 7)
  /-- `BKMAC` (R195): Sends n multiply-accumulate steps to the target bank engines. -/
  | bkmac (a : BitVec 7) (b : BitVec 7)
  /-- `BKRD` (R196): Sends a read of bank accumulators into scratchpad. -/
  | bkrd (a : BitVec 7) (b : BitVec 7)
  /-- `BKZERO` (R197): Sends a zeroing of bank accumulators or page units. -/
  | bkzero (a : BitVec 7) (b : BitVec 7)
  /-- `BKWAIT` (R194): Waits until every bank operation the wave issued has been performed. -/
  | bkwait 
  /-- `CMT_B` (R150): Checked wave commit of the pannier to the block overlay, writing a conflict report. -/
  | cmtB (n : BitVec 1) (d : BitVec 7)
  /-- `CMT_T` (R150): Checked block commit to the team overlay, as a block barrier. -/
  | cmtT (n : BitVec 1) (d : BitVec 7)
  /-- `CMT_D` (R150): Checked team commit that gathers and publishes to base and global memory, as a team barrier. -/
  | cmtD (n : BitVec 1) (d : BitVec 7)
  /-- `CMT_B_LW` (R150): Last-writer-wins wave commit. -/
  | cmtBLw (n : BitVec 1) (d : BitVec 7)
  /-- `CMT_T_LW` (R150): Last-writer-wins block commit. -/
  | cmtTLw (n : BitVec 1) (d : BitVec 7)
  /-- `CMT_D_LW` (R150): Last-writer-wins device commit. -/
  | cmtDLw (n : BitVec 1) (d : BitVec 7)
  /-- `ABT_W` (R155): Discards the wave's pannier and redirects its lanes to the wave abort address. -/
  | abtW 
  /-- `ABT_B` (R155): Discards the block overlay and panniers and redirects the block's waves. -/
  | abtB 
  /-- `ABT_T` (R155): Discards every level of the team and redirects its waves. -/
  | abtT 
  /-- `FENCE` (R166): Orders the engine accesses of the active lanes for the named scope. -/
  | fence (s : BitVec 3)
  /-- `OPN_W` (R147): Records the wave level's abort address and lane depths, wave-convergent. -/
  | opnW (o : BitVec 20)
  /-- `OPN_B` (R147): Records the block level's abort address as a block barrier. -/
  | opnB (o : BitVec 20)
  /-- `OPN_T` (R147): Records the team level's abort address as a team barrier. -/
  | opnT (o : BitVec 20)
  /-- `CLN` (R200): Writes back dirty published lines of a range at the chosen level. -/
  | cln (a : BitVec 7) (b : BitVec 7)
  /-- `INV` (R200): Invalidates clean lines of a range at the chosen level and above. -/
  | inv (a : BitVec 7) (b : BitVec 7)
  /-- `CINV` (R200): Cleans then invalidates lines of a range. -/
  | cinv (a : BitVec 7) (b : BitVec 7)
  /-- `BR_GUARDED` (R224): Branches the active lanes whose guard predicate holds. -/
  | brGuarded (g : BitVec 3) (e : BitVec 1) (o : BitVec 20)
  /-- `BRY_GUARDED` (R224): Guarded yielding backward branch that makes taken lanes yielded. -/
  | bryGuarded (g : BitVec 3) (e : BitVec 1) (o : BitVec 20)
  /-- `CALL_GUARDED` (R224): Guarded direct call that pushes the return address. -/
  | callGuarded (g : BitVec 3) (e : BitVec 1) (o : BitVec 20)
  /-- `BR` (R224): Unconditional branch of every active lane. -/
  | br (o : BitVec 20)
  /-- `BRY` (R224): Unconditional yielding backward branch. -/
  | bry (o : BitVec 20)
  /-- `CALL` (R224): Unconditional direct call. -/
  | call (o : BitVec 20)
  /-- `CALLR` (R225): Pushes the return address and jumps each lane to its own code address. -/
  | callr (a : BitVec 7)
  /-- `RET` (R225): Pops the top return entry into each active lane's PC. -/
  | ret 
  /-- `JMPR` (R225): Sets each lane's PC to its code address. -/
  | jmpr (a : BitVec 7)
  /-- `EXIT` (R226): Ends the active lanes and, when none remain, ends the wave with its implicit commits. -/
  | exit 
  /-- `TRAP` (R227): Completes and then parks the wave with cause TRAP. -/
  | trap (a : BitVec 7)
  /-- `BSYNC` (R229): Block barrier that orders issue across the block's members. -/
  | bsync 
  /-- `YIELD` (R228): Makes the active lanes yielded and moves them on. -/
  | yield 
  /-- `NOP` (R228): Moves the lanes to the next group. -/
  | nop 
  /-- `LANY` (R230): Writes whether any active lane has predicate q set. -/
  | lany (p : BitVec 3) (q : BitVec 3)
  /-- `LALL` (R230): Writes whether every active lane has predicate q set. -/
  | lall (p : BitVec 3) (q : BitVec 3)
  /-- `LBITS` (R230): Writes the ballot mask of predicate q over active lanes. -/
  | lbits (d : BitVec 7) (q : BitVec 3)
  /-- `XL_IDX` (R231): Reads a from lane n mod L into d. -/
  | xlIdx (d : BitVec 7) (a : BitVec 7) (b : BitVec 7)
  /-- `XL_LO` (R231): Reads a from lane i − n into d. -/
  | xlLo (d : BitVec 7) (a : BitVec 7) (b : BitVec 7)
  /-- `XL_HI` (R231): Reads a from lane i + n into d. -/
  | xlHi (d : BitVec 7) (a : BitVec 7) (b : BitVec 7)
  /-- `XL_XOR` (R231): Reads a from lane i XOR n into d. -/
  | xlXor (d : BitVec 7) (a : BitVec 7) (b : BitVec 7)
  /-- `SGET` (R232): Copies the elected lane's 64-bit value into a scalar register. -/
  | sget (s : BitVec 5) (a : BitVec 7)
  /-- `XL_ROT` (R231): Reads a from lane (i + n) mod L into d. -/
  | xlRot (d : BitVec 7) (a : BitVec 7) (b : BitVec 7)
  /-- `SPAWN` (R233): Places one new thread per active lane in the block's rack keyed by the entry address. -/
  | spawn (d : BitVec 7) (a : BitVec 7) (b : BitVec 7)
  /-- `REGROUP` (R213): Commits, drains and re-places every live lane into racks keyed by continuation addresses. -/
  | regroup (a : BitVec 7) (b : BitVec 7)
  /-- `RACKTM` (R235): Sets the block's rack timer for racks created afterwards. -/
  | racktm (a : BitVec 7)
  /-- `WAITC` (R236): Puts each active lane to sleep on a monitored memory line. -/
  | waitc (d : BitVec 7) (a : BitVec 7) (b : BitVec 7)
  /-- `SPR` (R238): Writes a special register value to a lane register. -/
  | spr (x : BitVec 7) (c : BitVec 14)
  /-- `SRD` (R238): Reads a wave or supervisor register into a scalar register. -/
  | srd (x : BitVec 5) (c : BitVec 14)
  /-- `SWR` (R238): Writes a scalar register to a wave register. -/
  | swr (x : BitVec 5) (c : BitVec 14)
  /-- `KSCLAIM` (R299): Claims a parked record by queue or by handle. -/
  | ksclaim (d : BitVec 7) (a : BitVec 7)
  /-- `KSRD` (R300): Reads 8 bytes of a held record at a record offset. -/
  | ksrd (d : BitVec 7) (a : BitVec 7)
  /-- `KSWR` (R300): Writes 8 bytes into a held record at a record offset. -/
  | kswr (a : BitVec 7) (b : BitVec 7)
  /-- `KSRES` (R301): Resume disposition of a claimed record. -/
  | ksres (d : BitVec 7) (a : BitVec 7)
  /-- `KSRTY` (R301): Retry disposition of a claimed record. -/
  | ksrty (d : BitVec 7) (a : BitVec 7)
  /-- `KSDIR` (R301): Redirect disposition of a claimed record to a code address. -/
  | ksdir (d : BitVec 7) (a : BitVec 7) (b : BitVec 7)
  /-- `KSKILL` (R301): Kill disposition of a claimed record. -/
  | kskill (d : BitVec 7) (a : BitVec 7)
  /-- `QPOST` (R302): Releases a claim and posts a new fault task to a queue with a priority. -/
  | qpost (d : BitVec 7) (a : BitVec 7) (b : BitVec 7)
  /-- `QCLK` (R302): Returns the queue clock of a run queue. -/
  | qclk (d : BitVec 7) (a : BitVec 7)
  /-- `SIGRD` (R332): Reads a twin signature or the comparison status. -/
  | sigrd (d : BitVec 7) (a : BitVec 7)
  /-- `SIGCLR` (R332): Clears the team's signature comparison counts. -/
  | sigclr 
  /-- `CHKV` (R332): Computes the CRC-16 check value of 64 scratchpad bytes. -/
  | chkv (d : BitVec 7) (a : BitVec 7)
  /-- `SCRUB` (R286): Zeroes owned pages now and sets their cleared bits. -/
  | scrub (d : BitVec 7) (a : BitVec 7) (b : BitVec 7)
  /-- `ASIDLD` (R286): Binds or unbinds an ASID to a stage-1 root, with an implied invalidation. -/
  | asidld (d : BitVec 7) (a : BitVec 7) (b : BitVec 7)
  /-- `PGRET` (R286): Retires a page permanently. -/
  | pgret (d : BitVec 7) (a : BitVec 7)
  /-- `WAYQ` (R286): Quarantines a cache way. -/
  | wayq (d : BitVec 7) (a : BitVec 7) (b : BitVec 7)
  /-- `TLBINV` (R286): Invalidates cached translations of an ASID or stage 2 on every core and stack. -/
  | tlbinv (d : BitVec 7) (a : BitVec 7) (b : BitVec 7)
  /-- `KSPOOL` (R286): Sets the partition's pinned kickstand pool. -/
  | kspool (d : BitVec 7) (a : BitVec 7)
  /-- `WIDE_IMMEDIATE` (R36): Hint word that supplies 24 more immediate bits to the bound instruction. -/
  | wideImmediate (p : BitVec 24)
  /-- `MODIFIER_HINT` (R37): Hint word that supplies rounding, saturation, guard, reuse and scalar modifiers to the bound instruction. -/
  | modifierHint (r : BitVec 3) (t : BitVec 1) (g : BitVec 1) (p : BitVec 3) (e : BitVec 1) (u : BitVec 1) (c : BitVec 1) (s : BitVec 5)
  /-- `SCHEDULING_HINT` (R38): Hint word that opens a hold over the next n instructions of the wave. -/
  | schedulingHint (n : BitVec 4)
  /-- `RACK_TIMER_EXPIRY` (R212): A rack launches when T clocks of block residence have passed since its creation. -/
  | rackTimerExpiry (wid : Nat)
  /-- `MMA_START` (R125): The engine starts an issued matrix operation once its rows are free and no copy writes its cassette bytes, reading its A operand. -/
  | mmaStart (op : Nat)
  /-- `MMA_COMPLETE` (R126): A matrix operation finishes its chunks, writes its rows and row status, and ORs its flags into the wave's fpflags. -/
  | mmaComplete (op : Nat)
  /-- `COPY_SEGMENT_RUN` (R183): A copy segment runs when one of the core's 64 places is free, translating, moving its elements and completing or parking. -/
  | copySegmentRun (copy seg : Nat)
  /-- `DEVICE_COMMIT_PUBLISH` (R152): A gathered device commit publishes its write set at one instant once copies own their lines and any twin comparison matches. -/
  | deviceCommitPublish (team : Nat)
  /-- `DEFERRED_REDUCTION_APPLY` (R192): A published deferred reduction is applied at its line's home in the team's issue order. -/
  | deferredReductionApply (team : Nat)
  /-- `REMOTE_OP_PERFORM` (R191): An immediate atomic or cell operation is performed at its line's home on arrival and its reply returned. -/
  | remoteOpPerform (op : Nat)
  /-- `BANK_OP_PERFORM` (R194): A bank operation is performed at the base die in the mode then in force, or set aside if a mode check fails. -/
  | bankOpPerform (op : Nat)
  /-- `MONITOR_ARM` (R236): At the line's home a monitor is taken and the word read in one step, waking the lane at once on mismatch or lack of monitor. -/
  | monitorArm (wid lane : Nat)
  /-- `MONITOR_WAKE` (R236): A write to a monitored line wakes the sleeping lane with the word read afresh. -/
  | monitorWake (wid lane : Nat)
  /-- `TICKET_READ` (R242): A read of TICKET atomically takes a ring sequence number or reports full or disabled. -/
  | ticketRead (vf ring : Nat)
  /-- `PUBLISH_WRITE` (R242): A write to PUBLISH marks a taken ticket published or sets the bad-publish status. -/
  | publishWrite (vf ring : Nat) (value : W64)
  /-- `NOTIFY_WRITE` (R240): A write to NOTIFY asks firmware to re-read the ring configuration, or is dropped and counted during reset. -/
  | notifyWrite (vf : Nat) (ring : RingWord)
  /-- `CONFIGURATION_REREAD` (R240): Firmware observes a NOTIFY write and applies the ring configuration registers, flagging malformed ones. -/
  | configurationReread (vf ring : Nat)
  /-- `CHEAD_WRITE` (R243): A write to CHEAD frees completion entries at once for the command-start check. -/
  | cheadWrite (vf ring : Nat) (value : W64)
  /-- `REGISTER_WRITE` (R5): A write to a register that has no behaviour of its own stores the field values under their access codes. -/
  | registerWrite (reg : HostReg) (value : W64)
  /-- `SLOT_CONSUME` (R242): The virtual command processor consumes the contiguous published prefix of a ring in ticket order. -/
  | slotConsume (vf ring : Nat)
  /-- `NOP_COMMAND` (R243): Command kind 0x00 starts when a completion entry is free and completes without running anything. -/
  | nopCommand (vf ring seq : Nat)
  /-- `LAUNCH` (R245): Command kind 0x01 fetches the launch record, runs any prologue and launches the record's teams. -/
  | launch (vf ring seq : Nat)
  /-- `BARRIER` (R243): Command kind 0x02 starts once every earlier command of its ring has completed and completes at once. -/
  | barrier (vf ring seq : Nat)
  /-- `PROLOGUE_END` (R246): The prologue exits or faults, and s31 decides launch, cancel or launch-and-repeat. -/
  | prologueEnd (launch : Nat)
  /-- `PROLOGUE_REPEAT` (R246): When a repeating launch's teams have all ended, the prologue runs again with freshly staged ranges. -/
  | prologueRepeat (launch : Nat)
  /-- `TASK_DISPATCH` (R256): When capacity frees or a task is enqueued, the dispatcher places waiting tasks by priority, queue, order and affinity. -/
  | taskDispatch (part : Nat)
  /-- `TEAM_START` (R252): Once staging ends, the team's waves start with their launch state. -/
  | teamStart (team : Nat)
  /-- `AFFINITY_WAIT_EXPIRY` (R256): A task with affinity that has waited 4,096 queue clocks is placed on any fitting pair. -/
  | affinityWaitExpiry (task : Nat)
  /-- `STARVATION_BLOCK` (R256): A task unplaced for 65,536 queue clocks stops later tasks of equal or lower priority from being placed. -/
  | starvationBlock (task : Nat)
  /-- `COMMAND_COMPLETE` (R244): When a command's teams have ended and dirty lines are written back, the completion record is written, CTAIL advanced and MSI-X signalled. -/
  | commandComplete (vf ring seq : Nat)
  /-- `BUDGET_EXPIRY` (R255): A team task that has used its budget is pre-empted to the tail of its queue with a renewed budget. -/
  | budgetExpiry (team : Nat)
  /-- `LAUNCH_DEADLINE_EXPIRY` (R255): A launch's deadline passes and every unfinished team is killed, completing the command with status 0x06. -/
  | launchDeadlineExpiry (launch : Nat)
  /-- `EVICTION_ORDER` (R257): The scheduler orders a team evicted; requests are taken at group boundaries and the team is drained. -/
  | evictionOrder (team : EvictUnit) (saveArea : Nat)
  /-- `IMAGE_WRITE` (R258): After the drain the core's image sections are written to the save area. -/
  | imageWrite (team : Nat)
  /-- `JOB_MEMORY_MOVE` (R259): The monitors copy a moving job's exact cells and bank contexts to the destination part. -/
  | jobMemoryMove (item : MoveItem)
  /-- `RECORD_MOVE` (R311): Once no record is claimed or resuming and the destination pool has room, parked records are copied and reposted on the new part. -/
  | recordMove (team part : Nat)
  /-- `PARTITION_FREE` (R266): Writing 0x7F to the owner field kills the owner's tasks, discards the key, clears pages and scrubs the partition. -/
  | partitionFree (part : Nat)
  /-- `PARTITION_ASSIGN` (R266): Writing a function to a free partition's owner field generates a key, scrubs and clears busy. -/
  | partitionAssign (part vf : Nat)
  /-- `QEN_WRITE` (R254): A write to QEN enables or disables run queues of a partition at one instant. -/
  | qenWrite (part : Nat) (value : W64)
  /-- `VF_ENABLE` (R268): Writing 1 to VFCTL.en enables the virtual function and zeroes NDROP. -/
  | vfEnable (vf : Nat)
  /-- `VF_DISABLE` (R268): Writing 0 to VFCTL.en runs the reset steps and leaves the function disabled. -/
  | vfDisable (vf : Nat)
  /-- `HPOL_WRITE` (R269): A write to HPOL changes scope, grade and link policy at one instant for later checks and walks. -/
  | hpolWrite (vf : Nat) (value : W64)
  /-- `FUNCTION_LEVEL_RESET` (R279): A function-level reset kills the function's tasks, unbinds ASIDs, scrubs its partitions and resets its rings. -/
  | functionLevelReset (vf : Nat)
  /-- `HOST_MEM_READ` (R168): A host reads device memory through CXL.mem, receiving data or CXL poison. -/
  | hostMemRead (vf dpa len : Nat)
  /-- `HOST_MEM_WRITE` (R313): A host writes device memory through CXL.mem, generating the line's check value. -/
  | hostMemWrite (vf dpa : Nat) (data : List Byte)
  /-- `BACKGROUND_SCRUB` (R275): A background scrub overwrites the old ciphertext of cleared pages with zeros. -/
  | backgroundScrub (page : Nat)
  /-- `CELL_BLOCK_GRANT` (R277): On a hypervisor monitor call the monitor carves a zeroed cell block for an exact-reduction page or refuses. -/
  | cellBlockGrant (vf page : Nat)
  /-- `SPOKE_FLIT_RECEIVE` (R270): A flit arriving on a spoke link is authenticated and accepted for an admitted group or dropped. -/
  | spokeFlitReceive (link group : Nat) (authentic : Bool) (msg : SpokeMsg)
  /-- `REMOTE_POST_ARRIVAL` (R310): A kind 3 fault task arrives at the peer queue and starts its peer deadline, or is undeliverable. -/
  | remotePostArrival (post : RemotePost)
  /-- `ASSIST_ANSWER` (R283): The host's answer to an assist-ring request arrives and the waiting service continues as it dictates. -/
  | assistAnswer (part : Nat) (answer : AssistAnswer)
  /-- `FIRMWARE_DOWNLOAD` (R282): The boot ROM verifies a downloaded firmware image and starts it or reports failure. -/
  | firmwareDownload (image : List Byte)
  /-- `POWER_UP` (R383): The 48 V input comes within limits and the power-up sequence runs. -/
  | powerUp 
  /-- `PERST_ASSERT` (R383): PERST on a port during power-up ends its link, returning to link training when both are down. -/
  | perstAssert (port : Nat)
  /-- `THERMTRIP` (R382): A junction at 110 °C removes power from every die and signals THERMTRIP. -/
  | thermtrip 
  /-- `PWRFAIL` (R382): Input below 38 V for 1 ms removes power from every die and signals PWRFAIL. -/
  | pwrfail 
  /-- `THERMAL_THROTTLE` (R381): At 95 °C junction or excess input power the arithmetic clock is lowered by 0.1 GHz steps. -/
  | thermalThrottle 
  /-- `THERMAL_RECOVER` (R381): Below 90 °C the arithmetic clock is raised again in 0.1 GHz steps. -/
  | thermalRecover 
  /-- `RECORD_GRANT` (R308): A unit waiting in place receives a record when one of its classes becomes free. -/
  | recordGrant (part : Nat)
  /-- `POOL_WAIT_DEADLINE` (R308): A unit waiting for a record ends as a kill when its would-be deadline expires. -/
  | poolWaitDeadline (unit : Nat)
  /-- `FAULT_DEADLINE_EXPIRY` (R309): A fault task's deadline is reached, the holder is killed, the record KILLED and the expiry action run. -/
  | faultDeadlineExpiry (record : Nat)
  /-- `WAVE_REBUILD` (R294): A RESUMING wave receives register space and runs again, freeing its record. -/
  | waveRebuild (record : Nat)
  /-- `LINK_TIMEOUT` (R324): A spoke-link request with no reply after 12,000 clocks detaches its requester with LINK_TIMEOUT. -/
  | linkTimeout (request : Nat)
  /-- `PATROL_READ` (R315): A patrol read finds errors no access consumed, repairing correctable ones and poisoning uncorrectable words. -/
  | patrolRead (loc : StoreLoc)
  /-- `SPARE_FILL` (R323): A failing HBM4 page is copied to a spare, one fill per stack at a time, and then served by it. -/
  | spareFill (page : Nat)
  /-- `KSDATA_READ` (R304): A domestique read of KSDATA performs a record read at KSH and KSOFF. -/
  | ksdataRead (core : Nat) (ksh : W32) (ksoff : BitVec 17)
  /-- `KSDATA_WRITE` (R304): A domestique write of KSDATA performs a record write at KSH and KSOFF. -/
  | ksdataWrite (core : Nat) (ksh : W32) (ksoff : BitVec 17) (value : W64)
  /-- `KSCMD_CLAIM` (R304): A KSCMD write with code 0 claims a record by queue or by KSH. -/
  | kscmdClaim (core : Nat) (ksh : W32) (value : W64)
  /-- `KSCMD_RESUME` (R304): A KSCMD write with code 1 resumes the record named by KSH. -/
  | kscmdResume (core : Nat) (ksh : W32) (value : W64)
  /-- `KSCMD_RETRY` (R304): A KSCMD write with code 2 retries the record named by KSH. -/
  | kscmdRetry (core : Nat) (ksh : W32) (value : W64)
  /-- `KSCMD_REDIRECT` (R304): A KSCMD write with code 3 redirects the record to KSADDR. -/
  | kscmdRedirect (core : Nat) (ksh : W32) (ksaddr : W57) (value : W64)
  /-- `KSCMD_KILL` (R304): A KSCMD write with code 4 kills the record named by KSH. -/
  | kscmdKill (core : Nat) (ksh : W32) (value : W64)
  /-- `KSCMD_POST` (R304): A KSCMD write with code 5 posts the record to a queue with a priority. -/
  | kscmdPost (core : Nat) (ksh : W32) (value : W64)
  /-- `UNASSIGNED_SLOT` (R42): A bound group whose word lies in an unassigned slot of the opcode map, or breaks a fixed field, is selected for issue and detaches its wave with ILLEGAL. -/
  | unassignedSlot (word : IWord)
  /-- `INSTRUCTION_FETCH` (R223): When a group is selected, its words are fetched and translated, and a missing page, missing execute permission, uncorrectable error or check-value mismatch detaches the wave before the group. -/
  | instructionFetch 
  /-- `SOFT_ERROR` (R315): A soft error flips bits in a storage array or line, leaving a correctable or uncorrectable error for a later access or patrol to find. -/
  | softError (loc : StoreLoc) (sort : ErrorSort)
  /-- `PAGE_OWNERSHIP_CHANGE` (R274): The monitor makes a 64 KiB device physical page owned by a partition, or free again. -/
  | pageOwnershipChange (page : Nat) (owner : Option Nat)
  /-- `LOGICAL_DEVICE_BIND` (R264): The fabric manager binds a logical device to one host through the FM API. -/
  | logicalDeviceBind (ld host : Nat)
  /-- `DOMESTIQUE_HANDLER_END` (R304): A domestique handler task ends, by returning, by an RV64 exception, by passing its stack area or by exhausting its budget, and any record it holds returns to PARKED and is posted again. -/
  | domestiqueHandlerEnd (core : Nat)
  /-- `PERST_RELEASE` (R383): PERST is released on a port whose link was ended, so that the port can train its link again. -/
  | perstRelease (port : Nat)
  deriving DecidableEq, Repr

end Sys2Proof
end

