-- ==== Sys2Proof/WellFormed.lean ====
section
/-! DEFINITION. Which instructions are well-formed as syntax: the operand fields hold values that Table 9 and R28, R29, R41, R123, R138 and
R173 allow for some rounded register count (the count a wave has is checked when it issues, R39), codes and selectors are listed ones,
and the arguments of an event name a function, ring, partition, core, port or lane the part has (Table 1). -/

namespace Sys2Proof

/-- A 32-bit destination (Table 9): a register, a latch or 0x7C. -/
def dst32 (f : BitVec 7) : Bool := decide (f.toNat ≤ 0x7C)
/-- A 64-bit destination (R28): an even register or 0x7C. -/
def dst64 (f : BitVec 7) : Bool := (decide (f.toNat < 0x78) && f.toNat % 2 == 0) || f == 0x7C
/-- A 64-bit source (R28): an even register, 0x7C, 0x7E or 0x7F. -/
def src64 (f : BitVec 7) : Bool := dst64 f || f == 0x7E || f == 0x7F
/-- The data of a store (R173): a destination's values, or 0x7F. -/
def store32 (f : BitVec 7) : Bool := dst32 f || f == 0x7F
def store64 (f : BitVec 7) : Bool := dst64 f || f == 0x7F
/-- A run of k registers (R123). -/
def regRun (f : BitVec 7) (k : Nat) : Bool := decide (f.toNat + k ≤ 120)
/-- The group lengths a code of the quantising instructions names (R138). -/
def quantCode (g : BitVec 7) : Bool := g == 0x20 || g == 0x40
def groupLen (g : BitVec 7) : Nat := if g = 0x20 then 32 else 64
/-- The registers that `srd` reads (R41, R238). -/
def readableReg (c : BitVec 14) : Bool := [0x10, 0x11, 0x20, 0x21, 0x22, 0x30, 0x1000, 0x1001, 0x1002, 0x1003].contains c.toNat

/-- An instruction is well-formed. -/
def Instr.wf : Instr → Bool
  | .addB32 _ d _ _ => dst32 d
  | .subB32 _ d _ _ => dst32 d
  | .addsS32 _ d _ _ => dst32 d
  | .subsS32 _ d _ _ => dst32 d
  | .minS32 _ d _ _ => dst32 d
  | .minZ32 _ d _ _ => dst32 d
  | .maxS32 _ d _ _ => dst32 d
  | .maxZ32 _ d _ _ => dst32 d
  | .mulB32 _ d _ _ => dst32 d
  | .mulhiS32 _ d _ _ => dst32 d
  | .mulhiZ32 _ d _ _ => dst32 d
  | .divS32 _ d _ _ => dst32 d
  | .divZ32 _ d _ _ => dst32 d
  | .remS32 _ d _ _ => dst32 d
  | .remZ32 _ d _ _ => dst32 d
  | .andB32 _ d _ _ => dst32 d
  | .orB32 _ d _ _ => dst32 d
  | .xorB32 _ d _ _ => dst32 d
  | .shlB32 _ d _ _ => dst32 d
  | .shrZ32 _ d _ _ => dst32 d
  | .shrS32 _ d _ _ => dst32 d
  | .popcB32 _ d _ => dst32 d
  | .clzB32 _ d _ => dst32 d
  | .addB32Imm _ d _ _ => dst32 d
  | .andB32Imm _ d _ _ => dst32 d
  | .shlB32Imm _ d _ _ => dst32 d
  | .shrZ32Imm _ d _ _ => dst32 d
  | .addB64 _ d a b => dst64 d && src64 a && src64 b
  | .subB64 _ d a b => dst64 d && src64 a && src64 b
  | .mulB64 _ d a b => dst64 d && src64 a && src64 b
  | .shlB64 _ d a b => dst64 d && src64 a && src64 b
  | .shrZ64 _ d a b => dst64 d && src64 a && src64 b
  | .shrS64 _ d a b => dst64 d && src64 a && src64 b
  | .bfxZ32 _ d _ _ => dst32 d
  | .bfxS32 _ d _ _ => dst32 d
  | .bfiB32 _ d _ _ => dst32 d
  | .cmpEqB32 _ _ _ _ => true
  | .cmpNeB32 _ _ _ _ => true
  | .cmpLtS32 _ _ _ _ => true
  | .cmpLtZ32 _ _ _ _ => true
  | .cmpEqB64 _ _ a b => src64 a && src64 b
  | .cmpLtS64 _ _ a b => src64 a && src64 b
  | .cmpLtZ64 _ _ a b => src64 a && src64 b
  | .saddB64 _ _ _ => true
  | .saddB64Imm _ _ _ => true
  | .ssubB64 _ _ _ => true
  | .ssubB64Imm _ _ _ => true
  | .smulB64 _ _ _ => true
  | .smulB64Imm _ _ _ => true
  | .sandB64 _ _ _ => true
  | .sandB64Imm _ _ _ => true
  | .sorB64 _ _ _ => true
  | .sorB64Imm _ _ _ => true
  | .sxorB64 _ _ _ => true
  | .sxorB64Imm _ _ _ => true
  | .sshlB64 _ _ _ => true
  | .sshlB64Imm _ _ _ => true
  | .sshrZ64 _ _ _ => true
  | .sshrZ64Imm _ _ _ => true
  | .smovB64 _ _ => true
  | .smovB64Imm _ _ => true
  | .scmpEqB64 _ _ _ => true
  | .scmpEqB64Imm _ _ _ => true
  | .scmpLtS64 _ _ _ => true
  | .scmpLtS64Imm _ _ _ => true
  | .scmpLtZ64 _ _ _ => true
  | .scmpLtZ64Imm _ _ _ => true
  | .addF32 _ d _ _ => dst32 d
  | .subF32 _ d _ _ => dst32 d
  | .mulF32 _ d _ _ => dst32 d
  | .fmaF32 _ d _ _ => dst32 d
  | .divF32 _ d _ _ => dst32 d
  | .minF32 _ d _ _ => dst32 d
  | .maxF32 _ d _ _ => dst32 d
  | .sqrtF32 _ d _ => dst32 d
  | .rcpF32 _ d _ => dst32 d
  | .rsqF32 _ d _ => dst32 d
  | .exp2F32 _ d _ => dst32 d
  | .log2F32 _ d _ => dst32 d
  | .sinpiF32 _ d _ => dst32 d
  | .cospiF32 _ d _ => dst32 d
  | .addF64 _ d a b => dst64 d && src64 a && src64 b
  | .subF64 _ d a b => dst64 d && src64 a && src64 b
  | .mulF64 _ d a b => dst64 d && src64 a && src64 b
  | .fmaF64 _ d a b => dst64 d && src64 a && src64 b
  | .divF64 _ d a b => dst64 d && src64 a && src64 b
  | .minF64 _ d a b => dst64 d && src64 a && src64 b
  | .maxF64 _ d a b => dst64 d && src64 a && src64 b
  | .sqrtF64 _ d a => dst64 d && src64 a
  | .addF16 _ d _ _ => dst32 d
  | .subF16 _ d _ _ => dst32 d
  | .mulF16 _ d _ _ => dst32 d
  | .fmaF16 _ d _ _ => dst32 d
  | .divF16 _ d _ _ => dst32 d
  | .addBf16 _ d _ _ => dst32 d
  | .subBf16 _ d _ _ => dst32 d
  | .mulBf16 _ d _ _ => dst32 d
  | .fmaBf16 _ d _ _ => dst32 d
  | .sqrtF16 _ d _ => dst32 d
  | .rcpF16 _ d _ => dst32 d
  | .rsqF16 _ d _ => dst32 d
  | .exp2F16 _ d _ => dst32 d
  | .log2F16 _ d _ => dst32 d
  | .cmpEqF32 _ _ _ _ => true
  | .cmpLtF32 _ _ _ _ => true
  | .cmpLeF32 _ _ _ _ => true
  | .cmpEqF64 _ _ a b => src64 a && src64 b
  | .cmpLtF64 _ _ a b => src64 a && src64 b
  | .cmpLeF64 _ _ a b => src64 a && src64 b
  | .cvtF64F32 _ d _ => dst64 d
  | .cvtF32F64 _ d a => dst32 d && src64 a
  | .cvtF32F16 _ d _ => dst32 d
  | .cvtF16F32 _ d _ => dst32 d
  | .cvtF32Bf16 _ d _ => dst32 d
  | .cvtBf16F32 _ d _ => dst32 d
  | .cvtS32F32 _ d _ => dst32 d
  | .cvtZ32F32 _ d _ => dst32 d
  | .cvtF32S32 _ d _ => dst32 d
  | .cvtF32Z32 _ d _ => dst32 d
  | .cvtS64F64 _ d a => dst64 d && src64 a
  | .cvtF64S64 _ d a => dst64 d && src64 a
  | .rdcAddF32 _ d _ => dst32 d
  | .rdcAddF64 _ d a => dst64 d && src64 a
  | .rdcMinF32 _ d _ => dst32 d
  | .rdcMaxF32 _ d _ => dst32 d
  | .rdcAddS32 _ d _ => dst32 d
  | .rdcAddZ64 _ d a => dst64 d && src64 a
  | .rngxB32 _ d a b => dst32 d && src64 a && src64 b
  | .rngxB64 _ d a b => dst64 d && src64 a && src64 b
  | .mma _ => true
  | .mread d _ => regRun d 8
  | .mwrite _ b => regRun b 8
  | .mzero _ => true
  | .mstat d _ _ => dst32 d
  | .mwin d _ _ => dst32 d
  | .crsv d _ => dst32 d
  | .crel d _ => dst32 d
  | .quantAq8 d a g => regRun d (1 + groupLen g / 4) && regRun a (groupLen g / 2) && quantCode g
  | .quantAq4 d a g => regRun d (1 + groupLen g / 8) && regRun a (groupLen g / 2) && quantCode g
  | .dquantAq8 d a g => regRun d (groupLen g / 2) && regRun a (1 + groupLen g / 4) && quantCode g
  | .dquantAq4 d a g => regRun d (groupLen g / 2) && regRun a (1 + groupLen g / 8) && quantCode g
  | .ldZ8 d _ _ => dst32 d
  | .ldS8 d _ _ => dst32 d
  | .ldZ16 d _ _ => dst32 d
  | .ldS16 d _ _ => dst32 d
  | .ldB32 d _ _ => dst32 d
  | .ldB64 d _ _ => dst64 d
  | .stB8 d _ _ => store32 d
  | .stB16 d _ _ => store32 d
  | .stB32 d _ _ => store32 d
  | .stB64 d _ _ => store64 d
  | .tagq d a => dst32 d && src64 a
  | .tagset d a _ => dst32 d && src64 a
  | .tagclr d a => dst32 d && src64 a
  | .taginv d => dst32 d
  | .copyIn a => a != 0x7E
  | .copyOut a => a != 0x7E
  | .copyOutDigest d a => d != 0x7E && a != 0x7E
  | .hget d => dst32 d
  | .hfree d _ => dst32 d
  | .hwait d _ => dst32 d
  | .atomAddZ32 _ d a _ => dst32 d && src64 a
  | .atomAddZ64 _ d a b => dst64 d && src64 a && src64 b
  | .atomXchgB32 _ d a _ => dst32 d && src64 a
  | .atomCasB32 _ d a _ => dst32 d && src64 a
  | .atomCasB64 _ d a b => dst64 d && src64 a && src64 b
  | .redAddF32 a _ => src64 a
  | .redAddF64 a b => src64 a && src64 b
  | .xaddF32 a _ => src64 a
  | .xseal d a => dst64 d && src64 a
  | .xzero a => src64 a
  | .bkmode a _ => src64 a
  | .bkld a _ => src64 a
  | .bkmac a _ => src64 a
  | .bkrd a _ => src64 a
  | .bkzero a _ => src64 a
  | .bkwait => true
  | .cmtB _ d => dst64 d
  | .cmtT _ d => dst64 d
  | .cmtD _ d => dst64 d
  | .cmtBLw _ d => dst64 d
  | .cmtTLw _ d => dst64 d
  | .cmtDLw _ d => dst64 d
  | .abtW => true
  | .abtB => true
  | .abtT => true
  | .fence s => decide (s.toNat ≤ 5)
  | .opnW _ => true
  | .opnB _ => true
  | .opnT _ => true
  | .cln a _ => src64 a
  | .inv a _ => src64 a
  | .cinv a _ => src64 a
  | .brGuarded _ _ _ => true
  | .bryGuarded _ _ _ => true
  | .callGuarded _ _ _ => true
  | .br _ => true
  | .bry _ => true
  | .call _ => true
  | .callr a => src64 a
  | .ret => true
  | .jmpr a => src64 a
  | .exit => true
  | .trap _ => true
  | .bsync => true
  | .yield => true
  | .nop => true
  | .lany _ _ => true
  | .lall _ _ => true
  | .lbits d _ => dst64 d
  | .xlIdx d _ _ => dst32 d
  | .xlLo d _ _ => dst32 d
  | .xlHi d _ _ => dst32 d
  | .xlXor d _ _ => dst32 d
  | .sget _ a => src64 a
  | .xlRot d _ _ => dst32 d
  | .spawn d a _ => dst32 d && src64 a
  | .regroup a _ => src64 a
  | .racktm _ => true
  | .waitc d a _ => dst64 d && src64 a
  | .spr x c => regRun x 1 && decide (c.toNat ≤ 5)
  | .srd _ c => readableReg c
  | .swr _ c => (c == 0x10 || c == 0x11)
  | .ksclaim d a => dst32 d && src64 a
  | .ksrd d a => dst64 d && src64 a
  | .kswr a b => src64 a && src64 b
  | .ksres d _ => dst32 d
  | .ksrty d _ => dst32 d
  | .ksdir d _ b => dst32 d && src64 b
  | .kskill d _ => dst32 d
  | .qpost d _ _ => dst32 d
  | .qclk d _ => dst64 d
  | .sigrd d _ => dst64 d
  | .sigclr => true
  | .chkv d _ => dst32 d
  | .scrub d a _ => dst32 d && src64 a
  | .asidld d a _ => dst32 d && src64 a
  | .pgret d a => dst32 d && src64 a
  | .wayq d _ _ => dst32 d
  | .tlbinv d a _ => dst32 d && src64 a
  | .kspool d a => dst32 d && src64 a
  | .wideImmediate _ => true
  | .modifierHint r _ g p e _ c s => decide (r.toNat ≤ 4) && (g == 1 || (p == 0 && e == 0)) && (c == 1 || s == 0)
  | .schedulingHint _ => true
  | .rackTimerExpiry _ => true
  | .mmaStart _ => true
  | .mmaComplete _ => true
  | .copySegmentRun _ _ => true
  | .deviceCommitPublish _ => true
  | .deferredReductionApply _ => true
  | .remoteOpPerform _ => true
  | .bankOpPerform _ => true
  | .monitorArm _ lane => decide (lane < 64)
  | .monitorWake _ lane => decide (lane < 64)
  | .ticketRead vf ring => decide (vf < 96) && decide (ring < 8)
  | .publishWrite vf ring _ => decide (vf < 96) && decide (ring < 8)
  | .notifyWrite vf ring => decide (vf < 96) && decide (ring.ring < 8)
  | .configurationReread vf ring => decide (vf < 96) && decide (ring < 8)
  | .cheadWrite vf ring _ => decide (vf < 96) && decide (ring < 8)
  | .registerWrite _ _ => true
  | .slotConsume vf ring => decide (vf < 96) && decide (ring < 8)
  | .nopCommand vf ring _ => decide (vf < 96) && decide (ring < 8)
  | .launch vf ring _ => decide (vf < 96) && decide (ring < 8)
  | .barrier vf ring _ => decide (vf < 96) && decide (ring < 8)
  | .prologueEnd _ => true
  | .prologueRepeat _ => true
  | .taskDispatch part => decide (part < 20)
  | .teamStart _ => true
  | .affinityWaitExpiry _ => true
  | .starvationBlock _ => true
  | .commandComplete vf ring _ => decide (vf < 96) && decide (ring < 8)
  | .budgetExpiry _ => true
  | .launchDeadlineExpiry _ => true
  | .evictionOrder _ _ => true
  | .imageWrite _ => true
  | .jobMemoryMove _ => true
  | .recordMove _ part => decide (part < 20)
  | .partitionFree part => decide (part < 20)
  | .partitionAssign part vf => decide (part < 20) && decide (vf < 96)
  | .qenWrite part _ => decide (part < 20)
  | .vfEnable vf => decide (vf < 96)
  | .vfDisable vf => decide (vf < 96)
  | .hpolWrite vf _ => decide (vf < 96)
  | .functionLevelReset vf => decide (vf < 96)
  | .hostMemRead vf _ _ => decide (vf < 96)
  | .hostMemWrite vf _ _ => decide (vf < 96)
  | .backgroundScrub _ => true
  | .cellBlockGrant vf _ => decide (vf < 96)
  | .spokeFlitReceive _ _ _ _ => true
  | .remotePostArrival _ => true
  | .assistAnswer part _ => decide (part < 20)
  | .firmwareDownload _ => true
  | .powerUp => true
  | .perstAssert port => decide (port < 2)
  | .thermtrip => true
  | .pwrfail => true
  | .thermalThrottle => true
  | .thermalRecover => true
  | .recordGrant part => decide (part < 20)
  | .poolWaitDeadline _ => true
  | .faultDeadlineExpiry _ => true
  | .waveRebuild _ => true
  | .linkTimeout _ => true
  | .patrolRead _ => true
  | .spareFill _ => true
  | .ksdataRead core _ _ => decide (core < 240)
  | .ksdataWrite core _ _ _ => decide (core < 240)
  | .kscmdClaim core _ _ => decide (core < 240)
  | .kscmdResume core _ _ => decide (core < 240)
  | .kscmdRetry core _ _ => decide (core < 240)
  | .kscmdRedirect core _ _ _ => decide (core < 240)
  | .kscmdKill core _ _ => decide (core < 240)
  | .kscmdPost core _ _ => decide (core < 240)
  | .unassignedSlot _ => true
  | .instructionFetch => true
  | .softError _ _ => true
  | .pageOwnershipChange _ _ => true
  | .logicalDeviceBind _ _ => true
  | .domestiqueHandlerEnd core => decide (core < 240)
  | .perstRelease port => decide (port < 2)

end Sys2Proof
end

