-- ==== Sys2Proof/Decode.lean ====
section
/-! DEFINITION. The decoder of one instruction word (Tables 8 and 13, R24, R25, R42), total on any bytes, and the encoder written
from the same encoding tables. A word that the opcode map does not assign, or that breaks a fixed field, is rejected by name; the
step then takes the exception of R39 (`Instr.unassignedSlot`). -/

namespace Sys2Proof

/-- Why a word is no instruction (R39 steps 2 and 4, R42). -/
inductive DecodeError where
  /-- fewer than four bytes -/
  | truncated
  /-- the major opcode is unassigned -/
  | unassignedMajor
  /-- the fn or kind slot is unassigned -/
  | unassignedFn
  /-- the slot is assigned and a reserved bit or a fixed operand field differs from its value -/
  | reservedBits
  deriving DecidableEq, Repr

/-- Major 0x01 (Table 13). -/
def decodeMajor01 (w : IWord) : Except DecodeError Instr :=
  match (w.extractLsb' 22 4).toNat with
  | 0 => .ok (.addB32 (w.extractLsb' 21 1) (w.extractLsb' 14 7) (w.extractLsb' 7 7) (w.extractLsb' 0 7))
  | 1 => .ok (.subB32 (w.extractLsb' 21 1) (w.extractLsb' 14 7) (w.extractLsb' 7 7) (w.extractLsb' 0 7))
  | 2 => .ok (.addsS32 (w.extractLsb' 21 1) (w.extractLsb' 14 7) (w.extractLsb' 7 7) (w.extractLsb' 0 7))
  | 3 => .ok (.subsS32 (w.extractLsb' 21 1) (w.extractLsb' 14 7) (w.extractLsb' 7 7) (w.extractLsb' 0 7))
  | 4 => .ok (.minS32 (w.extractLsb' 21 1) (w.extractLsb' 14 7) (w.extractLsb' 7 7) (w.extractLsb' 0 7))
  | 5 => .ok (.minZ32 (w.extractLsb' 21 1) (w.extractLsb' 14 7) (w.extractLsb' 7 7) (w.extractLsb' 0 7))
  | 6 => .ok (.maxS32 (w.extractLsb' 21 1) (w.extractLsb' 14 7) (w.extractLsb' 7 7) (w.extractLsb' 0 7))
  | 7 => .ok (.maxZ32 (w.extractLsb' 21 1) (w.extractLsb' 14 7) (w.extractLsb' 7 7) (w.extractLsb' 0 7))
  | _ => .error .unassignedFn

/-- Major 0x02 (Table 13). -/
def decodeMajor02 (w : IWord) : Except DecodeError Instr :=
  match (w.extractLsb' 22 4).toNat with
  | 0 => .ok (.mulB32 (w.extractLsb' 21 1) (w.extractLsb' 14 7) (w.extractLsb' 7 7) (w.extractLsb' 0 7))
  | 1 => .ok (.mulhiS32 (w.extractLsb' 21 1) (w.extractLsb' 14 7) (w.extractLsb' 7 7) (w.extractLsb' 0 7))
  | 2 => .ok (.mulhiZ32 (w.extractLsb' 21 1) (w.extractLsb' 14 7) (w.extractLsb' 7 7) (w.extractLsb' 0 7))
  | 3 => .ok (.divS32 (w.extractLsb' 21 1) (w.extractLsb' 14 7) (w.extractLsb' 7 7) (w.extractLsb' 0 7))
  | 4 => .ok (.divZ32 (w.extractLsb' 21 1) (w.extractLsb' 14 7) (w.extractLsb' 7 7) (w.extractLsb' 0 7))
  | 5 => .ok (.remS32 (w.extractLsb' 21 1) (w.extractLsb' 14 7) (w.extractLsb' 7 7) (w.extractLsb' 0 7))
  | 6 => .ok (.remZ32 (w.extractLsb' 21 1) (w.extractLsb' 14 7) (w.extractLsb' 7 7) (w.extractLsb' 0 7))
  | _ => .error .unassignedFn

/-- Major 0x03 (Table 13). -/
def decodeMajor03 (w : IWord) : Except DecodeError Instr :=
  match (w.extractLsb' 22 4).toNat with
  | 0 => .ok (.andB32 (w.extractLsb' 21 1) (w.extractLsb' 14 7) (w.extractLsb' 7 7) (w.extractLsb' 0 7))
  | 1 => .ok (.orB32 (w.extractLsb' 21 1) (w.extractLsb' 14 7) (w.extractLsb' 7 7) (w.extractLsb' 0 7))
  | 2 => .ok (.xorB32 (w.extractLsb' 21 1) (w.extractLsb' 14 7) (w.extractLsb' 7 7) (w.extractLsb' 0 7))
  | 3 => .ok (.shlB32 (w.extractLsb' 21 1) (w.extractLsb' 14 7) (w.extractLsb' 7 7) (w.extractLsb' 0 7))
  | 4 => .ok (.shrZ32 (w.extractLsb' 21 1) (w.extractLsb' 14 7) (w.extractLsb' 7 7) (w.extractLsb' 0 7))
  | 5 => .ok (.shrS32 (w.extractLsb' 21 1) (w.extractLsb' 14 7) (w.extractLsb' 7 7) (w.extractLsb' 0 7))
  | 6 => if w &&& 0x0000007F#32 = 0x0000007C#32 then .ok (.popcB32 (w.extractLsb' 21 1) (w.extractLsb' 14 7) (w.extractLsb' 7 7)) else .error .reservedBits
  | 7 => if w &&& 0x0000007F#32 = 0x0000007C#32 then .ok (.clzB32 (w.extractLsb' 21 1) (w.extractLsb' 14 7) (w.extractLsb' 7 7)) else .error .reservedBits
  | _ => .error .unassignedFn

/-- Major 0x04 (Table 13). -/
def decodeMajor04 (w : IWord) : Except DecodeError Instr :=
  match (w.extractLsb' 22 4).toNat with
  | 0 => .ok (.addB32Imm (w.extractLsb' 21 1) (w.extractLsb' 14 7) (w.extractLsb' 7 7) (w.extractLsb' 0 7))
  | 1 => .ok (.andB32Imm (w.extractLsb' 21 1) (w.extractLsb' 14 7) (w.extractLsb' 7 7) (w.extractLsb' 0 7))
  | 2 => .ok (.shlB32Imm (w.extractLsb' 21 1) (w.extractLsb' 14 7) (w.extractLsb' 7 7) (w.extractLsb' 0 7))
  | 3 => .ok (.shrZ32Imm (w.extractLsb' 21 1) (w.extractLsb' 14 7) (w.extractLsb' 7 7) (w.extractLsb' 0 7))
  | _ => .error .unassignedFn

/-- Major 0x05 (Table 13). -/
def decodeMajor05 (w : IWord) : Except DecodeError Instr :=
  match (w.extractLsb' 22 4).toNat with
  | 0 => .ok (.addB64 (w.extractLsb' 21 1) (w.extractLsb' 14 7) (w.extractLsb' 7 7) (w.extractLsb' 0 7))
  | 1 => .ok (.subB64 (w.extractLsb' 21 1) (w.extractLsb' 14 7) (w.extractLsb' 7 7) (w.extractLsb' 0 7))
  | 2 => .ok (.mulB64 (w.extractLsb' 21 1) (w.extractLsb' 14 7) (w.extractLsb' 7 7) (w.extractLsb' 0 7))
  | 3 => .ok (.shlB64 (w.extractLsb' 21 1) (w.extractLsb' 14 7) (w.extractLsb' 7 7) (w.extractLsb' 0 7))
  | 4 => .ok (.shrZ64 (w.extractLsb' 21 1) (w.extractLsb' 14 7) (w.extractLsb' 7 7) (w.extractLsb' 0 7))
  | 5 => .ok (.shrS64 (w.extractLsb' 21 1) (w.extractLsb' 14 7) (w.extractLsb' 7 7) (w.extractLsb' 0 7))
  | _ => .error .unassignedFn

/-- Major 0x06 (Table 13). -/
def decodeMajor06 (w : IWord) : Except DecodeError Instr :=
  match (w.extractLsb' 22 4).toNat with
  | 0 => .ok (.bfxZ32 (w.extractLsb' 21 1) (w.extractLsb' 14 7) (w.extractLsb' 7 7) (w.extractLsb' 0 7))
  | 1 => .ok (.bfxS32 (w.extractLsb' 21 1) (w.extractLsb' 14 7) (w.extractLsb' 7 7) (w.extractLsb' 0 7))
  | 2 => .ok (.bfiB32 (w.extractLsb' 21 1) (w.extractLsb' 14 7) (w.extractLsb' 7 7) (w.extractLsb' 0 7))
  | _ => .error .unassignedFn

/-- Major 0x07 (Table 13). -/
def decodeMajor07 (w : IWord) : Except DecodeError Instr :=
  match (w.extractLsb' 22 4).toNat with
  | 0 => if w &&& 0x001E0000#32 = 0x00000000#32 then .ok (.cmpEqB32 (w.extractLsb' 21 1) (w.extractLsb' 14 3) (w.extractLsb' 7 7) (w.extractLsb' 0 7)) else .error .reservedBits
  | 1 => if w &&& 0x001E0000#32 = 0x00000000#32 then .ok (.cmpNeB32 (w.extractLsb' 21 1) (w.extractLsb' 14 3) (w.extractLsb' 7 7) (w.extractLsb' 0 7)) else .error .reservedBits
  | 2 => if w &&& 0x001E0000#32 = 0x00000000#32 then .ok (.cmpLtS32 (w.extractLsb' 21 1) (w.extractLsb' 14 3) (w.extractLsb' 7 7) (w.extractLsb' 0 7)) else .error .reservedBits
  | 3 => if w &&& 0x001E0000#32 = 0x00000000#32 then .ok (.cmpLtZ32 (w.extractLsb' 21 1) (w.extractLsb' 14 3) (w.extractLsb' 7 7) (w.extractLsb' 0 7)) else .error .reservedBits
  | 4 => if w &&& 0x001E0000#32 = 0x00000000#32 then .ok (.cmpEqB64 (w.extractLsb' 21 1) (w.extractLsb' 14 3) (w.extractLsb' 7 7) (w.extractLsb' 0 7)) else .error .reservedBits
  | 5 => if w &&& 0x001E0000#32 = 0x00000000#32 then .ok (.cmpLtS64 (w.extractLsb' 21 1) (w.extractLsb' 14 3) (w.extractLsb' 7 7) (w.extractLsb' 0 7)) else .error .reservedBits
  | 6 => if w &&& 0x001E0000#32 = 0x00000000#32 then .ok (.cmpLtZ64 (w.extractLsb' 21 1) (w.extractLsb' 14 3) (w.extractLsb' 7 7) (w.extractLsb' 0 7)) else .error .reservedBits
  | _ => .error .unassignedFn

/-- Major 0x08 (Table 13). -/
def decodeMajor08 (w : IWord) : Except DecodeError Instr :=
  match (w.extractLsb' 22 4).toNat with
  | 0 => if w &&& 0x0020003F#32 = 0x00000000#32 then .ok (.saddB64 (w.extractLsb' 16 5) (w.extractLsb' 11 5) (w.extractLsb' 6 5)) else if w &&& 0x00200000#32 = 0x00200000#32 then .ok (.saddB64Imm (w.extractLsb' 16 5) (w.extractLsb' 11 5) (w.extractLsb' 0 11)) else .error .reservedBits
  | 1 => if w &&& 0x0020003F#32 = 0x00000000#32 then .ok (.ssubB64 (w.extractLsb' 16 5) (w.extractLsb' 11 5) (w.extractLsb' 6 5)) else if w &&& 0x00200000#32 = 0x00200000#32 then .ok (.ssubB64Imm (w.extractLsb' 16 5) (w.extractLsb' 11 5) (w.extractLsb' 0 11)) else .error .reservedBits
  | 2 => if w &&& 0x0020003F#32 = 0x00000000#32 then .ok (.smulB64 (w.extractLsb' 16 5) (w.extractLsb' 11 5) (w.extractLsb' 6 5)) else if w &&& 0x00200000#32 = 0x00200000#32 then .ok (.smulB64Imm (w.extractLsb' 16 5) (w.extractLsb' 11 5) (w.extractLsb' 0 11)) else .error .reservedBits
  | 3 => if w &&& 0x0020003F#32 = 0x00000000#32 then .ok (.sandB64 (w.extractLsb' 16 5) (w.extractLsb' 11 5) (w.extractLsb' 6 5)) else if w &&& 0x00200000#32 = 0x00200000#32 then .ok (.sandB64Imm (w.extractLsb' 16 5) (w.extractLsb' 11 5) (w.extractLsb' 0 11)) else .error .reservedBits
  | 4 => if w &&& 0x0020003F#32 = 0x00000000#32 then .ok (.sorB64 (w.extractLsb' 16 5) (w.extractLsb' 11 5) (w.extractLsb' 6 5)) else if w &&& 0x00200000#32 = 0x00200000#32 then .ok (.sorB64Imm (w.extractLsb' 16 5) (w.extractLsb' 11 5) (w.extractLsb' 0 11)) else .error .reservedBits
  | 5 => if w &&& 0x0020003F#32 = 0x00000000#32 then .ok (.sxorB64 (w.extractLsb' 16 5) (w.extractLsb' 11 5) (w.extractLsb' 6 5)) else if w &&& 0x00200000#32 = 0x00200000#32 then .ok (.sxorB64Imm (w.extractLsb' 16 5) (w.extractLsb' 11 5) (w.extractLsb' 0 11)) else .error .reservedBits
  | 6 => if w &&& 0x0020003F#32 = 0x00000000#32 then .ok (.sshlB64 (w.extractLsb' 16 5) (w.extractLsb' 11 5) (w.extractLsb' 6 5)) else if w &&& 0x00200000#32 = 0x00200000#32 then .ok (.sshlB64Imm (w.extractLsb' 16 5) (w.extractLsb' 11 5) (w.extractLsb' 0 11)) else .error .reservedBits
  | 7 => if w &&& 0x0020003F#32 = 0x00000000#32 then .ok (.sshrZ64 (w.extractLsb' 16 5) (w.extractLsb' 11 5) (w.extractLsb' 6 5)) else if w &&& 0x00200000#32 = 0x00200000#32 then .ok (.sshrZ64Imm (w.extractLsb' 16 5) (w.extractLsb' 11 5) (w.extractLsb' 0 11)) else .error .reservedBits
  | 8 => if w &&& 0x002007FF#32 = 0x00000000#32 then .ok (.smovB64 (w.extractLsb' 16 5) (w.extractLsb' 11 5)) else if w &&& 0x0020F800#32 = 0x00200000#32 then .ok (.smovB64Imm (w.extractLsb' 16 5) (w.extractLsb' 0 11)) else .error .reservedBits
  | _ => .error .unassignedFn

/-- Major 0x09 (Table 13). -/
def decodeMajor09 (w : IWord) : Except DecodeError Instr :=
  match (w.extractLsb' 22 4).toNat with
  | 0 => if w &&& 0x0020003F#32 = 0x00000000#32 then .ok (.scmpEqB64 (w.extractLsb' 16 5) (w.extractLsb' 11 5) (w.extractLsb' 6 5)) else if w &&& 0x00200000#32 = 0x00200000#32 then .ok (.scmpEqB64Imm (w.extractLsb' 16 5) (w.extractLsb' 11 5) (w.extractLsb' 0 11)) else .error .reservedBits
  | 1 => if w &&& 0x0020003F#32 = 0x00000000#32 then .ok (.scmpLtS64 (w.extractLsb' 16 5) (w.extractLsb' 11 5) (w.extractLsb' 6 5)) else if w &&& 0x00200000#32 = 0x00200000#32 then .ok (.scmpLtS64Imm (w.extractLsb' 16 5) (w.extractLsb' 11 5) (w.extractLsb' 0 11)) else .error .reservedBits
  | 2 => if w &&& 0x0020003F#32 = 0x00000000#32 then .ok (.scmpLtZ64 (w.extractLsb' 16 5) (w.extractLsb' 11 5) (w.extractLsb' 6 5)) else if w &&& 0x00200000#32 = 0x00200000#32 then .ok (.scmpLtZ64Imm (w.extractLsb' 16 5) (w.extractLsb' 11 5) (w.extractLsb' 0 11)) else .error .reservedBits
  | _ => .error .unassignedFn

/-- Major 0x10 (Table 13). -/
def decodeMajor10 (w : IWord) : Except DecodeError Instr :=
  match (w.extractLsb' 22 4).toNat with
  | 0 => .ok (.addF32 (w.extractLsb' 21 1) (w.extractLsb' 14 7) (w.extractLsb' 7 7) (w.extractLsb' 0 7))
  | 1 => .ok (.subF32 (w.extractLsb' 21 1) (w.extractLsb' 14 7) (w.extractLsb' 7 7) (w.extractLsb' 0 7))
  | 2 => .ok (.mulF32 (w.extractLsb' 21 1) (w.extractLsb' 14 7) (w.extractLsb' 7 7) (w.extractLsb' 0 7))
  | 3 => .ok (.fmaF32 (w.extractLsb' 21 1) (w.extractLsb' 14 7) (w.extractLsb' 7 7) (w.extractLsb' 0 7))
  | 4 => .ok (.divF32 (w.extractLsb' 21 1) (w.extractLsb' 14 7) (w.extractLsb' 7 7) (w.extractLsb' 0 7))
  | 5 => .ok (.minF32 (w.extractLsb' 21 1) (w.extractLsb' 14 7) (w.extractLsb' 7 7) (w.extractLsb' 0 7))
  | 6 => .ok (.maxF32 (w.extractLsb' 21 1) (w.extractLsb' 14 7) (w.extractLsb' 7 7) (w.extractLsb' 0 7))
  | 7 => if w &&& 0x0000007F#32 = 0x0000007C#32 then .ok (.sqrtF32 (w.extractLsb' 21 1) (w.extractLsb' 14 7) (w.extractLsb' 7 7)) else .error .reservedBits
  | 8 => if w &&& 0x0000007F#32 = 0x0000007C#32 then .ok (.rcpF32 (w.extractLsb' 21 1) (w.extractLsb' 14 7) (w.extractLsb' 7 7)) else .error .reservedBits
  | 9 => if w &&& 0x0000007F#32 = 0x0000007C#32 then .ok (.rsqF32 (w.extractLsb' 21 1) (w.extractLsb' 14 7) (w.extractLsb' 7 7)) else .error .reservedBits
  | 10 => if w &&& 0x0000007F#32 = 0x0000007C#32 then .ok (.exp2F32 (w.extractLsb' 21 1) (w.extractLsb' 14 7) (w.extractLsb' 7 7)) else .error .reservedBits
  | 11 => if w &&& 0x0000007F#32 = 0x0000007C#32 then .ok (.log2F32 (w.extractLsb' 21 1) (w.extractLsb' 14 7) (w.extractLsb' 7 7)) else .error .reservedBits
  | 12 => if w &&& 0x0000007F#32 = 0x0000007C#32 then .ok (.sinpiF32 (w.extractLsb' 21 1) (w.extractLsb' 14 7) (w.extractLsb' 7 7)) else .error .reservedBits
  | 13 => if w &&& 0x0000007F#32 = 0x0000007C#32 then .ok (.cospiF32 (w.extractLsb' 21 1) (w.extractLsb' 14 7) (w.extractLsb' 7 7)) else .error .reservedBits
  | _ => .error .unassignedFn

/-- Major 0x11 (Table 13). -/
def decodeMajor11 (w : IWord) : Except DecodeError Instr :=
  match (w.extractLsb' 22 4).toNat with
  | 0 => .ok (.addF64 (w.extractLsb' 21 1) (w.extractLsb' 14 7) (w.extractLsb' 7 7) (w.extractLsb' 0 7))
  | 1 => .ok (.subF64 (w.extractLsb' 21 1) (w.extractLsb' 14 7) (w.extractLsb' 7 7) (w.extractLsb' 0 7))
  | 2 => .ok (.mulF64 (w.extractLsb' 21 1) (w.extractLsb' 14 7) (w.extractLsb' 7 7) (w.extractLsb' 0 7))
  | 3 => .ok (.fmaF64 (w.extractLsb' 21 1) (w.extractLsb' 14 7) (w.extractLsb' 7 7) (w.extractLsb' 0 7))
  | 4 => .ok (.divF64 (w.extractLsb' 21 1) (w.extractLsb' 14 7) (w.extractLsb' 7 7) (w.extractLsb' 0 7))
  | 5 => .ok (.minF64 (w.extractLsb' 21 1) (w.extractLsb' 14 7) (w.extractLsb' 7 7) (w.extractLsb' 0 7))
  | 6 => .ok (.maxF64 (w.extractLsb' 21 1) (w.extractLsb' 14 7) (w.extractLsb' 7 7) (w.extractLsb' 0 7))
  | 7 => if w &&& 0x0000007F#32 = 0x0000007C#32 then .ok (.sqrtF64 (w.extractLsb' 21 1) (w.extractLsb' 14 7) (w.extractLsb' 7 7)) else .error .reservedBits
  | _ => .error .unassignedFn

/-- Major 0x12 (Table 13). -/
def decodeMajor12 (w : IWord) : Except DecodeError Instr :=
  match (w.extractLsb' 22 4).toNat with
  | 0 => .ok (.addF16 (w.extractLsb' 21 1) (w.extractLsb' 14 7) (w.extractLsb' 7 7) (w.extractLsb' 0 7))
  | 1 => .ok (.subF16 (w.extractLsb' 21 1) (w.extractLsb' 14 7) (w.extractLsb' 7 7) (w.extractLsb' 0 7))
  | 2 => .ok (.mulF16 (w.extractLsb' 21 1) (w.extractLsb' 14 7) (w.extractLsb' 7 7) (w.extractLsb' 0 7))
  | 3 => .ok (.fmaF16 (w.extractLsb' 21 1) (w.extractLsb' 14 7) (w.extractLsb' 7 7) (w.extractLsb' 0 7))
  | 4 => .ok (.divF16 (w.extractLsb' 21 1) (w.extractLsb' 14 7) (w.extractLsb' 7 7) (w.extractLsb' 0 7))
  | 8 => .ok (.addBf16 (w.extractLsb' 21 1) (w.extractLsb' 14 7) (w.extractLsb' 7 7) (w.extractLsb' 0 7))
  | 9 => .ok (.subBf16 (w.extractLsb' 21 1) (w.extractLsb' 14 7) (w.extractLsb' 7 7) (w.extractLsb' 0 7))
  | 10 => .ok (.mulBf16 (w.extractLsb' 21 1) (w.extractLsb' 14 7) (w.extractLsb' 7 7) (w.extractLsb' 0 7))
  | 11 => .ok (.fmaBf16 (w.extractLsb' 21 1) (w.extractLsb' 14 7) (w.extractLsb' 7 7) (w.extractLsb' 0 7))
  | _ => .error .unassignedFn

/-- Major 0x13 (Table 13). -/
def decodeMajor13 (w : IWord) : Except DecodeError Instr :=
  match (w.extractLsb' 22 4).toNat with
  | 0 => if w &&& 0x0000007F#32 = 0x0000007C#32 then .ok (.sqrtF16 (w.extractLsb' 21 1) (w.extractLsb' 14 7) (w.extractLsb' 7 7)) else .error .reservedBits
  | 1 => if w &&& 0x0000007F#32 = 0x0000007C#32 then .ok (.rcpF16 (w.extractLsb' 21 1) (w.extractLsb' 14 7) (w.extractLsb' 7 7)) else .error .reservedBits
  | 2 => if w &&& 0x0000007F#32 = 0x0000007C#32 then .ok (.rsqF16 (w.extractLsb' 21 1) (w.extractLsb' 14 7) (w.extractLsb' 7 7)) else .error .reservedBits
  | 3 => if w &&& 0x0000007F#32 = 0x0000007C#32 then .ok (.exp2F16 (w.extractLsb' 21 1) (w.extractLsb' 14 7) (w.extractLsb' 7 7)) else .error .reservedBits
  | 4 => if w &&& 0x0000007F#32 = 0x0000007C#32 then .ok (.log2F16 (w.extractLsb' 21 1) (w.extractLsb' 14 7) (w.extractLsb' 7 7)) else .error .reservedBits
  | _ => .error .unassignedFn

/-- Major 0x14 (Table 13). -/
def decodeMajor14 (w : IWord) : Except DecodeError Instr :=
  match (w.extractLsb' 22 4).toNat with
  | 0 => if w &&& 0x001E0000#32 = 0x00000000#32 then .ok (.cmpEqF32 (w.extractLsb' 21 1) (w.extractLsb' 14 3) (w.extractLsb' 7 7) (w.extractLsb' 0 7)) else .error .reservedBits
  | 1 => if w &&& 0x001E0000#32 = 0x00000000#32 then .ok (.cmpLtF32 (w.extractLsb' 21 1) (w.extractLsb' 14 3) (w.extractLsb' 7 7) (w.extractLsb' 0 7)) else .error .reservedBits
  | 2 => if w &&& 0x001E0000#32 = 0x00000000#32 then .ok (.cmpLeF32 (w.extractLsb' 21 1) (w.extractLsb' 14 3) (w.extractLsb' 7 7) (w.extractLsb' 0 7)) else .error .reservedBits
  | 3 => if w &&& 0x001E0000#32 = 0x00000000#32 then .ok (.cmpEqF64 (w.extractLsb' 21 1) (w.extractLsb' 14 3) (w.extractLsb' 7 7) (w.extractLsb' 0 7)) else .error .reservedBits
  | 4 => if w &&& 0x001E0000#32 = 0x00000000#32 then .ok (.cmpLtF64 (w.extractLsb' 21 1) (w.extractLsb' 14 3) (w.extractLsb' 7 7) (w.extractLsb' 0 7)) else .error .reservedBits
  | 5 => if w &&& 0x001E0000#32 = 0x00000000#32 then .ok (.cmpLeF64 (w.extractLsb' 21 1) (w.extractLsb' 14 3) (w.extractLsb' 7 7) (w.extractLsb' 0 7)) else .error .reservedBits
  | _ => .error .unassignedFn

/-- Major 0x15 (Table 13). -/
def decodeMajor15 (w : IWord) : Except DecodeError Instr :=
  match (w.extractLsb' 22 4).toNat with
  | 0 => if w &&& 0x0000007F#32 = 0x0000007C#32 then .ok (.cvtF64F32 (w.extractLsb' 21 1) (w.extractLsb' 14 7) (w.extractLsb' 7 7)) else .error .reservedBits
  | 1 => if w &&& 0x0000007F#32 = 0x0000007C#32 then .ok (.cvtF32F64 (w.extractLsb' 21 1) (w.extractLsb' 14 7) (w.extractLsb' 7 7)) else .error .reservedBits
  | 2 => if w &&& 0x0000007F#32 = 0x0000007C#32 then .ok (.cvtF32F16 (w.extractLsb' 21 1) (w.extractLsb' 14 7) (w.extractLsb' 7 7)) else .error .reservedBits
  | 3 => if w &&& 0x0000007F#32 = 0x0000007C#32 then .ok (.cvtF16F32 (w.extractLsb' 21 1) (w.extractLsb' 14 7) (w.extractLsb' 7 7)) else .error .reservedBits
  | 4 => if w &&& 0x0000007F#32 = 0x0000007C#32 then .ok (.cvtF32Bf16 (w.extractLsb' 21 1) (w.extractLsb' 14 7) (w.extractLsb' 7 7)) else .error .reservedBits
  | 5 => if w &&& 0x0000007F#32 = 0x0000007C#32 then .ok (.cvtBf16F32 (w.extractLsb' 21 1) (w.extractLsb' 14 7) (w.extractLsb' 7 7)) else .error .reservedBits
  | 6 => if w &&& 0x0000007F#32 = 0x0000007C#32 then .ok (.cvtS32F32 (w.extractLsb' 21 1) (w.extractLsb' 14 7) (w.extractLsb' 7 7)) else .error .reservedBits
  | 7 => if w &&& 0x0000007F#32 = 0x0000007C#32 then .ok (.cvtZ32F32 (w.extractLsb' 21 1) (w.extractLsb' 14 7) (w.extractLsb' 7 7)) else .error .reservedBits
  | 8 => if w &&& 0x0000007F#32 = 0x0000007C#32 then .ok (.cvtF32S32 (w.extractLsb' 21 1) (w.extractLsb' 14 7) (w.extractLsb' 7 7)) else .error .reservedBits
  | 9 => if w &&& 0x0000007F#32 = 0x0000007C#32 then .ok (.cvtF32Z32 (w.extractLsb' 21 1) (w.extractLsb' 14 7) (w.extractLsb' 7 7)) else .error .reservedBits
  | 10 => if w &&& 0x0000007F#32 = 0x0000007C#32 then .ok (.cvtS64F64 (w.extractLsb' 21 1) (w.extractLsb' 14 7) (w.extractLsb' 7 7)) else .error .reservedBits
  | 11 => if w &&& 0x0000007F#32 = 0x0000007C#32 then .ok (.cvtF64S64 (w.extractLsb' 21 1) (w.extractLsb' 14 7) (w.extractLsb' 7 7)) else .error .reservedBits
  | _ => .error .unassignedFn

/-- Major 0x16 (Table 13). -/
def decodeMajor16 (w : IWord) : Except DecodeError Instr :=
  match (w.extractLsb' 22 4).toNat with
  | 0 => if w &&& 0x0000007F#32 = 0x0000007C#32 then .ok (.rdcAddF32 (w.extractLsb' 21 1) (w.extractLsb' 14 7) (w.extractLsb' 7 7)) else .error .reservedBits
  | 1 => if w &&& 0x0000007F#32 = 0x0000007C#32 then .ok (.rdcAddF64 (w.extractLsb' 21 1) (w.extractLsb' 14 7) (w.extractLsb' 7 7)) else .error .reservedBits
  | 2 => if w &&& 0x0000007F#32 = 0x0000007C#32 then .ok (.rdcMinF32 (w.extractLsb' 21 1) (w.extractLsb' 14 7) (w.extractLsb' 7 7)) else .error .reservedBits
  | 3 => if w &&& 0x0000007F#32 = 0x0000007C#32 then .ok (.rdcMaxF32 (w.extractLsb' 21 1) (w.extractLsb' 14 7) (w.extractLsb' 7 7)) else .error .reservedBits
  | 4 => if w &&& 0x0000007F#32 = 0x0000007C#32 then .ok (.rdcAddS32 (w.extractLsb' 21 1) (w.extractLsb' 14 7) (w.extractLsb' 7 7)) else .error .reservedBits
  | 5 => if w &&& 0x0000007F#32 = 0x0000007C#32 then .ok (.rdcAddZ64 (w.extractLsb' 21 1) (w.extractLsb' 14 7) (w.extractLsb' 7 7)) else .error .reservedBits
  | _ => .error .unassignedFn

/-- Major 0x17 (Table 13). -/
def decodeMajor17 (w : IWord) : Except DecodeError Instr :=
  match (w.extractLsb' 22 4).toNat with
  | 0 => .ok (.rngxB32 (w.extractLsb' 21 1) (w.extractLsb' 14 7) (w.extractLsb' 7 7) (w.extractLsb' 0 7))
  | 1 => .ok (.rngxB64 (w.extractLsb' 21 1) (w.extractLsb' 14 7) (w.extractLsb' 7 7) (w.extractLsb' 0 7))
  | _ => .error .unassignedFn

/-- Major 0x18 (Table 13). -/
def decodeMajor18 (w : IWord) : Except DecodeError Instr :=
  match (w.extractLsb' 22 4).toNat with
  | 0 => if w &&& 0x003FC07F#32 = 0x001F007C#32 then .ok (.mma (w.extractLsb' 7 7)) else .error .reservedBits
  | 1 => if w &&& 0x0020007F#32 = 0x0000007C#32 then .ok (.mread (w.extractLsb' 14 7) (w.extractLsb' 7 7)) else .error .reservedBits
  | 2 => if w &&& 0x003FC000#32 = 0x001F0000#32 then .ok (.mwrite (w.extractLsb' 7 7) (w.extractLsb' 0 7)) else .error .reservedBits
  | 3 => if w &&& 0x003FC07F#32 = 0x001F007C#32 then .ok (.mzero (w.extractLsb' 7 7)) else .error .reservedBits
  | 4 => if w &&& 0x00200000#32 = 0x00000000#32 then .ok (.mstat (w.extractLsb' 14 7) (w.extractLsb' 7 7) (w.extractLsb' 0 7)) else .error .reservedBits
  | 5 => if w &&& 0x00200000#32 = 0x00000000#32 then .ok (.mwin (w.extractLsb' 14 7) (w.extractLsb' 7 7) (w.extractLsb' 0 7)) else .error .reservedBits
  | 6 => if w &&& 0x0020007F#32 = 0x0000007C#32 then .ok (.crsv (w.extractLsb' 14 7) (w.extractLsb' 7 7)) else .error .reservedBits
  | 7 => if w &&& 0x0020007F#32 = 0x0000007C#32 then .ok (.crel (w.extractLsb' 14 7) (w.extractLsb' 7 7)) else .error .reservedBits
  | _ => .error .unassignedFn

/-- Major 0x19 (Table 13). -/
def decodeMajor19 (w : IWord) : Except DecodeError Instr :=
  match (w.extractLsb' 22 4).toNat with
  | 0 => if w &&& 0x00200000#32 = 0x00000000#32 then .ok (.quantAq8 (w.extractLsb' 14 7) (w.extractLsb' 7 7) (w.extractLsb' 0 7)) else .error .reservedBits
  | 1 => if w &&& 0x00200000#32 = 0x00000000#32 then .ok (.quantAq4 (w.extractLsb' 14 7) (w.extractLsb' 7 7) (w.extractLsb' 0 7)) else .error .reservedBits
  | 2 => if w &&& 0x00200000#32 = 0x00000000#32 then .ok (.dquantAq8 (w.extractLsb' 14 7) (w.extractLsb' 7 7) (w.extractLsb' 0 7)) else .error .reservedBits
  | 3 => if w &&& 0x00200000#32 = 0x00000000#32 then .ok (.dquantAq4 (w.extractLsb' 14 7) (w.extractLsb' 7 7) (w.extractLsb' 0 7)) else .error .reservedBits
  | _ => .error .unassignedFn

/-- Major 0x20 (Table 13). -/
def decodeMajor20 (w : IWord) : Except DecodeError Instr :=
  match (w.extractLsb' 22 4).toNat with
  | 0 => if w &&& 0x00200000#32 = 0x00000000#32 then .ok (.ldZ8 (w.extractLsb' 14 7) (w.extractLsb' 7 7) (w.extractLsb' 0 7)) else .error .reservedBits
  | 1 => if w &&& 0x00200000#32 = 0x00000000#32 then .ok (.ldS8 (w.extractLsb' 14 7) (w.extractLsb' 7 7) (w.extractLsb' 0 7)) else .error .reservedBits
  | 2 => if w &&& 0x00200000#32 = 0x00000000#32 then .ok (.ldZ16 (w.extractLsb' 14 7) (w.extractLsb' 7 7) (w.extractLsb' 0 7)) else .error .reservedBits
  | 3 => if w &&& 0x00200000#32 = 0x00000000#32 then .ok (.ldS16 (w.extractLsb' 14 7) (w.extractLsb' 7 7) (w.extractLsb' 0 7)) else .error .reservedBits
  | 4 => if w &&& 0x00200000#32 = 0x00000000#32 then .ok (.ldB32 (w.extractLsb' 14 7) (w.extractLsb' 7 7) (w.extractLsb' 0 7)) else .error .reservedBits
  | 5 => if w &&& 0x00200000#32 = 0x00000000#32 then .ok (.ldB64 (w.extractLsb' 14 7) (w.extractLsb' 7 7) (w.extractLsb' 0 7)) else .error .reservedBits
  | _ => .error .unassignedFn

/-- Major 0x21 (Table 13). -/
def decodeMajor21 (w : IWord) : Except DecodeError Instr :=
  match (w.extractLsb' 22 4).toNat with
  | 0 => if w &&& 0x00200000#32 = 0x00000000#32 then .ok (.stB8 (w.extractLsb' 14 7) (w.extractLsb' 7 7) (w.extractLsb' 0 7)) else .error .reservedBits
  | 1 => if w &&& 0x00200000#32 = 0x00000000#32 then .ok (.stB16 (w.extractLsb' 14 7) (w.extractLsb' 7 7) (w.extractLsb' 0 7)) else .error .reservedBits
  | 2 => if w &&& 0x00200000#32 = 0x00000000#32 then .ok (.stB32 (w.extractLsb' 14 7) (w.extractLsb' 7 7) (w.extractLsb' 0 7)) else .error .reservedBits
  | 3 => if w &&& 0x00200000#32 = 0x00000000#32 then .ok (.stB64 (w.extractLsb' 14 7) (w.extractLsb' 7 7) (w.extractLsb' 0 7)) else .error .reservedBits
  | _ => .error .unassignedFn

/-- Major 0x22 (Table 13). -/
def decodeMajor22 (w : IWord) : Except DecodeError Instr :=
  match (w.extractLsb' 22 4).toNat with
  | 0 => if w &&& 0x0020007F#32 = 0x0000007C#32 then .ok (.tagq (w.extractLsb' 14 7) (w.extractLsb' 7 7)) else .error .reservedBits
  | 1 => if w &&& 0x00200000#32 = 0x00000000#32 then .ok (.tagset (w.extractLsb' 14 7) (w.extractLsb' 7 7) (w.extractLsb' 0 7)) else .error .reservedBits
  | 2 => if w &&& 0x0020007F#32 = 0x0000007C#32 then .ok (.tagclr (w.extractLsb' 14 7) (w.extractLsb' 7 7)) else .error .reservedBits
  | 3 => if w &&& 0x00203FFF#32 = 0x00003E7C#32 then .ok (.taginv (w.extractLsb' 14 7)) else .error .reservedBits
  | _ => .error .unassignedFn

/-- Major 0x23 (Table 13). -/
def decodeMajor23 (w : IWord) : Except DecodeError Instr :=
  match (w.extractLsb' 22 4).toNat with
  | 0 => if w &&& 0x003FC07F#32 = 0x001F007E#32 then .ok (.copyIn (w.extractLsb' 7 7)) else .error .reservedBits
  | 1 => if w &&& 0x003FC07F#32 = 0x001F007E#32 then .ok (.copyOut (w.extractLsb' 7 7)) else .error .reservedBits
  | 2 => if w &&& 0x0020007F#32 = 0x0000007E#32 then .ok (.copyOutDigest (w.extractLsb' 14 7) (w.extractLsb' 7 7)) else .error .reservedBits
  | 3 => if w &&& 0x00203FFF#32 = 0x00003E7C#32 then .ok (.hget (w.extractLsb' 14 7)) else .error .reservedBits
  | 4 => if w &&& 0x0020007F#32 = 0x0000007C#32 then .ok (.hfree (w.extractLsb' 14 7) (w.extractLsb' 7 7)) else .error .reservedBits
  | 5 => if w &&& 0x0020007F#32 = 0x0000007C#32 then .ok (.hwait (w.extractLsb' 14 7) (w.extractLsb' 7 7)) else .error .reservedBits
  | _ => .error .unassignedFn

/-- Major 0x24 (Table 13). -/
def decodeMajor24 (w : IWord) : Except DecodeError Instr :=
  match (w.extractLsb' 22 4).toNat with
  | 0 => .ok (.atomAddZ32 (w.extractLsb' 21 1) (w.extractLsb' 14 7) (w.extractLsb' 7 7) (w.extractLsb' 0 7))
  | 1 => .ok (.atomAddZ64 (w.extractLsb' 21 1) (w.extractLsb' 14 7) (w.extractLsb' 7 7) (w.extractLsb' 0 7))
  | 2 => .ok (.atomXchgB32 (w.extractLsb' 21 1) (w.extractLsb' 14 7) (w.extractLsb' 7 7) (w.extractLsb' 0 7))
  | 3 => .ok (.atomCasB32 (w.extractLsb' 21 1) (w.extractLsb' 14 7) (w.extractLsb' 7 7) (w.extractLsb' 0 7))
  | 4 => .ok (.atomCasB64 (w.extractLsb' 21 1) (w.extractLsb' 14 7) (w.extractLsb' 7 7) (w.extractLsb' 0 7))
  | 5 => if w &&& 0x003FC000#32 = 0x001F0000#32 then .ok (.redAddF32 (w.extractLsb' 7 7) (w.extractLsb' 0 7)) else .error .reservedBits
  | 6 => if w &&& 0x003FC000#32 = 0x001F0000#32 then .ok (.redAddF64 (w.extractLsb' 7 7) (w.extractLsb' 0 7)) else .error .reservedBits
  | 7 => if w &&& 0x003FC000#32 = 0x001F0000#32 then .ok (.xaddF32 (w.extractLsb' 7 7) (w.extractLsb' 0 7)) else .error .reservedBits
  | 8 => if w &&& 0x0020007F#32 = 0x0000007C#32 then .ok (.xseal (w.extractLsb' 14 7) (w.extractLsb' 7 7)) else .error .reservedBits
  | 9 => if w &&& 0x003FC07F#32 = 0x001F007C#32 then .ok (.xzero (w.extractLsb' 7 7)) else .error .reservedBits
  | _ => .error .unassignedFn

/-- Major 0x25 (Table 13). -/
def decodeMajor25 (w : IWord) : Except DecodeError Instr :=
  match (w.extractLsb' 22 4).toNat with
  | 0 => if w &&& 0x003FC000#32 = 0x001F0000#32 then .ok (.bkmode (w.extractLsb' 7 7) (w.extractLsb' 0 7)) else .error .reservedBits
  | 1 => if w &&& 0x003FC000#32 = 0x001F0000#32 then .ok (.bkld (w.extractLsb' 7 7) (w.extractLsb' 0 7)) else .error .reservedBits
  | 2 => if w &&& 0x003FC000#32 = 0x001F0000#32 then .ok (.bkmac (w.extractLsb' 7 7) (w.extractLsb' 0 7)) else .error .reservedBits
  | 3 => if w &&& 0x003FC000#32 = 0x001F0000#32 then .ok (.bkrd (w.extractLsb' 7 7) (w.extractLsb' 0 7)) else .error .reservedBits
  | 4 => if w &&& 0x003FC000#32 = 0x001F0000#32 then .ok (.bkzero (w.extractLsb' 7 7) (w.extractLsb' 0 7)) else .error .reservedBits
  | 5 => if w &&& 0x003FFFFF#32 = 0x001F3E7C#32 then .ok (.bkwait) else .error .reservedBits
  | _ => .error .unassignedFn

/-- Major 0x26 (Table 13). -/
def decodeMajor26 (w : IWord) : Except DecodeError Instr :=
  match (w.extractLsb' 22 4).toNat with
  | 0 => if w &&& 0x00003FFF#32 = 0x00003E7C#32 then .ok (.cmtB (w.extractLsb' 21 1) (w.extractLsb' 14 7)) else .error .reservedBits
  | 1 => if w &&& 0x00003FFF#32 = 0x00003E7C#32 then .ok (.cmtT (w.extractLsb' 21 1) (w.extractLsb' 14 7)) else .error .reservedBits
  | 2 => if w &&& 0x00003FFF#32 = 0x00003E7C#32 then .ok (.cmtD (w.extractLsb' 21 1) (w.extractLsb' 14 7)) else .error .reservedBits
  | 3 => if w &&& 0x00003FFF#32 = 0x00003E7C#32 then .ok (.cmtBLw (w.extractLsb' 21 1) (w.extractLsb' 14 7)) else .error .reservedBits
  | 4 => if w &&& 0x00003FFF#32 = 0x00003E7C#32 then .ok (.cmtTLw (w.extractLsb' 21 1) (w.extractLsb' 14 7)) else .error .reservedBits
  | 5 => if w &&& 0x00003FFF#32 = 0x00003E7C#32 then .ok (.cmtDLw (w.extractLsb' 21 1) (w.extractLsb' 14 7)) else .error .reservedBits
  | 6 => if w &&& 0x003FFFFF#32 = 0x001F3E7C#32 then .ok (.abtW) else .error .reservedBits
  | 7 => if w &&& 0x003FFFFF#32 = 0x001F3E7C#32 then .ok (.abtB) else .error .reservedBits
  | 8 => if w &&& 0x003FFFFF#32 = 0x001F3E7C#32 then .ok (.abtT) else .error .reservedBits
  | 9 => if w &&& 0x003FFC7F#32 = 0x001F007C#32 then .ok (.fence (w.extractLsb' 7 3)) else .error .reservedBits
  | _ => .error .unassignedFn

/-- Major 0x27 (Table 13). -/
def decodeMajor27 (w : IWord) : Except DecodeError Instr :=
  match (w.extractLsb' 24 2).toNat with
  | 0 => if w &&& 0x00F00000#32 = 0x00000000#32 then .ok (.opnW (w.extractLsb' 0 20)) else .error .reservedBits
  | 1 => if w &&& 0x00F00000#32 = 0x00000000#32 then .ok (.opnB (w.extractLsb' 0 20)) else .error .reservedBits
  | 2 => if w &&& 0x00F00000#32 = 0x00000000#32 then .ok (.opnT (w.extractLsb' 0 20)) else .error .reservedBits
  | _ => .error .unassignedFn

/-- Major 0x28 (Table 13). -/
def decodeMajor28 (w : IWord) : Except DecodeError Instr :=
  match (w.extractLsb' 22 4).toNat with
  | 0 => if w &&& 0x003FC000#32 = 0x001F0000#32 then .ok (.cln (w.extractLsb' 7 7) (w.extractLsb' 0 7)) else .error .reservedBits
  | 1 => if w &&& 0x003FC000#32 = 0x001F0000#32 then .ok (.inv (w.extractLsb' 7 7) (w.extractLsb' 0 7)) else .error .reservedBits
  | 2 => if w &&& 0x003FC000#32 = 0x001F0000#32 then .ok (.cinv (w.extractLsb' 7 7) (w.extractLsb' 0 7)) else .error .reservedBits
  | _ => .error .unassignedFn

/-- Major 0x30 (Table 13). -/
def decodeMajor30 (w : IWord) : Except DecodeError Instr :=
  match (w.extractLsb' 24 2).toNat with
  | 0 => .ok (.brGuarded (w.extractLsb' 21 3) (w.extractLsb' 20 1) (w.extractLsb' 0 20))
  | 1 => .ok (.bryGuarded (w.extractLsb' 21 3) (w.extractLsb' 20 1) (w.extractLsb' 0 20))
  | 2 => .ok (.callGuarded (w.extractLsb' 21 3) (w.extractLsb' 20 1) (w.extractLsb' 0 20))
  | _ => .error .unassignedFn

/-- Major 0x31 (Table 13). -/
def decodeMajor31 (w : IWord) : Except DecodeError Instr :=
  match (w.extractLsb' 24 2).toNat with
  | 0 => if w &&& 0x00F00000#32 = 0x00000000#32 then .ok (.br (w.extractLsb' 0 20)) else .error .reservedBits
  | 1 => if w &&& 0x00F00000#32 = 0x00000000#32 then .ok (.bry (w.extractLsb' 0 20)) else .error .reservedBits
  | 2 => if w &&& 0x00F00000#32 = 0x00000000#32 then .ok (.call (w.extractLsb' 0 20)) else .error .reservedBits
  | _ => .error .unassignedFn

/-- Major 0x32 (Table 13). -/
def decodeMajor32 (w : IWord) : Except DecodeError Instr :=
  match (w.extractLsb' 22 4).toNat with
  | 0 => if w &&& 0x003FC07F#32 = 0x001F007C#32 then .ok (.callr (w.extractLsb' 7 7)) else .error .reservedBits
  | 1 => if w &&& 0x003FFFFF#32 = 0x001F3E7C#32 then .ok (.ret) else .error .reservedBits
  | 2 => if w &&& 0x003FC07F#32 = 0x001F007C#32 then .ok (.jmpr (w.extractLsb' 7 7)) else .error .reservedBits
  | 3 => if w &&& 0x003FFFFF#32 = 0x001F3E7C#32 then .ok (.exit) else .error .reservedBits
  | 4 => if w &&& 0x003FC07F#32 = 0x001F007C#32 then .ok (.trap (w.extractLsb' 7 7)) else .error .reservedBits
  | 5 => if w &&& 0x003FFFFF#32 = 0x001F3E7C#32 then .ok (.bsync) else .error .reservedBits
  | 6 => if w &&& 0x003FFFFF#32 = 0x001F3E7C#32 then .ok (.yield) else .error .reservedBits
  | 7 => if w &&& 0x003FFFFF#32 = 0x001F3E7C#32 then .ok (.nop) else .error .reservedBits
  | _ => .error .unassignedFn

/-- Major 0x33 (Table 13). -/
def decodeMajor33 (w : IWord) : Except DecodeError Instr :=
  match (w.extractLsb' 22 4).toNat with
  | 0 => if w &&& 0x003E3C7F#32 = 0x0000007C#32 then .ok (.lany (w.extractLsb' 14 3) (w.extractLsb' 7 3)) else .error .reservedBits
  | 1 => if w &&& 0x003E3C7F#32 = 0x0000007C#32 then .ok (.lall (w.extractLsb' 14 3) (w.extractLsb' 7 3)) else .error .reservedBits
  | 2 => if w &&& 0x00203C7F#32 = 0x0000007C#32 then .ok (.lbits (w.extractLsb' 14 7) (w.extractLsb' 7 3)) else .error .reservedBits
  | 3 => if w &&& 0x00200000#32 = 0x00000000#32 then .ok (.xlIdx (w.extractLsb' 14 7) (w.extractLsb' 7 7) (w.extractLsb' 0 7)) else .error .reservedBits
  | 4 => if w &&& 0x00200000#32 = 0x00000000#32 then .ok (.xlLo (w.extractLsb' 14 7) (w.extractLsb' 7 7) (w.extractLsb' 0 7)) else .error .reservedBits
  | 5 => if w &&& 0x00200000#32 = 0x00000000#32 then .ok (.xlHi (w.extractLsb' 14 7) (w.extractLsb' 7 7) (w.extractLsb' 0 7)) else .error .reservedBits
  | 6 => if w &&& 0x00200000#32 = 0x00000000#32 then .ok (.xlXor (w.extractLsb' 14 7) (w.extractLsb' 7 7) (w.extractLsb' 0 7)) else .error .reservedBits
  | 7 => if w &&& 0x0038007F#32 = 0x0000007C#32 then .ok (.sget (w.extractLsb' 14 5) (w.extractLsb' 7 7)) else .error .reservedBits
  | 8 => if w &&& 0x00200000#32 = 0x00000000#32 then .ok (.xlRot (w.extractLsb' 14 7) (w.extractLsb' 7 7) (w.extractLsb' 0 7)) else .error .reservedBits
  | _ => .error .unassignedFn

/-- Major 0x34 (Table 13). -/
def decodeMajor34 (w : IWord) : Except DecodeError Instr :=
  match (w.extractLsb' 22 4).toNat with
  | 0 => if w &&& 0x00200000#32 = 0x00000000#32 then .ok (.spawn (w.extractLsb' 14 7) (w.extractLsb' 7 7) (w.extractLsb' 0 7)) else .error .reservedBits
  | 1 => if w &&& 0x003FC000#32 = 0x001F0000#32 then .ok (.regroup (w.extractLsb' 7 7) (w.extractLsb' 0 7)) else .error .reservedBits
  | 2 => if w &&& 0x003FC07F#32 = 0x001F007C#32 then .ok (.racktm (w.extractLsb' 7 7)) else .error .reservedBits
  | _ => .error .unassignedFn

/-- Major 0x35 (Table 13). -/
def decodeMajor35 (w : IWord) : Except DecodeError Instr :=
  match (w.extractLsb' 22 4).toNat with
  | 0 => if w &&& 0x00200000#32 = 0x00000000#32 then .ok (.waitc (w.extractLsb' 14 7) (w.extractLsb' 7 7) (w.extractLsb' 0 7)) else .error .reservedBits
  | _ => .error .unassignedFn

/-- Major 0x38 (Table 13). -/
def decodeMajor38 (w : IWord) : Except DecodeError Instr :=
  match (w.extractLsb' 22 4).toNat with
  | 0 => if w &&& 0x00200000#32 = 0x00000000#32 then .ok (.spr (w.extractLsb' 14 7) (w.extractLsb' 0 14)) else .error .reservedBits
  | 1 => if w &&& 0x00380000#32 = 0x00000000#32 then .ok (.srd (w.extractLsb' 14 5) (w.extractLsb' 0 14)) else .error .reservedBits
  | 2 => if w &&& 0x00380000#32 = 0x00000000#32 then .ok (.swr (w.extractLsb' 14 5) (w.extractLsb' 0 14)) else .error .reservedBits
  | _ => .error .unassignedFn

/-- Major 0x39 (Table 13). -/
def decodeMajor39 (w : IWord) : Except DecodeError Instr :=
  match (w.extractLsb' 22 4).toNat with
  | 0 => if w &&& 0x0020007F#32 = 0x0000007C#32 then .ok (.ksclaim (w.extractLsb' 14 7) (w.extractLsb' 7 7)) else .error .reservedBits
  | 1 => if w &&& 0x0020007F#32 = 0x0000007C#32 then .ok (.ksrd (w.extractLsb' 14 7) (w.extractLsb' 7 7)) else .error .reservedBits
  | 2 => if w &&& 0x003FC000#32 = 0x001F0000#32 then .ok (.kswr (w.extractLsb' 7 7) (w.extractLsb' 0 7)) else .error .reservedBits
  | 3 => if w &&& 0x0020007F#32 = 0x0000007C#32 then .ok (.ksres (w.extractLsb' 14 7) (w.extractLsb' 7 7)) else .error .reservedBits
  | 4 => if w &&& 0x0020007F#32 = 0x0000007C#32 then .ok (.ksrty (w.extractLsb' 14 7) (w.extractLsb' 7 7)) else .error .reservedBits
  | 5 => if w &&& 0x00200000#32 = 0x00000000#32 then .ok (.ksdir (w.extractLsb' 14 7) (w.extractLsb' 7 7) (w.extractLsb' 0 7)) else .error .reservedBits
  | 6 => if w &&& 0x0020007F#32 = 0x0000007C#32 then .ok (.kskill (w.extractLsb' 14 7) (w.extractLsb' 7 7)) else .error .reservedBits
  | _ => .error .unassignedFn

/-- Major 0x3A (Table 13). -/
def decodeMajor3A (w : IWord) : Except DecodeError Instr :=
  match (w.extractLsb' 22 4).toNat with
  | 0 => if w &&& 0x00200000#32 = 0x00000000#32 then .ok (.qpost (w.extractLsb' 14 7) (w.extractLsb' 7 7) (w.extractLsb' 0 7)) else .error .reservedBits
  | 1 => if w &&& 0x0020007F#32 = 0x0000007C#32 then .ok (.qclk (w.extractLsb' 14 7) (w.extractLsb' 7 7)) else .error .reservedBits
  | _ => .error .unassignedFn

/-- Major 0x3C (Table 13). -/
def decodeMajor3C (w : IWord) : Except DecodeError Instr :=
  match (w.extractLsb' 22 4).toNat with
  | 0 => if w &&& 0x0020007F#32 = 0x0000007C#32 then .ok (.sigrd (w.extractLsb' 14 7) (w.extractLsb' 7 7)) else .error .reservedBits
  | 1 => if w &&& 0x003FFFFF#32 = 0x001F3E7C#32 then .ok (.sigclr) else .error .reservedBits
  | 2 => if w &&& 0x0020007F#32 = 0x0000007C#32 then .ok (.chkv (w.extractLsb' 14 7) (w.extractLsb' 7 7)) else .error .reservedBits
  | _ => .error .unassignedFn

/-- Major 0x3D (Table 13). -/
def decodeMajor3D (w : IWord) : Except DecodeError Instr :=
  match (w.extractLsb' 22 4).toNat with
  | 0 => if w &&& 0x00200000#32 = 0x00000000#32 then .ok (.scrub (w.extractLsb' 14 7) (w.extractLsb' 7 7) (w.extractLsb' 0 7)) else .error .reservedBits
  | 1 => if w &&& 0x00200000#32 = 0x00000000#32 then .ok (.asidld (w.extractLsb' 14 7) (w.extractLsb' 7 7) (w.extractLsb' 0 7)) else .error .reservedBits
  | 2 => if w &&& 0x0020007F#32 = 0x0000007C#32 then .ok (.pgret (w.extractLsb' 14 7) (w.extractLsb' 7 7)) else .error .reservedBits
  | 3 => if w &&& 0x00200000#32 = 0x00000000#32 then .ok (.wayq (w.extractLsb' 14 7) (w.extractLsb' 7 7) (w.extractLsb' 0 7)) else .error .reservedBits
  | 4 => if w &&& 0x00200000#32 = 0x00000000#32 then .ok (.tlbinv (w.extractLsb' 14 7) (w.extractLsb' 7 7) (w.extractLsb' 0 7)) else .error .reservedBits
  | 5 => if w &&& 0x0020007F#32 = 0x0000007C#32 then .ok (.kspool (w.extractLsb' 14 7) (w.extractLsb' 7 7)) else .error .reservedBits
  | _ => .error .unassignedFn

/-- Major 0x3F (Table 13). -/
def decodeMajor3F (w : IWord) : Except DecodeError Instr :=
  match (w.extractLsb' 24 2).toNat with
  | 0 => .ok (.wideImmediate (w.extractLsb' 0 24))
  | 1 => if w &&& 0x000000FF#32 = 0x00000000#32 then .ok (.modifierHint (w.extractLsb' 21 3) (w.extractLsb' 20 1) (w.extractLsb' 19 1) (w.extractLsb' 16 3) (w.extractLsb' 15 1) (w.extractLsb' 14 1) (w.extractLsb' 13 1) (w.extractLsb' 8 5)) else .error .reservedBits
  | 2 => if w &&& 0x000FFFFF#32 = 0x00000000#32 then .ok (.schedulingHint (w.extractLsb' 20 4)) else .error .reservedBits
  | _ => .error .unassignedFn

/-- The decoder: total on any word; R42's unassigned slots are rejected by name. -/
def decodeWord (w : IWord) : Except DecodeError Instr :=
  match (w.extractLsb' 26 6).toNat with
  | 1 => decodeMajor01 w
  | 2 => decodeMajor02 w
  | 3 => decodeMajor03 w
  | 4 => decodeMajor04 w
  | 5 => decodeMajor05 w
  | 6 => decodeMajor06 w
  | 7 => decodeMajor07 w
  | 8 => decodeMajor08 w
  | 9 => decodeMajor09 w
  | 16 => decodeMajor10 w
  | 17 => decodeMajor11 w
  | 18 => decodeMajor12 w
  | 19 => decodeMajor13 w
  | 20 => decodeMajor14 w
  | 21 => decodeMajor15 w
  | 22 => decodeMajor16 w
  | 23 => decodeMajor17 w
  | 24 => decodeMajor18 w
  | 25 => decodeMajor19 w
  | 32 => decodeMajor20 w
  | 33 => decodeMajor21 w
  | 34 => decodeMajor22 w
  | 35 => decodeMajor23 w
  | 36 => decodeMajor24 w
  | 37 => decodeMajor25 w
  | 38 => decodeMajor26 w
  | 39 => decodeMajor27 w
  | 40 => decodeMajor28 w
  | 48 => decodeMajor30 w
  | 49 => decodeMajor31 w
  | 50 => decodeMajor32 w
  | 51 => decodeMajor33 w
  | 52 => decodeMajor34 w
  | 53 => decodeMajor35 w
  | 56 => decodeMajor38 w
  | 57 => decodeMajor39 w
  | 58 => decodeMajor3A w
  | 60 => decodeMajor3C w
  | 61 => decodeMajor3D w
  | 63 => decodeMajor3F w
  | _ => .error .unassignedMajor

/-- The word at the head of a byte list, little-endian (R24). -/
def wordOfBytes : List Byte → Option (IWord × List Byte)
  | b0 :: b1 :: b2 :: b3 :: rest => some (b3 ++ b2 ++ b1 ++ b0, rest)
  | _ => none

/-- The bytes of a word as they stand in memory (R24, R4). -/
def bytesOfWord (w : IWord) : List Byte :=
  [w.extractLsb' 0 8, w.extractLsb' 8 8, w.extractLsb' 16 8, w.extractLsb' 24 8]

/-- Decode the instruction at the head of a byte list; the rest of the list comes back. -/
def decodeBytes (bs : List Byte) : Except DecodeError (Instr × List Byte) :=
  match wordOfBytes bs with
  | none => .error .truncated
  | some (w, rest) =>
    match decodeWord w with
    | .error e => .error e
    | .ok i => .ok (i, rest)

/-- What the decoder reads from an instruction whose bits are numbered as the opcode table numbers them. -/
def decodeTableWord (nbits w : Nat) : Option Instr :=
  match decodeBytes (bytesOfWord (BitVec.ofNat 32 (w % 2 ^ nbits))) with
  | .ok (i, _) => some i
  | .error _ => none

/-- The word of an instruction; an event has none. -/
def encode : Instr → Option IWord
  | .addB32 n d a b => some (0x04000000#32 ||| (n.setWidth 32 <<< 21) ||| (d.setWidth 32 <<< 14) ||| (a.setWidth 32 <<< 7) ||| b.setWidth 32)
  | .subB32 n d a b => some (0x04400000#32 ||| (n.setWidth 32 <<< 21) ||| (d.setWidth 32 <<< 14) ||| (a.setWidth 32 <<< 7) ||| b.setWidth 32)
  | .addsS32 n d a b => some (0x04800000#32 ||| (n.setWidth 32 <<< 21) ||| (d.setWidth 32 <<< 14) ||| (a.setWidth 32 <<< 7) ||| b.setWidth 32)
  | .subsS32 n d a b => some (0x04C00000#32 ||| (n.setWidth 32 <<< 21) ||| (d.setWidth 32 <<< 14) ||| (a.setWidth 32 <<< 7) ||| b.setWidth 32)
  | .minS32 n d a b => some (0x05000000#32 ||| (n.setWidth 32 <<< 21) ||| (d.setWidth 32 <<< 14) ||| (a.setWidth 32 <<< 7) ||| b.setWidth 32)
  | .minZ32 n d a b => some (0x05400000#32 ||| (n.setWidth 32 <<< 21) ||| (d.setWidth 32 <<< 14) ||| (a.setWidth 32 <<< 7) ||| b.setWidth 32)
  | .maxS32 n d a b => some (0x05800000#32 ||| (n.setWidth 32 <<< 21) ||| (d.setWidth 32 <<< 14) ||| (a.setWidth 32 <<< 7) ||| b.setWidth 32)
  | .maxZ32 n d a b => some (0x05C00000#32 ||| (n.setWidth 32 <<< 21) ||| (d.setWidth 32 <<< 14) ||| (a.setWidth 32 <<< 7) ||| b.setWidth 32)
  | .mulB32 n d a b => some (0x08000000#32 ||| (n.setWidth 32 <<< 21) ||| (d.setWidth 32 <<< 14) ||| (a.setWidth 32 <<< 7) ||| b.setWidth 32)
  | .mulhiS32 n d a b => some (0x08400000#32 ||| (n.setWidth 32 <<< 21) ||| (d.setWidth 32 <<< 14) ||| (a.setWidth 32 <<< 7) ||| b.setWidth 32)
  | .mulhiZ32 n d a b => some (0x08800000#32 ||| (n.setWidth 32 <<< 21) ||| (d.setWidth 32 <<< 14) ||| (a.setWidth 32 <<< 7) ||| b.setWidth 32)
  | .divS32 n d a b => some (0x08C00000#32 ||| (n.setWidth 32 <<< 21) ||| (d.setWidth 32 <<< 14) ||| (a.setWidth 32 <<< 7) ||| b.setWidth 32)
  | .divZ32 n d a b => some (0x09000000#32 ||| (n.setWidth 32 <<< 21) ||| (d.setWidth 32 <<< 14) ||| (a.setWidth 32 <<< 7) ||| b.setWidth 32)
  | .remS32 n d a b => some (0x09400000#32 ||| (n.setWidth 32 <<< 21) ||| (d.setWidth 32 <<< 14) ||| (a.setWidth 32 <<< 7) ||| b.setWidth 32)
  | .remZ32 n d a b => some (0x09800000#32 ||| (n.setWidth 32 <<< 21) ||| (d.setWidth 32 <<< 14) ||| (a.setWidth 32 <<< 7) ||| b.setWidth 32)
  | .andB32 n d a b => some (0x0C000000#32 ||| (n.setWidth 32 <<< 21) ||| (d.setWidth 32 <<< 14) ||| (a.setWidth 32 <<< 7) ||| b.setWidth 32)
  | .orB32 n d a b => some (0x0C400000#32 ||| (n.setWidth 32 <<< 21) ||| (d.setWidth 32 <<< 14) ||| (a.setWidth 32 <<< 7) ||| b.setWidth 32)
  | .xorB32 n d a b => some (0x0C800000#32 ||| (n.setWidth 32 <<< 21) ||| (d.setWidth 32 <<< 14) ||| (a.setWidth 32 <<< 7) ||| b.setWidth 32)
  | .shlB32 n d a b => some (0x0CC00000#32 ||| (n.setWidth 32 <<< 21) ||| (d.setWidth 32 <<< 14) ||| (a.setWidth 32 <<< 7) ||| b.setWidth 32)
  | .shrZ32 n d a b => some (0x0D000000#32 ||| (n.setWidth 32 <<< 21) ||| (d.setWidth 32 <<< 14) ||| (a.setWidth 32 <<< 7) ||| b.setWidth 32)
  | .shrS32 n d a b => some (0x0D400000#32 ||| (n.setWidth 32 <<< 21) ||| (d.setWidth 32 <<< 14) ||| (a.setWidth 32 <<< 7) ||| b.setWidth 32)
  | .popcB32 n d a => some (0x0D80007C#32 ||| (n.setWidth 32 <<< 21) ||| (d.setWidth 32 <<< 14) ||| (a.setWidth 32 <<< 7))
  | .clzB32 n d a => some (0x0DC0007C#32 ||| (n.setWidth 32 <<< 21) ||| (d.setWidth 32 <<< 14) ||| (a.setWidth 32 <<< 7))
  | .addB32Imm n d a i => some (0x10000000#32 ||| (n.setWidth 32 <<< 21) ||| (d.setWidth 32 <<< 14) ||| (a.setWidth 32 <<< 7) ||| i.setWidth 32)
  | .andB32Imm n d a i => some (0x10400000#32 ||| (n.setWidth 32 <<< 21) ||| (d.setWidth 32 <<< 14) ||| (a.setWidth 32 <<< 7) ||| i.setWidth 32)
  | .shlB32Imm n d a i => some (0x10800000#32 ||| (n.setWidth 32 <<< 21) ||| (d.setWidth 32 <<< 14) ||| (a.setWidth 32 <<< 7) ||| i.setWidth 32)
  | .shrZ32Imm n d a i => some (0x10C00000#32 ||| (n.setWidth 32 <<< 21) ||| (d.setWidth 32 <<< 14) ||| (a.setWidth 32 <<< 7) ||| i.setWidth 32)
  | .addB64 n d a b => some (0x14000000#32 ||| (n.setWidth 32 <<< 21) ||| (d.setWidth 32 <<< 14) ||| (a.setWidth 32 <<< 7) ||| b.setWidth 32)
  | .subB64 n d a b => some (0x14400000#32 ||| (n.setWidth 32 <<< 21) ||| (d.setWidth 32 <<< 14) ||| (a.setWidth 32 <<< 7) ||| b.setWidth 32)
  | .mulB64 n d a b => some (0x14800000#32 ||| (n.setWidth 32 <<< 21) ||| (d.setWidth 32 <<< 14) ||| (a.setWidth 32 <<< 7) ||| b.setWidth 32)
  | .shlB64 n d a b => some (0x14C00000#32 ||| (n.setWidth 32 <<< 21) ||| (d.setWidth 32 <<< 14) ||| (a.setWidth 32 <<< 7) ||| b.setWidth 32)
  | .shrZ64 n d a b => some (0x15000000#32 ||| (n.setWidth 32 <<< 21) ||| (d.setWidth 32 <<< 14) ||| (a.setWidth 32 <<< 7) ||| b.setWidth 32)
  | .shrS64 n d a b => some (0x15400000#32 ||| (n.setWidth 32 <<< 21) ||| (d.setWidth 32 <<< 14) ||| (a.setWidth 32 <<< 7) ||| b.setWidth 32)
  | .bfxZ32 n d a b => some (0x18000000#32 ||| (n.setWidth 32 <<< 21) ||| (d.setWidth 32 <<< 14) ||| (a.setWidth 32 <<< 7) ||| b.setWidth 32)
  | .bfxS32 n d a b => some (0x18400000#32 ||| (n.setWidth 32 <<< 21) ||| (d.setWidth 32 <<< 14) ||| (a.setWidth 32 <<< 7) ||| b.setWidth 32)
  | .bfiB32 n d a b => some (0x18800000#32 ||| (n.setWidth 32 <<< 21) ||| (d.setWidth 32 <<< 14) ||| (a.setWidth 32 <<< 7) ||| b.setWidth 32)
  | .cmpEqB32 n p a b => some (0x1C000000#32 ||| (n.setWidth 32 <<< 21) ||| (p.setWidth 32 <<< 14) ||| (a.setWidth 32 <<< 7) ||| b.setWidth 32)
  | .cmpNeB32 n p a b => some (0x1C400000#32 ||| (n.setWidth 32 <<< 21) ||| (p.setWidth 32 <<< 14) ||| (a.setWidth 32 <<< 7) ||| b.setWidth 32)
  | .cmpLtS32 n p a b => some (0x1C800000#32 ||| (n.setWidth 32 <<< 21) ||| (p.setWidth 32 <<< 14) ||| (a.setWidth 32 <<< 7) ||| b.setWidth 32)
  | .cmpLtZ32 n p a b => some (0x1CC00000#32 ||| (n.setWidth 32 <<< 21) ||| (p.setWidth 32 <<< 14) ||| (a.setWidth 32 <<< 7) ||| b.setWidth 32)
  | .cmpEqB64 n p a b => some (0x1D000000#32 ||| (n.setWidth 32 <<< 21) ||| (p.setWidth 32 <<< 14) ||| (a.setWidth 32 <<< 7) ||| b.setWidth 32)
  | .cmpLtS64 n p a b => some (0x1D400000#32 ||| (n.setWidth 32 <<< 21) ||| (p.setWidth 32 <<< 14) ||| (a.setWidth 32 <<< 7) ||| b.setWidth 32)
  | .cmpLtZ64 n p a b => some (0x1D800000#32 ||| (n.setWidth 32 <<< 21) ||| (p.setWidth 32 <<< 14) ||| (a.setWidth 32 <<< 7) ||| b.setWidth 32)
  | .saddB64 d a b => some (0x20000000#32 ||| (d.setWidth 32 <<< 16) ||| (a.setWidth 32 <<< 11) ||| (b.setWidth 32 <<< 6))
  | .saddB64Imm d a i => some (0x20200000#32 ||| (d.setWidth 32 <<< 16) ||| (a.setWidth 32 <<< 11) ||| i.setWidth 32)
  | .ssubB64 d a b => some (0x20400000#32 ||| (d.setWidth 32 <<< 16) ||| (a.setWidth 32 <<< 11) ||| (b.setWidth 32 <<< 6))
  | .ssubB64Imm d a i => some (0x20600000#32 ||| (d.setWidth 32 <<< 16) ||| (a.setWidth 32 <<< 11) ||| i.setWidth 32)
  | .smulB64 d a b => some (0x20800000#32 ||| (d.setWidth 32 <<< 16) ||| (a.setWidth 32 <<< 11) ||| (b.setWidth 32 <<< 6))
  | .smulB64Imm d a i => some (0x20A00000#32 ||| (d.setWidth 32 <<< 16) ||| (a.setWidth 32 <<< 11) ||| i.setWidth 32)
  | .sandB64 d a b => some (0x20C00000#32 ||| (d.setWidth 32 <<< 16) ||| (a.setWidth 32 <<< 11) ||| (b.setWidth 32 <<< 6))
  | .sandB64Imm d a i => some (0x20E00000#32 ||| (d.setWidth 32 <<< 16) ||| (a.setWidth 32 <<< 11) ||| i.setWidth 32)
  | .sorB64 d a b => some (0x21000000#32 ||| (d.setWidth 32 <<< 16) ||| (a.setWidth 32 <<< 11) ||| (b.setWidth 32 <<< 6))
  | .sorB64Imm d a i => some (0x21200000#32 ||| (d.setWidth 32 <<< 16) ||| (a.setWidth 32 <<< 11) ||| i.setWidth 32)
  | .sxorB64 d a b => some (0x21400000#32 ||| (d.setWidth 32 <<< 16) ||| (a.setWidth 32 <<< 11) ||| (b.setWidth 32 <<< 6))
  | .sxorB64Imm d a i => some (0x21600000#32 ||| (d.setWidth 32 <<< 16) ||| (a.setWidth 32 <<< 11) ||| i.setWidth 32)
  | .sshlB64 d a b => some (0x21800000#32 ||| (d.setWidth 32 <<< 16) ||| (a.setWidth 32 <<< 11) ||| (b.setWidth 32 <<< 6))
  | .sshlB64Imm d a i => some (0x21A00000#32 ||| (d.setWidth 32 <<< 16) ||| (a.setWidth 32 <<< 11) ||| i.setWidth 32)
  | .sshrZ64 d a b => some (0x21C00000#32 ||| (d.setWidth 32 <<< 16) ||| (a.setWidth 32 <<< 11) ||| (b.setWidth 32 <<< 6))
  | .sshrZ64Imm d a i => some (0x21E00000#32 ||| (d.setWidth 32 <<< 16) ||| (a.setWidth 32 <<< 11) ||| i.setWidth 32)
  | .smovB64 d a => some (0x22000000#32 ||| (d.setWidth 32 <<< 16) ||| (a.setWidth 32 <<< 11))
  | .smovB64Imm d i => some (0x22200000#32 ||| (d.setWidth 32 <<< 16) ||| i.setWidth 32)
  | .scmpEqB64 d a b => some (0x24000000#32 ||| (d.setWidth 32 <<< 16) ||| (a.setWidth 32 <<< 11) ||| (b.setWidth 32 <<< 6))
  | .scmpEqB64Imm d a i => some (0x24200000#32 ||| (d.setWidth 32 <<< 16) ||| (a.setWidth 32 <<< 11) ||| i.setWidth 32)
  | .scmpLtS64 d a b => some (0x24400000#32 ||| (d.setWidth 32 <<< 16) ||| (a.setWidth 32 <<< 11) ||| (b.setWidth 32 <<< 6))
  | .scmpLtS64Imm d a i => some (0x24600000#32 ||| (d.setWidth 32 <<< 16) ||| (a.setWidth 32 <<< 11) ||| i.setWidth 32)
  | .scmpLtZ64 d a b => some (0x24800000#32 ||| (d.setWidth 32 <<< 16) ||| (a.setWidth 32 <<< 11) ||| (b.setWidth 32 <<< 6))
  | .scmpLtZ64Imm d a i => some (0x24A00000#32 ||| (d.setWidth 32 <<< 16) ||| (a.setWidth 32 <<< 11) ||| i.setWidth 32)
  | .addF32 n d a b => some (0x40000000#32 ||| (n.setWidth 32 <<< 21) ||| (d.setWidth 32 <<< 14) ||| (a.setWidth 32 <<< 7) ||| b.setWidth 32)
  | .subF32 n d a b => some (0x40400000#32 ||| (n.setWidth 32 <<< 21) ||| (d.setWidth 32 <<< 14) ||| (a.setWidth 32 <<< 7) ||| b.setWidth 32)
  | .mulF32 n d a b => some (0x40800000#32 ||| (n.setWidth 32 <<< 21) ||| (d.setWidth 32 <<< 14) ||| (a.setWidth 32 <<< 7) ||| b.setWidth 32)
  | .fmaF32 n d a b => some (0x40C00000#32 ||| (n.setWidth 32 <<< 21) ||| (d.setWidth 32 <<< 14) ||| (a.setWidth 32 <<< 7) ||| b.setWidth 32)
  | .divF32 n d a b => some (0x41000000#32 ||| (n.setWidth 32 <<< 21) ||| (d.setWidth 32 <<< 14) ||| (a.setWidth 32 <<< 7) ||| b.setWidth 32)
  | .minF32 n d a b => some (0x41400000#32 ||| (n.setWidth 32 <<< 21) ||| (d.setWidth 32 <<< 14) ||| (a.setWidth 32 <<< 7) ||| b.setWidth 32)
  | .maxF32 n d a b => some (0x41800000#32 ||| (n.setWidth 32 <<< 21) ||| (d.setWidth 32 <<< 14) ||| (a.setWidth 32 <<< 7) ||| b.setWidth 32)
  | .sqrtF32 n d a => some (0x41C0007C#32 ||| (n.setWidth 32 <<< 21) ||| (d.setWidth 32 <<< 14) ||| (a.setWidth 32 <<< 7))
  | .rcpF32 n d a => some (0x4200007C#32 ||| (n.setWidth 32 <<< 21) ||| (d.setWidth 32 <<< 14) ||| (a.setWidth 32 <<< 7))
  | .rsqF32 n d a => some (0x4240007C#32 ||| (n.setWidth 32 <<< 21) ||| (d.setWidth 32 <<< 14) ||| (a.setWidth 32 <<< 7))
  | .exp2F32 n d a => some (0x4280007C#32 ||| (n.setWidth 32 <<< 21) ||| (d.setWidth 32 <<< 14) ||| (a.setWidth 32 <<< 7))
  | .log2F32 n d a => some (0x42C0007C#32 ||| (n.setWidth 32 <<< 21) ||| (d.setWidth 32 <<< 14) ||| (a.setWidth 32 <<< 7))
  | .sinpiF32 n d a => some (0x4300007C#32 ||| (n.setWidth 32 <<< 21) ||| (d.setWidth 32 <<< 14) ||| (a.setWidth 32 <<< 7))
  | .cospiF32 n d a => some (0x4340007C#32 ||| (n.setWidth 32 <<< 21) ||| (d.setWidth 32 <<< 14) ||| (a.setWidth 32 <<< 7))
  | .addF64 n d a b => some (0x44000000#32 ||| (n.setWidth 32 <<< 21) ||| (d.setWidth 32 <<< 14) ||| (a.setWidth 32 <<< 7) ||| b.setWidth 32)
  | .subF64 n d a b => some (0x44400000#32 ||| (n.setWidth 32 <<< 21) ||| (d.setWidth 32 <<< 14) ||| (a.setWidth 32 <<< 7) ||| b.setWidth 32)
  | .mulF64 n d a b => some (0x44800000#32 ||| (n.setWidth 32 <<< 21) ||| (d.setWidth 32 <<< 14) ||| (a.setWidth 32 <<< 7) ||| b.setWidth 32)
  | .fmaF64 n d a b => some (0x44C00000#32 ||| (n.setWidth 32 <<< 21) ||| (d.setWidth 32 <<< 14) ||| (a.setWidth 32 <<< 7) ||| b.setWidth 32)
  | .divF64 n d a b => some (0x45000000#32 ||| (n.setWidth 32 <<< 21) ||| (d.setWidth 32 <<< 14) ||| (a.setWidth 32 <<< 7) ||| b.setWidth 32)
  | .minF64 n d a b => some (0x45400000#32 ||| (n.setWidth 32 <<< 21) ||| (d.setWidth 32 <<< 14) ||| (a.setWidth 32 <<< 7) ||| b.setWidth 32)
  | .maxF64 n d a b => some (0x45800000#32 ||| (n.setWidth 32 <<< 21) ||| (d.setWidth 32 <<< 14) ||| (a.setWidth 32 <<< 7) ||| b.setWidth 32)
  | .sqrtF64 n d a => some (0x45C0007C#32 ||| (n.setWidth 32 <<< 21) ||| (d.setWidth 32 <<< 14) ||| (a.setWidth 32 <<< 7))
  | .addF16 n d a b => some (0x48000000#32 ||| (n.setWidth 32 <<< 21) ||| (d.setWidth 32 <<< 14) ||| (a.setWidth 32 <<< 7) ||| b.setWidth 32)
  | .subF16 n d a b => some (0x48400000#32 ||| (n.setWidth 32 <<< 21) ||| (d.setWidth 32 <<< 14) ||| (a.setWidth 32 <<< 7) ||| b.setWidth 32)
  | .mulF16 n d a b => some (0x48800000#32 ||| (n.setWidth 32 <<< 21) ||| (d.setWidth 32 <<< 14) ||| (a.setWidth 32 <<< 7) ||| b.setWidth 32)
  | .fmaF16 n d a b => some (0x48C00000#32 ||| (n.setWidth 32 <<< 21) ||| (d.setWidth 32 <<< 14) ||| (a.setWidth 32 <<< 7) ||| b.setWidth 32)
  | .divF16 n d a b => some (0x49000000#32 ||| (n.setWidth 32 <<< 21) ||| (d.setWidth 32 <<< 14) ||| (a.setWidth 32 <<< 7) ||| b.setWidth 32)
  | .addBf16 n d a b => some (0x4A000000#32 ||| (n.setWidth 32 <<< 21) ||| (d.setWidth 32 <<< 14) ||| (a.setWidth 32 <<< 7) ||| b.setWidth 32)
  | .subBf16 n d a b => some (0x4A400000#32 ||| (n.setWidth 32 <<< 21) ||| (d.setWidth 32 <<< 14) ||| (a.setWidth 32 <<< 7) ||| b.setWidth 32)
  | .mulBf16 n d a b => some (0x4A800000#32 ||| (n.setWidth 32 <<< 21) ||| (d.setWidth 32 <<< 14) ||| (a.setWidth 32 <<< 7) ||| b.setWidth 32)
  | .fmaBf16 n d a b => some (0x4AC00000#32 ||| (n.setWidth 32 <<< 21) ||| (d.setWidth 32 <<< 14) ||| (a.setWidth 32 <<< 7) ||| b.setWidth 32)
  | .sqrtF16 n d a => some (0x4C00007C#32 ||| (n.setWidth 32 <<< 21) ||| (d.setWidth 32 <<< 14) ||| (a.setWidth 32 <<< 7))
  | .rcpF16 n d a => some (0x4C40007C#32 ||| (n.setWidth 32 <<< 21) ||| (d.setWidth 32 <<< 14) ||| (a.setWidth 32 <<< 7))
  | .rsqF16 n d a => some (0x4C80007C#32 ||| (n.setWidth 32 <<< 21) ||| (d.setWidth 32 <<< 14) ||| (a.setWidth 32 <<< 7))
  | .exp2F16 n d a => some (0x4CC0007C#32 ||| (n.setWidth 32 <<< 21) ||| (d.setWidth 32 <<< 14) ||| (a.setWidth 32 <<< 7))
  | .log2F16 n d a => some (0x4D00007C#32 ||| (n.setWidth 32 <<< 21) ||| (d.setWidth 32 <<< 14) ||| (a.setWidth 32 <<< 7))
  | .cmpEqF32 n p a b => some (0x50000000#32 ||| (n.setWidth 32 <<< 21) ||| (p.setWidth 32 <<< 14) ||| (a.setWidth 32 <<< 7) ||| b.setWidth 32)
  | .cmpLtF32 n p a b => some (0x50400000#32 ||| (n.setWidth 32 <<< 21) ||| (p.setWidth 32 <<< 14) ||| (a.setWidth 32 <<< 7) ||| b.setWidth 32)
  | .cmpLeF32 n p a b => some (0x50800000#32 ||| (n.setWidth 32 <<< 21) ||| (p.setWidth 32 <<< 14) ||| (a.setWidth 32 <<< 7) ||| b.setWidth 32)
  | .cmpEqF64 n p a b => some (0x50C00000#32 ||| (n.setWidth 32 <<< 21) ||| (p.setWidth 32 <<< 14) ||| (a.setWidth 32 <<< 7) ||| b.setWidth 32)
  | .cmpLtF64 n p a b => some (0x51000000#32 ||| (n.setWidth 32 <<< 21) ||| (p.setWidth 32 <<< 14) ||| (a.setWidth 32 <<< 7) ||| b.setWidth 32)
  | .cmpLeF64 n p a b => some (0x51400000#32 ||| (n.setWidth 32 <<< 21) ||| (p.setWidth 32 <<< 14) ||| (a.setWidth 32 <<< 7) ||| b.setWidth 32)
  | .cvtF64F32 n d a => some (0x5400007C#32 ||| (n.setWidth 32 <<< 21) ||| (d.setWidth 32 <<< 14) ||| (a.setWidth 32 <<< 7))
  | .cvtF32F64 n d a => some (0x5440007C#32 ||| (n.setWidth 32 <<< 21) ||| (d.setWidth 32 <<< 14) ||| (a.setWidth 32 <<< 7))
  | .cvtF32F16 n d a => some (0x5480007C#32 ||| (n.setWidth 32 <<< 21) ||| (d.setWidth 32 <<< 14) ||| (a.setWidth 32 <<< 7))
  | .cvtF16F32 n d a => some (0x54C0007C#32 ||| (n.setWidth 32 <<< 21) ||| (d.setWidth 32 <<< 14) ||| (a.setWidth 32 <<< 7))
  | .cvtF32Bf16 n d a => some (0x5500007C#32 ||| (n.setWidth 32 <<< 21) ||| (d.setWidth 32 <<< 14) ||| (a.setWidth 32 <<< 7))
  | .cvtBf16F32 n d a => some (0x5540007C#32 ||| (n.setWidth 32 <<< 21) ||| (d.setWidth 32 <<< 14) ||| (a.setWidth 32 <<< 7))
  | .cvtS32F32 n d a => some (0x5580007C#32 ||| (n.setWidth 32 <<< 21) ||| (d.setWidth 32 <<< 14) ||| (a.setWidth 32 <<< 7))
  | .cvtZ32F32 n d a => some (0x55C0007C#32 ||| (n.setWidth 32 <<< 21) ||| (d.setWidth 32 <<< 14) ||| (a.setWidth 32 <<< 7))
  | .cvtF32S32 n d a => some (0x5600007C#32 ||| (n.setWidth 32 <<< 21) ||| (d.setWidth 32 <<< 14) ||| (a.setWidth 32 <<< 7))
  | .cvtF32Z32 n d a => some (0x5640007C#32 ||| (n.setWidth 32 <<< 21) ||| (d.setWidth 32 <<< 14) ||| (a.setWidth 32 <<< 7))
  | .cvtS64F64 n d a => some (0x5680007C#32 ||| (n.setWidth 32 <<< 21) ||| (d.setWidth 32 <<< 14) ||| (a.setWidth 32 <<< 7))
  | .cvtF64S64 n d a => some (0x56C0007C#32 ||| (n.setWidth 32 <<< 21) ||| (d.setWidth 32 <<< 14) ||| (a.setWidth 32 <<< 7))
  | .rdcAddF32 n d a => some (0x5800007C#32 ||| (n.setWidth 32 <<< 21) ||| (d.setWidth 32 <<< 14) ||| (a.setWidth 32 <<< 7))
  | .rdcAddF64 n d a => some (0x5840007C#32 ||| (n.setWidth 32 <<< 21) ||| (d.setWidth 32 <<< 14) ||| (a.setWidth 32 <<< 7))
  | .rdcMinF32 n d a => some (0x5880007C#32 ||| (n.setWidth 32 <<< 21) ||| (d.setWidth 32 <<< 14) ||| (a.setWidth 32 <<< 7))
  | .rdcMaxF32 n d a => some (0x58C0007C#32 ||| (n.setWidth 32 <<< 21) ||| (d.setWidth 32 <<< 14) ||| (a.setWidth 32 <<< 7))
  | .rdcAddS32 n d a => some (0x5900007C#32 ||| (n.setWidth 32 <<< 21) ||| (d.setWidth 32 <<< 14) ||| (a.setWidth 32 <<< 7))
  | .rdcAddZ64 n d a => some (0x5940007C#32 ||| (n.setWidth 32 <<< 21) ||| (d.setWidth 32 <<< 14) ||| (a.setWidth 32 <<< 7))
  | .rngxB32 n d a b => some (0x5C000000#32 ||| (n.setWidth 32 <<< 21) ||| (d.setWidth 32 <<< 14) ||| (a.setWidth 32 <<< 7) ||| b.setWidth 32)
  | .rngxB64 n d a b => some (0x5C400000#32 ||| (n.setWidth 32 <<< 21) ||| (d.setWidth 32 <<< 14) ||| (a.setWidth 32 <<< 7) ||| b.setWidth 32)
  | .mma a => some (0x601F007C#32 ||| (a.setWidth 32 <<< 7))
  | .mread d a => some (0x6040007C#32 ||| (d.setWidth 32 <<< 14) ||| (a.setWidth 32 <<< 7))
  | .mwrite a b => some (0x609F0000#32 ||| (a.setWidth 32 <<< 7) ||| b.setWidth 32)
  | .mzero a => some (0x60DF007C#32 ||| (a.setWidth 32 <<< 7))
  | .mstat d a b => some (0x61000000#32 ||| (d.setWidth 32 <<< 14) ||| (a.setWidth 32 <<< 7) ||| b.setWidth 32)
  | .mwin d a b => some (0x61400000#32 ||| (d.setWidth 32 <<< 14) ||| (a.setWidth 32 <<< 7) ||| b.setWidth 32)
  | .crsv d a => some (0x6180007C#32 ||| (d.setWidth 32 <<< 14) ||| (a.setWidth 32 <<< 7))
  | .crel d a => some (0x61C0007C#32 ||| (d.setWidth 32 <<< 14) ||| (a.setWidth 32 <<< 7))
  | .quantAq8 d a g => some (0x64000000#32 ||| (d.setWidth 32 <<< 14) ||| (a.setWidth 32 <<< 7) ||| g.setWidth 32)
  | .quantAq4 d a g => some (0x64400000#32 ||| (d.setWidth 32 <<< 14) ||| (a.setWidth 32 <<< 7) ||| g.setWidth 32)
  | .dquantAq8 d a g => some (0x64800000#32 ||| (d.setWidth 32 <<< 14) ||| (a.setWidth 32 <<< 7) ||| g.setWidth 32)
  | .dquantAq4 d a g => some (0x64C00000#32 ||| (d.setWidth 32 <<< 14) ||| (a.setWidth 32 <<< 7) ||| g.setWidth 32)
  | .ldZ8 d a o => some (0x80000000#32 ||| (d.setWidth 32 <<< 14) ||| (a.setWidth 32 <<< 7) ||| o.setWidth 32)
  | .ldS8 d a o => some (0x80400000#32 ||| (d.setWidth 32 <<< 14) ||| (a.setWidth 32 <<< 7) ||| o.setWidth 32)
  | .ldZ16 d a o => some (0x80800000#32 ||| (d.setWidth 32 <<< 14) ||| (a.setWidth 32 <<< 7) ||| o.setWidth 32)
  | .ldS16 d a o => some (0x80C00000#32 ||| (d.setWidth 32 <<< 14) ||| (a.setWidth 32 <<< 7) ||| o.setWidth 32)
  | .ldB32 d a o => some (0x81000000#32 ||| (d.setWidth 32 <<< 14) ||| (a.setWidth 32 <<< 7) ||| o.setWidth 32)
  | .ldB64 d a o => some (0x81400000#32 ||| (d.setWidth 32 <<< 14) ||| (a.setWidth 32 <<< 7) ||| o.setWidth 32)
  | .stB8 d a o => some (0x84000000#32 ||| (d.setWidth 32 <<< 14) ||| (a.setWidth 32 <<< 7) ||| o.setWidth 32)
  | .stB16 d a o => some (0x84400000#32 ||| (d.setWidth 32 <<< 14) ||| (a.setWidth 32 <<< 7) ||| o.setWidth 32)
  | .stB32 d a o => some (0x84800000#32 ||| (d.setWidth 32 <<< 14) ||| (a.setWidth 32 <<< 7) ||| o.setWidth 32)
  | .stB64 d a o => some (0x84C00000#32 ||| (d.setWidth 32 <<< 14) ||| (a.setWidth 32 <<< 7) ||| o.setWidth 32)
  | .tagq d a => some (0x8800007C#32 ||| (d.setWidth 32 <<< 14) ||| (a.setWidth 32 <<< 7))
  | .tagset d a b => some (0x88400000#32 ||| (d.setWidth 32 <<< 14) ||| (a.setWidth 32 <<< 7) ||| b.setWidth 32)
  | .tagclr d a => some (0x8880007C#32 ||| (d.setWidth 32 <<< 14) ||| (a.setWidth 32 <<< 7))
  | .taginv d => some (0x88C03E7C#32 ||| (d.setWidth 32 <<< 14))
  | .copyIn a => some (0x8C1F007E#32 ||| (a.setWidth 32 <<< 7))
  | .copyOut a => some (0x8C5F007E#32 ||| (a.setWidth 32 <<< 7))
  | .copyOutDigest d a => some (0x8C80007E#32 ||| (d.setWidth 32 <<< 14) ||| (a.setWidth 32 <<< 7))
  | .hget d => some (0x8CC03E7C#32 ||| (d.setWidth 32 <<< 14))
  | .hfree d a => some (0x8D00007C#32 ||| (d.setWidth 32 <<< 14) ||| (a.setWidth 32 <<< 7))
  | .hwait d a => some (0x8D40007C#32 ||| (d.setWidth 32 <<< 14) ||| (a.setWidth 32 <<< 7))
  | .atomAddZ32 n d a b => some (0x90000000#32 ||| (n.setWidth 32 <<< 21) ||| (d.setWidth 32 <<< 14) ||| (a.setWidth 32 <<< 7) ||| b.setWidth 32)
  | .atomAddZ64 n d a b => some (0x90400000#32 ||| (n.setWidth 32 <<< 21) ||| (d.setWidth 32 <<< 14) ||| (a.setWidth 32 <<< 7) ||| b.setWidth 32)
  | .atomXchgB32 n d a b => some (0x90800000#32 ||| (n.setWidth 32 <<< 21) ||| (d.setWidth 32 <<< 14) ||| (a.setWidth 32 <<< 7) ||| b.setWidth 32)
  | .atomCasB32 n d a b => some (0x90C00000#32 ||| (n.setWidth 32 <<< 21) ||| (d.setWidth 32 <<< 14) ||| (a.setWidth 32 <<< 7) ||| b.setWidth 32)
  | .atomCasB64 n d a b => some (0x91000000#32 ||| (n.setWidth 32 <<< 21) ||| (d.setWidth 32 <<< 14) ||| (a.setWidth 32 <<< 7) ||| b.setWidth 32)
  | .redAddF32 a b => some (0x915F0000#32 ||| (a.setWidth 32 <<< 7) ||| b.setWidth 32)
  | .redAddF64 a b => some (0x919F0000#32 ||| (a.setWidth 32 <<< 7) ||| b.setWidth 32)
  | .xaddF32 a b => some (0x91DF0000#32 ||| (a.setWidth 32 <<< 7) ||| b.setWidth 32)
  | .xseal d a => some (0x9200007C#32 ||| (d.setWidth 32 <<< 14) ||| (a.setWidth 32 <<< 7))
  | .xzero a => some (0x925F007C#32 ||| (a.setWidth 32 <<< 7))
  | .bkmode a b => some (0x941F0000#32 ||| (a.setWidth 32 <<< 7) ||| b.setWidth 32)
  | .bkld a b => some (0x945F0000#32 ||| (a.setWidth 32 <<< 7) ||| b.setWidth 32)
  | .bkmac a b => some (0x949F0000#32 ||| (a.setWidth 32 <<< 7) ||| b.setWidth 32)
  | .bkrd a b => some (0x94DF0000#32 ||| (a.setWidth 32 <<< 7) ||| b.setWidth 32)
  | .bkzero a b => some (0x951F0000#32 ||| (a.setWidth 32 <<< 7) ||| b.setWidth 32)
  | .bkwait  => some (0x955F3E7C#32)
  | .cmtB n d => some (0x98003E7C#32 ||| (n.setWidth 32 <<< 21) ||| (d.setWidth 32 <<< 14))
  | .cmtT n d => some (0x98403E7C#32 ||| (n.setWidth 32 <<< 21) ||| (d.setWidth 32 <<< 14))
  | .cmtD n d => some (0x98803E7C#32 ||| (n.setWidth 32 <<< 21) ||| (d.setWidth 32 <<< 14))
  | .cmtBLw n d => some (0x98C03E7C#32 ||| (n.setWidth 32 <<< 21) ||| (d.setWidth 32 <<< 14))
  | .cmtTLw n d => some (0x99003E7C#32 ||| (n.setWidth 32 <<< 21) ||| (d.setWidth 32 <<< 14))
  | .cmtDLw n d => some (0x99403E7C#32 ||| (n.setWidth 32 <<< 21) ||| (d.setWidth 32 <<< 14))
  | .abtW  => some (0x999F3E7C#32)
  | .abtB  => some (0x99DF3E7C#32)
  | .abtT  => some (0x9A1F3E7C#32)
  | .fence s => some (0x9A5F007C#32 ||| (s.setWidth 32 <<< 7))
  | .opnW o => some (0x9C000000#32 ||| o.setWidth 32)
  | .opnB o => some (0x9D000000#32 ||| o.setWidth 32)
  | .opnT o => some (0x9E000000#32 ||| o.setWidth 32)
  | .cln a b => some (0xA01F0000#32 ||| (a.setWidth 32 <<< 7) ||| b.setWidth 32)
  | .inv a b => some (0xA05F0000#32 ||| (a.setWidth 32 <<< 7) ||| b.setWidth 32)
  | .cinv a b => some (0xA09F0000#32 ||| (a.setWidth 32 <<< 7) ||| b.setWidth 32)
  | .brGuarded g e o => some (0xC0000000#32 ||| (g.setWidth 32 <<< 21) ||| (e.setWidth 32 <<< 20) ||| o.setWidth 32)
  | .bryGuarded g e o => some (0xC1000000#32 ||| (g.setWidth 32 <<< 21) ||| (e.setWidth 32 <<< 20) ||| o.setWidth 32)
  | .callGuarded g e o => some (0xC2000000#32 ||| (g.setWidth 32 <<< 21) ||| (e.setWidth 32 <<< 20) ||| o.setWidth 32)
  | .br o => some (0xC4000000#32 ||| o.setWidth 32)
  | .bry o => some (0xC5000000#32 ||| o.setWidth 32)
  | .call o => some (0xC6000000#32 ||| o.setWidth 32)
  | .callr a => some (0xC81F007C#32 ||| (a.setWidth 32 <<< 7))
  | .ret  => some (0xC85F3E7C#32)
  | .jmpr a => some (0xC89F007C#32 ||| (a.setWidth 32 <<< 7))
  | .exit  => some (0xC8DF3E7C#32)
  | .trap a => some (0xC91F007C#32 ||| (a.setWidth 32 <<< 7))
  | .bsync  => some (0xC95F3E7C#32)
  | .yield  => some (0xC99F3E7C#32)
  | .nop  => some (0xC9DF3E7C#32)
  | .lany p q => some (0xCC00007C#32 ||| (p.setWidth 32 <<< 14) ||| (q.setWidth 32 <<< 7))
  | .lall p q => some (0xCC40007C#32 ||| (p.setWidth 32 <<< 14) ||| (q.setWidth 32 <<< 7))
  | .lbits d q => some (0xCC80007C#32 ||| (d.setWidth 32 <<< 14) ||| (q.setWidth 32 <<< 7))
  | .xlIdx d a b => some (0xCCC00000#32 ||| (d.setWidth 32 <<< 14) ||| (a.setWidth 32 <<< 7) ||| b.setWidth 32)
  | .xlLo d a b => some (0xCD000000#32 ||| (d.setWidth 32 <<< 14) ||| (a.setWidth 32 <<< 7) ||| b.setWidth 32)
  | .xlHi d a b => some (0xCD400000#32 ||| (d.setWidth 32 <<< 14) ||| (a.setWidth 32 <<< 7) ||| b.setWidth 32)
  | .xlXor d a b => some (0xCD800000#32 ||| (d.setWidth 32 <<< 14) ||| (a.setWidth 32 <<< 7) ||| b.setWidth 32)
  | .sget s a => some (0xCDC0007C#32 ||| (s.setWidth 32 <<< 14) ||| (a.setWidth 32 <<< 7))
  | .xlRot d a b => some (0xCE000000#32 ||| (d.setWidth 32 <<< 14) ||| (a.setWidth 32 <<< 7) ||| b.setWidth 32)
  | .spawn d a b => some (0xD0000000#32 ||| (d.setWidth 32 <<< 14) ||| (a.setWidth 32 <<< 7) ||| b.setWidth 32)
  | .regroup a b => some (0xD05F0000#32 ||| (a.setWidth 32 <<< 7) ||| b.setWidth 32)
  | .racktm a => some (0xD09F007C#32 ||| (a.setWidth 32 <<< 7))
  | .waitc d a b => some (0xD4000000#32 ||| (d.setWidth 32 <<< 14) ||| (a.setWidth 32 <<< 7) ||| b.setWidth 32)
  | .spr x c => some (0xE0000000#32 ||| (x.setWidth 32 <<< 14) ||| c.setWidth 32)
  | .srd x c => some (0xE0400000#32 ||| (x.setWidth 32 <<< 14) ||| c.setWidth 32)
  | .swr x c => some (0xE0800000#32 ||| (x.setWidth 32 <<< 14) ||| c.setWidth 32)
  | .ksclaim d a => some (0xE400007C#32 ||| (d.setWidth 32 <<< 14) ||| (a.setWidth 32 <<< 7))
  | .ksrd d a => some (0xE440007C#32 ||| (d.setWidth 32 <<< 14) ||| (a.setWidth 32 <<< 7))
  | .kswr a b => some (0xE49F0000#32 ||| (a.setWidth 32 <<< 7) ||| b.setWidth 32)
  | .ksres d a => some (0xE4C0007C#32 ||| (d.setWidth 32 <<< 14) ||| (a.setWidth 32 <<< 7))
  | .ksrty d a => some (0xE500007C#32 ||| (d.setWidth 32 <<< 14) ||| (a.setWidth 32 <<< 7))
  | .ksdir d a b => some (0xE5400000#32 ||| (d.setWidth 32 <<< 14) ||| (a.setWidth 32 <<< 7) ||| b.setWidth 32)
  | .kskill d a => some (0xE580007C#32 ||| (d.setWidth 32 <<< 14) ||| (a.setWidth 32 <<< 7))
  | .qpost d a b => some (0xE8000000#32 ||| (d.setWidth 32 <<< 14) ||| (a.setWidth 32 <<< 7) ||| b.setWidth 32)
  | .qclk d a => some (0xE840007C#32 ||| (d.setWidth 32 <<< 14) ||| (a.setWidth 32 <<< 7))
  | .sigrd d a => some (0xF000007C#32 ||| (d.setWidth 32 <<< 14) ||| (a.setWidth 32 <<< 7))
  | .sigclr  => some (0xF05F3E7C#32)
  | .chkv d a => some (0xF080007C#32 ||| (d.setWidth 32 <<< 14) ||| (a.setWidth 32 <<< 7))
  | .scrub d a b => some (0xF4000000#32 ||| (d.setWidth 32 <<< 14) ||| (a.setWidth 32 <<< 7) ||| b.setWidth 32)
  | .asidld d a b => some (0xF4400000#32 ||| (d.setWidth 32 <<< 14) ||| (a.setWidth 32 <<< 7) ||| b.setWidth 32)
  | .pgret d a => some (0xF480007C#32 ||| (d.setWidth 32 <<< 14) ||| (a.setWidth 32 <<< 7))
  | .wayq d a b => some (0xF4C00000#32 ||| (d.setWidth 32 <<< 14) ||| (a.setWidth 32 <<< 7) ||| b.setWidth 32)
  | .tlbinv d a b => some (0xF5000000#32 ||| (d.setWidth 32 <<< 14) ||| (a.setWidth 32 <<< 7) ||| b.setWidth 32)
  | .kspool d a => some (0xF540007C#32 ||| (d.setWidth 32 <<< 14) ||| (a.setWidth 32 <<< 7))
  | .wideImmediate p => some (0xFC000000#32 ||| p.setWidth 32)
  | .modifierHint r t g p e u c s => some (0xFD000000#32 ||| (r.setWidth 32 <<< 21) ||| (t.setWidth 32 <<< 20) ||| (g.setWidth 32 <<< 19) ||| (p.setWidth 32 <<< 16) ||| (e.setWidth 32 <<< 15) ||| (u.setWidth 32 <<< 14) ||| (c.setWidth 32 <<< 13) ||| (s.setWidth 32 <<< 8))
  | .schedulingHint n => some (0xFE000000#32 ||| (n.setWidth 32 <<< 20))
  | .rackTimerExpiry _ => none
  | .mmaStart _ => none
  | .mmaComplete _ => none
  | .copySegmentRun _ _ => none
  | .deviceCommitPublish _ => none
  | .deferredReductionApply _ => none
  | .remoteOpPerform _ => none
  | .bankOpPerform _ => none
  | .monitorArm _ _ => none
  | .monitorWake _ _ => none
  | .ticketRead _ _ => none
  | .publishWrite _ _ _ => none
  | .notifyWrite _ _ => none
  | .configurationReread _ _ => none
  | .cheadWrite _ _ _ => none
  | .registerWrite _ _ => none
  | .slotConsume _ _ => none
  | .nopCommand _ _ _ => none
  | .launch _ _ _ => none
  | .barrier _ _ _ => none
  | .prologueEnd _ => none
  | .prologueRepeat _ => none
  | .taskDispatch _ => none
  | .teamStart _ => none
  | .affinityWaitExpiry _ => none
  | .starvationBlock _ => none
  | .commandComplete _ _ _ => none
  | .budgetExpiry _ => none
  | .launchDeadlineExpiry _ => none
  | .evictionOrder _ _ => none
  | .imageWrite _ => none
  | .jobMemoryMove _ => none
  | .recordMove _ _ => none
  | .partitionFree _ => none
  | .partitionAssign _ _ => none
  | .qenWrite _ _ => none
  | .vfEnable _ => none
  | .vfDisable _ => none
  | .hpolWrite _ _ => none
  | .functionLevelReset _ => none
  | .hostMemRead _ _ _ => none
  | .hostMemWrite _ _ _ => none
  | .backgroundScrub _ => none
  | .cellBlockGrant _ _ => none
  | .spokeFlitReceive _ _ _ _ => none
  | .remotePostArrival _ => none
  | .assistAnswer _ _ => none
  | .firmwareDownload _ => none
  | .powerUp  => none
  | .perstAssert _ => none
  | .thermtrip  => none
  | .pwrfail  => none
  | .thermalThrottle  => none
  | .thermalRecover  => none
  | .recordGrant _ => none
  | .poolWaitDeadline _ => none
  | .faultDeadlineExpiry _ => none
  | .waveRebuild _ => none
  | .linkTimeout _ => none
  | .patrolRead _ => none
  | .spareFill _ => none
  | .ksdataRead _ _ _ => none
  | .ksdataWrite _ _ _ _ => none
  | .kscmdClaim _ _ _ => none
  | .kscmdResume _ _ _ => none
  | .kscmdRetry _ _ _ => none
  | .kscmdRedirect _ _ _ _ => none
  | .kscmdKill _ _ _ => none
  | .kscmdPost _ _ _ => none
  | .unassignedSlot _ => none
  | .instructionFetch  => none
  | .softError _ _ => none
  | .pageOwnershipChange _ _ => none
  | .logicalDeviceBind _ _ => none
  | .domestiqueHandlerEnd _ => none
  | .perstRelease _ => none

end Sys2Proof
end

