-- ==== Sys2Proof/Config.lean ====
section
/-! DEFINITION. What one implementation fixes (the figures of Table 3) and the free values: the values the spec leaves open,
each an opaque constant applied to plain data, so that no proof can rest on a value of it. -/

namespace Sys2Proof.Config

/-- A value the spec leaves open after a step that goes on; applied to the state's free-value counter (notes/assumptions/3). -/
opaque freeValue : Nat → W64
/-- Whether a translation that disagrees with the tables is still taken from a core's store (R223): counter, ASID, address (notes/assumptions/7). -/
opaque staleTranslation : Nat → Nat → Nat → Bool
/-- The physical place of the pannier save space of a wave's record (Table 98, R251), which the part chooses: core, slot and the
place's own number (notes/assumptions/9). -/
opaque savePlace : Nat → Nat → Nat → BitVec 32
/-- Whether an ML-DSA-65 signature verifies (R282 names the standard and does not restate it): public key, signature, message digest. -/
opaque mldsaVerify : List Byte → List Byte → List Byte → Bool
/-- The digest of the firmware public key held in fuses (R282); the spec gives no value. -/
opaque fuseDigest : List Byte
/-- The security version number of the fuse counter (R282); the spec gives no value. -/
opaque fuseSvn : Nat
/-- A device identity taken from the part's certificate (Table 113); the spec gives no value. -/
opaque deviceIdentity : W64

/-- Whether an address lies in the plug-in region of a virtual function's tenant (R297); the spec gives no bounds. -/
opaque pluginRegion : Nat → Nat → Bool

/-- Compute cores (Table 3). -/
def cores : Nat := 240
/-- Hardware partitions (Table 3). -/
def partitions : Nat := 20
/-- Virtual functions (Table 3). -/
def functions : Nat := 96
/-- Logical devices (R263). -/
def logicalDevices : Nat := 16
/-- HBM4 stacks (Table 3). -/
def hbmStacks : Nat := 12
/-- Bytes of one stack, 48 GiB (R271). -/
def stackBytes : Nat := 48 * 2 ^ 30
/-- Device physical addresses run below 576 GiB (R271). -/
def deviceBytes : Nat := 12 * (48 * 2 ^ 30)
/-- Wave slots per core (Table 3). -/
def slotsPerCore : Nat := 32
/-- Register-file bytes per core, 768 KiB (Table 3). -/
def regFileBytes : Nat := 768 * 1024
/-- Pannier sectors per wave (R143). -/
def pannierSectors : Nat := 256
/-- Overlay-store sectors per core (R144). -/
def overlaySectors : Nat := 8192
/-- Accumulator rows per core (Table 3). -/
def accRows : Nat := 6144
/-- Cassette bytes per core (Table 3). -/
def cassetteBytes : Nat := 262144
/-- Reservation records per core (R119). -/
def reservations : Nat := 64
/-- Scratchpad below the overlay store, the limit of R251. -/
def placeBytes : Nat := 0x1C0000
/-- Monitors per core (R236). -/
def monitors : Nat := 256
/-- Bytes of pending outward data that a core's L2 slice keeps, 512 KiB (R159). -/
def pendingBytes : Nat := 512 * 1024
/-- Matrix operations the engine holds (R125). -/
def mmaDepth : Nat := 16
/-- Range-scoreboard entries per core (R189). -/
def scoreboard : Nat := 64
/-- Queues per partition (Table 3). -/
def queues : Nat := 64
/-- Pseudo-channels per stack (Table 3, R343). -/
def pseudoChannels : Nat := 192
/-- General extents of a partition's pool (R306). -/
def generalExtents : Nat := 256
/-- Extents reserved for each nesting depth (R306). -/
def reservedExtents : Nat := 32
/-- Entries of a stack's retirement table (Table 94). -/
def retireTable : Nat := 2048
/-- Spare pages of a stack (R323). -/
def spares : Nat := 1024
/-- First-level translation entries per core (Table 3). -/
def tlbEntries : Nat := 512
/-- Second-level translation entries per stack (Table 3). -/
def tlbEntries2 : Nat := 16384
/-- Copy segments in flight on a core (R183). -/
def segments : Nat := 64
/-- Bytes of the image of a core at most, 4,864 KiB (Table 3, R258). -/
def imageBytes : Nat := 4864 * 1024
/-- Lines of one way of a memory-side cache, and cell blocks that stand in it (R277). -/
def wayLines : Nat := 32768
/-- Cell blocks a stack holds at most (R277). -/
def cellBlocks : Nat := 256

end Sys2Proof.Config
end

