-- ==== Sys2Proof/Machine/State.lean ====
section
/-! DEFINITION. The state of the whole part as plain data: every piece of state of Tables 5 and 6 and of the registers, queues,
records and memories that the later chapters name, and the machine's state right after the power-up sequence of R383. -/

namespace Sys2Proof.Machine

/-- Why the machine stops. The part never stops on a program's account (every fault becomes a task, R288), so the one fault is a
state no run reaches. -/
inductive Fault where
  /-- Raised by every instruction's meaning when no bound group is selected for issue (`State.grp` is `none`, or names no wave).
  `step` selects a group before it issues, so no run raises it. Safe. -/
  | noIssuingGroup
  deriving DecidableEq, Repr

/-- Why an instruction has no meaning. -/
inductive Refusal where
  /-- An arm of `exec` whose meaning is not written: the mnemonic. Raised by no arm once every meaning stands. Safe. -/
  | notModelled (mnemonic : String)
  deriving DecidableEq, Repr

/-- The sparse byte maps: addresses strictly rising, no entry equal to 0 (what an unlisted byte reads as). -/
abbrev Cells := List Host.Cell

/-- Bytes held above a base (panniers, overlays, pending data): addresses strictly rising; a held byte may be 0. -/
abbrev Held := List Host.Cell

/-! ### Lanes and waves (Table 5) -/

/-- A lane asleep in `waitc` (R236). -/
structure Asleep where
  /-- the address operand -/
  addr : W64
  /-- the device physical address of the word -/
  dpa : Nat
  /-- the compared word, operand b -/
  cmp : W32
  /-- the destination field d -/
  dst : Nat
  /-- the group after the `waitc` -/
  next : W57
  /-- the fence epoch in which it issued (R166) -/
  epoch : Nat
  /-- the monitor is taken (step 3 of R236) -/
  armed : Bool
  /-- a write to the line has been performed since (step 5) -/
  hit : Bool
  /-- the wave has been resumed or swapped in: the lane wakes with rs = 1 once the word has been read afresh (R237) -/
  rs : Bool := false
  /-- MODEL: the clock before which the lane, once awake, cannot issue (R110; notes/assumptions/6) -/
  ready : Nat := 0
  deriving DecidableEq, Repr

/-- One lane position of a wave (R202, R209, Table 99). -/
structure Lane where
  live : Bool
  sleep : Option Asleep
  /-- the class: true when yielded (Table 69) -/
  yielded : Bool
  depth : Nat
  pc : W57
  /-- the on-chip return entries in use, deepest last (R209) -/
  chip : List W57
  /-- the spill area, entries 1 to 28 (R209) -/
  spill : List W64
  preds : BitVec 8
  regs : List W32
  tid : W32
  /-- the depths recorded by `opn.w`, `opn.b`, `opn.t` (R147) -/
  abtW : Nat
  abtB : Nat
  abtT : Nat
  /-- a `spawn` placed its thread in a rack (R233) -/
  spawned : Bool := false
  deriving DecidableEq, Repr

/-- The held operand-collector latch (R127): its ranges; `scales` registers from `ameta`. -/
structure MLatch where
  areg : Nat
  ameta : Nat
  chunks : Nat
  scales : Nat
  deriving DecidableEq, Repr

/-- A deferred reduction held in the hierarchy (R192). -/
structure Red where
  fn : Nat
  addr : W64
  value : W64
  dpa : Nat
  /-- its place in the team's issue order (R152) -/
  ord : Nat := 0
  /-- it was issued on the odd core of its team's pair (R144, R161) -/
  odd : Bool := false
  /-- a handler patched its operand, which has failed the checks since: it is judged again (R300) -/
  failed : Bool := false
  deriving DecidableEq, Repr

/-- What a wave that has issued a barrier waits to do when the barrier completes. -/
structure Arrival where
  /-- fn of the instruction: 0-5 a commit, 0x10 `bsync`, 0x11 `opn.b`, 0x12 `opn.t` -/
  fn : Nat
  /-- the destination field of a commit's report, with its nw bit -/
  dst : Nat
  nw : Bool
  /-- the abort address of an opening -/
  target : W57
  /-- the group after the instruction -/
  next : W57
  /-- the first word of the instruction's group -/
  first : W57
  deriving DecidableEq, Repr

/-- Whether a wave may issue (R216). -/
inductive Wait where
  /-- it may issue -/
  | ready
  /-- its instruction waits, or could not issue: nothing has changed since -/
  | retry
  /-- the same after another step: it goes on when its instruction no longer waits (R216) -/
  | trial
  /-- it has issued a barrier, which is not complete (R229, R147, Table 50) -/
  | barrier
  /-- replies of remote requests are outstanding: their number, and the first word of the instruction's group -/
  | replies (n : Nat) (first : W57)
  deriving DecidableEq, Repr

/-- A fault on its way into a record (R289, R308). -/
structure Pending where
  cause : Nat
  done : Bool
  faddr : W57
  amask : W64
  /-- the flags each lane raised (Table 99, byte 44) -/
  laneFlags : List (BitVec 8)
  /-- each lane's `trap` code (Table 99, bytes 48-51) -/
  codes : List W32
  deriving DecidableEq, Repr

/-- What a wave slot holds. -/
inductive WaveStatus where
  | running
  /-- a rack under construction: its entry and the clocks left of its timer (R210-R212) -/
  | rack (entry : W57) (timer : Nat)
  /-- detached into a record -/
  | parked (record : Nat)
  /-- detached with no record to be had, since the deadline given (R308) -/
  | waitsForPool (p : Pending) (deadline : Nat)
  deriving DecidableEq, Repr

/-- A prologue's own state (R245): the command it serves, its area, its issue count and how it ended. -/
structure Prologue where
  launch : Nat
  area : List Byte
  code : Nat
  issued : Nat
  /-- `none` while it runs; `some 0` at `exit`; `some c` for a fault of cause c; `some (256 + c)` for code that could not be fetched (R249) -/
  ended : Option Nat
  deriving DecidableEq, Repr

/-- An issued instruction whose results a later one may have to wait for (R110, R111): the registers written (scalar register n is 128 + n), the
predicate p is 160 + p), the lanes whose next group it delays, the clock from which they go on, whether it is of the third case of R32, the engine
it occupies and until when. -/
structure Slow where
  regs : List Nat
  lanes : List Nat
  ready : Nat
  third : Bool
  engine : Nat
  busy : Nat
  deriving DecidableEq, Repr

/-- A wave: launched, in a rack, parked or evicted (Table 5). -/
structure Wave where
  wid : Nat
  team : Nat
  blk : Nat
  idx : Nat
  core : Nat
  slot : Nat
  width : Nat
  /-- the rounded register count (R28) -/
  nregs : Nat
  grade : Nat
  sup : Bool
  asid : Nat
  status : WaveStatus
  wait : Wait
  lanes : List Lane
  sregs : List W64
  fpmode : W64
  fpflags : W64
  winBase : Nat
  winLimit : Nat
  mlatch : Option MLatch
  /-- the bypass latches b0-b3, an entry per lane, and whether the last writer stands in the open hold (R33) -/
  latches : List (List W32)
  latchLive : List Bool
  /-- instructions the open hold still covers; 0 when none is open (R31, R38) -/
  hold : Nat
  /-- the pannier's bytes, keyed by team-view address (R143) -/
  pan : Held
  reds : List Red
  abtW : Option W57
  abtB : Option W57
  abtT : Option W57
  /-- team-view addresses of bytes that siblings published since the wave level opened (R146, R149) -/
  foreign : List Nat
  /-- fences issued so far (R166) -/
  epoch : Nat
  /-- clocks since the last issue at which it was ready (R217) -/
  age : Nat
  prologue : Option Prologue
  /-- the clock of the wave's last issue, as the model counts its clocks (R110; notes/assumptions/6) -/
  now : Nat := 0
  /-- what its earlier instructions still hold back (R110, R111) -/
  slow : List Slow := []
  /-- the group at which the fourth case of R32 ended a hold while it waits: its hint opens none (R38) -/
  barred : Option W57 := none
  /-- rows an `mread`, `mwrite`, `mzero` or `mstat` that has issued waits for: its group, its place in the core's issue order, the rows (R116, R117) -/
  rowWait : Option (W57 × Nat × List Nat) := none
  /-- the group that has issued and waits: its lanes and its first word; no other group of the wave is selected meanwhile (R206, R216) -/
  inWait : Option (List Nat × W57) := none
  /-- its rack has been placed by a `spawn` and has launched: no abort ends it (R233) -/
  spawned : Bool := false
  deriving DecidableEq, Repr

/-! ### Blocks and teams -/

/-- One accumulator row (R115): 64 entries and the status word without `own`, which follows from the operations in flight. -/
structure Row where
  entries : List W32
  status : W32
  deriving DecidableEq, Repr

/-- The states of a handle (Table 61). -/
inductive HState where
  | free | filling | full | draining
  deriving DecidableEq, Repr

/-- A copy handle allocated to a block (R185, Table 63). -/
structure Handle where
  num : Nat
  state : HState
  kil : Bool
  rdr : Bool
  deriving DecidableEq, Repr

/-- A barrier that has begun (R229, R147, Table 50): its member waves. -/
structure Barrier where
  fn : Nat
  members : List Nat
  /-- the waves that have issued it so far, with what each waits to do -/
  arrived : List (Nat × Arrival)
  deriving DecidableEq, Repr

/-- A block of a placed or evicted team. -/
structure Block where
  team : Nat
  idx : Nat
  core : Nat
  acc : Nat
  cassLen : Nat
  /-- accumulator rows that differ from the initial row, by block-relative number -/
  rows : List (Nat × Row)
  cass : Cells
  tags : List (W64 × W16)
  handles : List Handle
  /-- the block overlay, keyed by team-view address (R144) -/
  ovl : Held
  reds : List Red
  foreign : List Nat
  rackT : Nat
  bar : Option Barrier
  ended : Bool
  deriving DecidableEq, Repr

/-- How far a team has come. -/
inductive TeamPhase where
  /-- regions still to stage: (region, 4 KiB segment) pairs (R252) -/
  | staging
  | running
  /-- its blocks have ended; the final device commit gathers (R154) -/
  | ending
  /-- off its cores, with a flag whether its image has been written (R257, R258) -/
  | evicted (saved : Bool)
  | draining
  /-- killed, and off its cores, while reductions that it published before are still applied (R318, R152) -/
  | dead
  /-- published, on its cores until its published reductions have been applied; it ends then (R152) -/
  | applying
  deriving DecidableEq, Repr

/-- A device commit that gathers (R152). -/
structure Gather where
  checked : Bool
  final : Bool
  /-- the implied lower commits have been performed -/
  lowered : Bool
  deriving DecidableEq, Repr

/-- A value that a primary twin received and its secondary has still to take (R329): a reply word of a lane (kind 0), the elements of a
copy segment (kind 1, with the handle and segment), or the data of a `bkrd` (kind 2). -/
structure Received where
  kind : Nat
  blk : Nat
  wave : Nat
  unit : Nat
  seg : Nat
  data : List Byte
  deriving DecidableEq, Repr

/-- A team of a launch (Table 5, R14). -/
structure Team where
  id : Nat
  launch : Nat
  idx : Nat
  part : Nat
  pair : Nat
  vf : Nat
  asid : Nat
  nblocks : Nat
  nwaves : Nat
  width : Nat
  view : Nat
  phase : TeamPhase
  /-- the scratchpad base of both slices, keyed by team-view address (R250) -/
  base : Cells
  ovl : Held
  /-- deferred reductions at the team level, and those published and not yet applied (R152) -/
  reds : List Red
  applyQ : List Red
  foreign : List Nat
  bar : Option Barrier
  gather : Option Gather
  /-- a device commit has published since placement (R318) -/
  committed : Bool
  relaunches : Nat
  /-- queue clocks left of the budget; none when unlimited (R253, R255) -/
  budget : Option Nat
  charged : Nat
  /-- handles of records this task holds CLAIMED, by record number, and the largest depth claimed (R297) -/
  holds : List Nat
  serving : Option Nat
  /-- the handle of the record it claimed last, which it may have disposed of since (R291) -/
  served : W32 := 0xFFFFFFFF
  /-- remote handles held on a peer part (R310) -/
  remotes : List W32
  /-- the deadlines of those that `ksclaim` took: handle, queue, value of its clock (R299, R310) -/
  due : List (W32 × Nat × Nat)
  /-- grade 2: the twin team, the role, signatures at the last comparison and the counts of R332 -/
  twin : Option Nat
  secondary : Bool
  sigOwn : W64
  sigTwin : W64
  sigCount : W32
  sigMiss : BitVec 16
  /-- the sum over immediate accesses since the last comparison (R330 kind 3) -/
  sigRun : W64
  /-- what the primary received and this secondary has still to take, oldest first (R329) -/
  received : List Received
  saveArea : Nat
  notice : Option Nat
  /-- its eviction renews its budget and puts it at the tail of its queue (R255, R260) -/
  renew : Bool := false
  /-- MODEL: a number that grows with each placement, for "the latest placed" of R262 -/
  placedAt : Nat := 0
  /-- how a killed team ends once its published reductions have been applied: whether it may be relaunched, the storage code, the command status (R152,
  R318) -/
  fate : Option (Bool × Nat × Nat) := none
  deriving DecidableEq, Repr

/-! ### Engines -/

/-- A cassette reservation (Table 41, R119, R133). -/
structure Resv where
  core : Nat
  idx : Nat
  team : Nat
  blk : Nat
  off : Nat
  len : Nat
  fmt : Nat
  grp : Nat
  sclo : Nat
  zpo : Nat
  /-- false after `crel`, while operations issued before it remain (R133) -/
  live : Bool
  deriving DecidableEq, Repr

/-- How far a matrix operation has come (R125, R134). -/
inductive MmaPhase where
  | issued
  /-- the A operand read at the start: per row, the code registers then the scale registers -/
  | started (a : List (List W32))
  | parked (record : Nat)
  | waitsForPool (cause : Nat) (deadline : Nat)
  deriving DecidableEq, Repr

/-- A matrix operation in the engine (R125). -/
structure MmaOp where
  id : Nat
  core : Nat
  team : Nat
  blk : Nat
  wid : Nat
  widx : Nat
  width : Nat
  grade : Nat
  asid : Nat
  /-- the snapshotted parameter block -/
  param : List Byte
  resv : Resv
  fpmode : W64
  /-- A as a held latch gave it at issue; such an operation holds back no register write (R125, R127) -/
  snap : Option (List (List W32))
  /-- A as its wave's registers held it when the wave detached before the start: they stay unchanged for the operation (R289 step 4) -/
  kept : Option (List (List W32)) := none
  phase : MmaPhase
  flags : BitVec 8
  launch : Nat
  deriving DecidableEq, Repr

/-- What a copy is (R178, R252). -/
inductive CopyKind where
  | inward | outward | digest
  /-- staging of region i; write-back of region i -/
  | staging (i : Nat)
  | writeBack (i : Nat)
  deriving DecidableEq, Repr

/-- The level that holds a pending outward copy (R159). -/
inductive Level where
  | wave | block | team
  deriving DecidableEq, Repr

/-- Where one segment of a copy stands (R183). Elements count within the segment; the bytes gathered so far are held with their image offset
(inward) or device physical address (outward) and their virtual address. -/
inductive SegState where
  | todo
  /-- continue from the element given, with the elements gathered so far and the record's bytes 0-167 as a handler left them (resume and
  retry of R184) -/
  | from (elem : Nat) (got : List (Nat × Nat × Byte)) (head : List Byte)
  /-- treat the element given and every later one as outside (redirect of R184) -/
  | outsideFrom (elem : Nat) (got : List (Nat × Nat × Byte)) (head : List Byte)
  /-- parked at the element given, with the elements gathered so far -/
  | parked (record elem : Nat) (got : List (Nat × Nat × Byte))
  /-- waiting in place for a record, with the body that the record will have and the head a handler left, if one did -/
  | waitsForPool (p : Pending) (elem : Nat) (body : List Byte) (head : Option (List Byte)) (got : List (Nat × Nat × Byte)) (deadline : Nat)
  /-- an inward segment that has landed, or one of which nothing moves any more -/
  | done
  /-- an outward segment whose elements are gathered and whose lines are owned; `shaped` when a handler's disposition had a part in it -/
  | gathered (got : List (Nat × Nat × Byte)) (shaped : Bool)
  deriving DecidableEq, Repr

/-- A copy in the engine or pending (R159, R178-R189). -/
structure Copy where
  id : Nat
  kind : CopyKind
  core : Nat
  team : Nat
  blk : Nat
  wid : Nat
  widx : Nat
  handle : Nat
  /-- the five scalars (Table 58) and the operands a and d as read at issue -/
  scal : List W64
  a : W32
  dig : W32
  /-- the checked range in team-view addresses (or cassette offsets): start and length (R179) -/
  start : Nat
  len : Nat
  cassette : Bool
  /-- the source bytes read through the issuing wave's view (R159) -/
  data : List Byte
  /-- the layout records as read when the copy started: F or D, then the linked D (R181) -/
  recs : Option (List Byte × List Byte)
  segs : List SegState
  /-- the whole copy was redirected from a record fault (R184) -/
  level : Level
  /-- lines owned by device physical address (R159) -/
  lines : List Nat
  /-- the virtual address of each owned line -/
  vlines : List (Nat × Nat)
  kil : Bool
  rdr : Bool
  /-- digests written (R188) -/
  digested : Bool
  /-- region base address and size for staging and write-back (R384) -/
  gbase : Nat
  /-- the pending data of an outward copy stands in the pending space of its core; data that does not is read again from its source (R159) -/
  stored : Bool := true
  deriving DecidableEq, Repr

/-- An immediate remote operation on its way to its line's home (R191). -/
structure RemoteOp where
  id : Nat
  wid : Nat
  lane : Nat
  fn : Nat
  addr : W64
  dpa : Nat
  /-- operands b and, for a compare-and-swap, d -/
  val : W64
  cmp : W64
  /-- the destination field, none with nw = 1 -/
  dst : Option Nat
  vf : Nat
  asid : Nat
  team : Nat
  epoch : Nat
  /-- it met an uncorrectable line and was not performed; the wave detaches once its other replies are in (Table 107) -/
  failed : Bool
  /-- the issuing core and launch (R168, R266) -/
  core : Nat := 0
  launch : Nat := 0
  /-- the physical lanes of the issuing group, and the program lanes of Active -/
  group : List Nat := []
  act : List Nat := []
  /-- the class of the group's lanes before it issued -/
  yielded : Bool := false
  /-- what it met makes its wave detach before the group: another owner's dirty line, or a link timeout (R319, R324) -/
  before : Bool := false
  deriving DecidableEq, Repr

/-- A bank operation on its way to the base die (R194). -/
structure BankOp where
  id : Nat
  core : Nat
  wid : Nat
  team : Nat
  fn : Nat
  dpa : Nat
  b : W32
  /-- the bytes `bkld` read at issue -/
  data : List Byte
  /-- the destination of `bkrd` in team-view addresses -/
  dst : Nat
  epoch : Nat
  launch : Nat := 0
  deriving DecidableEq, Repr

/-- The engines of one pseudo-channel (R193, R348): the mode bit, 16 x registers of 256 entries, 16 x 64 accumulators. -/
structure Bank where
  pc : Nat
  /-- the bank-engine pages of the channel that bank operations or copies have reached (R276, R162) -/
  pages : List Nat
  allBank : Bool
  x : List (List W16)
  acc : List (List W32)
  deriving DecidableEq, Repr

/-- An exact reduction cell (Table 26). `sum` is the exact sum in units of 2^-149; the field V is its low 316 bits (R85). -/
structure ExactCell where
  nan : Bool
  pinf : Bool
  ninf : Bool
  sum : Int
  poison : Bool
  deriving DecidableEq, Repr

/-- A cell block carved for an exact-reduction page (R277): the page and its cells that differ from zero. -/
structure CellBlock where
  page : Nat
  cells : List (Nat × ExactCell)
  deriving DecidableEq, Repr

/-- A dirty or cached line of the L2 or the memory-side cache (R316, R372). -/
structure Line where
  dpa : Nat
  /-- true in an L2 slice, false in the memory-side cache -/
  l2 : Bool
  /-- the core of the slice, or the stack -/
  unit : Nat
  way : Nat
  dirty : Bool
  vf : Nat
  asid : Nat
  host : Bool
  /-- contexts before the last that dirtied it since it was clean: function and ASID (R168) -/
  earlier : List (Nat × Nat) := []
  /-- what HBM4 holds of a dirty line: its bytes that are not zero, before the write-back -/
  below : Cells := []
  /-- it has given up its way to another line and is still to be written back (R372) -/
  aside : Bool := false
  deriving DecidableEq, Repr

/-- A cached translation (R271). -/
structure TlbEntry where
  /-- the core of a first-level entry; 256 + the stack of a second-level one -/
  core : Nat
  vf : Nat
  asid : Nat
  vpage : Nat
  dpage : Nat
  rd : Bool
  wr : Bool
  ex : Bool
  kind : Nat
  deriving DecidableEq, Repr

/-! ### Kickstand records and tasks -/

/-- The states of a record (Table 98, byte 2). -/
inductive RecState where
  | free | parked | claimed | resuming | killed
  deriving DecidableEq, Repr

/-- The kinds of unit a record holds (Table 98, byte 0). -/
inductive RecKind where
  | wave | segment | matrix | notice
  deriving DecidableEq, Repr

/-- A fault-policy entry (Table 101). -/
structure PolEntry where
  handler : W64
  deadline : W64
  budget : W64
  kind : Nat
  queue : Nat
  prio : Nat
  expiry : Nat
  link : Nat
  pord : Nat
  pq : Nat
  deriving DecidableEq, Repr

/-- A kickstand record (R290-R293). -/
structure Record where
  id : Nat
  part : Nat
  extent : Nat
  slot : Nat
  gen : Nat
  kind : RecKind
  cause : Nat
  state : RecState
  depth : Nat
  disp : Nat
  prio : Nat
  expiry : Nat
  flags : BitVec 8
  parent : W32
  asid : Nat
  vf : Nat
  ord : Nat
  team : Nat
  teamIdx : W32
  blk : Nat
  wave : Nat
  seg : Nat
  seq : W32
  ring : Nat
  queue : Nat
  link : Nat
  budget : W64
  deadline : Nat
  parked : Nat
  faddr : W64
  amask : W64
  raddr : W64
  /-- the policy entry's kind and handler (R296) -/
  pkind : Nat
  handler : Nat
  harg : W64
  body : List Byte
  pan : List Byte
  /-- the unit: a wave's wid, a copy's id, a matrix operation's id -/
  unit : Nat
  /-- what a resumed notice does: 0 nothing, 1 relaunch the team, 2 let twins continue -/
  notice : Nat
  launch : Nat
  /-- a handler on a peer part holds it (R310) -/
  peer : Bool := false
  /-- the launch's policy entries for its cause and for NEST_LIMIT as they stood when it was made (R295, R296, R307) -/
  pol : Option PolEntry := none
  nestPol : Option PolEntry := none
  /-- where on the peer its task goes once `qpost` has posted it elsewhere than its entry: partition ordinal and queue (R302, R310) -/
  away : Option (Nat × Nat) := none
  /-- the plug-in that served it was stopped, so that its fault task takes the default disposition (R281, R304) -/
  stopped : Bool := false
  /-- the spill areas of its wave's lanes, kept while it is KILLED and held (R294, R300) -/
  spill : List (List W64) := []
  deriving DecidableEq, Repr

/-- What a task runs (R253, R297). -/
inductive TaskKind where
  | team (launch idx : Nat)
  /-- an evicted team, again a task (R260) -/
  | saved (team : Nat)
  | fault (record : Nat)
  /-- a fault task posted here by a peer part (R310) -/
  | remote (post : RemotePost) (deadline : Nat)
  deriving DecidableEq, Repr

/-- A task that waits in a run queue (R253, R256). -/
structure Task where
  id : Nat
  part : Nat
  queue : Nat
  prio : Nat
  order : Int
  kind : TaskKind
  waited : Nat
  /-- the affinity address, if any -/
  aff : Option Nat
  /-- a starving task blocks later ones of equal or lower priority (R256) -/
  blocks : Bool
  anyPair : Bool
  relaunches : Nat
  deriving DecidableEq, Repr

/-- One region of a launch record (Table 83). -/
structure Region where
  gaddr : Nat
  ts : Int
  spad : Nat
  dir : Nat
  size : Nat
  deriving DecidableEq, Repr

/-- A launch record's fields (Table 83). -/
structure LaunchRec where
  entry : W57
  width : Nat
  regs : Nat
  waves : Nat
  blocks : Nat
  teams : Nat
  acc : Nat
  prio : Nat
  grade : Nat
  cass : Nat
  view : Nat
  reent : Bool
  budget : W64
  deadline : W64
  fpolicy : Nat
  arg : W64
  aff : Nat
  affs : Int
  regions : List Region
  deriving DecidableEq, Repr

/-- A fault-policy record (R295). -/
structure Policy where
  arg : W64
  entries : List PolEntry
  deriving DecidableEq, Repr

/-- A launch that passed R248, with the record retained for relaunches (R335). -/
structure Launch where
  id : Nat
  vf : Nat
  ring : Nat
  seq : Nat
  asid : Nat
  part : Nat
  queue : Nat
  rcd : LaunchRec
  policy : Option Policy
  /-- the queue-clock value at which the launch expires (R253) -/
  deadline : Option Nat
  /-- teams that have not ended, teams that are dead -/
  left : Nat
  deadTeams : Nat
  /-- the status that became final first, if any (R255) -/
  status : Option Nat
  flags : BitVec 8
  ticks : Nat
  repeats : Nat
  /-- the prologue asked to run again (R246) -/
  again : Bool
  /-- a one-team handler launch (R297): waves start with this s0 and s1 -/
  handler : Option (W64 × W64)
  sup : Bool
  cause : Nat
  /-- the first 0x400 bytes of the prologue area (R246) -/
  area : List Byte
  deriving DecidableEq, Repr

/-- A command on its way (R243). -/
inductive CmdPhase where
  | waiting
  /-- its slot could not be read: the cause (R243, R249) -/
  | unreadable (cause : Nat)
  | running (launch : Nat)
  /-- finished: status, byte 6 and byte 7 of the completion record -/
  | finished (status cause repeats : Nat)
  deriving DecidableEq, Repr

structure Cmd where
  vf : Nat
  ring : Nat
  seq : Nat
  bytes : List Byte
  consumed : Nat
  phase : CmdPhase
  flags : BitVec 8
  ticks : Nat
  deriving DecidableEq, Repr

/-- A unit's domestique handler task (R304, Table 105). -/
structure Dom where
  core : Nat
  /-- the wave slot whose local area is its stack (R20, R304) -/
  slot : Nat
  part : Nat
  vf : Nat
  asid : Nat
  record : Nat
  holds : List Nat
  serving : Nat
  /-- remote handles held on a peer part, and the deadlines of those that a claim took, as for a team (R304, R310) -/
  remotes : List W32 := []
  due : List (W32 × Nat × Nat) := []
  /-- the queue whose clock its budget counts (R253, R296) -/
  queue : Nat
  budget : Option Nat
  deriving DecidableEq, Repr

/-- The domestique state-access registers of a core (Table 105, R304); KSCMD keeps the value last written (R5). -/
structure KsRegs where
  ksh : W32
  ksoff : BitVec 17
  ksdata : W64
  kscmd : W64
  ksst : W32
  ksaddr : W57
  deriving DecidableEq, Repr

/-- What the reply to a domestique's request over a link does (R304, R310). -/
inductive KsReply where
  /-- the value goes to KSDATA, to nowhere, or as the status of a disposition or of a post to KSST -/
  | data | none | status | posted
  deriving DecidableEq, Repr

/-- A domestique's request on a record of a peer part. -/
structure KsReq where
  id : Nat
  link : Nat
  core : Nat
  handle : W32
  reply : KsReply
  deriving DecidableEq, Repr

/-! ### Tenants, partitions, host interface -/

/-- The configuration a ring runs under once firmware has read it (R240, R241). -/
structure RingCfg where
  rbase : Nat
  lgs : Nat
  en : Bool
  queue : Nat
  ord : Nat
  cbase : Nat
  lgc : Nat
  vector : Nat
  deriving DecidableEq, Repr

/-- One submission ring (Table 77, R273). -/
structure Ring where
  rbase : W64
  rcfg : W64
  cbase : W64
  ccfg : W64
  troot : W64
  head : W32
  tail : W32
  ctail : W32
  chead : W32
  status : W64
  bits : List Nat
  /-- the last values written to PUBLISH and NOTIFY (R5, Table 77) -/
  publish : W32 := 0
  notifyWord : W64 := 0
  notify : Bool
  cfg : Option RingCfg
  malformed : Bool
  asid : Option Nat
  deriving DecidableEq, Repr

/-- A virtual function (Tables 87 and 88, R333). -/
structure Vf where
  en : Bool
  st : Nat
  ld : Nat
  hpol : W64
  s2root : W64
  ndrop : Nat
  rings : List Ring
  gtbase : W64
  gtcnt : W64
  groups : List Nat
  /-- the admitted entries whole: rank, routes, identities (R333) -/
  gtable : List (List Byte) := []
  /-- the 8-byte words of the MSI-X table that differ from their reset value 0, two to an entry (R264; notes/assumptions/22) -/
  msixTable : List (Nat × W64) := []
  deriving DecidableEq, Repr

/-- An ASID that is bound (R273, R286). -/
structure AsidBind where
  asid : Nat
  vf : Nat
  root : Nat
  ring : Option Nat
  deriving DecidableEq, Repr

/-- A partition (Table 86, R253, R254, R306). -/
structure Part where
  owner : Nat
  busy : Bool
  fwm : BitVec 5
  pev : Bool
  perr : Bool
  nest : Nat
  qen : W64
  qclk : List Nat
  /-- pool base and the nesting bound the pool was set with -/
  pool : Option (Nat × Nat)
  key : Option Nat
  /-- ordered off its cores as a whole; and off them, so that its queue clocks stand still (R253, R261) -/
  leaving : Bool := false
  resident : Bool := true
  deriving DecidableEq, Repr

/-- A message of this part over a spoke link (R310), with the communication group that its flit carries (R270). -/
inductive SpokeOut where
  | request (group id : Nat) (msg : SpokeMsg)
  | answer (group tag : Nat) (value : W64)
  | refuse (group tag : Nat)
  | post (p : RemotePost)
  deriving DecidableEq, Repr

/-- A state-access request of a wave that waits for its reply over a link (R300, R303, R324): the physical lanes it serves, the destination and
its width, the group after the instruction and its first word; a value that has arrived, or was local, is held until all have. -/
structure SpokeReq where
  id : Nat
  link : Nat
  wid : Nat
  lanes : List Nat
  dst : Option Nat
  pair : Bool
  next : W57
  first : W57
  amask : W64
  value : Option W64
  handle : W32
  /-- an abort has redirected the wave since (R155) -/
  cut : Bool := false
  /-- what a lane of a `kswr` writes once the homes have answered that every lane may (R300): offset and value -/
  write : Option (Nat × W64) := none
  /-- a disposition, whose acceptance ends the fault task (R301) -/
  final : Bool := false
  /-- the physical lanes of the issuing group -/
  group : List Nat := []
  deriving DecidableEq, Repr

/-- What the host was last given: register value, memory bytes, or poison (R168, R242). -/
inductive HostReply where
  | value (v : W64)
  | bytes (bs : List Byte)
  | poison
  deriving DecidableEq, Repr

/-- A host's access to device memory: a read of some bytes, or a write of them. -/
structure HostAccess where
  vf : Nat
  dpa : Nat
  len : Nat
  data : Option (List Byte)
  deriving DecidableEq, Repr

/-- A request on the assist ring (R283). -/
inductive AssistReq where
  | prologue (launch : Nat)
  | retire (page : Nat)
  /-- an entry of a stack's retirement table for storage that a spare is to replace: of a page, its own or a failed spare's (R323) -/
  | storage (page gone : Nat)
  /-- a parked record whose service, or triage, the host does -/
  | fault (record : Nat)
  | log (bytes : List Byte)
  deriving DecidableEq, Repr

/-- Where the power-up sequence stands (R383). -/
inductive PowerPhase where
  | off
  /-- at the step of Table 158; step 5 runs beside step 4 -/
  | step (n : Nat)
  | running
  deriving DecidableEq, Repr

/-- Power, clocks and firmware (R282, R379-R383). -/
structure Power where
  phase : PowerPhase
  /-- step 5 has completed: the base dies have trained HBM4 and tested the spare pages -/
  hbm : Bool := true
  /-- the arithmetic clock in steps of 0.1 GHz, 15 to 30 (R381) -/
  clock : Nat
  /-- the ports whose link is up, and those on which PERST is asserted (R383) -/
  ports : List Bool
  perst : List Bool := [false, false]
  thermtrip : Bool
  pwrfail : Bool
  /-- measurement 1 of the verified firmware (R282); none before it starts -/
  firmware : Option (List Byte)
  /-- an image downloaded at step 4, which step 6 verifies (R383) -/
  image : Option (List Byte) := none
  downloadFailed : Bool
  deriving DecidableEq, Repr

/-- The error-log ring's registers (Table 109). -/
structure ErrLog where
  base : W64
  tail : W32
  head : W32
  lost : W32
  /-- per-stack event sequence numbers -/
  seqs : List Nat
  /-- the ring's 32-byte records by address -/
  ring : List (Nat × List Byte)
  deriving DecidableEq, Repr

/-- The bound group being issued (R34): the wave, its lane group, the first word, the next word, the hints met so far. -/
structure Group where
  wid : Nat
  lanes : List Nat
  first : W57
  at_ : W57
  /-- payloads of the wide immediates, first-issued first (R36) -/
  wides : List (BitVec 24)
  /-- payload of the modifier hint (R37) -/
  modifier : Option (BitVec 24)
  /-- count of the scheduling hint (R38) -/
  sched : Option Nat
  /-- the instruction word that ends the group, for its latency and engine (R110); 0 where none could be fetched -/
  word : BitVec 32 := 0
  deriving DecidableEq, Repr

/-! ### The part -/

/-- The state of the whole part. -/
structure State where
  /-- MODEL: events that other agents make next, first first; `step` makes them before anything else (notes/assumptions/1) -/
  agenda : List Instr
  /-- MODEL: the core whose derailleur chooses next, and the next unused number (notes/assumptions/1) -/
  turn : Nat
  nextId : Nat
  /-- MODEL: the argument of the next free value (notes/assumptions/3) -/
  free : Nat
  grp : Option Group
  waves : List Wave
  blocks : List Block
  teams : List Team
  resvs : List Resv
  mmas : List MmaOp
  copies : List Copy
  remotes : List RemoteOp
  bankOps : List BankOp
  /-- idle counts of the six engines, by core (R217) -/
  idle : List (Nat × List Nat)
  /-- MODEL: the cores on which a group has issued since the part's last clock (notes/assumptions/1) -/
  issued : List Nat := []
  mem : Cells
  banks : List Bank
  cellBlocks : List CellBlock
  lines : List Line
  tlb : List TlbEntry
  /-- uncorrectable errors not yet cleared: found (poisoned) or not (R315) -/
  errors : List StoreLoc
  /-- those among them that patrol or a consumer has found (R315, R323) -/
  found : List StoreLoc
  /-- lines whose uncorrectable error shows as a mismatch of their check value (R313) -/
  mismatch : List Nat
  /-- owner tags of HBM4 lines: line, function, ASID, host bit; an unlisted line is firmware's (R316) -/
  tags : List (Nat × Nat × Nat × Bool)
  /-- correctable errors not yet repaired -/
  softs : List StoreLoc
  records : List Record
  /-- the generation last used of each record slot: ((partition, slot index), generation) (R293) -/
  gens : List ((Nat × Nat) × Nat)
  /-- units that wait in place for a record, in the order in which they began: a wave's, operation's or copy's number, and a segment (R308) -/
  poolWait : List (Nat × Nat)
  tasks : List Task
  launches : List Launch
  cmds : List Cmd
  doms : List Dom
  /-- the state-access registers of every core's domestique -/
  ks : List KsRegs
  /-- requests of domestiques on records of peer parts that have had no reply -/
  ksReqs : List KsReq
  /-- deadlines of fault tasks that peers posted here, by handle: posting again keeps them (R309, R310) -/
  remoteDue : List (W32 × Nat)
  parts : List Part
  vfs : List Vf
  asids : List AsidBind
  /-- host of each logical device (R264) -/
  hosts : List (Nat × Nat)
  /-- owner of each device physical page that is owned (R274) -/
  pages : List (Nat × Nat)
  cleared : List Nat
  retired : List Nat
  /-- pages served by a spare, with the count of spares used per stack, and pages waiting for a fill (R323) -/
  spared : List Nat
  sparesUsed : List Nat
  fills : List Nat
  /-- correctable errors found per page since its last fill (R323) -/
  softCount : List (Nat × Nat)
  /-- quarantined ways: (L2?, unit, way) (R286) -/
  ways : List (Bool × Nat × Nat)
  errlog : ErrLog
  spokeOut : List (Nat × SpokeOut)
  spokeReqs : List SpokeReq
  msix : List (Nat × Nat)
  hostReply : List HostReply
  /-- host accesses that wait for a line, oldest first (R160, R323) -/
  hostWait : List HostAccess
  assist : List AssistReq
  power : Power
  deriving DecidableEq, Repr

/-! ### Reset -/

/-- A ring at its reset values (Table 77). -/
def Ring.reset : Ring :=
  { rbase := 0, rcfg := 0, cbase := 0, ccfg := 0, troot := 0, head := 0, tail := 0, ctail := 0, chead := 0, status := 0,
    bits := [], notify := false, cfg := none, malformed := false, asid := none }

/-- A virtual function at its reset values (Tables 87, 88). -/
def Vf.reset : Vf :=
  { en := false, st := 0, ld := 0, hpol := 0, s2root := 0, ndrop := 0, rings := List.replicate 8 Ring.reset,
    gtbase := 0, gtcnt := 0, groups := [] }

/-- A free partition (Table 86, R253, R254). -/
def Part.reset : Part :=
  { owner := 0x7F, busy := false, fwm := 0, pev := false, perr := false, nest := 2, qen := BitVec.allOnes 64,
    qclk := List.replicate 64 0, pool := none, key := none }

/-- The registers of Table 105 at reset. -/
def KsRegs.reset : KsRegs := { ksh := 0xFFFFFFFF, ksoff := 0, ksdata := 0, kscmd := 0, ksst := 0, ksaddr := 0 }

/-- Power after step 7 of Table 158. -/
def Power.reset : Power :=
  { phase := .running, clock := 30, ports := [true, true], thermtrip := false, pwrfail := false, firmware := some [],
    downloadFailed := false }

/-- The error log at reset (Table 109). -/
def ErrLog.reset : ErrLog := { base := 0, tail := 0, head := 0, lost := 0, seqs := List.replicate 12 0, ring := [] }

/-- The part right after the power-up sequence: every partition free, every virtual function disabled, every core scrubbed, nothing
placed and no command in flight (R383, R266, R278). -/
def State.reset : State :=
  { agenda := [], turn := 0, nextId := 1, free := 0, grp := none, waves := [], blocks := [], teams := [], resvs := [], mmas := [],
    copies := [], remotes := [], bankOps := [], idle := [], mem := [], banks := [], cellBlocks := [], lines := [], tlb := [],
    errors := [], found := [], mismatch := [], tags := [], softs := [], records := [], gens := [], poolWait := [], tasks := [], launches := [], cmds := [], doms := [],
    ks := List.replicate 240 KsRegs.reset, ksReqs := [], remoteDue := [],
    parts := List.replicate 20 Part.reset, vfs := List.replicate 96 Vf.reset, asids := [], hosts := [], pages := [], cleared := [],
    retired := [], spared := [], sparesUsed := List.replicate 12 0, fills := [], softCount := [], ways := [],
    errlog := ErrLog.reset, spokeOut := [], spokeReqs := [], msix := [], hostReply := [], hostWait := [], assist := [], power := Power.reset }

end Sys2Proof.Machine
end

