-- ==== Sys2Proof/Machine/Bits.lean ====
section
/-! DEFINITION. Byte order, fields and lists: the helpers every later file uses (R4: little-endian everywhere). -/

namespace Sys2Proof.Machine

/-- The low `n` bytes of a number, least significant first (R4). -/
def leBytes : Nat → Nat → List Byte
  | 0, _ => []
  | n + 1, v => BitVec.ofNat 8 v :: leBytes n (v / 256)

/-- The number that bytes give, least significant first (R4). -/
def leNat : List Byte → Nat
  | [] => 0
  | b :: bs => b.toNat + 256 * leNat bs

/-- `n` bytes of a list from `off`, as a number. -/
def leAt (bs : List Byte) (off n : Nat) : Nat := leNat ((bs.drop off).take n)

/-- A list of bytes with those from `off` replaced. -/
def patchBytes (bs : List Byte) (off : Nat) (new : List Byte) : List Byte :=
  bs.take off ++ new ++ bs.drop (off + new.length)

/-- The bits `[lo + n - 1 : lo]` of a number. -/
def bits (v lo n : Nat) : Nat := v / 2 ^ lo % 2 ^ n

/-- A number of `k` bits read as two's complement. -/
def signed (k v : Nat) : Int := if v % 2 ^ k < 2 ^ (k - 1) then (v % 2 ^ k : Nat) else (v % 2 ^ k : Nat) - (2 ^ k : Nat)

/-- Two's-complement pattern of an integer in `k` bits. -/
def unsignedOf (k : Nat) (x : Int) : Nat := (x % (2 ^ k : Nat)).toNat

/-- Replace the entries that satisfy `p`. -/
def updWhere {α : Type} (l : List α) (p : α → Bool) (f : α → α) : List α := l.map fun x => if p x then f x else x

/-- The value of a key in an association list. -/
def assoc {β : Type} (l : List (Nat × β)) (k : Nat) : Option β := (l.find? fun e => e.1 == k).map (·.2)

/-- An association list with one key set. -/
def assocSet {β : Type} (l : List (Nat × β)) (k : Nat) (v : β) : List (Nat × β) :=
  if l.any (fun e => e.1 == k) then l.map fun e => if e.1 == k then (k, v) else e else l ++ [(k, v)]

/-- The low half of a pair and the high half (R28). -/
def lo32 (x : W64) : W32 := x.setWidth 32
def hi32 (x : W64) : W32 := (x >>> 32).setWidth 32
/-- A pair from its halves, low half in the even register (R28). -/
def pair64 (lo hi : W32) : W64 := hi.setWidth 64 <<< 32 ||| lo.setWidth 64

/-! ### Sparse byte maps -/

/-- The byte at an address; an unlisted address reads as 0 (notes/assumptions/4). -/
def Cells.get : Cells → Nat → Byte
  | [], _ => 0
  | (k, v) :: r, a => if k = a then v else Cells.get r a

/-- Insert into a strictly rising list. -/
def insertCell (a : Nat) (v : Byte) : List Host.Cell → List Host.Cell
  | [] => [(a, v)]
  | (k, x) :: r => if a < k then (a, v) :: (k, x) :: r else if a = k then (a, v) :: r else (k, x) :: insertCell a v r

/-- Remove an address from a strictly rising list. -/
def eraseCell (a : Nat) : List Host.Cell → List Host.Cell
  | [] => []
  | (k, x) :: r => if k = a then r else (k, x) :: eraseCell a r

/-- Write one byte, keeping the canonical form: writing 0 removes the entry. -/
def Cells.put (m : Cells) (a : Nat) (v : Byte) : Cells := if v = 0 then eraseCell a m else insertCell a v m

/-- Write consecutive bytes. -/
def Cells.putBytes : Cells → Nat → List Byte → Cells
  | m, _, [] => m
  | m, a, b :: bs => Cells.putBytes (Cells.put m a b) (a + 1) bs

/-- Write a list of single bytes, later entries last. -/
def Cells.putAll (m : Cells) (ws : List Host.Cell) : Cells := ws.foldl (fun m e => Cells.put m e.1 e.2) m

/-- Read consecutive bytes. -/
def Cells.getBytes (m : Cells) (a n : Nat) : List Byte := (List.range n).map fun i => Cells.get m (a + i)

/-- The canonical form: addresses strictly rising, no entry 0. -/
def Memory.wf : Cells → Bool
  | [] => true
  | [(_, v)] => v ≠ 0
  | (a, v) :: (b, w) :: r => v ≠ 0 && a < b && Memory.wf ((b, w) :: r)

/-- The byte held at an address, if one is. -/
def Held.get? : Held → Nat → Option Byte
  | [], _ => none
  | (k, v) :: r, a => if k = a then some v else Held.get? r a

/-- Hold consecutive bytes, the new bytes replacing those already held (R143). -/
def Held.putBytes : Held → Nat → List Byte → Held
  | m, _, [] => m
  | m, a, b :: bs => Held.putBytes (insertCell a b m) (a + 1) bs

/-- Lay one held map over another: where both hold a byte the upper one's stays (R150). -/
def Held.over (upper lower : Held) : Held := upper.foldl (fun m e => insertCell e.1 e.2 m) lower

/-- The 32-byte sectors a rising list of addresses touches (R143). -/
def sectorsOf (h : Held) : List Nat := (h.map fun e => e.1 / 32).eraseDups

end Sys2Proof.Machine
end

