-- ==== Sys2Proof/Machine/Access.lean ====
section
/-! DEFINITION. Named reads and writes of the parts of the state: waves, blocks, teams, copies, records, partitions and functions,
the wave registers as words (Tables 23, 24, 38, 39, 69, R127) and the numbering of R12. -/

namespace Sys2Proof.Machine

def State.wave? (s : State) (wid : Nat) : Option Wave := s.waves.find? fun w => w.wid == wid
def State.setWave (s : State) (w : Wave) : State := { s with waves := updWhere s.waves (fun x => x.wid == w.wid) fun _ => w }
def State.block? (s : State) (team idx : Nat) : Option Block := s.blocks.find? fun b => b.team == team && b.idx == idx
def State.setBlock (s : State) (b : Block) : State :=
  { s with blocks := updWhere s.blocks (fun x => x.team == b.team && x.idx == b.idx) fun _ => b }
def State.team? (s : State) (id : Nat) : Option Team := s.teams.find? fun t => t.id == id
def State.setTeam (s : State) (t : Team) : State := { s with teams := updWhere s.teams (fun x => x.id == t.id) fun _ => t }
def State.copy? (s : State) (id : Nat) : Option Copy := s.copies.find? fun c => c.id == id
def State.setCopy (s : State) (c : Copy) : State := { s with copies := updWhere s.copies (fun x => x.id == c.id) fun _ => c }
def State.mma? (s : State) (id : Nat) : Option MmaOp := s.mmas.find? fun m => m.id == id
def State.setMma (s : State) (m : MmaOp) : State := { s with mmas := updWhere s.mmas (fun x => x.id == m.id) fun _ => m }
def State.record? (s : State) (id : Nat) : Option Record := s.records.find? fun r => r.id == id
def State.setRecord (s : State) (r : Record) : State := { s with records := updWhere s.records (fun x => x.id == r.id) fun _ => r }
def State.launch? (s : State) (id : Nat) : Option Launch := s.launches.find? fun l => l.id == id
def State.setLaunch (s : State) (l : Launch) : State := { s with launches := updWhere s.launches (fun x => x.id == l.id) fun _ => l }
def State.cmd? (s : State) (vf ring seq : Nat) : Option Cmd := s.cmds.find? fun c => c.vf == vf && c.ring == ring && c.seq == seq
def State.setCmd (s : State) (c : Cmd) : State :=
  { s with cmds := updWhere s.cmds (fun x => x.vf == c.vf && x.ring == c.ring && x.seq == c.seq) fun _ => c }
def State.dom? (s : State) (core : Nat) : Option Dom := s.doms.find? fun d => d.core == core
def State.ksOf (s : State) (core : Nat) : KsRegs := s.ks.getD core KsRegs.reset
def State.updKs (s : State) (core : Nat) (f : KsRegs → KsRegs) : State := { s with ks := s.ks.set core (f (s.ksOf core)) }
def State.setDom (s : State) (d : Dom) : State := { s with doms := updWhere s.doms (fun x => x.core == d.core) fun _ => d }
def State.part (s : State) (p : Nat) : Part := s.parts.getD p Part.reset
def State.setPart (s : State) (p : Nat) (x : Part) : State := { s with parts := s.parts.set p x }
def State.vf (s : State) (v : Nat) : Vf := s.vfs.getD v Vf.reset
def State.setVf (s : State) (v : Nat) (x : Vf) : State := { s with vfs := s.vfs.set v x }
def State.ring (s : State) (v r : Nat) : Ring := (s.vf v).rings.getD r Ring.reset
def State.setRing (s : State) (v r : Nat) (x : Ring) : State := s.setVf v { s.vf v with rings := (s.vf v).rings.set r x }

/-- The waves of a block and of a team. -/
def State.blockWaves (s : State) (team idx : Nat) : List Wave := s.waves.filter fun w => w.team == team && w.blk == idx
def State.teamWaves (s : State) (team : Nat) : List Wave := s.waves.filter fun w => w.team == team

/-- A fresh value for what the spec leaves open, and the state that will give another one next (notes/assumptions/3). -/
def State.drawFree (s : State) : W64 × State := (Config.freeValue s.free, { s with free := s.free + 1 })

/-! ### Numbering (R12, R343) -/

def partOfCore (c : Nat) : Nat := c / 12
def hoodOfCore (c : Nat) : Nat := c / 20
def stackOf (dpa : Nat) : Nat := dpa / Config.stackBytes
/-- The pseudo-channel of a page, numbered over the whole part (R343). -/
def pseudoChannel (dpa : Nat) : Nat := stackOf dpa * 192 + (dpa % Config.stackBytes / 65536) % 192
/-- The ordinal of a partition among those its function holds (R240, R265; ascending, notes/assumptions/9). -/
def State.ordinal (s : State) (p : Nat) : Nat :=
  ((s.parts.take p).filter fun x => x.owner == (s.part p).owner).length
/-- The partition that holds an ordinal of a function. -/
def State.partOfOrd (s : State) (v ord : Nat) : Option Nat :=
  (List.range 20).find? fun p => (s.part p).owner == v && s.ordinal p == ord

/-! ### Wave registers as words -/

def Wave.running (w : Wave) : Bool := match w.status with | .running => true | _ => false
def Wave.isRack (w : Wave) : Bool := match w.status with | .rack _ _ => true | _ => false
def Wave.parkedIn? (w : Wave) : Option Nat := match w.status with | .parked r => some r | _ => none
/-- A resident wave: launched and not ended (R210). -/
def Wave.launched (w : Wave) : Bool := !w.isRack
/-- The lane positions the program sees: half the width under redundancy grade 1 (R17). -/
def Wave.plan (w : Wave) : Nat := if w.grade = 1 then w.width / 2 else w.width

/-- The key word of a lane (Table 69). -/
def keyWord (l : Lane) : Nat := (if l.yielded then 2 ^ 63 else 0) + (32 - l.depth) * 2 ^ 57 + l.pc.toNat

/-- `mlatch` (R127). -/
def mlatchWord (m : Option MLatch) : W64 :=
  match m with
  | none => 0
  | some l => BitVec.ofNat 64 (2 ^ 31 + l.chunks * 2 ^ 24 + l.ameta * 2 ^ 16 + l.areg * 2 ^ 8)

/-- `accwin.lock`: an operation of the wave is in flight or parked (Table 38). -/
def State.locked (s : State) (wid : Nat) : Bool := s.mmas.any fun m => m.wid == wid

/-- `accwin` (Table 38). -/
def accwinWord (lock : Bool) (w : Wave) : W64 :=
  BitVec.ofNat 64 ((if lock then 2 ^ 31 else 0) + w.winLimit * 2 ^ 16 + w.winBase)

/-- The writable bits of `fpmode` (Table 23). -/
def fpmodeMask : W64 := 0x7F000F
/-- The flag bits of `fpflags` (Table 24). -/
def fpflagsMask : W64 := 0xFF

/-- The accumulator row of a block; an unlisted row holds +0 and status 0 (R112). -/
def Row.zero : Row := { entries := List.replicate 64 0, status := 0 }
def Block.row (b : Block) (r : Nat) : Row := (assoc b.rows r).getD Row.zero
def Block.setRow (b : Block) (r : Nat) (x : Row) : Block := { b with rows := assocSet b.rows r x }

/-- Fields of a snapshotted parameter block (Table 43). -/
def MmaOp.areg (m : MmaOp) : Nat := leAt m.param 0 1
def MmaOp.ameta (m : MmaOp) : Nat := leAt m.param 1 1
def MmaOp.chunks (m : MmaOp) : Nat := leAt m.param 2 1
def MmaOp.accumulate (m : MmaOp) : Bool := leAt m.param 3 1 % 2 = 1
def MmaOp.integer (m : MmaOp) : Bool := leAt m.param 3 1 / 2 % 2 = 1
def MmaOp.bst (m : MmaOp) : Nat := leAt m.param 6 2
def MmaOp.row (m : MmaOp) : Nat := leAt m.param 8 2
/-- M: the number of rows (R124). -/
def MmaOp.m (m : MmaOp) : Nat := if m.grade = 1 then m.width / 2 else m.width
def MmaOp.rows (m : MmaOp) : List Nat := (List.range m.m).map (m.row + ·)

/-- The rows of a block that operations own (R117). -/
def State.owned (s : State) (team blk r : Nat) : Bool :=
  s.mmas.any fun m => m.team == team && m.blk == blk && m.rows.contains r

/-- The place in the core's issue order of a group that reads or writes rows: the one it took when it began to wait, else the next. -/
def State.rowPlace (s : State) (w : Wave) (first : W57) : Nat :=
  match w.rowWait with
  | some (f, n, _) => if f = first then n else s.nextId
  | none => s.nextId

/-- A wave of the block waits for a row since before a place in the issue order. -/
def State.rowAwaited (s : State) (team blk r n : Nat) : Bool :=
  s.waves.any fun x => x.team == team && x.blk == blk &&
    (match x.rowWait with | some (_, k, rows) => decide (k < n) && rows.contains r | none => false)

/-- A row is not yet a group's to access: an operation issued before it owns the row, or an earlier access waits for it (R116, R117). -/
def State.rowBusy (s : State) (w : Wave) (first : W57) (r : Nat) : Bool :=
  let n := s.rowPlace w first
  (s.mmas.any fun m => decide (m.id < n) && m.team == w.team && m.blk == w.blk && m.rows.contains r) || s.rowAwaited w.team w.blk r n

/-- The wave waits for rows, at its place in the issue order. -/
def State.awaitRows (s : State) (w : Wave) (first : W57) (rows : List Nat) : State :=
  { s with waves := updWhere s.waves (fun x => x.wid == w.wid) fun x => { x with rowWait := some (first, s.rowPlace w first, rows) }
           nextId := s.nextId + 1 }

/-- The queue clock of a queue of a partition (R253). -/
def State.qclock (s : State) (p q : Nat) : Nat := (s.part p).qclk.getD q 0

/-- The ways of a slice or stack that are quarantined (R286). -/
def State.waysOf (s : State) (l2 : Bool) (unit : Nat) : List Nat :=
  (s.ways.filter fun e => e.1 == l2 && e.2.1 == unit).map fun e => e.2.2

end Sys2Proof.Machine
end

