-- ==== Sys2Proof/Machine/Translate.lean ====
section
/-! DEFINITION. Global memory by device physical address, with cleared pages (R275), and the two-stage translation at engine
boundaries (R271, R272, Tables 89, 90, 159) with its cached entries. -/

namespace Sys2Proof.Machine

/-- A byte of device memory: a page whose cleared bit is set reads as zeros (R275). -/
def State.readByte (s : State) (a : Nat) : Byte :=
  if s.cleared.contains (a / 65536) then 0 else Cells.get s.mem a

def State.readBytes (s : State) (a n : Nat) : List Byte := (List.range n).map fun i => s.readByte (a + i)

def State.readNat (s : State) (a n : Nat) : Nat := leNat (s.readBytes a n)

/-- What an access needs (Table 159): permissions and the region kinds it accepts (R162). -/
structure Need where
  rd : Bool
  wr : Bool
  ex : Bool
  kinds : List Nat
  deriving DecidableEq, Repr

/-- Reads and writes of copies accept ordinary and bank-engine regions (R162). -/
def Need.copyIn : Need := { rd := true, wr := false, ex := false, kinds := [0, 1] }
def Need.copyOut : Need := { rd := false, wr := true, ex := false, kinds := [0, 1] }
/-- Command slots, launch and layout records, index values (Table 159). -/
def Need.fetch : Need := { rd := true, wr := false, ex := false, kinds := [0, 1] }
def Need.completion : Need := { rd := false, wr := true, ex := false, kinds := [0, 1] }
def Need.atomic : Need := { rd := true, wr := true, ex := false, kinds := [0] }
def Need.xadd : Need := { rd := true, wr := true, ex := false, kinds := [2] }
def Need.xseal : Need := { rd := true, wr := false, ex := false, kinds := [2] }
def Need.xzero : Need := { rd := false, wr := true, ex := false, kinds := [2] }
def Need.monitor : Need := { rd := true, wr := false, ex := false, kinds := [0] }
def Need.bankRead : Need := { rd := true, wr := false, ex := false, kinds := [1] }
def Need.bankWrite : Need := { rd := false, wr := true, ex := false, kinds := [1] }
def Need.maintain : Need := { rd := true, wr := false, ex := false, kinds := [0] }
def Need.exec : Need := { rd := false, wr := false, ex := true, kinds := [0] }

/-- Causes of Table 96 used here. -/
def Cause.illegal : Nat := 0x01
def Cause.priv : Nat := 0x02
def Cause.idz : Nat := 0x08
def Cause.qnf : Nat := 0x09
def Cause.notPresent : Nat := 0x10
def Cause.perm : Nat := 0x11
def Cause.addrOvf : Nat := 0x12
def Cause.memside : Nat := 0x13
def Cause.scope : Nat := 0x14
def Cause.accWindow : Nat := 0x18
def Cause.cassRange : Nat := 0x19
def Cause.pannierFull : Nat := 0x1A
def Cause.overlayFull : Nat := 0x1B
def Cause.stackOvf : Nat := 0x1C
def Cause.ecc : Nat := 0x20
def Cause.linkTimeout : Nat := 0x21
def Cause.lane : Nat := 0x22
def Cause.twin : Nat := 0x23
def Cause.checkValue : Nat := 0x24
def Cause.preempt : Nat := 0x30
def Cause.deadline : Nat := 0x31
def Cause.nestLimit : Nat := 0x32
def Cause.trap : Nat := 0x3F

/-- What a walk gives at its leaf. -/
structure Leaf where
  addr : Nat
  rd : Bool
  wr : Bool
  ex : Bool
  kind : Nat
  deriving DecidableEq, Repr

/-- The partition that owns a page, and whether the page is a function's own (R274, R285). -/
def State.pageOwner (s : State) (page : Nat) : Option Nat := assoc s.pages page
def State.ownPage (s : State) (vf page : Nat) : Bool :=
  match s.pageOwner page with | some p => (s.part p).owner == vf | none => false

/-- A page that a partition of another function owns: no tables but that function's own reach it (R274). What an access that names it meets the
spec does not say; it is judged as an address that is not present (notes/assumptions/7). -/
def State.foreignPage (s : State) (vf page : Nat) : Bool :=
  match s.pageOwner page with | some p => (s.part p).owner != vf | none => false

/-- The levels of a walk, from level 4 to level 0: level, lowest index bit, index width (Table 89). -/
def walkLevels : List (Nat × Nat × Nat) := [(4, 48, 9), (3, 39, 9), (2, 30, 9), (1, 21, 9), (0, 16, 5)]

/-- Whether an entry is malformed at a level (R272, Table 90). -/
def malformedEntry (stage1 : Bool) (level e : Nat) : Bool :=
  let leaf := bits e 1 1 = 1
  bits e 48 16 ≠ 0 || bits e 2 1 ≠ 0 || (leaf && level ≥ 3) || (!leaf && level = 0) || (stage1 && bits e 6 2 ≠ 0) || bits e 6 2 = 3 ||
  (!leaf && level > 1 && bits e 8 4 ≠ 0) || (leaf && (bits e 8 40 * 256) % 2 ^ (if level = 2 then 30 else if level = 1 then 21 else 16) ≠ 0)

/-- Walk the tables from `root` through the levels; `fetch` reads the entry at a table address (none: not present). -/
def walk (stage1 : Bool) (fetch : Nat → Option Nat) (va : Nat) : List (Nat × Nat × Nat) → Nat → Option Leaf
  | [], _ => none
  | (level, lo, n) :: rest, table =>
    match fetch (table + 8 * bits va lo n) with
    | none => none
    | some e =>
      if bits e 0 1 = 0 || malformedEntry stage1 level e then none
      else if bits e 1 1 = 1 then
        some { addr := bits e 8 40 * 256 + va % 2 ^ lo, rd := bits e 3 1 = 1, wr := bits e 4 1 = 1, ex := bits e 5 1 = 1, kind := bits e 6 2 }
      else walk stage1 fetch va rest (bits e 8 40 * 256)

/-- A stage-2 walk: tables by device physical address; an output beyond 576 GiB (R271) or in another tenant's page (R274) is not present. -/
def State.walk2 (s : State) (vf gpa : Nat) : Option Leaf :=
  let root := bits (s.vf vf).s2root.toNat 12 28 * 4096
  match walk false (fun a => if a + 8 ≤ Config.deviceBytes then some (s.readNat a 8) else none) gpa walkLevels root with
  | none => none
  | some l => if l.addr < Config.deviceBytes && !s.foreignPage vf (l.addr / 65536) then some l else none

/-- Whether a page has left service: retired, served by no spare, and not on its way to one (Table 94, R323). -/
def State.pageGone (s : State) (page : Nat) : Bool := s.retired.contains page && !s.spared.contains page && !s.fills.contains page

/-- Whether a frame can be reached: not retired, and holding cells where its kind says so (R271 step 3, R277). -/
def State.frameOk (s : State) (l : Leaf) : Bool :=
  !s.pageGone (l.addr / 65536) && (l.kind ≠ 2 || s.cellBlocks.any fun b => b.page == l.addr / 65536)

/-- A stage-1 walk; its tables pass through stage 2 (R271). -/
def State.walk1 (s : State) (vf root va : Nat) : Option Leaf :=
  if root = 0 then some { addr := va, rd := true, wr := true, ex := true, kind := 0 }
  else walk true (fun g => (s.walk2 vf g).map fun l => s.readNat l.addr 8) va walkLevels root

/-- The stage-1 root of an ASID bound to a function. -/
def State.rootOf (s : State) (vf asid : Nat) : Option Nat :=
  (s.asids.find? fun b => b.asid == asid && b.vf == vf).map (·.root)

/-- The judgement of R271 in the order of the walk: the address and kind, or the first failure's cause. -/
def State.walkFresh (s : State) (vf asid va : Nat) (need : Need) : Except Nat (Nat × Nat) :=
  match (s.rootOf vf asid).bind fun r => s.walk1 vf r va with
  | none => .error Cause.notPresent
  | some l1 =>
    if (need.rd && !l1.rd) || (need.wr && !l1.wr) || (need.ex && !l1.ex) then .error Cause.perm
    else match s.walk2 vf l1.addr with
      | none => .error Cause.notPresent
      | some l2 =>
        if !s.frameOk l2 then .error Cause.notPresent
        else if (need.rd && !l2.rd) || (need.wr && !l2.wr) || (need.ex && !l2.ex) || (l2.kind = 1 && bits (s.vf vf).hpol.toNat 9 1 = 0) then
          .error Cause.perm
        else if !need.kinds.contains l2.kind then .error Cause.memside
        else .ok (l2.addr, l2.kind)

/-- The judgement a cached entry gives. -/
def TlbEntry.judge (e : TlbEntry) (va : Nat) (need : Need) : Except Nat (Nat × Nat) :=
  if (need.rd && !e.rd) || (need.wr && !e.wr) || (need.ex && !e.ex) then .error Cause.perm
  else if !need.kinds.contains e.kind then .error Cause.memside
  else .ok (e.dpage * 65536 + va % 65536, e.kind)

/-- The number under which a stack's second-level entries stand in `State.tlb`. -/
def stackTlb (stack : Nat) : Nat := 256 + stack

/-- The cached translation that serves a core: its own first-level entry, else one of the second level of its neighbourhood's stack (Table 3,
R271; which stack holds an entry the spec leaves open, notes/assumptions/7). -/
def State.cachedEntry (s : State) (core vf asid va : Nat) : Option TlbEntry :=
  let at_ (unit : Nat) : Option TlbEntry := s.tlb.find? fun e => e.core == unit && e.vf == vf && e.asid == asid && e.vpage == va / 65536
  (at_ core).or (at_ (stackTlb (hoodOfCore core)))

/-- A cached entry whose page can no longer be reached: retired, another tenant's, or of a cell block that is gone (R271, R274, R277). -/
def State.entryDead (s : State) (e : TlbEntry) : Bool :=
  s.pageGone e.dpage || s.foreignPage e.vf e.dpage || (e.kind == 2 && !(s.cellBlocks.any fun b => b.page == e.dpage))

/-- Translate for an engine of a core. A cached entry that disagrees with the tables may still be used until a `tlbinv` (R223,
Table 94); which of the two is used is a free value (notes/assumptions/7). A page that can no longer be reached is not reached through a cached
entry. -/
def State.translate (s : State) (core vf asid va : Nat) (need : Need) : Except Nat (Nat × Nat) :=
  let fresh := s.walkFresh vf asid va need
  match s.cachedEntry core vf asid va with
  | none => fresh
  | some e =>
    let stale := Config.staleTranslation s.free asid va
    let cached := if s.entryDead e then .error Cause.notPresent else e.judge va need
    match fresh, cached with
    | .ok a, .ok b => if a = b then .ok a else if stale then .ok b else .ok a
    | .error a, .error b => if a = b then .error a else if stale then .error b else .error a
    | f, c => if stale then c else f

/-- Put an entry into a store of n entries, the oldest leaving. -/
def putEntry (store : List TlbEntry) (n : Nat) (e : TlbEntry) : List TlbEntry :=
  if store.any fun x => x.core == e.core && x.vf == e.vf && x.asid == e.asid && x.vpage == e.vpage then store
  else
    let mine := store.filter fun x => x.core == e.core
    store.filter (fun x => x.core != e.core) ++ (mine.drop (mine.length + 1 - n) ++ [e])

/-- Remember a page's translation in the core's first-level store and the stack's second-level store (Table 3, R271). -/
def State.noteTlb (s : State) (core vf asid va : Nat) : State :=
  if s.tlb.any fun e => e.core == core && e.vf == vf && e.asid == asid && e.vpage == va / 65536 then s
  else
    match (s.rootOf vf asid).bind fun r => s.walk1 vf r va with
    | none => s
    | some l1 =>
      match s.walk2 vf l1.addr with
      | none => s
      | some l2 =>
        if !s.frameOk l2 then s
        else
          let bkOk := l2.kind ≠ 1 || bits (s.vf vf).hpol.toNat 9 1 = 1
          let e : TlbEntry :=
            { core := core, vf := vf, asid := asid, vpage := va / 65536, dpage := l2.addr / 65536, rd := l1.rd && l2.rd && bkOk,
              wr := l1.wr && l2.wr && bkOk, ex := l1.ex && l2.ex && bkOk, kind := l2.kind }
          { s with tlb := putEntry (putEntry s.tlb Config.tlbEntries e) Config.tlbEntries2 { e with core := stackTlb (hoodOfCore core) } }

/-! ### Region kinds (R276) -/

/-- The places of a table's entries that are valid, whose first byte is odd. -/
def State.validEntries (s : State) (table n : Nat) : List Nat :=
  (s.mem.filter fun e => decide (table ≤ e.1) && decide (e.1 < table + 8 * n) && (e.1 - table) % 8 == 0 && e.2.getLsbD 0 && !s.cleared.contains (e.1 / 65536)).map
    fun e => (e.1 - table) / 8

/-- The leaves of the stage-2 tables below a table: first address, size and kind. -/
def State.leaves (s : State) : List (Nat × Nat × Nat) → Nat → List (Nat × Nat × Nat)
  | [], _ => []
  | (level, lo, n) :: rest, table =>
    (s.validEntries table (2 ^ n)).flatMap fun i =>
      let e := s.readNat (table + 8 * i) 8
      if malformedEntry false level e then [] else if bits e 1 1 = 1 then [(bits e 8 40 * 256, 2 ^ lo, bits e 6 2)] else s.leaves rest (bits e 8 40 * 256)

/-- Whether a stage-2 leaf gives a page a kind: a leaf of its owner's tables, or of any function's where no partition owns it (R276). -/
def State.pageKind (s : State) (page kind : Nat) : Bool :=
  let roots := match s.pageOwner page with
    | some p => [(s.vf (s.part p).owner).s2root]
    | none => (s.vfs.map fun (v : Vf) => v.s2root).eraseDups
  roots.any fun r => (s.leaves walkLevels (bits r.toNat 12 28 * 4096)).any fun l => l.2.2 == kind && decide (l.1 ≤ page * 65536) && decide (page * 65536 < l.1 + l.2.1)

/-- Whether a page belongs to a bank-engine region: by its leaf, or because bank operations or copies have reached it as one. -/
def State.bankPage (s : State) (page : Nat) : Bool := (s.banks.any fun b => b.pages.contains page) || s.pageKind page 1

/-- Whether a page belongs to a memory-side region, of the bank engines or of exact cells: no cache level holds its lines (R21). -/
def State.memSide (s : State) (page : Nat) : Bool := s.bankPage page || (s.cellBlocks.any fun b => b.page == page) || s.pageKind page 2

/-- Read bytes at a virtual address through translation, page by page; the first failing byte's cause. -/
def State.readVa (s : State) (core vf asid va : Nat) (need : Need) : Nat → Except Nat (List Byte)
  | 0 => .ok []
  | n + 1 =>
    match s.readVa core vf asid va need n with
    | .error c => .error c
    | .ok bs =>
      match s.translate core vf asid (va + n) need with
      | .error c => .error c
      | .ok (d, _) => .ok (bs ++ [s.readByte d])

/-- A page reads as zeros for its cleared bit alone, so that no error of its old lines is met: a bank-engine page has no such bit, though a bit set
before it became one has left zeros in it (R275, R276). -/
def State.blank (s : State) (page : Nat) : Bool := s.cleared.contains page && !s.bankPage page

/-- The dirty copy of a line, which a read is given before what stands below it (R320). -/
def State.dirtyLine? (s : State) (d : Nat) : Option Line := s.lines.find? fun e => e.dpa / 64 == d / 64 && e.dirty

/-- The uncorrectable error that a read of a line meets (Table 106): that of the dirty line in its own store, where one stands, else HBM4's; a clean
copy is fetched again (R320), and a cleared page raises none (R275). -/
def State.lineError (s : State) (d : Nat) : Option StoreLoc :=
  if s.errors.isEmpty || s.blank (d / 65536) then none
  else match s.dirtyLine? d with
    | some e => s.errors.find? fun x => match x with | .l2 a => e.l2 && a / 64 == d / 64 | .ms a => !e.l2 && a / 64 == d / 64 | _ => false
    | none => s.errors.find? fun x => match x with | .hbm a => a / 64 == d / 64 | _ => false

/-- The line of global data at a place, with its check value (R313). -/
def lineOf : StoreLoc → Option Nat
  | .l2 a => some (a / 64) | .ms a => some (a / 64) | .hbm a => some (a / 64) | _ => none

/-- The lines in error of n bytes from an address on. -/
def State.badLines (s : State) (a n : Nat) : List Nat :=
  s.errors.filterMap fun e => (lineOf e).bind fun l => if a / 64 ≤ l && l * 64 < a + n then some l else none

/-- The cause under which a consumer meets the error of a line (R313). -/
def State.lineCause (s : State) (d : Nat) : Nat := if s.mismatch.contains (d / 64) then Cause.checkValue else Cause.ecc

end Sys2Proof.Machine
end

