-- ==== Sys2Proof/Machine/View.lean ====
section
/-! DEFINITION. The scratchpad as a wave sees it: team-view addresses (R250), the byte search of R142, the pannier and the
overlays in sectors (R143, R144), and the range scoreboard (R189). -/

namespace Sys2Proof.Machine

/-- A program's scratchpad address as a team-view address: the even core's slice first (R250). -/
def toTeam (core va : Nat) : Nat := if core % 2 = 0 then va else if va < 0x200000 then va + 0x200000 else va - 0x200000

/-- The core whose scratchpad holds a team-view address, on a pair (R250). -/
def coreOfTeamAddr (pair ta : Nat) : Nat := 2 * pair + ta / 0x200000

/-- Whether `n` bytes at an address lie in one window, inside the team's view (R174, R250). -/
def inView (view va n : Nat) : Bool := decide (va < 0x400000) && decide (va % 0x200000 + n ≤ view)

/-- The same for the wave's own window alone (R124, R132). -/
def inOwnView (view va n : Nat) : Bool := decide (va + n ≤ 0x200000) && decide (va + n ≤ view)

/-- The byte that the levels above the wave give (R142): block overlay, team overlay, base. -/
def State.levelByte (s : State) (team blk ta : Nat) : Byte :=
  match (s.block? team blk).bind fun b => Held.get? b.ovl ta with
  | some v => v
  | none =>
    match s.team? team with
    | none => 0
    | some t => match Held.get? t.ovl ta with
      | some v => v
      | none => Cells.get t.base ta

/-- One byte through a wave's view: pannier, block overlay, team overlay, base (R142, Table 49). -/
def State.viewByte (s : State) (w : Wave) (ta : Nat) : Byte :=
  match Held.get? w.pan ta with
  | some v => v
  | none => s.levelByte w.team w.blk ta

/-- `n` bytes at a program address through a wave's view. -/
def State.viewBytes (s : State) (w : Wave) (va n : Nat) : List Byte :=
  (List.range n).map fun i => s.viewByte w (toTeam w.core (va + i))

/-- The slice size V of a wave's team. -/
def State.viewSize (s : State) (w : Wave) : Nat := match s.team? w.team with | some t => t.view | none => 0

/-- Sectors of the pannier in use: byte sectors and one for each deferred reduction (R143, R192). -/
def Wave.sectors (w : Wave) : Nat := (sectorsOf w.pan).length + w.reds.length

/-- Sectors of the overlay store of a core that are in use (R144): block overlays and team overlays of the bytes of that core, and each deferred reduction
held above the wave (R161) that was issued on it, so that a commit to the team moves no sector to another core. R144 places bytes alone: where reductions
stand is the model's choice (notes/assumptions/44). -/
def State.overlayUse (s : State) (core : Nat) : Nat :=
  let mine (pair : Nat) (h : Held) (rs : List Red) : Nat :=
    ((sectorsOf h).filter fun x => coreOfTeamAddr pair (x * 32) == core).length + (rs.filter fun r => 2 * pair + r.odd.toNat == core).length
  (s.blocks.map fun b => mine (b.core / 2) b.ovl b.reds).sum + (s.teams.map fun t => mine t.pair t.ovl t.reds).sum

/-! ### The range scoreboard (Table 64) -/

/-- One entry: its kind (0 `copy.in`, 1 an outward copy's source, 2 a digest area, 3 `bkrd`), the core it stands in, the team whose view it
ranges over, start and length in team-view addresses, whether it guards against loads as well as stores. -/
structure Guarded where
  kind : Nat
  core : Nat
  team : Nat
  start : Nat
  len : Nat
  loads : Bool
  deriving DecidableEq, Repr

/-- The length of the digest area of an image of `n` bytes (R188, Table 64). -/
def digestLen (n : Nat) : Nat := 32 * ((n + 65535) / 65536)

/-- The entries that a copy holds (Table 64). Staging and write-back hold none. -/
def Copy.guards (c : Copy) : List Guarded :=
  match c.kind with
  | .inward => if c.cassette then [] else [{ kind := 0, core := c.core, team := c.team, start := c.start, len := c.len, loads := true }]
  | .outward => [{ kind := 1, core := c.core, team := c.team, start := c.start, len := c.len, loads := false }]
  | .digest =>
    { kind := 1, core := c.core, team := c.team, start := c.start, len := c.len, loads := false } ::
      (if c.digested then []
       else [{ kind := 2, core := c.core, team := c.team, start := toTeam c.core c.dig.toNat, len := digestLen c.len, loads := true }])
  | _ => []

/-- The entry of a `bkrd` (R196). -/
def BankOp.guards (o : BankOp) : List Guarded :=
  if o.fn = 3 then [{ kind := 3, core := o.core, team := o.team, start := o.dst, len := 4096, loads := true }] else []

/-- Every entry held, over all cores. -/
def State.guards (s : State) : List Guarded :=
  s.copies.flatMap Copy.guards ++ s.bankOps.flatMap BankOp.guards

/-- Entries in use on a core, an inward copy to the cassette counting one (R189). -/
def State.scoreUse (s : State) (core : Nat) : Nat :=
  (s.guards.filter fun g => g.core == core).length + (s.copies.filter fun c => c.core == core && c.cassette && c.kind == .inward).length

def overlap (a n b m : Nat) : Bool := decide (a < b + m) && decide (b < a + n)

/-- Whether an access of `n` bytes at a team-view address is held back (Table 64): `st` by every entry, `ld` by those that guard
against loads. -/
def State.guarded (s : State) (team ta n : Nat) (store : Bool) : Bool :=
  s.guards.any fun g => g.team == team && overlap g.start g.len ta n && (store || g.loads)

end Sys2Proof.Machine
end

