-- ==== Sys2Proof/Machine/Global.lean ====
section
/-! DEFINITION. Writes of global memory (R163): cleared pages filled on the first write (R275), owner tags of dirty lines (R316),
armed monitors (R236), poison cleared by whole-word writes (R315), and ownership of lines by pending copies (R159, R160). -/

namespace Sys2Proof.Machine

/-- Who writes, and where the dirty line stands: in the L2 slice of a core, or in the memory-side cache. -/
structure Writer where
  vf : Nat
  asid : Nat
  host : Bool
  l2 : Option Nat
  deriving DecidableEq, Repr

/-- The fill of a cleared page by the first write of its new owner (R275): its bytes become zeros, error marks of its old lines go with them, and its
bit clears. A page that no partition owns keeps its bit. -/
def State.fillCleared (s : State) (page : Nat) : State :=
  if s.cleared.contains page && (s.pageOwner page).isSome then
    let old : StoreLoc → Bool | .hbm a => a / 65536 == page | _ => false
    { s with
      mem := s.mem.filter (fun e => e.1 / 65536 != page), cleared := s.cleared.filter (· != page)
      errors := if s.errors.isEmpty then s.errors else s.errors.filter fun e => !old e
      softs := if s.softs.isEmpty then s.softs else s.softs.filter fun e => !old e }
  else s

/-- Every armed monitor on a line learns of a write to it (R236 step 5). -/
def State.hitLine (s : State) (line : Nat) : State :=
  { s with waves := s.waves.map fun w =>
      if w.lanes.any fun l => match l.sleep with | some a => a.armed && a.dpa / 64 == line | none => false then
        { w with lanes := w.lanes.map fun l => match l.sleep with
            | some a => if a.armed && a.dpa / 64 == line then { l with sleep := some { a with hit := true } } else l
            | none => l }
      else w }

/-- The stack of a page; the spare pages stand beyond the device physical addresses, 1,024 to a stack (R323). -/
def pageStack (page : Nat) : Nat :=
  if page < Config.deviceBytes / 65536 then stackOf (page * 65536) else (page - Config.deviceBytes / 65536) / Config.spares
def sparePage (stack k : Nat) : Nat := Config.deviceBytes / 65536 + stack * Config.spares + k

/-- Whether a memory-side way holds exact cells, and then no lines (R277): the cell blocks of a stack stand in the highest of its ways that are not
quarantined, as many 40 KiB blocks to a way as fit in its 2 MiB (notes/assumptions/9). -/
def State.wayHoldsCells (s : State) (stack way : Nat) : Bool :=
  let n := (s.cellBlocks.filter fun b => pageStack b.page == stack).length
  (((List.range 16).reverse.filter fun i => !(s.waysOf false stack).contains i).take ((n + 50) / 51)).contains way

/-- The set of a unit in which a line lies: DPA[15:6] in an L2 slice (R372), 1,024 sets of 16 ways to its 1 MiB; in a memory-side cache, which the spec
does not lay out, DPA[20:6], 32,768 sets of 16 ways to its 32 MiB (Table 3; notes/assumptions/9). -/
def setOf (l2 : Bool) (line : Nat) : Nat := if l2 then line % 1024 else line % Config.wayLines

/-- The ways of a unit in which lines may be allocated: not quarantined (R286), and holding no cells. -/
def State.openWays (s : State) (l2 : Bool) (unit : Nat) : List Nat :=
  (List.range 16).filter fun i => !(s.waysOf l2 unit).contains i && (l2 || !s.wayHoldsCells unit i)

/-- The lines of a unit that lie in a set, each in a way of it; a line set aside to be written back holds no way. -/
def State.setLines (s : State) (l2 : Bool) (unit set : Nat) : List Line :=
  s.lines.filter fun e => e.l2 == l2 && e.unit == unit && !e.aside && setOf l2 (e.dpa / 64) == set

/-- The way that a line takes: the lowest open way of its set that no line holds (R372: which way a line takes is not fixed; notes/assumptions/9). -/
def State.freeWay (s : State) (l2 : Bool) (unit line : Nat) : Nat :=
  let held := (s.setLines l2 unit (setOf l2 line)).map (·.way)
  ((s.openWays l2 unit).find? fun i => !held.contains i).getD 0

/-- Error marks of a line that its data takes along into an L2 slice. -/
def raiseErrors (errs : List StoreLoc) (line : Nat) (dirty : Bool) : List StoreLoc :=
  errs.filterMap fun e => match e with
    | .ms a => if a / 64 = line then (if dirty then some (.l2 a) else none) else some e
    | .l2 a => if a / 64 = line && !dirty then none else some e
    | e => some e

/-- Move the error marks of a line from one store to another with the line's data (R315). -/
def moveErrors (errs : List StoreLoc) (line : Nat) (f : StoreLoc → Option StoreLoc) : List StoreLoc :=
  errs.filterMap fun e => match e with
    | .l2 a => if a / 64 = line then f e else some e
    | .ms a => if a / 64 = line then f e else some e
    | e => some e

/-- Whether a cached line holds an uncorrectable error in the store where it stands. -/
def State.lineBad (s : State) (e : Line) : Bool :=
  s.errors.any fun x => match x with | .l2 a => e.l2 && a / 64 == e.dpa / 64 | .ms a => !e.l2 && a / 64 == e.dpa / 64 | _ => false

/-- A dirty line is written to HBM4, with its owner tag (R316), and stays cached as a clean one. -/
def State.storeLine (s : State) (e : Line) : State :=
  { s with lines := updWhere s.lines (fun x => x.dpa == e.dpa) (fun x => { x with dirty := false, earlier := [], below := [] })
           tags := assocSet s.tags (e.dpa / 64) (e.vf, e.asid, e.host)
           softs := s.softs.filter fun x => match x with | .hbm a => a / 64 != e.dpa / 64 | _ => true
           errors := moveErrors (s.errors.filter fun x => match x with | .hbm a => a / 64 != e.dpa / 64 | _ => true) (e.dpa / 64)
             fun x => match x with | .l2 a => some (.hbm a) | .ms a => some (.hbm a) | x => some x }

/-- A clean line leaves the cache in which it stands, and the error marks of its copy there with it. -/
def State.leaveCache (s : State) (e : Line) : State :=
  { s with lines := s.lines.filter (fun x => !(x.dpa == e.dpa && x.l2 == e.l2))
           errors := if s.errors.isEmpty then s.errors else moveErrors s.errors (e.dpa / 64) fun x => match x with
             | .l2 a => if e.l2 then none else some (.l2 a)
             | .ms a => if e.l2 then some (.ms a) else none
             | x => some x }

/-- A line goes out of its cache, to HBM4 where it is dirty. -/
def State.expelLine (s : State) (e : Line) : State := (if e.dirty then s.storeLine e else s).leaveCache e

/-- The line that leaves a set when another comes into it (R372): while every way of the set is taken, the oldest in which no error has still to be found,
and where every one holds a dirty line in error the oldest of them (which line leaves the spec leaves open, notes/assumptions/9). -/
def State.victimLine (s : State) (l2 : Bool) (unit line : Nat) : Option Line :=
  let set := s.setLines l2 unit (setOf l2 line)
  if set.length < (s.openWays l2 unit).length then none else (set.find? fun e => !(e.dirty && s.lineBad e)) <|> set.head?

/-- A dirty line in error gives up its way, and `putOut` writes it back, which finds the error (R319). -/
def State.setAside (s : State) (e : Line) : State := { s with lines := updWhere s.lines (fun x => x.dpa == e.dpa) fun x => { x with aside := true } }

/-- Room for a line in a memory-side cache: a dirty line that leaves is written to HBM4. -/
def State.roomBelow (s : State) (unit line : Nat) : State :=
  match s.victimLine false unit line with
  | none => s
  | some e => if e.dirty && s.lineBad e then s.setAside e else s.expelLine e

/-- A dirty line of an L2 slice is written back to the memory-side cache of its stack. -/
def State.sinkLine (s : State) (e : Line) : State :=
  let s := s.roomBelow (stackOf e.dpa) (e.dpa / 64)
  let n : Line := { e with l2 := false, aside := false, unit := stackOf e.dpa, way := s.freeWay false (stackOf e.dpa) (e.dpa / 64) }
  { s with lines := updWhere s.lines (fun x => x.dpa == e.dpa) (fun _ => n)
           errors := moveErrors s.errors (e.dpa / 64) fun x => match x with | .l2 a => some (.ms a) | x => some x }

/-- Room for a line in its set of an L2 slice or of a memory-side cache, made before the line comes (R372). -/
def State.room (s : State) (l2 : Bool) (unit line : Nat) : State :=
  if !l2 then s.roomBelow unit line
  else match s.victimLine true unit line with
    | none => s
    | some e => if e.dirty && s.lineBad e then s.setAside e else if e.dirty then s.sinkLine e else s.leaveCache e

/-- A line comes into a set, in a way of its own. -/
def State.addLine (s : State) (e : Line) : State :=
  let s := s.room e.l2 e.unit (e.dpa / 64)
  { s with lines := s.lines ++ [{ e with aside := false, way := s.freeWay e.l2 e.unit (e.dpa / 64) }] }

/-- Note a line dirty with its owner tag (R316) and what HBM4 holds of it. A core's write leaves it in the L2 slice of that core (R372), wherever the line
stood; a write of a host leaves a cached line where it is. -/
def State.noteDirty (s : State) (wr : Writer) (line : Nat) (below : Cells) : State :=
  let unit := match wr.l2 with | some c => c | none => stackOf (line * 64)
  match s.lines.find? fun e => e.dpa / 64 == line with
  | some e =>
    let stays := wr.l2.isNone || (e.l2 && e.unit == unit && !e.aside)
    let n : Line := { e with
      dirty := true, vf := wr.vf, asid := wr.asid, host := wr.host, below := if e.dirty then e.below else below
      earlier := if e.dirty && !e.host && !e.earlier.contains (e.vf, e.asid) then e.earlier ++ [(e.vf, e.asid)] else e.earlier }
    if stays then { s with lines := s.lines.map fun x => if x.dpa / 64 == line then n else x }
    else
      ({ s with lines := s.lines.filter fun x => x.dpa / 64 != line
                errors := if s.errors.isEmpty then s.errors else raiseErrors s.errors line e.dirty } : State).addLine { n with l2 := true, unit := unit }
  | none =>
    s.addLine { dpa := line * 64, l2 := wr.l2.isSome, unit := unit, way := 0, dirty := true, vf := wr.vf, asid := wr.asid, host := wr.host, below := below }

/-- Poison marks that a set of written bytes replaces whole: an 8-byte word of a cached line, a 64-byte line of HBM4 (R315). -/
def State.clearPoison (s : State) (ws : List Host.Cell) : State :=
  if s.errors.isEmpty && s.softs.isEmpty then s
  else
    let written (a : Nat) : Bool := ws.any fun e => e.1 == a
    let whole : StoreLoc → Bool
      | .l2 a => (List.range 8).all fun i => written (a / 8 * 8 + i)
      | .ms a => (List.range 8).all fun i => written (a / 8 * 8 + i)
      | .hbm a => (List.range 64).all fun i => written (a / 64 * 64 + i)
      | _ => false
    { s with errors := s.errors.filter (fun e => !whole e), softs := s.softs.filter (fun e => !whole e) }

/-- Lines that HBM4 holds in error come up poisoned when they become dirty, until their words are written whole (R315, R321). -/
def State.liftErrors (s : State) (wr : Writer) (lines : List Nat) : State :=
  if s.errors.isEmpty then s
  else
    let bad := lines.filter fun l => (s.errors.any fun e => match e with | .hbm a => a / 64 == l | _ => false) && (s.dirtyLine? (l * 64)).isNone
    let up := bad.flatMap fun l => (List.range 8).map fun k =>
      if wr.l2.isSome || s.lines.any fun e => e.dpa / 64 == l && e.l2 then StoreLoc.l2 (64 * l + 8 * k) else StoreLoc.ms (64 * l + 8 * k)
    { s with errors := s.errors ++ up.filter fun e => !s.errors.contains e }

/-- Perform a set of single-byte writes as one place in the order of R163. -/
def State.writeMem (s : State) (wr : Writer) (ws : List Host.Cell) : State :=
  let pages := (ws.map fun e => e.1 / 65536).eraseDups
  let lines := (ws.map fun e => e.1 / 64).eraseDups
  let s := pages.foldl State.fillCleared s
  let old := s.mem.filter fun e => lines.contains (e.1 / 64)
  let s := { s with mem := Cells.putAll s.mem ws }
  let s := (s.liftErrors wr lines).clearPoison ws
  let s := lines.foldl State.hitLine s
  lines.foldl (fun s l => s.noteDirty wr l (old.filter fun e => e.1 / 64 == l)) s

/-- Writes of a memory-side region: no cache holds its lines (R21, R162), so those still cached from before leave, and the owner tags go with the writes
into HBM4 (R316). -/
def State.writeUncached (s : State) (wr : Writer) (ws : List Host.Cell) : State :=
  let pages := (ws.map fun e => e.1 / 65536).eraseDups
  let s := pages.foldl State.fillCleared s
  let s := (s.lines.filter fun e => pages.contains (e.dpa / 65536)).foldl State.expelLine s
  let lines := (ws.map fun e => e.1 / 64).eraseDups
  ({ s with mem := Cells.putAll s.mem ws, tags := lines.foldl (fun t l => assocSet t l (wr.vf, wr.asid, wr.host)) s.tags }).clearPoison ws

/-- Single-byte writes, those of memory-side regions uncached (R21, R162). -/
def State.writeAs (s : State) (wr : Writer) (ws : List Host.Cell) : State :=
  let banks := ((ws.map fun e => e.1 / 65536).eraseDups).filter s.memSide
  let uncached (e : Host.Cell) : Bool := banks.contains (e.1 / 65536)
  if banks.isEmpty then s.writeMem wr ws else (s.writeMem wr (ws.filter fun e => !uncached e)).writeUncached wr (ws.filter uncached)

/-- Consecutive bytes as single-byte writes. -/
def cellsAt (a : Nat) (bs : List Byte) : List Host.Cell := bs.mapIdx fun i b => (a + i, b)

/-- A copy that holds a line as pending (R159): outward copies and write-backs that own it. -/
def State.ownerOf (s : State) (dpa : Nat) : Option Copy :=
  s.copies.find? fun c => c.lines.contains (dpa / 64)

/-- Whether an access to a line waits as a recall (R160). -/
def State.recalled (s : State) (dpa : Nat) : Bool := (s.ownerOf dpa).isSome

/-- The page of the access is being copied by a spare fill, so accesses wait (R323). -/
def State.filling (s : State) (dpa : Nat) : Bool := (s.fills.find? fun p => stackOf (p * 65536) == stackOf dpa) == some (dpa / 65536)

end Sys2Proof.Machine
end

