-- ==== Sys2Proof/Machine/Body.lean ====
section
/-! DEFINITION. The bytes of kickstand records: the header (Table 98), the bodies of waves, copy segments and matrix operations
(Tables 99, 62, 45, R384), the pannier part (R292), and a wave rebuilt from its record (R301). -/

namespace Sys2Proof.Machine

/-- Bytes the spec leaves open, eight for each free value (notes/assumptions/3). -/
def freeBytes (from_ n : Nat) : List Byte := (List.range n).map fun i => BitVec.ofNat 8 ((Config.freeValue (from_ + i / 8)).toNat / 256 ^ (i % 8))

def le64 (x : W64) : List Byte := leBytes 8 x.toNat
def le32 (x : W32) : List Byte := leBytes 4 x.toNat
def zeros (n : Nat) : List Byte := List.replicate n 0

/-- A mask word with bit i for lane i (Tables 98, 99). -/
def maskOf (n : Nat) (p : Nat → Bool) : W64 := BitVec.ofNat 64 ((List.range n).foldl (fun m i => if p i then m + 2 ^ i else m) 0)

/-- An abort address as 8 bytes: [56:0] address, [63] set (Table 99). -/
def abtBytes (a : Option W57) : List Byte := leBytes 8 (match a with | some x => x.toNat + 2 ^ 63 | none => 0)

/-- The four on-chip return entries, deepest last; those a shallow lane does not hold are left open. -/
def chipBytes (from_ : Nat) (l : Lane) : List Byte :=
  freeBytes from_ (8 * (4 - l.chip.length)) ++ (l.chip.drop (l.chip.length - 4)).flatMap fun p => leBytes 8 p.toNat

/-- The 64 bytes of a lane (Table 99). -/
def laneBytes (from_ : Nat) (l : Lane) (flags : BitVec 8) (code : W32) : List Byte :=
  leBytes 8 (keyWord l) ++ chipBytes from_ l ++ [l.preds, BitVec.ofNat 8 l.abtW, BitVec.ofNat 8 l.abtB, BitVec.ofNat 8 l.abtT, flags] ++
    zeros 3 ++ le32 code ++ zeros 12

/-- The wave body (Table 99). -/
def waveBody (from_ : Nat) (lock : Bool) (w : Wave) (p : Pending) : List Byte :=
  w.sregs.flatMap le64 ++ le64 w.fpmode ++ le64 w.fpflags ++ le64 (accwinWord lock w) ++ le64 (mlatchWord w.mlatch) ++
  abtBytes w.abtW ++ abtBytes w.abtB ++ abtBytes w.abtT ++
  [BitVec.ofNat 8 w.width, BitVec.ofNat 8 w.nregs, BitVec.ofNat 8 w.grade] ++ zeros 5 ++
  le64 (maskOf w.width fun i => (w.lanes[i]?.map (·.live)).getD false) ++
  le64 (maskOf w.width fun i => (w.lanes[i]?.map fun l => l.sleep.isSome).getD false) ++ zeros 176 ++
  (w.lanes.mapIdx fun i l => laneBytes (from_ + 4 * i) l (p.laneFlags.getD i 0) (p.codes.getD i 0)).flatten ++
  (List.range w.nregs).flatMap fun r => w.lanes.flatMap fun l => le32 (l.regs.getD r 0)

/-- The key of a sector (R292): valid, deferred, scratchpad address, mask. -/
def sectorKey (red : Bool) (addr mask : Nat) : List Byte :=
  leBytes 8 (2 ^ 63 + (if red then 2 ^ 62 else 0) + addr / 32 * 2 ^ 32 + mask)

/-- The byte sectors of a pannier, each with its team-view sector number. -/
def panSectors (h : Held) : List Nat := sectorsOf h

/-- The pannier part of a wave record (R292), 10,240 bytes; data that no mask covers is left open. -/
def panPart (from_ : Nat) (w : Wave) : List Byte :=
  let secs := panSectors w.pan
  let data := (secs.mapIdx fun k x => (List.range 32).map fun i =>
      match Held.get? w.pan (32 * x + i) with
      | some v => v
      | none => (freeBytes (from_ + 4 * k) 32).getD i 0).flatten
  let keys := secs.flatMap fun x =>
    sectorKey false (toTeam w.core (32 * x)) ((List.range 32).foldl (fun m i => if (Held.get? w.pan (32 * x + i)).isSome then m + 2 ^ i else m) 0)
  let rdata := w.reds.flatMap fun r => le64 r.addr ++ le64 r.value ++ [BitVec.ofNat 8 r.fn] ++ zeros 15
  let rkeys := w.reds.flatMap fun _ => sectorKey true 0 0
  let n := secs.length + w.reds.length
  data ++ rdata ++ freeBytes (from_ + 4 * n) (8192 - 32 * n) ++ keys ++ rkeys ++ zeros (2048 - 8 * n)

/-- A lane from its 64 bytes; a lane asleep stays so until it is woken (R237). -/
def laneFrom (old : Lane) (bs : List Byte) (live : Bool) (regs : List W32) : Lane :=
  let key := leAt bs 0 8
  let depth := 32 - bits key 57 6
  let chip := ((List.range 4).map fun k => BitVec.ofNat 57 (leAt bs (8 + 8 * k) 8)).drop (4 - min depth 4)
  { old with live := live, yielded := bits key 63 1 = 1, depth := depth, pc := BitVec.ofNat 57 (bits key 0 57), chip := chip, preds := BitVec.ofNat 8 (leAt bs 40 1),
             abtW := leAt bs 41 1, abtB := leAt bs 42 1, abtT := leAt bs 43 1, regs := regs }

def abtFrom (v : Nat) : Option W57 := if bits v 63 1 = 1 then some (BitVec.ofNat 57 v) else none

/-- The byte sectors of a pannier part. -/
def panFrom (core : Nat) (pan : List Byte) : Held :=
  (List.range 256).foldl (fun h k =>
    let key := leAt pan (8192 + 8 * k) 8
    if bits key 63 1 = 1 && bits key 62 1 = 0 then
      (List.range 32).foldl (fun h i =>
        if bits key i 1 = 1 then insertCell (toTeam core (bits key 32 17 * 32 + i)) ((pan.drop (32 * k + i)).headD 0) h else h) h
    else h) []

/-- The deferred sectors of a pannier part: sector number, address operand, value, fn. -/
def redsFrom (pan : List Byte) : List (Nat × W64 × W64 × Nat) :=
  (List.range 256).filterMap fun k =>
    let key := leAt pan (8192 + 8 * k) 8
    if bits key 63 1 = 1 && bits key 62 1 = 1 then
      some (k, BitVec.ofNat 64 (leAt pan (32 * k) 8), BitVec.ofNat 64 (leAt pan (32 * k + 8) 8), leAt pan (32 * k + 16) 1)
    else none

/-- A wave rebuilt from its body (R301, Table 99); its deferred sectors follow separately (R300). A lane whose bit of the asleep mask has been
cleared is awake; a bit set for a lane that was not asleep names no monitor and changes nothing; a window is taken as a handler left it, though R113
lets `mwin` alone change one, with its base not above its limit (the model's choice, notes/assumptions/44). -/
def waveFrom (w : Wave) (body pan : List Byte) : Wave :=
  let win := leAt body 272 8
  let ml := leAt body 280 8
  { w with
    sregs := (List.range 32).map fun i => BitVec.ofNat 64 (leAt body (8 * i) 8)
    fpmode := BitVec.ofNat 64 (leAt body 256 8) &&& fpmodeMask
    fpflags := BitVec.ofNat 64 (leAt body 264 8) &&& fpflagsMask
    winBase := bits win 0 13
    winLimit := bits win 16 13
    mlatch := if bits ml 31 1 = 1 then
        some { areg := bits ml 8 7, ameta := bits ml 16 7, chunks := bits ml 24 3, scales := (w.mlatch.map (·.scales)).getD 0 }
      else none
    abtW := abtFrom (leAt body 288 8)
    abtB := abtFrom (leAt body 296 8)
    abtT := abtFrom (leAt body 304 8)
    lanes := w.lanes.mapIdx fun i l =>
      laneFrom { l with sleep := if bits (leAt body 328 8) i 1 = 1 then l.sleep else none } ((body.drop (512 + 64 * i)).take 64) (bits (leAt body 320 8) i 1 = 1)
        ((List.range w.nregs).map fun r => BitVec.ofNat 32 (leAt body (512 + 64 * w.width + 4 * (r * w.width + i)) 4))
    pan := panFrom w.core pan
    hold := 0
    latches := w.latches.map fun l => l.map fun _ => 0
    latchLive := [false, false, false, false]
    slow := [] }

/-- The body of a copy-segment record (Table 62; R384 for staging and write-back). -/
def segBody (c : Copy) (j gaddr : Nat) (gpos : List Nat) (off : Nat) : List Byte :=
  let kind : Nat := match c.kind with | .inward => 0 | .outward => 1 | .digest => 2 | .staging _ => 0 | .writeBack _ => 1
  let region : Option Nat := match c.kind with | .staging i => some i | .writeBack i => some i | _ => none
  let recs := match c.recs with | some (a, b) => a ++ b | none => zeros 128
  let fault := leBytes 8 gaddr ++ ((List.range 5).flatMap fun i => leBytes 4 (gpos.getD i 0)) ++ leBytes 4 off
  match region with
  | some i =>
    zeros 128 ++ leBytes 8 c.gbase ++ leBytes 4 c.start ++ leBytes 4 c.len ++ leBytes 1 i ++ zeros 23 ++ leBytes 4 0xFFFFFFFF ++ leBytes 2 j ++
      leBytes 1 kind ++ zeros 1 ++ fault ++ leBytes 2 0xFFFF ++ zeros 302
  | none =>
    recs ++ c.scal.flatMap le64 ++ le32 c.a ++ leBytes 2 j ++ leBytes 1 kind ++ zeros 1 ++ fault ++ leBytes 1 c.widx ++ leBytes 1 c.blk ++
      zeros 2 ++ (if kind = 2 then le32 c.dig else zeros 4) ++ zeros 296

/-- The 11 bits of `fpmode` that a matrix record holds (Table 45): [22:16] above [3:0]. -/
def packedMode (m : W64) : Nat := bits m.toNat 16 7 * 16 + bits m.toNat 0 4

/-- The body of a matrix-operation record (Table 45): the status bytes of the rows, the first row that holds an enabled flag. -/
def mmaBody (o : MmaOp) (status : List (BitVec 8)) (first : Nat) : List Byte :=
  o.param ++ leBytes 1 o.widx ++ leBytes 1 o.blk ++ leBytes 2 o.row ++ leBytes 1 o.width ++ leBytes 1 o.grade ++ leBytes 2 (packedMode o.fpmode) ++
    leBytes 8 o.flags.toNat ++ (status ++ zeros (64 - status.length)) ++ leBytes 8 first ++ zeros 136

/-- The 64-byte body of a notice (R295, R318, R331). -/
def noticeBody (a b : W64) (team : W32) : List Byte := le64 a ++ le64 b ++ le32 team ++ zeros 44

/-- The handle of a record (R293). -/
def handleOf (ord gen extent slot : Nat) : W32 := BitVec.ofNat 32 (ord * 2 ^ 22 + gen % 64 * 2 ^ 16 + extent * 64 + slot)

def Record.handle (r : Record) : W32 := handleOf r.ord r.gen r.extent r.slot

/-- Codes of Table 98. -/
def RecKind.code : RecKind → Nat | .wave => 0 | .segment => 1 | .matrix => 2 | .notice => 3
def RecState.code : RecState → Nat | .free => 0 | .parked => 1 | .claimed => 2 | .resuming => 3 | .killed => 4

/-- The device physical address of a record's body (Table 98, bytes 88-95). -/
def Record.bodyAddr (pool : Nat) (r : Record) : Nat := pool + 65536 * r.extent + 1024 * r.slot + 256

/-- The header (Table 98). -/
def recordHeader (pool : Nat) (psave : W32) (r : Record) : List Byte :=
  leBytes 1 r.kind.code ++ leBytes 1 r.cause ++ leBytes 1 r.state.code ++ leBytes 1 r.depth ++ leBytes 1 r.disp ++ leBytes 1 r.prio ++
  leBytes 1 r.expiry ++ [r.flags] ++ le32 r.handle ++ le32 r.parent ++ leBytes 2 r.asid ++ leBytes 1 r.vf ++ leBytes 1 r.ord ++ le32 r.teamIdx ++
  leBytes 1 r.blk ++ leBytes 1 r.wave ++ leBytes 2 r.seg ++ le32 r.seq ++ leBytes 1 r.ring ++ leBytes 1 r.queue ++ leBytes 1 r.link ++ zeros 1 ++
  leBytes 4 r.body.length ++ le64 r.budget ++ leBytes 8 r.deadline ++ leBytes 8 r.parked ++ le64 r.faddr ++ le64 r.amask ++ le64 r.raddr ++
  leBytes 8 (r.bodyAddr pool) ++ le32 psave ++ zeros 156

end Sys2Proof.Machine
end

