-- ==== Sys2Proof/Machine/CommitOps.lean ====
section
/-! DEFINITION. Commits between levels (R146, R149, R150, R153): conflict reports (Table 51), the wave's and the block's publication, and
the check of the overlay store. -/

namespace Sys2Proof.Machine

/-- Change one wave by its identity. -/
def State.updWave (s : State) (wid : Nat) (f : Wave → Wave) : State := { s with waves := updWhere s.waves (fun x => x.wid == wid) f }
def State.updBlock (s : State) (team idx : Nat) (f : Block → Block) : State :=
  { s with blocks := updWhere s.blocks (fun x => x.team == team && x.idx == idx) f }
def State.updTeam (s : State) (id : Nat) (f : Team → Team) : State := { s with teams := updWhere s.teams (fun x => x.id == id) f }
def State.updCopy (s : State) (id : Nat) (f : Copy → Copy) : State := { s with copies := updWhere s.copies (fun x => x.id == id) f }
def State.updRecord (s : State) (id : Nat) (f : Record → Record) : State := { s with records := updWhere s.records (fun x => x.id == id) f }
def State.updLaunch (s : State) (id : Nat) (f : Launch → Launch) : State := { s with launches := updWhere s.launches (fun x => x.id == id) f }

/-- A wave whose instruction waited may be tried. -/
def Wave.again (w : Wave) : Wave := match w.wait with | .retry => { w with wait := .trial } | _ => w

/-- Waves that waited may be tried again, because something has changed. -/
def State.wakeRetry (s : State) : State := { s with waves := s.waves.map Wave.again }

/-- The report of Table 51 for conflicting bytes, given as addresses of the committer's own view; 0 when there is none. -/
def conflictReport (addrs : List Nat) : W64 :=
  match addrs with
  | [] => 0
  | a :: rest =>
    let secs := (addrs.map (· / 32)).eraseDups
    let lo := rest.foldl (fun m x => min m (x / 32)) (a / 32)
    let mask := (List.range 32).foldl (fun m i => if addrs.contains (32 * lo + i) then m + 2 ^ i else m) 0
    BitVec.ofNat 64 (2 ^ 63 + min secs.length 511 * 2 ^ 54 + 32 * lo * 2 ^ 32 + mask)

/-- The bytes of a held map that siblings have published in the window (R149), as addresses of the core's own view. -/
def conflicting (core : Nat) (h : Held) (foreign : List Nat) : List Nat :=
  (h.filter fun e => foreign.contains e.1).map fun e => toTeam core e.1

/-- Bytes added to a window's list. -/
def addForeign (f : List Nat) (h : Held) : List Nat := (h.filter fun e => !f.contains e.1).map (·.1) ++ f

/-- `cmt.b` and `cmt.b.lw` of one wave, once the overlay store has been checked (R150): the state and the report. -/
def State.commitWave (s : State) (wid : Nat) (lw : Bool) : State × W64 :=
  match s.wave? wid with
  | none => (s, 0)
  | some w =>
    let r := conflictReport (conflicting w.core w.pan w.foreign)
    if !lw && r ≠ 0 then (s, r)
    else
      let s := s.updBlock w.team w.blk fun b => { b with ovl := Held.over w.pan b.ovl, reds := b.reds ++ w.reds }
      let s := { s with
        copies := s.copies.map fun c => if c.wid = wid && c.level = .wave then { c with level := .block } else c
        waves := s.waves.map fun x =>
          if x.wid = wid then { x with pan := [], reds := [], foreign := [] }
          else if x.team = w.team && x.blk = w.blk && !x.isRack then { x with foreign := addForeign x.foreign w.pan } else x }
      (s, 0)

/-- The publication of a block's overlay to its team (R150): the state and the report. -/
def State.commitBlock (s : State) (team idx : Nat) (lw : Bool) : State × W64 :=
  match s.block? team idx with
  | none => (s, 0)
  | some b =>
    let r := conflictReport (conflicting b.core b.ovl b.foreign)
    if !lw && r ≠ 0 then (s, r)
    else
      let s := s.updTeam team fun t => { t with ovl := Held.over b.ovl t.ovl, reds := t.reds ++ b.reds }
      let s := { s with
        copies := s.copies.map fun c => if c.team = team && c.blk = idx && c.level = .block then { c with level := .team } else c
        blocks := s.blocks.map fun x =>
          if x.team = team && x.idx = idx then { x with ovl := [], reds := [], foreign := [] }
          else if x.team = team then { x with foreign := addForeign x.foreign b.ovl } else x }
      (s, 0)

/-- The launched waves of a block in ascending `%wave` (a bounded selection, so that the order needs no sorting). -/
def State.wavesInOrder (s : State) (team blk : Nat) : List Wave :=
  (List.range 16).flatMap fun i => (s.blockWaves team blk).filter fun w => w.idx == i && !w.isRack

/-- The implied commits of the participating waves of a block, as `cmt.b.lw`, in ascending `%wave` (Table 50, R212). -/
def State.commitWaves (s : State) (team blk : Nat) (mem : List Nat) : State :=
  ((s.wavesInOrder team blk).filter fun w => mem.contains w.wid).foldl (fun s w => (s.commitWave w.wid true).1) s

/-- `cmt.t` of one block: the implied commits, then the block's (R150). -/
def State.commitT (s : State) (team blk : Nat) (mem : List Nat) (lw : Bool) : State × W64 :=
  (s.commitWaves team blk mem).commitBlock team blk lw

/-- The implied lower commits of `cmt.d`: every block of the team in ascending `%blk` (Table 50). -/
def State.commitLower (s : State) (team : Nat) (mem : List Nat) : State :=
  (List.range 8).foldl (fun s b => (s.commitT team b mem true).1) s

/-- Whether the overlay stores of a pair hold what stands in them (R153). -/
def State.overlaysFit (s : State) (pair : Nat) : Bool :=
  decide (s.overlayUse (2 * pair) ≤ Config.overlaySectors) && decide (s.overlayUse (2 * pair + 1) ≤ Config.overlaySectors)

/-! ### The A operand of a matrix operation (R120, R124, R289) -/

/-- K elements in a chunk (R120). -/
def kcOf (fmt : Nat) : Nat := if fmt ≤ 1 then 32 else if fmt = 2 then 64 else 128
/-- The group length that a reservation's code names (Table 41). -/
def groupOf (grp : Nat) : Nat := if grp = 1 then 32 else if grp = 2 then 64 else 128
/-- Groups in the K range of an operation (R124); none for BF16 and FP16. -/
def groupsIn (fmt grp chunks : Nat) : Nat := if fmt ≤ 1 then 0 else chunks * kcOf fmt / groupOf grp

/-- Registers of an A operand of one lane: the code registers, then the scale registers (R124). -/
def aRegs (l : Lane) (areg ameta chunks scales : Nat) : List W32 :=
  ((List.range (16 * chunks)).map fun k => l.regs.getD (areg + k) 0) ++ (List.range scales).map fun k => l.regs.getD (ameta + k) 0

/-- The A operand of an operation as lanes hold it. -/
def MmaOp.aOf (o : MmaOp) (lanes : List Lane) : List (List W32) :=
  lanes.map fun l => aRegs l o.areg o.ameta o.chunks (groupsIn o.resv.fmt o.resv.grp o.chunks)

/-- Operations of a wave that have not started keep the registers they will read, as they stand when the wave parks (R289 step 4). -/
def State.keepA (s : State) (w : Wave) : State :=
  { s with mmas := s.mmas.map fun m =>
      if m.wid = w.wid && m.phase = .issued && m.snap.isNone && m.kept.isNone then { m with kept := some (m.aOf w.lanes) } else m }

/-! ### Return stacks (R209) -/

/-- Return entry e of a lane, for e from 1 to its depth. -/
def Lane.entry (l : Lane) (e : Nat) : W57 :=
  if e + 4 > l.depth then l.chip.getD (e + l.chip.length - l.depth - 1) 0 else (l.spill.getD (e - 1) 0).setWidth 57

/-- The lane with its stack cut back to a depth not above its own (R155). -/
def Lane.cutTo (l : Lane) (d : Nat) : Lane :=
  if d ≤ l.depth then { l with depth := d, chip := (List.range (min d 4)).map fun i => l.entry (d - min d 4 + i + 1) } else l

end Sys2Proof.Machine
end

