-- ==== Sys2Proof/Machine/Log.lean ====
section
/-! DEFINITION. The error log (spec/14 R325, R326, Tables 108, 109): one 32-byte record for each event of R315 and R317-R324. -/

namespace Sys2Proof.Machine

/-- The code of a storage location (Table 106). -/
def storeCode : StoreLoc → Nat
  | .vreg _ _ _ => 0 | .laneState _ _ _ => 0 | .spad _ _ => 1 | .spill _ _ _ => 1 | .dom _ _ => 1 | .row _ _ _ _ => 2 | .cass _ _ _ => 3
  | .table _ _ _ => 4 | .sreg _ _ => 5 | .waveReg _ _ => 5 | .pannier _ _ => 5 | .l2 _ => 6 | .pending _ _ => 6 | .ms _ => 7 | .hbm _ => 8 | .spare _ => 8 | .cell _ => 9
  | .bank _ _ => 10 | .icache _ => 11

/-- What an event names (Table 108). -/
structure Event where
  code : Nat
  action : Nat
  cause : Nat
  vf : Nat
  asid : Nat
  host : Bool
  part : Nat
  stack : Nat
  dpa : Nat

/-- A log record (Table 108). -/
def Event.bytes (e : Event) (seq : Nat) : List Byte :=
  leBytes 1 e.code ++ leBytes 1 e.action ++ leBytes 1 e.cause ++ leBytes 1 e.vf ++ leBytes 2 (e.asid % 8192 + (if e.host then 32768 else 0)) ++
    leBytes 1 e.part ++ leBytes 1 e.stack ++ leBytes 8 e.dpa ++ leBytes 8 seq ++ zeros 8

/-- The ring is enabled while ELBASE[4:0] lies in 7-16 (R326). -/
def ErrLog.enabled (l : ErrLog) : Bool := decide (7 ≤ bits l.base.toNat 0 5) && decide (bits l.base.toNat 0 5 ≤ 16)
def ErrLog.size (l : ErrLog) : Nat := 2 ^ bits l.base.toNat 0 5
def ErrLog.full (l : ErrLog) : Bool := decide ((l.tail - l.head).toNat ≥ l.size)

/-- Put one record into the ring, or count it as lost. -/
def ErrLog.put (l : ErrLog) (bs : List Byte) : ErrLog :=
  if l.enabled && !l.full then
    { l with ring := assocSet l.ring (bits l.base.toNat 12 45 * 4096 + 32 * (l.tail.toNat % l.size)) bs, tail := l.tail + 1 }
  else { l with lost := if l.lost = 0xFFFFFFFF then l.lost else l.lost + 1 }

/-- Log an event; in host-assisted mode the host receives it through the assist ring as well (R283, R325). -/
def State.logEvent (s : State) (e : Event) : State :=
  let seq := s.errlog.seqs.getD e.stack 0
  let bs := e.bytes seq
  let s := { s with errlog := { (s.errlog.put bs) with seqs := s.errlog.seqs.set e.stack (seq + 1) } }
  if e.part < 20 && (s.part e.part).fwm.getLsbD 4 then { s with assist := s.assist ++ [.log bs] } else s

/-- An event of a core's storage: its owner's function and ASID (R317). -/
def State.logCore (s : State) (core code action vf asid : Nat) : State :=
  s.logEvent { code := code, action := action, cause := 0x20, vf := vf, asid := asid, host := false, part := partOfCore core, stack := hoodOfCore core,
               dpa := 0 }

end Sys2Proof.Machine
end

