-- ==== Sys2Proof/Machine/Ops.lean ====
section
/-! DEFINITION. The named operations of faults and ends: a unit detaches into a kickstand record (R289-R296, R305-R308), the one way a
fault is taken; a wave is rebuilt from its record (R301), the one way back; units, waves, blocks and teams end or are killed
(R154, R226, R309, R317, R318). -/

namespace Sys2Proof.Machine

/-! ### Remote addresses (R165, R171, R172, R190) -/

/-- Whether the issuing function may name a scope (R165, R269). -/
def State.scopeAllowed (s : State) (vf scope : Nat) : Bool :=
  let hpol := (s.vf vf).hpol.toNat
  if scope = 4 then (s.parts.all fun p => p.owner == vf) || bits hpol 2 1 = 1
  else if scope = 5 then bits hpol 3 1 = 1 && bits hpol 16 12 ≠ 0
  else true

/-- The alignment of Table 65. -/
def remoteAlign (fn : Nat) : Nat := if fn = 0 || fn = 2 || fn = 3 || fn = 5 then 4 else if fn ≤ 6 then 8 else 64

/-- What the operation of Table 65 needs (Table 159, R162). -/
def remoteNeed (fn : Nat) : Need := if fn ≤ 6 then Need.atomic else if fn = 7 then Need.xadd else if fn = 8 then Need.xseal else Need.xzero

/-- An address operand of major 0x24: its layout (R171), alignment (R190), scope (R165), then translation (R172). -/
def State.remoteAddr (s : State) (core vf asid fn : Nat) (a : W64) : Except Nat Nat :=
  let x := a.toNat
  if bits x 62 2 ≠ 0 || bits x 57 3 ≥ 6 || (bits x 60 2 ≠ 0 && (fn ≤ 4 || fn = 9)) || x % remoteAlign fn ≠ 0 then .error Cause.illegal
  else if !s.scopeAllowed vf (bits x 57 3) then .error Cause.scope
  else match s.translate core vf asid (bits x 0 57) (remoteNeed fn) with
    | .ok (d, _) => .ok d
    | .error c => .error c

/-! ### Policies, tasks, records -/

/-- The policy entry of a launch for a cause (R295); none without a policy record. -/
def State.polEntry (s : State) (launch cause : Nat) : Option PolEntry :=
  (s.launch? launch).bind fun l => l.policy.bind fun p => p.entries[cause]?

/-- The nesting bound N in force in a partition (R305, Table 86). -/
def State.nestBound (s : State) (p : Nat) : Nat := match (s.part p).pool with | some (_, n) => n | none => (s.part p).nest

/-- Device physical base of the pool of a partition. -/
def State.poolBase (s : State) (p : Nat) : Nat := match (s.part p).pool with | some (a, _) => a | none => 0

/-- Device physical address of a record's place (Table 98 `body`), and its length (R290). -/
def State.placeOf (s : State) (r : Record) : Nat := s.poolBase r.part + 65536 * r.extent + 1024 * r.slot
def Record.room (r : Record) : Nat := if r.kind = .wave then 65536 else 1024

/-- Put a task at the tail or at the head of its queue (R253, R260). -/
def State.enqueue (s : State) (t : Task) (head : Bool) : State :=
  { s with
    tasks := s.tasks ++ [{ t with id := s.nextId, order := if head then -(s.nextId : Int) else (s.nextId : Int) }]
    nextId := s.nextId + 1 }

/-- A task of a queue, before it is given its number and order. -/
def mkTask (part queue prio : Nat) (kind : TaskKind) : Task :=
  { id := 0, part := part, queue := queue, prio := prio, order := 0, kind := kind, waited := 0, aff := none, blocks := false, anyPair := false,
    relaunches := 0 }

/-- Remove the waiting fault tasks that name a record, and the request that the host serve it. -/
def State.dropFaultTask (s : State) (rid : Nat) : State :=
  { s with tasks := s.tasks.filter (fun t => match t.kind with | .fault r => r != rid | _ => true)
           assist := s.assist.filter (· != .fault rid) }

/-- Whether any task holds a record, here or on a peer part (R294). -/
def State.isHeld (s : State) (rid : Nat) : Bool := (s.records.any fun r => r.id == rid && r.peer) || (s.teams.any fun t => t.holds.contains rid) || (s.doms.any fun d => d.holds.contains rid)

/-- KILLED records that no task holds become FREE (Table 100). -/
def State.reap (s : State) : State :=
  { s with records := s.records.filter fun r => !(r.state == .killed && !s.isHeld r.id) }

/-- The spill areas that a record's offsets reach: its wave's, or those kept when it became KILLED (Table 97, R294). -/
def State.spillOf (s : State) (r : Record) : List (List W64) :=
  match r.kind, s.wave? r.unit with
  | .wave, some w => w.lanes.map (·.spill)
  | _, _ => r.spill

/-- A wave's `fpflags`: a parked wave's stand in its record, where a handler may have patched them (Table 99, R300). -/
def State.flagsOf (s : State) (w : Wave) : W64 :=
  match w.parkedIn?.bind s.record? with
  | some r => BitVec.ofNat 64 (leAt r.body 264 8) &&& fpflagsMask
  | none => w.fpflags

/-- The page of a place of a partition's pool has been retired, so that every access to it meets a translation fault (R312). -/
def State.lostExtent (s : State) (part : Nat) (place : Nat × Nat) : Bool := s.pageGone (s.poolBase part / 65536 + place.1)

/-- Whether an access to n bytes of a record from an offset meets an error: an uncorrectable one in a line, or a retired page (R312). -/
def State.placeBad (s : State) (r : Record) (off n : Nat) : Bool :=
  s.lostExtent r.part (r.extent, r.slot) || !(s.badLines (s.placeOf r + off) n).isEmpty

/-- A wave's `fpflags` word is poisoned: in its core, or in the record where a parked wave's stands (Table 81, R315). -/
def State.flagsBad (s : State) (w : Wave) : Bool :=
  match w.parkedIn?.bind s.record? with
  | some r => s.placeBad r (0x100 + 264) 8
  | none => s.errors.contains (.waveReg w.wid 1)

/-- What stands in the `fpflags` of a parked wave's record is the wave's own again, since the record may go before the wave does; of a poisoned word
nothing (R79). -/
def State.takeFlags (s : State) (r : Record) : State :=
  match r.kind, s.wave? r.unit with
  | .wave, some w => s.updWave w.wid fun x => { x with fpflags := if s.flagsBad w then 0 else s.flagsOf w }
  | _, _ => s

/-- A record becomes KILLED, and its waiting fault task is dropped (Table 100). What a holder can still read of its wave's spill areas is kept (R294). -/
def State.killRecord (s : State) (rid : Nat) : State :=
  let s := match s.record? rid with | some r => s.takeFlags r | none => s
  (s.updRecord rid fun r => { r with state := .killed, spill := s.spillOf r }).dropFaultTask rid

/-- Whether a function's policy enables a spoke link (Table 88 `spk`, R270). -/
def State.linkOpen (s : State) (vf link : Nat) : Bool := bits (s.vf vf).hpol.toNat (16 + link) 1 == 1

/-- The communication group that a function's flits carry: of those admitted for it, the first (R270; notes/assumptions/44). -/
def State.groupOf (s : State) (vf : Nat) : Nat := (s.vf vf).groups.headD 0

/-- The post of a kind 3 record's task: to the partition and queue that its entry names, or that `qpost` last wrote, with the priority of its header (R302,
R310). -/
def State.postOf (s : State) (r : Record) : RemotePost :=
  { vf := r.vf, pord := (r.away.map (·.1)).getD ((r.pol.map (·.pord)).getD 0), queue := (r.away.map (·.2)).getD ((r.pol.map (·.pq)).getD 0),
    link := r.link, handle := r.handle, handler := r.handler, deadline := (r.pol.map fun x => x.deadline.toNat).getD 0, budget := r.budget.toNat,
    prio := r.prio, depth := r.depth, arg := r.harg, group := s.groupOf r.vf }

/-- Post the fault task of a PARKED record to the queue its header holds (R296, R302, Table 100). A kind 3 record's post leaves over its
link, where that is enabled (R310); where it is not, `execFaultDeadlineExpiry` runs the expiry action. -/
def State.postFault (s : State) (rid : Nat) : State :=
  match s.record? rid with
  | none => s
  | some r =>
    if r.pkind = 1 || r.pkind = 2 then s.enqueue (mkTask r.part r.queue r.prio (.fault rid)) false
    else if r.pkind = 3 && s.linkOpen r.vf r.link then
      { s with spokeOut := s.spokeOut ++ [(r.link, .post (s.postOf r))]
               records := updWhere s.records (fun x => x.id == rid) fun x => { x with flags := x.flags ||| 8 } }
    else s

/-- The queue whose clock counts a record's deadline: the header's, or at the home of a kind 3 record its entry's (R309, R310). -/
def Record.clock (r : Record) : Nat := if r.pkind = 3 then (r.pol.map (·.queue)).getD r.queue else r.queue

/-- A holding task lets go of its records: those still CLAIMED return to PARKED and are posted again (R294, Table 100). -/
def State.repost (s : State) (rids : List Nat) : State :=
  rids.foldl (fun s rid => match s.record? rid with
    | some r => if r.state = .claimed then (s.updRecord rid fun x => { x with state := .parked }).postFault rid else s
    | none => s) s

/-- A message to the part at the other end of a link, under the communication group of the function it is about (R270). -/
def State.sendSpoke (s : State) (vf link : Nat) (m : Nat → SpokeMsg) : State :=
  { s with spokeOut := s.spokeOut ++ [(link, .request (s.groupOf vf) s.nextId (m s.nextId))], nextId := s.nextId + 1 }

/-- A message about a function's work, where its policy enables the link (R270). -/
def State.sendFor (s : State) (vf link : Nat) (m : Nat → SpokeMsg) : State := if s.linkOpen vf link then s.sendSpoke vf link m else s

/-- The link over which a remote handle reaches its home (R293). -/
def homeLink (h : W32) : Nat := bits h.toNat 27 4

/-- A domestique's request fails: Table 105's fault condition. -/
def State.failKs (s : State) (q : KsReq) : State :=
  ({ s with ksReqs := s.ksReqs.filter fun x => x.id != q.id } : State).updKs q.core fun k => { k with ksdata := if q.reply == .data then 0 else k.ksdata, ksst := 3 }

/-- A task ends: what it holds here is posted again, and the homes of what it holds on peer parts are told (Table 100). -/
def State.releaseHolds (s : State) (team : Nat) : State :=
  match s.team? team with
  | none => s
  | some t =>
    let s := ((s.updTeam team fun t => { t with holds := [], serving := none, remotes := [] }).repost t.holds).reap
    t.remotes.foldl (fun (s : State) h => s.sendFor t.vf (homeLink h) fun _ => .handlerEnded h) s

/-! ### Ends of waves, blocks and teams -/

/-- OR flags into a launch's summary (R79, Table 81). -/
def State.orFlags (s : State) (launch : Nat) (f : BitVec 8) : State := s.updLaunch launch fun l => { l with flags := l.flags ||| f }

def State.launchOf (s : State) (team : Nat) : Nat := match s.team? team with | some t => t.launch | none => 0

/-- Whether an uncorrectable error stands in storage that a wave owns. -/
def waveErr (wid : Nat) : StoreLoc → Bool
  | .vreg w _ _ => w == wid | .laneState w _ _ => w == wid | .spill w _ _ => w == wid | .sreg w _ => w == wid | .waveReg w _ => w == wid
  | .pannier w _ => w == wid | _ => false

/-- The same without its spill areas, which stay in place when it parks (R209): what its record takes over (R289). -/
def parkErr (wid : Nat) (e : StoreLoc) : Bool := waveErr wid e && !(e matches .spill _ _ _)

/-- Error marks of some places go: their words were replaced whole, or released when their unit ended (R315, R317). -/
def State.forget (s : State) (p : StoreLoc → Bool) : State :=
  if s.errors.isEmpty && s.softs.isEmpty then s
  else { s with errors := s.errors.filter fun e => !p e, softs := s.softs.filter fun e => !p e }

/-- The marks of a pannier whose bytes go, and whether one stands. -/
def panErr (wid : Nat) : StoreLoc → Bool | .pannier w _ => w == wid | _ => false
def State.pannierPoison (s : State) (wid : Nat) : Bool := s.errors.any (panErr wid)

/-- The summary takes a wave's `fpflags`, unless that word is poisoned (Table 81). -/
def State.sumFlags (s : State) (w : Wave) : State :=
  if s.flagsBad w then s else s.orFlags (s.launchOf w.team) ((s.flagsOf w).setWidth 8)

/-- A rack launches (R212). -/
def Wave.launchRack (w : Wave) : Wave := { w with status := .running, wait := .ready }

/-- The handles of an ended block that no copy keeps are released (R186). -/
def Block.releaseIdle (b : Block) : Block :=
  if b.ended then { b with handles := b.handles.filter fun h => h.state == .filling || h.state == .draining } else b

/-- Change a handle of a block; that of an ended block is released once its copy is over (R186). -/
def State.setHandle (s : State) (team blk num : Nat) (f : Handle → Handle) : State :=
  s.updBlock team blk fun b => Block.releaseIdle { b with handles := updWhere b.handles (fun h => h.num == num) f }

/-- Whether an error stands in the pending data of some copies. -/
def pendingErr (cs : List Copy) : StoreLoc → Bool | .pending i _ => cs.any fun c => c.id == i | _ => false

/-- Copies pending at a level are discarded with it (R154, R155): their handles complete their cycle (R159). The record of a segment of theirs that
is parked stays PARKED, and a disposition of it finds nothing to do: the spec does not say what becomes of it (the model's choice,
notes/assumptions/44). -/
def State.discardCopies (s : State) (p : Copy → Bool) : State :=
  let gone := s.copies.filter p
  gone.foldl (fun s c => s.setHandle c.team c.blk c.handle fun h => { h with state := .free, kil := c.kil, rdr := c.rdr })
    (({ s with copies := s.copies.filter fun c => !p c } : State).forget (pendingErr gone))

def Copy.pendingOut (c : Copy) : Bool := match c.kind with | .outward => true | .digest => true | _ => false

/-- The write-back copies of a team's final device commit (R252), one for each `out` or `inout` region. -/
def writeBackOf (t : Team) (id i : Nat) (r : Region) : Copy :=
  { id := id, kind := .writeBack i, core := 2 * t.pair, team := t.id, blk := 0, wid := 0, widx := 0xFF, handle := 0xFFFF, scal := [], a := 0, dig := 0,
    start := r.spad, len := r.size, cassette := false, data := [], recs := none, segs := List.replicate ((r.size + 4095) / 4096) .todo,
    level := .team, lines := [], vlines := [], kil := false, rdr := false, digested := true,
    gbase := unsignedOf 64 ((r.gaddr : Int) + (t.idx : Int) * r.ts) }

/-- The last block of a team has ended: its final device commit begins to gather (R154). That of a team which drains or is off its cores gathers once the
team stands on its cores again (R257 step 3). -/
def State.startEnding (s : State) (team : Nat) : State :=
  match s.team? team with
  | none => s
  | some t =>
    let wb := match s.launch? t.launch with
      | none => []
      | some l => (l.rcd.regions.mapIdx fun i r => (i, r)).filterMap fun (i, r) =>
          if r.dir ≥ 2 && r.size > 0 then some (writeBackOf t (s.nextId + i) i r) else none
    let s := { s with copies := s.copies ++ wb, nextId := s.nextId + 8 }
    s.updTeam team fun t =>
      { t with phase := if t.phase = .running then .ending else t.phase, bar := none, gather := some { checked := false, final := true, lowered := true } }

/-- The storage of a block that is released with it. -/
def blockErr (team blk : Nat) : StoreLoc → Bool
  | .row t b _ _ => t == team && b == blk | .cass t b _ => t == team && b == blk | .table t b _ => t == team && b == blk | _ => false

/-- The last wave of a block has ended: `cmt.t.lw` of the block, its reservations and tags go (R112, R154, R186), and error marks with them (R317). Every sector
that the commit publishes stands in the overlay store already and stays in the store of its core (R144), so the check of R153 cannot fail here. -/
def State.endBlock (s : State) (team blk : Nat) : State :=
  let s := (s.commitBlock team blk true).1
  let s := { s with resvs := s.resvs.filter fun r => !(r.team == team && r.blk == blk) }
  let s := s.updBlock team blk fun b => Block.releaseIdle { b with ended := true, tags := [], bar := none }
  let s := s.forget (blockErr team blk)
  if (s.blocks.filter fun b => b.team == team).all (·.ended) then s.startEnding team else s

/-- The implicit commits of a wave whose last lane exits (R154, R226): `cmt.b.lw`, and where no lane of its block is left, in a wave or a rack, `cmt.t.lw`. -/
def State.exitCommits (s : State) (w : Wave) : State :=
  let s := (s.commitWave w.wid true).1
  if (s.blockWaves w.team w.blk).all fun x => x.wid == w.wid || x.lanes.all fun l => !l.live then (s.commitBlock w.team w.blk true).1 else s

/-- What follows when a wave of a block has gone: racks that hold lanes launch when no launched wave remains (R235), else the block ends. -/
def State.afterWave (s : State) (team blk : Nat) : State :=
  let ws := s.blockWaves team blk
  if ws.any Wave.launched then s
  else if ws.isEmpty then s.endBlock team blk
  else { s with waves := s.waves.map fun w => if w.team = team && w.blk = blk then w.launchRack else w }

/-- A wave with no live lane left ends: its flags join the summary and its slot is released (R226). -/
def State.finishWave (s : State) (wid : Nat) : State :=
  match s.wave? wid with
  | none => s
  | some w =>
    let s := s.sumFlags w
    let s := { s with waves := s.waves.filter (fun x => x.wid != wid) }
    (s.forget (waveErr wid)).afterWave w.team w.blk

/-- Whether a wave still waits for its matrix operations (R136): those that have neither completed nor parked. -/
def State.mmaBusy (s : State) (wid : Nat) : Bool :=
  s.mmas.any fun m => m.wid == wid && (match m.phase with | .issued => true | .started _ => true | _ => false)

/-- End a wave whose lanes have all left, once its matrix operations have completed or parked (R136). -/
def State.tryFinish (s : State) (wid : Nat) : State :=
  match s.wave? wid with
  | none => s
  | some w => if w.running && w.lanes.all (fun l => !l.live) && !s.mmaBusy wid then s.finishWave wid else s

/-- The records of `crel` that wait for operations become free (R133). -/
def State.freeResvs (s : State) : State :=
  { s with resvs := s.resvs.filter fun r => r.live || s.mmas.any fun m => m.core == r.core && m.team == r.team && m.blk == r.blk && m.resv.idx == r.idx }

/-- A matrix operation leaves the engine (R117, R135, R136): `kil` is set in its rows when it was killed. -/
def State.endMma (s : State) (id : Nat) (killed : Bool) : State :=
  match s.mma? id with
  | none => s
  | some o =>
    let s := { s with mmas := s.mmas.filter fun m => m.id != id }
    let s := if killed then
        s.updBlock o.team o.blk fun b => o.rows.foldl (fun b r => b.setRow r { b.row r with status := (b.row r).status ||| 0x40000000#32 }) b
      else s
    let s := if (s.wave? o.wid).isNone && !(o.phase matches .parked _) then s.orFlags o.launch o.flags else s
    s.freeResvs.tryFinish o.wid

/-- The launch's summary takes the flags of a matrix record at its disposition (Table 81, R136). -/
def State.joinFlags (s : State) (r : Record) : State :=
  if r.kind = .matrix && !s.placeBad r (0x100 + 40) 8 then s.orFlags r.launch (BitVec.ofNat 8 (leAt r.body 40 1)) else s

/-- A wave ends as though every lane had exited, without its implicit commit (R155): its pannier and pending copies are discarded, it waits for
nothing but its matrix operations, which run on (R118, R136). A poisoned `fpflags` of its record adds nothing to the summary (Table 81). -/
def State.endWave (s : State) (wid : Nat) : State :=
  match s.wave? wid with
  | none => s
  | some w =>
    let s := s.discardCopies fun c => c.wid == wid && c.level == .wave && c.pendingOut
    let flags := if s.flagsBad w then 0 else s.flagsOf w
    let s := s.forget (panErr wid)
    let s := { s with poolWait := s.poolWait.filter fun e => e.1 != wid }
    (s.updWave wid fun x =>
      { x with pan := [], reds := [], mlatch := none, fpflags := flags, status := .running, wait := .ready, hold := 0, rowWait := none, inWait := none
               lanes := x.lanes.map fun l => { l with live := false, sleep := none } }).tryFinish wid

/-- The same by a kill (Table 103): the matrix operations that have not started go unrun (R136). -/
def State.killWave (s : State) (wid : Nat) : State :=
  ((s.mmas.filter fun m => m.wid == wid && m.phase == .issued).foldl (fun s m => s.endMma m.id true) s).endWave wid

/-- An inward copy whose last segment is done fills its handle (Table 61); staging ends silently. -/
def State.completeCopy (s : State) (id : Nat) : State :=
  match s.copy? id with
  | none => s
  | some c =>
    if c.segs.all (· == .done) then
      match c.kind with
      | .inward =>
        ({ s with copies := s.copies.filter fun x => x.id != id }).setHandle c.team c.blk c.handle
          fun h => { h with state := .full, kil := c.kil, rdr := c.rdr }
      | .staging _ => { s with copies := s.copies.filter fun x => x.id != id }
      | _ => s
    else s

/-! ### Twins (R329) -/

/-- A value that a primary received goes to its secondary too (R329). -/
def State.forward (s : State) (team : Nat) (r : Received) : State :=
  match s.team? team with
  | some t => match t.twin with
    | some t2 => if t.secondary then s else s.updTeam t2 fun t => { t with received := t.received ++ [r] }
    | none => s
  | none => s

/-- The oldest value that a secondary has received for a unit, and the rest (R329). -/
def State.taken (s : State) (team kind blk wave unit seg : Nat) : Option (Received × State) :=
  let mine (r : Received) : Bool := r.kind == kind && r.blk == blk && r.wave == wave && r.unit == unit && r.seg == seg
  match (s.team? team).bind fun t => t.received.find? mine with
  | some r => some (r, s.updTeam team fun t => { t with received := t.received.erase r })
  | none => none

/-- The number under which a secondary knows a copy: its handle, or 0x8000 + i for the staging of region i. -/
def Copy.unit (c : Copy) : Nat := match c.kind with | .staging i => 0x8000 + i | _ => c.handle

/-- Nothing of a segment is left to do before publication. -/
def SegState.over : SegState → Bool | .done => true | .gathered _ _ => true | _ => false

/-- The elements a segment has gathered: of an outward one, each byte's device physical address, virtual address and value. -/
def SegState.got : SegState → List (Nat × Nat × Byte)
  | .from _ g _ => g | .outsideFrom _ g _ => g | .parked _ _ g => g | .waitsForPool _ _ _ _ g _ => g | .gathered g _ => g | .todo => [] | .done => []

/-- A copy takes ownership of the lines of elements (R159). -/
def Copy.own (c : Copy) (got : List (Nat × Nat × Byte)) : Copy :=
  if c.pendingOut || (match c.kind with | .writeBack _ => true | _ => false) then
    { c with
      lines := got.foldl (fun l g => if l.contains (g.1 / 64) then l else l ++ [g.1 / 64]) c.lines
      vlines := got.foldl (fun l g => if l.any fun v => v.1 == g.1 / 64 then l else l ++ [(g.1 / 64, g.2.1 / 64 * 64)]) c.vlines }
  else c

/-- A copy lets go of lines that no segment of it will write any more. -/
def Copy.disown (c : Copy) : Copy :=
  let kept (l : Nat) : Bool := c.segs.any fun g => g.got.any fun e => e.1 / 64 == l
  { c with lines := c.lines.filter kept, vlines := c.vlines.filter fun v => kept v.1 }

/-- The pending bytes of an outward copy by device physical address; of two elements at one address the one with the higher idx remains, whichever
segment finished first (R182). -/
def Copy.writes (c : Copy) : Held :=
  c.segs.foldl (fun h g => match g with | .gathered got _ => got.foldl (fun h e => insertCell e.1 e.2.2 h) h | _ => h) []

/-- A copy segment is killed (R184): none of its bytes move and its handle's flag is set; a record fault ends the whole copy. A
primary's secondary is told by a first byte of 1 (R329). -/
def State.killSegment (s : State) (id seg : Nat) : State :=
  match s.copy? id with
  | none => s
  | some c =>
    let whole := c.recs.isNone && (c.kind == .inward || c.pendingOut)
    let f (x : Copy) : Copy :=
      Copy.disown { x with kil := true, segs := if whole then x.segs.map fun _ => .done else x.segs.set seg .done, digested := x.digested || whole }
    let s := ((s.updCopy id f).setHandle c.team c.blk c.handle fun h => { h with kil := true }).completeCopy id
    if c.kind == .inward || (match c.kind with | .staging _ => true | _ => false) then
      (if whole then List.range c.segs.length else [seg]).foldl (fun s j =>
        s.forward c.team { kind := 1, blk := c.blk, wave := 0, unit := c.unit, seg := j, data := [1] }) s
    else s

/-- A team leaves its cores: everything it holds there goes (R154, R317). -/
def State.dropTeam (s : State) (team : Nat) : State :=
  let wids := (s.teamWaves team).map (·.wid)
  let mine : StoreLoc → Bool
    | .spad t _ => t == team | .row t _ _ _ => t == team | .cass t _ _ => t == team | .table t _ _ => t == team
    | .pending i _ => s.copies.any fun c => c.id == i && c.team == team
    | e => wids.any fun w => waveErr w e
  State.forget { s with
    waves := s.waves.filter (fun w => w.team != team)
    blocks := s.blocks.filter (fun b => b.team != team)
    resvs := s.resvs.filter (fun r => r.team != team)
    mmas := s.mmas.filter (fun m => m.team != team)
    copies := s.copies.filter (fun c => c.team != team)
    grp := if s.grp.any (fun g => wids.contains g.wid) then none else s.grp } mine

/-- The ticks a team was charged join its launch's sum (Table 81); twins are one team. -/
def State.chargeLaunch (s : State) (launch ticks : Nat) : State := s.updLaunch launch fun l => { l with ticks := l.ticks + ticks }

/-- Both twins of a team, the team first (R329). -/
def Team.pairUp (t : Team) : List Nat := t.id :: t.twin.toList

/-- A team of a launch is dead, with no relaunch left and no notice pending (R318). -/
def State.deadTeam (s : State) (launch status : Nat) : State :=
  s.updLaunch launch fun l => { l with left := l.left - 1, deadTeams := l.deadTeams + 1, status := some (l.status.getD status) }

/-- Relaunch a team at the head of its queue (R318, R335). -/
def State.relaunch (s : State) (launch idx relaunches : Nat) : State :=
  match s.launch? launch with
  | none => s
  | some l =>
    let aff := if l.rcd.aff = 0 then none else some (unsignedOf 64 ((l.rcd.aff : Int) + (idx : Int) * l.rcd.affs))
    s.enqueue { mkTask l.part l.queue l.rcd.prio (.team launch idx) with relaunches := relaunches, aff := aff } true

/-! ### Making records -/

/-- A unit that may detach (R288). -/
structure UnitAt where
  kind : RecKind
  id : Nat
  part : Nat
  vf : Nat
  asid : Nat
  team : Nat
  launch : Nat
  blk : Nat
  wave : Nat
  seg : Nat
  deriving DecidableEq, Repr

/-- The records that a team's task holds: twins are one task (R329). -/
def State.taskHolds (s : State) (team : Nat) : List Nat :=
  match s.team? team with
  | some t => t.holds ++ ((t.twin.bind s.team?).map (·.holds)).getD []
  | none => []

/-- A task that claims a record serves at its depth, both twins of it (R305); the record is the parent of what the task's units then raise (R291). -/
def State.serve (s : State) (team depth : Nat) (handle : W32) : State :=
  { s with teams := s.teams.map fun (x : Team) =>
      if x.id = team || x.twin = some team then { x with serving := some (max (x.serving.getD 0) depth), served := handle } else x }

/-- The depth of a record of a team's unit (R305), with the parent record; none at the nesting bound (R307). -/
def State.recordDepth (s : State) (team part : Nat) : Option (Nat × W32) :=
  match (s.team? team).bind fun t => t.serving.map fun d => (d, s.taskHolds team) with
  | none => some (0, 0xFFFFFFFF)
  | some (d, holds) =>
    if d ≥ s.nestBound part then none
    else some (d + 1, match holds.head?.bind s.record? with
      | some r => r.handle
      | none => ((s.team? team).bind (·.remotes.head?)).getD (((s.team? team).map (·.served)).getD 0xFFFFFFFF))

/-- The extents of a depth's class, in the order of R306. -/
def extentClasses (nest depth : Nat) : List (Nat × Nat) :=
  if depth = 0 then [(0, 256)]
  else if depth ≤ nest then [(256 + 32 * (depth - 1), 32), (0, 256)] else [(0, 256)]

/-- A free place in the pool (R290, R306): a whole extent for a wave, else a slot in an extent open for small records. -/
def State.freeExtent (s : State) (p depth : Nat) (wave : Bool) : Option (Nat × Nat) :=
  match (s.part p).pool with
  | none => none
  | some (_, nest) =>
    (extentClasses nest depth).findSome? fun (lo, n) =>
      let mine := s.records.filter fun r => r.part == p
      let slotIn (e : Nat) : Option (Nat × Nat) :=
        ((List.range 64).find? fun k => !mine.any fun r => r.extent == e && r.slot == k).map fun k => (e, k)
      let opened := (List.range n).find? fun i => mine.any (fun r => r.extent == lo + i && r.kind != .wave) && (slotIn (lo + i)).isSome
      let empty := ((List.range n).find? fun i => !mine.any fun r => r.extent == lo + i).map fun i => (lo + i, 0)
      if wave then empty else match opened with | some i => slotIn (lo + i) | none => empty

/-- Whether a unit that already waits in a partition could take a record now (R308). -/
def State.waiterFits (s : State) (part : Nat) (e : Nat × Nat) : Bool :=
  let fits (team core : Nat) (wave : Bool) : Bool := partOfCore core == part && (match s.recordDepth team part with
    | some (d, _) => (s.freeExtent part d wave).isSome
    | none => false)
  match s.wave? e.1, s.mma? e.1, s.copy? e.1 with
  | some w, _, _ => fits w.team w.core true
  | none, some o, _ => fits o.team o.core false
  | none, none, some c => fits c.team c.core false
  | none, none, none => false

/-- The place for a new record: none while an earlier unit waits for one that it could take (R308). -/
def State.placeFor (s : State) (part depth : Nat) (wave : Bool) : Option (Nat × Nat) :=
  if s.poolWait.any (s.waiterFits part) then none else s.freeExtent part depth wave

/-- The deadline of a fault task (R295, R296): the queue clock now plus the entry's deadline, 0 meaning 2^32. -/
def State.faultDeadline (s : State) (u : UnitAt) (cause : Nat) : Nat :=
  match s.polEntry u.launch cause with
  | none => s.qclock u.part 0 + 2 ^ 32
  | some e => s.qclock u.part e.queue + (if e.deadline = 0 then 2 ^ 32 else e.deadline.toNat)

/-- Fill a record at a free place of the pool (R290, R291, R293, R296). -/
def State.makeRecord (s : State) (u : UnitAt) (cause depth : Nat) (parent : W32) (place : Nat × Nat) (flags : BitVec 8) (faddr amask : W64)
    (body pan : List Byte) (deadline : Nat) : State :=
  let key := (u.part, place.1 * 64 + place.2)
  let gen := ((((s.gens.find? fun g => g.1 == key).map (·.2)).getD 0) + 1) % 64
  let e := s.polEntry u.launch cause
  let l := s.launch? u.launch
  let queue := match e with | some x => x.queue | none => 0
  let r : Record :=
    { id := s.nextId, part := u.part, extent := place.1, slot := place.2, gen := gen, kind := u.kind, cause := cause, state := .parked, depth := depth,
      disp := 0, prio := (e.map (·.prio)).getD 0, expiry := (e.map (·.expiry)).getD 1, flags := flags, parent := parent, asid := u.asid, vf := u.vf,
      ord := s.ordinal u.part, team := u.team, teamIdx := (s.team? u.team).elim 0xFFFFFFFF fun t => BitVec.ofNat 32 t.idx, blk := u.blk, wave := u.wave,
      seg := u.seg, seq := (l.map fun x => BitVec.ofNat 32 x.seq).getD 0, ring := (l.map (·.ring)).getD 0, queue := queue,
      link := if (e.map (·.kind)).getD 0 = 3 then (e.map (·.link)).getD 0xFF else 0xFF, budget := (e.map (·.budget)).getD 0, deadline := deadline,
      parked := s.qclock u.part queue, faddr := faddr, amask := amask, raddr := 0, pkind := (e.map (·.kind)).getD 0,
      handler := (e.map fun x => x.handler.toNat).getD 0, harg := (l.bind fun x => x.policy.map (·.arg)).getD 0, body := body, pan := pan, unit := u.id,
      notice := 0, launch := u.launch, pol := e, nestPol := s.polEntry u.launch Cause.nestLimit }
  { s with
    records := s.records ++ [r]
    errors := if s.errors.isEmpty then s.errors else s.errors.filter fun e => match e with
      | .hbm a => !(decide (s.placeOf r ≤ a / 64 * 64) && decide (a / 64 * 64 < s.placeOf r + r.room))
      | _ => true
    gens := (s.gens.filter fun g => g.1 != key) ++ [(key, gen)]
    nextId := s.nextId + 1 }

/-- A notice record of a cause (R295, R318, R331): depth 0, no unit. With no pool, or no place that is not a waiting unit's or lost, none is made (R308,
R312; the model's choice, notes/assumptions/44). -/
def State.makeNotice (s : State) (u : UnitAt) (cause what : Nat) (a b : W64) (idx : W32) : State :=
  match (s.placeFor u.part 0 false).filter fun place => !s.lostExtent u.part place with
  | none => s
  | some place =>
    let rid := s.nextId
    let s := s.makeRecord { u with kind := .notice } cause 0 0xFFFFFFFF place 0 0 0 (noticeBody a b idx) [] (s.faultDeadline u cause)
    (s.updRecord rid fun r => { r with notice := what, teamIdx := idx, team := u.team }).postFault rid

/-- Whether the policy asks for a task for a cause (kind 1-3). -/
def State.wantsNotice (s : State) (launch cause : Nat) : Bool := ((s.polEntry launch cause).map fun e => e.kind != 0).getD false

/-- The unit of a team as a whole, for notices; its number is how often the team has been relaunched (R318). -/
def teamUnit (t : Team) : UnitAt :=
  { kind := .notice, id := t.relaunches, part := t.part, vf := t.vf, asid := t.asid, team := t.id, launch := t.launch, blk := 0, wave := 0, seg := 0 }

/-- A killed team ends: its task lets go of what it holds, and it is relaunched or escalated under R318 if it may be, the notice's body holding the storage
code; else it stays dead with the command status given (R255). -/
def State.buryTeam (s : State) (t : Team) (again : Bool) (code status : Nat) : State :=
  let s := s.releaseHolds t.id
  let s := ({ s with teams := s.teams.filter fun x => x.id != t.id } : State).reap
  match s.launch? t.launch with
  | none => s
  | some l =>
    if l.handler.isSome then { s with launches := s.launches.filter fun x => x.id != l.id }
    else if t.secondary then s
    else if again && (!t.committed || l.rcd.reent) && t.relaunches < 3 then s.relaunch l.id t.idx (t.relaunches + 1)
    else if again && s.wantsNotice l.id Cause.ecc then
      let n := s.makeNotice (teamUnit t) Cause.ecc 1 (BitVec.ofNat 64 code) 0 (BitVec.ofNat 32 t.idx)
      if n.records.length = s.records.length then s.deadTeam l.id status else n
    else s.deadTeam l.id status

/-- The team kill (R317): its levels are discarded, its records KILLED, its slices released. It ends at once; while deferred reductions that its device
commits published are still to be applied, it ends after the last of them (R152). -/
def State.killOne (s : State) (team : Nat) (again : Bool) (code status : Nat) : State :=
  match s.team? team with
  | none => s
  | some t =>
    if t.phase = .dead then s
    else
      let s := (s.teamWaves team).foldl State.sumFlags s
      let mine := (s.records.filter fun r => r.team == team && r.kind != .notice).map (·.id)
      let s := (mine.foldl State.killRecord s).dropTeam team
      let s := s.chargeLaunch t.launch (if t.secondary then 0 else t.charged)
      let s := { s with tasks := s.tasks.filter fun x => match x.kind with | .saved i => i != team | _ => true }
      if t.applyQ.isEmpty then s.buryTeam t again code status
      else (s.updTeam team fun t =>
        { t with phase := .dead, base := [], ovl := [], reds := [], bar := none, gather := none, budget := none, fate := some (again, code, status) }).reap

/-- The team kill of both twins under grade 2 (R317, R329). -/
def State.killTeam (s : State) (team : Nat) (again : Bool) (code status : Nat) : State :=
  match (s.team? team).bind (·.twin) with
  | none => s.killOne team again code status
  | some t2 => (s.killOne team again code status).killOne t2 again code status

/-- Poisoned storage of a core is consumed: the event is logged and the team that owns it killed (R317). -/
def State.poisonKill (s : State) (team core asid code : Nat) : State :=
  (s.logCore core code 2 (((s.team? team).map (·.vf)).getD 0x7F) asid).killTeam team true code 7

/-- A record is lost with its place in the pool (R312): the task of its unit is killed, and no task holds it any more. -/
def State.dropRecord (s : State) (r : Record) : State :=
  let t := (s.killTeam r.team false 8 7).dropFaultTask r.id
  { t with
    records := t.records.filter (fun x => x.id != r.id)
    teams := t.teams.map (fun x => { x with holds := x.holds.filter (· != r.id) })
    doms := t.doms.map (fun x => { x with holds := x.holds.filter (· != r.id) }) }

/-- A fault on an extent of the pool: every record in it is lost (R312). -/
def State.loseExtent (s : State) (part extent : Nat) : State :=
  (s.records.filter fun x => x.part == part && x.extent == extent).foldl State.dropRecord s

/-- A kill disposition's effect on a record's unit (Table 103, R135, R184). -/
def State.killUnit (s : State) (r : Record) : State :=
  match r.kind with
  | .wave => s.killWave r.unit
  | .segment => s.killSegment r.unit r.seg
  | .matrix => (s.joinFlags r).endMma r.unit true
  | .notice =>
    if r.notice = 1 then s.deadTeam r.launch 7
    else if r.notice = 2 then s.killTeam r.team true 0 7
    else s

/-- The expiry action (R309): 0 kills the unit, 1 the unit's team. -/
def State.expire (s : State) (r : Record) : State :=
  if r.kind = .notice || r.expiry = 0 then (s.killUnit r).reap
  else (s.killTeam r.team true 0 7).reap

/-- R307: a held record returns to PARKED with the nest flag. It is posted again to the queue, and for the handler, of its policy's entry for
NEST_LIMIT when that is of kind 1 or 2; otherwise its expiry action runs. -/
def State.nestMet (s : State) (rid : Nat) : State :=
  match s.record? rid with
  | none => s
  | some r =>
    if r.state != .claimed then s
    else match r.nestPol with
      | some e =>
        if e.kind = 1 || e.kind = 2 then
          (s.updRecord rid fun x =>
            { x with
              state := .parked, flags := x.flags ||| 4, pkind := e.kind, handler := e.handler.toNat, queue := e.queue, prio := e.prio
              budget := e.budget }).postFault rid
        else ((s.updRecord rid fun x => { x with flags := x.flags ||| 4 }).killRecord rid).expire r
      | none => ((s.updRecord rid fun x => { x with flags := x.flags ||| 4 }).killRecord rid).expire r

/-- R307: the unit ends as by a kill, and the task lets go of every record it holds, here and on peer parts; twins are one task (R329). -/
def State.nestLimit (s : State) (team : Nat) (kill : State → State) : State :=
  let holds := s.taskHolds team
  let both (t : Team) : Bool := t.id == team || t.twin == some team
  let away := (s.teams.filter both).flatMap (·.remotes)
  let vf := ((s.team? team).map (·.vf)).getD 0
  let s := { s with teams := updWhere s.teams both fun t => { t with holds := [], remotes := [] } }
  let s := holds.foldl (fun (s : State) rid => s.nestMet rid) (kill s)
  (away.foldl (fun (s : State) h => s.sendFor vf (homeLink h) fun _ => .nestMet h) s).reap

/-- The fault machinery's last step (R296): a kind 0 entry expires at once, and so does one whose link is not enabled (R310); any other posts its
task. -/
def State.serveRecord (s : State) (rid : Nat) : State :=
  match s.record? rid with
  | none => s
  | some r => if r.pkind = 0 || (r.pkind = 3 && !s.linkOpen r.vf r.link) then ((s.killRecord rid).expire r).reap else s.postFault rid

/-- Whether the host serves a fault of a partition (R283): a page fault with PCTL.fwm[16], any fault with fwm[18] (Table 86). Which causes are page
faults is the model's reading (notes/assumptions/44). -/
def State.hostServes (s : State) (r : Record) : Bool :=
  let page := r.cause == Cause.notPresent || r.cause == Cause.perm || r.cause == Cause.memside
  ((s.part r.part).fwm.getLsbD 0 && page) || (s.part r.part).fwm.getLsbD 2

/-- A parked record goes to its service: in hardware, or to the host through the assist ring, where it waits for the answer (R283). -/
def State.serveParked (s : State) (rid : Nat) : State :=
  match s.record? rid with
  | none => s
  | some r => if s.hostServes r then { s with assist := s.assist ++ [.fault rid] } else s.serveRecord rid

/-- The unit of a wave. -/
def State.waveUnit (s : State) (w : Wave) : UnitAt :=
  match s.team? w.team with
  | none => { kind := .wave, id := w.wid, part := partOfCore w.core, vf := 0, asid := w.asid, team := w.team, launch := 0, blk := w.blk, wave := w.idx, seg := 0 }
  | some t =>
    { kind := .wave, id := w.wid, part := partOfCore w.core, vf := t.vf, asid := w.asid, team := w.team, launch := t.launch, blk := w.blk, wave := w.idx,
      seg := 0 }

/-- Park a wave in a record at a free place (R289 step 3, Table 99): its registers, lane state and pannier are read, and a poisoned word among them is
consumed (R317; notes/assumptions/25). Where the extent is lost, the monitor kills the wave's task and those of the extent's records (R312). -/
def State.parkWave (s : State) (w : Wave) (p : Pending) (depth : Nat) (parent : W32) (place : Nat × Nat) (waited : Bool) (deadline : Nat) : State :=
  let u := s.waveUnit w
  let rid := s.nextId
  let flags : BitVec 8 := BitVec.ofNat 8 ((if p.done then 1 else 0) + (if waited then 16 else 0))
  let body := waveBody s.free (s.locked w.wid) w p
  let pan := panPart (s.free + 4 * w.width) w
  let s := { s with free := s.free + 4 * w.width + 1024 }
  let t := s.makeRecord u p.cause depth parent place flags (p.faddr.setWidth 64) p.amask body pan deadline
  match s.errors.find? (parkErr w.wid) with
  | some e => s.poisonKill w.team w.core w.asid (storeCode e)
  | none =>
    if s.lostExtent u.part place then (s.killTeam w.team false 8 7).loseExtent u.part place.1
    else (t.updWave w.wid fun x => { x with status := .parked rid }).serveParked rid

/-- TAKING A FAULT (R289): the wave stops issuing and its hold ends; it parks in a record, which names the cause, the first word of the
group and the lanes of Active, and its fault task is posted (R296). Without an extent it waits in place (R308); at the nesting bound it
ends (R307). A fault of a prologue ends the prologue and makes no record (R245). -/
def State.detach (s : State) (wid : Nat) (p : Pending) : State :=
  let s := { s with grp := none }
  match s.wave? wid with
  | none => s
  | some w =>
    match w.prologue with
    | some pr => s.updWave wid fun x => { x with prologue := some { pr with ended := some p.cause }, wait := .ready, hold := 0 }
    | none =>
      let w := { w with
        hold := 0, latchLive := [false, false, false, false], wait := .ready, age := 0, barred := none, rowWait := none, inWait := none
        lanes := w.lanes.map fun l => { l with sleep := l.sleep.map fun a => { a with armed := false, hit := false } } }
      let s := ((s.updWave wid fun _ => w).keepA w).wakeRetry
      let u := s.waveUnit w
      match s.recordDepth w.team u.part with
      | none => s.nestLimit w.team fun s => s.killWave wid
      | some (depth, parent) =>
        match s.placeFor u.part depth true with
        | none => ({ s with poolWait := s.poolWait ++ [(wid, 0)] } : State).updWave wid fun x => { x with status := .waitsForPool p (s.faultDeadline u p.cause) }
        | some place => s.parkWave w p depth parent place false (s.faultDeadline u p.cause)

/-- The rounded register count (R28). -/
def LaunchRec.nregs (r : LaunchRec) : Nat := (r.regs + 7) / 8 * 8

/-! ### What stands on a core (R16, R112, R251) -/

/-- What a team takes on one core of its pair: wave slots, register-file bytes, accumulator rows, cassette bytes, scratchpad bytes. -/
structure Need5 where
  slots : Nat
  regs : Nat
  acc : Nat
  cass : Nat
  spad : Nat

/-- Local area of one wave slot (R251). -/
def localArea (width : Nat) : Nat := 224 * width + 10240

/-- What the blocks of a record take on the even (0) or the odd (1) core. -/
def LaunchRec.needOn (r : LaunchRec) (side : Nat) : Need5 :=
  let n := if side = 0 then (r.blocks + 1) / 2 else r.blocks / 2
  { slots := n * r.waves, regs := n * r.waves * (r.width * r.nregs * 4), acc := n * r.acc, cass := n * r.cass, spad := r.view + n * r.waves * localArea r.width }

/-- Whether the sums hold on one core with what is in use there. -/
def Need5.fits (a b : Need5) : Bool :=
  decide (a.slots + b.slots ≤ Config.slotsPerCore) && decide (a.regs + b.regs ≤ Config.regFileBytes) && decide (a.acc + b.acc ≤ Config.accRows) &&
  decide (a.cass + b.cass ≤ Config.cassetteBytes) && decide (a.spad + b.spad ≤ Config.placeBytes)

def Need5.zero : Need5 := { slots := 0, regs := 0, acc := 0, cass := 0, spad := 0 }

/-- A team that stands on its cores. -/
def Team.placed (t : Team) : Bool := match t.phase with | .evicted _ => false | .dead => false | _ => true

/-- Whether a team has been evicted (R257). -/
def State.isEvicted (s : State) (team : Nat) : Bool := ((s.team? team).map fun t => t.phase matches .evicted _).getD false

/-- A team whose units run: not staging, not draining, not off its cores. -/
def Team.active (t : Team) : Bool := t.phase == .running || t.phase == .ending

def Need5.add (a b : Need5) : Need5 :=
  { slots := a.slots + b.slots, regs := a.regs + b.regs, acc := a.acc + b.acc, cass := a.cass + b.cass, spad := a.spad + b.spad }

/-- The launch record of a team. -/
def State.recordOf (s : State) (t : Team) : Option LaunchRec := (s.launch? t.launch).map (·.rcd)

/-- What a team takes on one side of its pair: a team that has not started, by its record; else by its waves, racks and blocks. -/
def State.teamUse (s : State) (t : Team) (side : Nat) : Need5 :=
  let ws := s.waves.filter fun w => w.team == t.id && w.core % 2 == side
  let bs := s.blocks.filter fun b => b.team == t.id && b.core % 2 == side && !b.ended
  let started := s.waves.any (fun w => w.team == t.id) || t.gather.isSome || (s.blocks.any fun b => b.team == t.id && b.ended)
  match if started then none else s.recordOf t with
  | some r => r.needOn side
  | none =>
    { slots := ws.length
      regs := ((ws.filter fun w => match w.status with | .parked _ => s.mmas.any fun m => m.wid == w.wid && m.phase == .issued | _ => true).map
        fun w => w.width * w.nregs * 4).sum
      acc := (bs.map (·.acc)).sum
      cass := (bs.map (·.cassLen)).sum
      spad := t.view + (ws.map fun w => localArea w.width).sum }

/-- A domestique handler takes the local area of one slot for its stack (R304), of the widest kind (notes/assumptions/9). -/
def domUse : Need5 := { slots := 1, regs := 0, acc := 0, cass := 0, spad := localArea 64 }

/-- What is in use on a core. -/
def State.coreUse (s : State) (core : Nat) : Need5 :=
  let ts := s.teams.filter fun t => t.placed && t.pair == core / 2
  let u := ts.foldl (fun u t => u.add (s.teamUse t (core % 2))) Need5.zero
  if (s.dom? core).isSome then u.add domUse else u

/-- The lowest slot of a core that no wave and no domestique handler's stack takes (R20, R304; notes/assumptions/9). -/
def State.freeSlot? (s : State) (core : Nat) : Option Nat :=
  (List.range Config.slotsPerCore).find? fun k => !(s.waves.any fun w => w.core == core && w.slot == k) && !(s.doms.any fun d => d.core == core && d.slot == k)
def State.freeSlot (s : State) (core : Nat) : Nat := (s.freeSlot? core).getD 0

/-! ### The way back (R301) -/

/-- The result of `waitc` (Table 74). -/
def waitcResult (m : Option W32) (rs nm : Bool) : W64 :=
  match m with
  | some v => v.setWidth 64 ||| (if rs then 0x200000000#64 else 0) ||| (if nm then 0x100000000#64 else 0)
  | none => 0x400000000#64 ||| (if rs then 0x200000000#64 else 0) ||| (if nm then 0x100000000#64 else 0)

/-- Write an even-odd pair of one lane (R28). -/
def Lane.setPair (l : Lane) (d : Nat) (v : W64) : Lane := if d < 120 then { l with regs := (l.regs.set d (lo32 v)).set (d + 1) (hi32 v) } else l

/-- Wake a lane with a result: it takes d and moves on as normal (R236). -/
def Lane.wakeWith (l : Lane) (a : Asleep) (v : W64) : Lane := { (l.setPair a.dst v) with sleep := none, pc := a.next, yielded := false }

/-- Every lane asleep is to wake with rs = 1 (R237), once its word has been read afresh. A secondary twin's takes the primary's word (R329). -/
def State.wakeAll (s : State) (w : Wave) : Wave :=
  if ((s.team? w.team).map (·.secondary)).getD false then w
  else { w with lanes := w.lanes.map fun l => { l with sleep := l.sleep.map fun a => { a with rs := true } } }

/-- The group a wave's lowest-key live lane would issue next. -/
def Wave.lowest (w : Wave) : W57 :=
  match w.lanes.filter (·.live) with
  | [] => 0
  | l :: ls => (ls.foldl (fun m x => if keyWord x < keyWord m then x else m) l).pc

/-- The deferred sectors of a pannier part judged again (R300): those whose operand was not patched keep their translation; one that failed is judged until
it passes. -/
def State.rejudge (s : State) (w : Wave) (vf : Nat) (pan : List Byte) : List Red × Option Nat :=
  let base := (panSectors w.pan).length
  (redsFrom pan).foldl (fun (acc : List Red × Option Nat) (k, a, v, fn) =>
    let old := if base ≤ k then w.reds[k - base]? else none
    let r : Red := { old.getD { fn := fn, addr := a, value := v, dpa := 0, ord := s.nextId, odd := decide (w.core % 2 = 1), failed := true } with fn := fn, value := v }
    if r.addr = a && !r.failed then (acc.1 ++ [r], acc.2)
    else match s.remoteAddr w.core vf w.asid fn a with
      | .ok d => (acc.1 ++ [{ r with addr := a, dpa := d, failed := false }], acc.2)
      | .error c => (acc.1 ++ [{ r with addr := a, failed := true }], acc.2.or (some c))) ([], none)

/-- A wave that a handler left with no live lane ends when it is rebuilt (R202), with the implicit commits of its last lane's exit (R154), and their check
(R153; the model's choice, notes/assumptions/14). -/
def State.endRebuilt (s : State) (w : Wave) : State :=
  let t := s.exitCommits w
  if t.overlaysFit (w.core / 2) then t.tryFinish w.wid
  else s.detach w.wid { cause := Cause.overlayFull, done := false, faddr := w.lowest, amask := 0, laneFlags := [], codes := [] }

/-- A RESUMING wave is rebuilt when its core has the register space (R294, R301); a patched deferred operand that fails detaches it at
once (R300). Its registers are written whole (R315); the save space of its pannier, which has stood in its local area, is read (R251, R317). Of
the new record R300 gives the cause and faddr; its amask is 0 (the model's choice, notes/assumptions/44). -/
def State.rebuildWave (s : State) (rid : Nat) : State :=
  match s.record? rid with
  | none => s
  | some r =>
    match s.wave? r.unit with
    | none => s
    | some w =>
      if r.state != .resuming || r.kind != .wave || (s.coreUse w.core).regs + w.width * w.nregs * 4 > Config.regFileBytes then s
      else if s.pannierPoison w.wid then (s.poisonKill w.team w.core w.asid 5).wakeRetry
      else
        let s := s.forget (parkErr w.wid)
        let (reds, bad) := s.rejudge w r.vf r.pan
        let w1 := s.wakeAll { waveFrom w r.body r.pan with status := .running, wait := .ready, reds := reds, age := 0 }
        let s := { s with records := s.records.filter fun x => x.id != rid }
        let s := s.updWave w.wid fun _ => w1
        match bad with
        | none => (if w1.lanes.all fun l => !l.live then s.endRebuilt w1 else s).wakeRetry
        | some c => s.detach w.wid { cause := c, done := false, faddr := w1.lowest, amask := 0, laneFlags := [], codes := [] }

end Sys2Proof.Machine
end

