-- ==== Sys2Proof/Machine/Abort.lean ====
section
/-! DEFINITION. Aborts (R155, R157): the levels discarded, the waves redirected to their abort addresses, parked waves changed in place. -/

namespace Sys2Proof.Machine

/-- The level an abort names: 6 `abt.w`, 7 `abt.b`, 8 `abt.t` (fn of major 0x26). -/
def Wave.abortAddr (w : Wave) (fn : Nat) : Option W57 := if fn = 6 then w.abtW else if fn = 7 then w.abtB else w.abtT
def Lane.abortDepth (l : Lane) (fn : Nat) : Nat := if fn = 6 then l.abtW else if fn = 7 then l.abtB else l.abtT

/-- One lane goes to the abort address: normal, its stack cut to the recorded depth, no longer asleep (R155). -/
def Lane.redirect (l : Lane) (fn : Nat) (a : W57) : Lane :=
  if l.live then { (l.cutTo (l.abortDepth fn)) with pc := a, yielded := false, sleep := none } else { l with sleep := none }

/-- A wave whose address is set goes to it: pannier and deferred reductions dropped, its wave level reopened, its held latch released. A
wait for replies goes on (R155 releases the other waits). -/
def Wave.redirect (w : Wave) (fn : Nat) (a : W57) : Wave :=
  { w with
    lanes := w.lanes.map fun l => l.redirect fn a
    pan := [], reds := [], foreign := [], mlatch := none, barred := none, rowWait := none, inWait := none
    wait := match w.wait with | .replies n first => .replies n first | _ => .ready }

/-- A wave with no address to go to which an abort does not end: its pannier and deferred reductions are dropped, and a wait ends without effect (R155, R233). -/
def Wave.discard (w : Wave) : Wave :=
  { w with
    lanes := w.lanes.map fun l => { l with sleep := none }
    pan := [], reds := [], foreign := [], rowWait := none, inWait := none
    wait := match w.wait with | .replies n first => .replies n first | _ => .ready }

/-- A parked wave's record changed in place (R157): pannier image emptied, lanes redirected, latch released, flags[1] set. -/
def Record.redirect (r : Record) (w : Wave) (fn : Nat) (a : W57) : Record :=
  let body := (List.range w.width).foldl (fun (b : List Byte) i =>
    let bs := (b.drop (512 + 64 * i)).take 64
    let live := bits (leAt b 320 8) i 1 = 1
    let l := laneFrom (w.lanes.getD i { live := false, sleep := none, yielded := false, depth := 0, pc := 0, chip := [], spill := [], preds := 0,
                                        regs := [], tid := 0, abtW := 0, abtB := 0, abtT := 0 }) bs live []
    if live then patchBytes b (512 + 64 * i) (laneBytes (8 * r.id) (l.redirect fn a) ((bs.drop 44).headD 0) (BitVec.ofNat 32 (leAt bs 48 4))) else b) r.body
  { r with body := patchBytes (patchBytes body 280 (zeros 8)) 328 (zeros 8), pan := zeros 10240, flags := r.flags ||| 2 }

/-- The abort address a parked wave's record holds for a level (Table 99). -/
def Record.abortAddr (r : Record) (fn : Nat) : Option W57 := abtFrom (leAt r.body (288 + 8 * (fn - 6)) 8)

/-- What an abort does to one wave of its unit (R155, R157). A wave that waits in place for a record (R308) goes to its address like a resident
one, and its pending fault keeps its cause and address: the spec names no such pair (the model's choice, notes/assumptions/44). A wave whose address is unset
ends (R155), but for one that the rack of a spawned thread launched, which no abort ends (R233): its pannier is discarded and its waits end, and its lanes stay
where they are, since R155 gives it no address to go to (the model's choice, notes/assumptions/44). A wave with replies outstanding is redirected at its next
boundary, so that a reply that fails moves none of its lanes back. -/
def State.abortOne (s : State) (fn wid : Nat) : State :=
  match s.wave? wid with
  | none => s
  | some w =>
    match w.status with
    | .rack _ _ => s
    | .parked rid =>
      match s.record? rid with
      | none => s
      | some r =>
        match r.abortAddr fn with
        | some a =>
          let s := s.updRecord rid fun r => r.redirect w fn a
          (s.forget (panErr wid)).updWave wid fun w => { w with pan := [], reds := [], foreign := [], mlatch := none, lanes := w.lanes.map fun l => { l with sleep := none } }
        | none =>
          if w.spawned then
            ((s.updRecord rid fun r => { r with pan := zeros 10240 }).forget (panErr wid)).updWave wid fun w => { w with pan := [], reds := [], foreign := [] }
          else ((s.killRecord rid).killWave wid).reap
    | _ =>
      match w.abortAddr fn with
      | some a =>
        ({ s with spokeReqs := s.spokeReqs.map fun (r : SpokeReq) => if r.wid = wid then { r with cut := true } else r
                  remotes := s.remotes.map fun (o : RemoteOp) => if o.wid = wid then { o with group := [], act := [] } else o } : State).forget (panErr wid) |>.updWave wid fun w => w.redirect fn a
      | none => if w.spawned then (s.forget (panErr wid)).updWave wid Wave.discard else s.endWave wid

/-- A barrier forgets waves that an abort released (R155). -/
def Barrier.without (b : Barrier) (wids : List Nat) : Option Barrier :=
  let arr := b.arrived.filter fun e => !wids.contains e.1
  if arr.isEmpty then none else some { b with arrived := arr }

/-- `abt.w`, `abt.b`, `abt.t` of a wave, once its own address is known to be set (R155): discard the holders of the level and below, then
redirect every affected wave. -/
def State.abort (s : State) (fn : Nat) (w : Wave) : State :=
  let inBlock (x : Wave) : Bool := x.team == w.team && (fn == 8 || x.blk == w.blk)
  let hit := if fn = 6 then [w.wid] else (s.waves.filter fun x => inBlock x && !x.isRack).map (·.wid)
  let s := s.discardCopies fun c => c.pendingOut && c.team == w.team &&
    (if fn = 6 then c.wid == w.wid && c.level == .wave
     else if fn = 7 then c.blk == w.blk && c.level != .team
     else true)
  let s := if fn = 6 then s else
    { s with blocks := s.blocks.map fun b =>
        if b.team = w.team && (fn = 8 || b.idx = w.blk) then { b with ovl := [], reds := [], foreign := [], bar := none } else b }
  let s := s.updTeam w.team fun t =>
    let t := if fn = 8 then { t with ovl := [], reds := [], foreign := [], bar := none, gather := none } else t
    if fn = 7 then { t with bar := t.bar.bind fun b => b.without hit, gather := none } else t
  hit.foldl (fun s wid => s.abortOne fn wid) s

end Sys2Proof.Machine
end

