-- ==== Sys2Proof/Machine/Operands.lean ====
section
/-! DEFINITION. Operand forms (R27-R29, R36), modifiers (R37), and the issue of a bound group: the checks of R39, holds and latches
(R31-R33, R38), interlocks (R111, R125, R127), Active, and the ways an issue ends. Every instruction's meaning runs inside `issue`. -/

namespace Sys2Proof.Machine

/-- One operand field of an instruction, with the way it is used. -/
inductive Fld where
  /-- a 32-bit or a 64-bit source -/
  | r32 (f : BitVec 7)
  | r64 (f : BitVec 7)
  /-- a destination; `live` is false with nw = 1 (R30) -/
  | w32 (f : BitVec 7) (live : Bool)
  | w64 (f : BitVec 7) (live : Bool)
  /-- read and written -/
  | rw32 (f : BitVec 7) (live : Bool)
  | rw64 (f : BitVec 7) (live : Bool)
  /-- the data of a store (R173) -/
  | st32 (f : BitVec 7)
  | st64 (f : BitVec 7)
  /-- a predicate (R29) -/
  | pred (f : BitVec 7)
  /-- an unused field (R29) -/
  | unused (f : BitVec 7)
  /-- a range of n registers (R123) -/
  | range (f : BitVec 7) (n : Nat) (write : Bool)
  /-- a register alone (`spr`, R41) -/
  | reg (f : BitVec 7)
  /-- a code with its verdict (R29) -/
  | code (f : BitVec 7) (ok : Bool)
  /-- a scalar register that is read (R98), or written (`srd`) -/
  | sreg (n : BitVec 5)
  | wsreg (n : BitVec 5)
  deriving DecidableEq, Repr

/-- What an instruction accepts and how it issues. -/
structure Sig where
  flds : List Fld
  rnd : Bool := false
  sat : Bool := false
  guard : Bool := true
  reuse : Bool := false
  scalar : Bool := false
  /-- wide immediates accepted (R36) -/
  wides : Nat := 0
  /-- format B takes no modifier hint at all (R37) -/
  bfmt : Bool := false
  /-- ends a hold (R32, third case and `bry`) -/
  ends : Bool := false
  /-- needs supervisor privilege (R39) -/
  sup : Bool := false
  /-- a further condition of step 4 of R39 -/
  ok : Bool := true
  /-- lawful in a prologue (R245) -/
  pro : Bool := false
  /-- runs on the matrix engine, which accepts it while it holds fewer than 16 operations (R125, R216, Table 48) -/
  matrix : Bool := false

def Fld.raw : Fld → List (BitVec 7)
  | .r32 f | .r64 f | .w32 f _ | .w64 f _ | .rw32 f _ | .rw64 f _ | .st32 f | .st64 f | .pred f | .unused f | .range f _ _ | .reg f | .code f _ => [f]
  | .sreg _ | .wsreg _ => []

/-- Whether a field may read the scalar through 0x7E (R37, Table 55). -/
def Fld.scalarOk : Fld → Bool
  | .r32 _ | .r64 _ => true
  | _ => false

/-- Whether a field holds a lawful value under a rounded register count (R28, R29, R123, R173). -/
def Fld.ok (n : Nat) : Fld → Bool
  | .r32 f => decide (f.toNat < n) || decide (0x78 ≤ f.toNat)
  | .r64 f => (decide (f.toNat < n) && f.toNat % 2 == 0) || f == 0x7C || f == 0x7E || f == 0x7F
  | .w32 f _ | .rw32 f _ => decide (f.toNat < n) || (decide (0x78 ≤ f.toNat) && decide (f.toNat ≤ 0x7C))
  | .w64 f _ | .rw64 f _ => (decide (f.toNat < n) && f.toNat % 2 == 0) || f == 0x7C
  | .st32 f => decide (f.toNat < n) || (decide (0x78 ≤ f.toNat) && decide (f.toNat ≤ 0x7C)) || f == 0x7F
  | .st64 f => (decide (f.toNat < n) && f.toNat % 2 == 0) || f == 0x7C || f == 0x7F
  | .pred f => decide (f.toNat ≤ 7)
  | .unused f => f == 0x7C
  | .range f k _ => decide (f.toNat + k ≤ n)
  | .reg f => decide (f.toNat < n)
  | .code _ ok => ok
  | .sreg _ | .wsreg _ => true

/-- The lane registers a field reads, and writes. A latch is none of them, so that a read of a live latch waits for no latency: R111 names registers,
predicates and scalars and calls the latch its exception, while R110 speaks of any dependent instruction (the model's choice, notes/assumptions/44). -/
def Fld.reads : Fld → List Nat
  | .r32 f | .rw32 f _ | .st32 f => if f.toNat < 0x78 then [f.toNat] else []
  | .r64 f | .rw64 f _ | .st64 f => if f.toNat < 0x78 then [f.toNat, f.toNat + 1] else []
  | .range f k false => (List.range k).map (f.toNat + ·)
  | _ => []
def Fld.writes : Fld → List Nat
  | .w32 f true | .rw32 f true | .reg f => if f.toNat < 0x78 then [f.toNat] else []
  | .w64 f true | .rw64 f true => if f.toNat < 0x78 then [f.toNat, f.toNat + 1] else []
  | .range f k true => (List.range k).map (f.toNat + ·)
  | _ => []

/-! ### Hints (R35-R38) -/

/-- The fields of a modifier payload (Table 11). -/
def modRnd (m : BitVec 24) : Nat := bits m.toNat 21 3
def modSat (m : BitVec 24) : Bool := m.getLsbD 20
def modGen (m : BitVec 24) : Bool := m.getLsbD 19
def modGp (m : BitVec 24) : Nat := bits m.toNat 16 3
def modGneg (m : BitVec 24) : Bool := m.getLsbD 15
def modReuse (m : BitVec 24) : Bool := m.getLsbD 14
def modSen (m : BitVec 24) : Bool := m.getLsbD 13
def modSreg (m : BitVec 24) : Nat := bits m.toNat 8 5

/-- Step 1 of R39: the hints of a group against what the instruction accepts (R36, R37). -/
def hintsOk (sg : Sig) (g : Group) : Bool :=
  let raw := sg.flds.flatMap Fld.raw
  decide (g.wides.length ≤ sg.wides) &&
  (match g.modifier with
   | none => !raw.contains 0x7E
   | some m =>
     !sg.bfmt && decide (modRnd m ≤ 4) && (modRnd m == 0 || sg.rnd) && (!modSat m || sg.sat) && (!modGen m || sg.guard) &&
     (modGen m || (modGp m == 0 && !modGneg m)) && (!modReuse m || sg.reuse) && (!modSen m || sg.scalar) &&
     (modSen m || modSreg m == 0) && (raw.contains 0x7E == modSen m) && bits m.toNat 0 8 == 0)

/-- The value that R36 forms from a field of width k and the bound wide immediates, as an integer. -/
def wideValue (g : Group) (k f : Nat) : Int :=
  match g.wides with
  | [] => signed k f
  | [h] => signed (24 + k) (h.toNat * 2 ^ k + f)
  | h1 :: h2 :: _ => signed (48 + k) (h2.toNat * 2 ^ (24 + k) + h1.toNat * 2 ^ k + f)

/-- The checks of R39 on a bound group, in their order: the cause of the first failure. A prologue accepts fewer instructions and only
the guard and scalar modifiers (R245). -/
def checkGroup (sg : Sig) (g : Group) (w : Wave) : Option Nat :=
  if !hintsOk sg g then some Cause.illegal
  else if w.prologue.isSome && (!sg.pro || g.sched.isSome || (match g.modifier with | some m => modRnd m != 0 || modSat m || modReuse m | none => false)) then
    some Cause.illegal
  else if sg.sup && !w.sup then some Cause.priv
  else if !(sg.flds.all (Fld.ok w.nregs)) || !sg.ok then some Cause.illegal
  else none

/-! ### The context of an issue -/

/-- What a meaning runs with: the group, the wave as it issues, the program lanes of Active, the physical lanes of Active (with the
shadows of grade 1, R328), and the address after the group. -/
structure Ctx where
  g : Group
  w : Wave
  act : List Nat
  phys : List Nat
  next : W57

/-- The physical lanes of a list of program lanes: their shadows too under grade 1 (R328). -/
def Wave.physical (w : Wave) (ls : List Nat) : List Nat := if w.grade = 1 then ls ++ ls.map (· + w.width / 2) else ls

/-- Active: the group's lanes narrowed by the guard (R37). -/
def activeLanes (g : Group) (w : Wave) : List Nat :=
  match g.modifier with
  | some m => if modGen m then g.lanes.filter fun i => ((w.lanes[i]?.map fun l => l.preds.getLsbD (modGp m)).getD false) != modGneg m else g.lanes
  | none => g.lanes

def mkCtx (g : Group) (w : Wave) : Ctx :=
  let act := activeLanes g w
  { g := g, w := w, act := act, phys := w.physical act, next := g.at_ + 4 }

/-- The elected lane of R122. -/
def Ctx.elected (c : Ctx) : Nat := c.act.headD 0

def Ctx.lane (c : Ctx) (i : Nat) : Lane :=
  c.w.lanes.getD i { live := false, sleep := none, yielded := false, depth := 0, pc := 0, chip := [], spill := [], preds := 0, regs := [], tid := 0,
                     abtW := 0, abtB := 0, abtT := 0 }

/-- The lane index a physical lane shows (R231). -/
def Ctx.index (c : Ctx) (i : Nat) : Nat := i % c.w.plan

/-- The scalar register named by the modifier hint (Table 9). -/
def Ctx.scalar (c : Ctx) : W64 := match c.g.modifier with | some m => c.w.sregs.getD (modSreg m) 0 | none => 0

/-- A 32-bit operand of a physical lane (Table 9, R33). -/
def Ctx.src32 (c : Ctx) (i : Nat) (f : BitVec 7) : W32 :=
  if f.toNat < 0x78 then (c.lane i).regs.getD f.toNat 0
  else if f.toNat < 0x7C then
    if c.w.latchLive.getD (f.toNat - 0x78) false then (c.w.latches.getD (f.toNat - 0x78) []).getD i 0 else 0
  else if f = 0x7C then 0
  else if f = 0x7D then BitVec.ofNat 32 (c.index i)
  else if f = 0x7E then lo32 c.scalar
  else 0xFFFFFFFF

/-- A 64-bit operand of a physical lane (R28). -/
def Ctx.src64 (c : Ctx) (i : Nat) (f : BitVec 7) : W64 :=
  if f.toNat < 0x78 then pair64 ((c.lane i).regs.getD f.toNat 0) ((c.lane i).regs.getD (f.toNat + 1) 0)
  else if f = 0x7E then c.scalar
  else if f = 0x7F then BitVec.allOnes 64
  else 0

/-- A range of registers of a lane (R123). -/
def Ctx.srcRange (c : Ctx) (i : Nat) (f : BitVec 7) (n : Nat) : List W32 := (List.range n).map fun k => (c.lane i).regs.getD (f.toNat + k) 0

def Ctx.predOf (c : Ctx) (i : Nat) (p : Nat) : Bool := (c.lane i).preds.getLsbD p

/-- The effective rounding mode (R68): 0 nearest even, 1 toward zero, 2 toward +∞, 3 toward −∞. -/
def Ctx.rm (c : Ctx) : Nat :=
  match c.g.modifier with
  | some m => if modRnd m = 0 then bits c.w.fpmode.toNat 0 2 else modRnd m - 1
  | none => bits c.w.fpmode.toNat 0 2
def Ctx.sat (c : Ctx) : Bool := match c.g.modifier with | some m => modSat m | none => false
def Ctx.reuse (c : Ctx) : Bool := match c.g.modifier with | some m => modReuse m | none => false

/-- The amask word of a record (Table 98). -/
def Ctx.amask (c : Ctx) : W64 := maskOf 64 fun i => c.act.contains i

/-! ### Results -/

/-- Change the physical lanes of Active. -/
def State.onLanes (s : State) (c : Ctx) (f : Nat → Lane → Lane) : State :=
  s.updWave c.w.wid fun w => { w with lanes := w.lanes.mapIdx fun i l => if c.phys.contains i then f i l else l }

/-- A written register replaces its word whole, so a poison mark on it clears (R315). -/
def State.cleanRegs (s : State) (c : Ctx) (rs : List Nat) : State :=
  s.forget fun e => match e with | .vreg w i r => w == c.w.wid && c.phys.contains i && rs.contains r | _ => false

/-- Write a latch for the lanes of Active (R33): it is live from here while the hold that covers this issue lasts. -/
def State.setLatch (s : State) (c : Ctx) (k : Nat) (v : Nat → W32) : State :=
  s.updWave c.w.wid fun w => { w with
    latches := w.latches.mapIdx fun j l => if j = k then l.mapIdx fun i x => if c.phys.contains i then v i else x else l
    latchLive := w.latchLive.mapIdx fun j b => if j = k then decide (w.hold > 0) else b }

/-- Write a 32-bit destination for the lanes of Active (Table 9). -/
def State.put32 (s : State) (c : Ctx) (d : BitVec 7) (v : Nat → W32) : State :=
  if d.toNat < 0x78 then (s.cleanRegs c [d.toNat]).onLanes c fun i l => { l with regs := l.regs.set d.toNat (v i) }
  else if d.toNat < 0x7C then s.setLatch c (d.toNat - 0x78) v
  else s

/-- Write a 64-bit destination for the lanes of Active (R28). -/
def State.put64 (s : State) (c : Ctx) (d : BitVec 7) (v : Nat → W64) : State :=
  if d.toNat < 0x78 then
    (s.cleanRegs c [d.toNat, d.toNat + 1]).onLanes c fun i l => { l with regs := (l.regs.set d.toNat (lo32 (v i))).set (d.toNat + 1) (hi32 (v i)) }
  else s

/-- Write a range of registers for the lanes of Active (R123); the marks of those that are written clear (R315). -/
def State.putRange (s : State) (c : Ctx) (d : BitVec 7) (v : Nat → List W32) : State :=
  (s.forget fun e => match e with
    | .vreg w i r => w == c.w.wid && c.phys.contains i && decide (d.toNat ≤ r) && decide (r < d.toNat + (v i).length)
    | _ => false).onLanes c fun i l =>
    { l with regs := ((v i).mapIdx fun k x => (k, x)).foldl (fun r e => r.set (d.toNat + e.1) e.2) l.regs }

/-- A predicate byte with one predicate set. -/
def setPred (ps : BitVec 8) (p : Nat) (v : Bool) : BitVec 8 := if v then ps ||| BitVec.ofNat 8 (2 ^ p) else ps &&& ~~~(BitVec.ofNat 8 (2 ^ p))

/-- Write a predicate for the lanes of Active (R96). -/
def State.putPred (s : State) (c : Ctx) (p : Nat) (v : Nat → Bool) : State := s.onLanes c fun i l => { l with preds := setPred l.preds p (v i) }

/-- Write a scalar register (R98). -/
def State.putScalar (s : State) (c : Ctx) (n : Nat) (v : W64) : State :=
  (s.forget (· == .sreg c.w.wid n)).updWave c.w.wid fun w => { w with sregs := w.sregs.set n v }

/-- Raise flags in `fpflags` (R77). -/
def State.raise (s : State) (wid : Nat) (f : BitVec 8) : State :=
  if f = 0 then s else s.updWave wid fun w => { w with fpflags := w.fpflags ||| f.setWidth 64 }

/-! ### How an issue ends -/

/-- The result of a meaning. -/
inductive Res where
  /-- completed: the lanes of the group move past it as normal (R34, R207) -/
  | done (s : State)
  /-- completed, the meaning having set the PCs and classes itself -/
  | moved (s : State)
  /-- detaches before the group, nothing changed (R288) -/
  | fault (cause : Nat)
  /-- an enabled exception (R78): the flags raised in all, the cause, the flags per lane -/
  | trap (all : BitVec 8) (cause : Nat) (lanes : List (BitVec 8))
  /-- has issued and waits, with nothing changed; it is tried again (R216) -/
  | wait
  /-- has not issued, because something keeps it from issuing; it is tried again (R216) -/
  | stall
  /-- waits at a barrier, its arrival noted (R229, R147, Table 50) -/
  | hold (s : State)
  /-- consumed a poisoned word of core storage, of the code given (R317) -/
  | poisoned (code : Nat)

/-- The lanes of a group move on (R34). -/
def State.advance (s : State) (c : Ctx) : State :=
  let ls := c.w.physical c.g.lanes
  s.updWave c.w.wid fun w => { w with lanes := w.lanes.mapIdx fun i l => if ls.contains i then { l with pc := c.next, yielded := false } else l }

/-- The issue is over: no group is selected, the wave's age is 0, and waves that waited may try again. -/
def State.over (s : State) (wid : Nat) : State :=
  let s := s.updWave wid fun w => { w with age := 0, barred := none, rowWait := none, inWait := none, prologue := w.prologue.map fun p => { p with issued := p.issued + 1 } }
  ({ s with grp := none }).wakeRetry

/-- A wave detaches before its group (R288, R40). -/
def State.faultBefore (s : State) (c : Ctx) (cause : Nat) (flags : List (BitVec 8)) : State :=
  s.detach c.w.wid { cause := cause, done := false, faddr := c.g.first, amask := c.amask, laneFlags := flags, codes := [] }

/-- A wave has issued a group and waits in it: no other group of it is selected meanwhile (R206). What the group holds back is counted once it goes on
(R110). -/
def Wave.hang (w : Wave) (g : Group) : Wave := { w with wait := .retry, age := 0, inWait := some (g.lanes, g.first), slow := w.slow.dropLast }

/-- A group of a wave could not issue. A hold over it has ended all the same, where the group is one that can wait on others: it ends just before
it (R32). -/
def Wave.stall (w : Wave) : Wave := { w with wait := .retry }

/-- What follows from a meaning's result. -/
def settle (s : State) (c : Ctx) : Res → State
  | .done t => (t.advance c).over c.w.wid
  | .moved t => t.over c.w.wid
  | .fault cause => s.faultBefore c cause []
  | .trap all cause lanes => (s.raise c.w.wid all).faultBefore c cause lanes
  | .wait => ({ s with grp := none }).updWave c.w.wid fun w => w.hang c.g
  | .hold t => ({ t with grp := none }).updWave c.w.wid fun w => w.hang c.g
  | .stall => ({ s with grp := none }).updWave c.w.wid fun w => { w.stall with slow := w.slow.dropLast }
  | .poisoned code => (({ s with grp := none } : State).poisonKill c.w.team c.w.core c.w.asid code).wakeRetry

/-! ### Interlocks -/

/-- Whether a register lies in an A operand: the code range or the scale range (R124). -/
def inOperand (areg ameta chunks scales r : Nat) : Bool :=
  (decide (areg ≤ r) && decide (r < areg + 16 * chunks)) || (decide (ameta ≤ r) && decide (r < ameta + scales))

/-- The interlock of R125: an operation of the wave that has not started holds back writes of its registers. -/
def State.interlocked (s : State) (wid : Nat) (writes : List Nat) : Bool :=
  s.mmas.any fun m => m.wid == wid && m.phase == .issued && m.snap.isNone &&
    writes.any (inOperand m.areg m.ameta m.chunks (groupsIn m.resv.fmt m.resv.grp m.chunks))

/-- The registers a held latch protects (R127). -/
def Wave.protects (w : Wave) (writes : List Nat) : Bool :=
  match w.mlatch with | none => false | some l => writes.any (inOperand l.areg l.ameta l.chunks l.scales)

/-! ### Latencies (R110, R111, R141, R201, R239, R303; notes/assumptions/6) -/

/-- The engine of an instruction word (Tables 37, 48, 68, 76): 0 matrix, 1 vector FP, 2 vector integer, 3 copy, 4 bank-op issue, 5 branch/scalar. -/
def engineOf (x : IWord) : Nat :=
  let major := (x.extractLsb' 26 6).toNat
  let fn := (x.extractLsb' 22 4).toNat
  if major ≤ 0x07 then 2
  else if major ≤ 0x09 then 5
  else if major ≤ 0x15 then 1
  else if major = 0x16 then (if fn ≥ 4 then 2 else 1)
  else if major = 0x17 then 2
  else if major = 0x18 then (if fn ≤ 4 then 0 else 5)
  else if major = 0x19 then 1
  else if major ≤ 0x22 then 2
  else if major = 0x23 then 3
  else if major = 0x24 then (if 5 ≤ fn && fn ≤ 7 then 2 else 3)
  else if major = 0x25 then 4
  else if major ≤ 0x27 then 5
  else if major = 0x28 then 3
  else if major ≤ 0x32 then 5
  else if major = 0x33 then (if fn = 7 then 5 else 2)
  else if major = 0x34 then 5
  else if major = 0x35 then 3
  else if major = 0x38 then 5
  else if major = 0x3C then (if fn = 2 then 2 else 5)
  else if major = 0x39 || major = 0x3A || major = 0x3D then 3
  else 5

/-- The latency of an instruction word in a wave of a width, the least where another agent has a part in it (Tables 37, 48, 68, 76; R303). -/
def latencyOf (x : IWord) (width : Nat) : Nat :=
  let major := (x.extractLsb' 26 6).toNat
  let fn := (x.extractLsb' 22 4).toNat
  let log := if width = 16 then 4 else if width = 32 then 5 else 6
  if major = 0x02 then (if fn ≤ 2 then 4 else 20)
  else if major = 0x05 then (if fn = 2 then 6 else 2)
  else if major ≤ 0x07 then 2
  else if major ≤ 0x09 then (if major = 0x08 && fn = 2 then 3 else 1)
  else if major = 0x10 then (if fn = 4 || fn = 7 then 14 else if fn = 8 || fn = 9 then 10 else if fn = 10 || fn = 11 then 12 else if fn ≥ 12 then 16 else 4)
  else if major = 0x11 then (if fn = 4 || fn = 7 then 28 else 6)
  else if major = 0x12 then (if fn = 4 then 14 else 4)
  else if major = 0x13 then (if fn = 0 then 14 else if fn ≤ 2 then 10 else 12)
  else if major = 0x14 then (if fn ≤ 2 then 4 else 6)
  else if major = 0x15 then 4
  else if major = 0x16 then (if fn = 1 then 8 + 6 * log else if fn ≤ 3 then 6 + 4 * log else 4 + 2 * log)
  else if major = 0x17 then 8
  else if major = 0x18 then (if fn = 1 || fn = 4 then 8 else if fn = 2 then 4 else if fn = 0 || fn = 3 then 2 else 6)
  else if major = 0x19 then (if fn ≤ 1 then 24 else 12)
  else if major = 0x20 then 6
  else if major = 0x21 then 2
  else if major = 0x23 then (if fn = 5 then 2 else 4)
  else if major = 0x24 then (if 5 ≤ fn && fn ≤ 7 then 2 else if fn = 9 || x.getLsbD 21 then 4 else 160)
  else if major ≤ 0x25 then (if major = 0x25 && fn = 5 then 2 else 4)
  else if major ≤ 0x27 then (if major = 0x26 && fn = 9 then 4 else 8)
  else if major = 0x28 then 4
  else if major = 0x32 then (if fn = 0 || fn = 2 || fn = 5 then 4 else 2)
  else if major = 0x33 then (if fn ≤ 2 || fn = 7 then 4 else 6)
  else if major = 0x34 then (if fn = 0 then 8 else if fn = 1 then 12 else 2)
  else if major = 0x39 then (if fn = 1 || fn = 2 then 160 else 12)
  else if major = 0x3A then (if fn = 0 then 12 else 2)
  else if major = 0x3C then (if fn = 2 then 12 else if fn = 0 then 4 else 2)
  else if major = 0x35 then 160
  else if major = 0x3D then (if fn = 4 then 320 else 160)
  else 2

/-- Clocks for which an instruction word occupies its engine in a wave of a width (R110: the rates of Tables 37 and 48; one where the table
says one issue or gives none). -/
def occupancyOf (x : IWord) (width : Nat) : Nat :=
  let major := (x.extractLsb' 26 6).toNat
  let fn := (x.extractLsb' 22 4).toNat
  let rate : Nat :=
    if major = 0x02 then (if fn ≤ 2 then 128 else 32)
    else if major = 0x05 then (if fn = 2 then 64 else 128)
    else if major = 0x10 then (if fn ≤ 3 || fn = 5 || fn = 6 then 128 else 32)
    else if major = 0x11 then (if fn = 4 || fn = 7 then 16 else 64)
    else if major = 0x12 then (if fn = 4 then 32 else 128)
    else if major = 0x13 then 32
    else if major = 0x14 then (if fn ≤ 2 then 128 else 64)
    else if major = 0x16 then (if fn = 1 then 32 else 64)
    else if major = 0x17 then 64
    else if major = 0x18 then 64
    else if major = 0x19 then (if fn ≤ 1 then 16 else 32)
    else if major = 0x3C && fn = 2 then 16
    else 128
  (width + rate - 1) / rate

/-- The scalar registers that a copy reads from the one its modifier names (R178), and an instruction of another kind. -/
def Group.scalarBlock (g : Group) : Nat := if (g.word.extractLsb' 26 6).toNat = 0x23 && (g.word.extractLsb' 22 4).toNat ≤ 2 then 5 else 1

/-- Scalar registers among the numbers of `Slow.regs`. -/
def Sig.scalarReads (sg : Sig) (g : Group) : List Nat :=
  (match g.modifier with | some m => if modSen m then ((List.range g.scalarBlock).map (modSreg m + ·)).filterMap fun n => if n < 32 then some (128 + n) else none else []
                         | none => []) ++
    sg.flds.filterMap fun f => match f with | .sreg n => some (128 + n.toNat) | _ => none

/-- The predicates that a group's instruction reads, by their numbers in `Slow.regs`: its guard, the guard of a branch, the predicate of a vote. -/
def Group.predReads (g : Group) : List Nat :=
  let major := (g.word.extractLsb' 26 6).toNat
  let fn := (g.word.extractLsb' 22 4).toNat
  (match g.modifier with | some m => if modGen m then [160 + modGp m] else [] | none => []) ++
    (if major = 0x30 then [160 + (g.word.extractLsb' 21 3).toNat] else if major = 0x33 && fn ≤ 2 then [160 + (g.word.extractLsb' 7 3).toNat] else [])

/-- The predicates and scalar registers that it writes: those of compares and votes, of majors 0x08 and 0x09, of `sget`. -/
def Group.wordWrites (g : Group) : List Nat :=
  let major := (g.word.extractLsb' 26 6).toNat
  let fn := (g.word.extractLsb' 22 4).toNat
  if major = 0x07 || major = 0x14 then (if g.word.getLsbD 21 then [] else [160 + (g.word.extractLsb' 14 3).toNat])
  else if major = 0x33 && fn ≤ 1 then [160 + (g.word.extractLsb' 14 3).toNat]
  else if major = 0x33 && fn = 7 then [128 + (g.word.extractLsb' 14 5).toNat]
  else if major = 0x08 || major = 0x09 then [128 + (g.word.extractLsb' 16 5).toNat]
  else []

/-- The registers, predicates and scalars an instruction writes, and all that it uses. -/
def Sig.results (sg : Sig) (g : Group) : List Nat :=
  sg.flds.flatMap Fld.writes ++ (sg.flds.filterMap fun f => match f with | .wsreg n => some (128 + n.toNat) | _ => none) ++ g.wordWrites
def Sig.uses (sg : Sig) (g : Group) : List Nat := sg.flds.flatMap Fld.reads ++ sg.results g ++ sg.scalarReads g ++ g.predReads

/-- The lane registers whose values a lane's thread carries into a rack (R211): those that the control word of `spawn` names (R233), and the first of a
`regroup` (R234). -/
def Ctx.carries (c : Ctx) (i : Nat) : List Nat :=
  let x := (c.src32 i (c.g.word.extractLsb' 0 7)).toNat
  if (c.g.word.extractLsb' 26 6).toNat ≠ 0x34 then []
  else match (c.g.word.extractLsb' 22 4).toNat with
    | 0 => (List.range (bits x 0 7)).map (bits x 8 7 + ·)
    | 1 => List.range (bits x 0 7)
    | _ => []

/-- All that a wave's group uses: what its fields name, and the registers its lanes carry. -/
def Wave.uses (w : Wave) (sg : Sig) (g : Group) : List Nat := sg.uses g ++ (activeLanes g w).flatMap (mkCtx g w).carries

/-- The clock at which a group's instruction would issue if nothing held it back: a clock for each hint (R34). -/
def Wave.soonest (w : Wave) (g : Group) : Nat := w.now + 1 + g.wides.length + g.modifier.toList.length + g.sched.toList.length

/-- What the latency table adds for the operands of a group (Tables 68, 76; R209, R287): a sector of the pannier for a commit or abort of the
wave, the partner's window for a load, a spill transfer for a call or return (4 clocks to the group, however many lanes transfer, R359), a page for
`scrub`. -/
def Wave.extra (w : Wave) (g : Group) : Nat :=
  let c := mkCtx g w
  let major := (g.word.extractLsb' 26 6).toNat
  let fn := (g.word.extractLsb' 22 4).toNat
  let taken (i : Nat) : Bool := major ≠ 0x30 || (c.predOf i (g.word.extractLsb' 21 3).toNat != g.word.getLsbD 20)
  let deep (d : Nat) : Nat := if c.act.any fun i => taken i && decide (d ≤ (c.lane i).depth) then 1 else 0
  if major = 0x26 && (fn = 0 || fn = 3 || fn = 6) then w.sectors
  else if major = 0x20 then
    let size := if fn ≤ 1 then 1 else if fn ≤ 3 then 2 else if fn = 4 then 4 else 8
    let off := wideValue g 7 (g.word.extractLsb' 0 7).toNat * (size : Int)
    if c.act.any fun i => decide (0x200000 ≤ (((c.src32 i (g.word.extractLsb' 7 7)).toNat : Int) + off) % 2 ^ 32) then 22 else 0
  else if (major = 0x30 || major = 0x31) && 8 ≤ fn && fn < 12 then 4 * deep 4
  else if major = 0x32 && fn = 0 then 4 * deep 4
  else if major = 0x32 && fn = 1 then 4 * deep 5
  else if major = 0x3D && fn = 0 then 64 * bits (c.src32 c.elected (g.word.extractLsb' 0 7)).toNat 0 13
  else 0

/-- What the rate table adds to the occupancy of the engine: `mzero` clears 16 rows a clock (Table 48). -/
def Wave.extraBusy (w : Wave) (g : Group) : Nat :=
  if (g.word.extractLsb' 26 6).toNat = 0x18 && (g.word.extractLsb' 22 4).toNat = 3 then
    let c := mkCtx g w
    (bits (c.src32 c.elected (g.word.extractLsb' 7 7)).toNat 16 13 + 15) / 16 - 1
  else 0

/-- The program lanes whose next group waits for a group's latency: those of a control instruction, and those that stay at a `regroup` (Table 76). -/
def Group.steered (g : Group) : List Nat :=
  let major := (g.word.extractLsb' 26 6).toNat
  if (0x30 ≤ major && major ≤ 0x32) || (major = 0x34 && (g.word.extractLsb' 22 4).toNat = 1) then g.lanes else []

/-- The clock before which an earlier instruction keeps a group from issuing (R110, R111, Table 76). A register waits whichever lanes wrote it and
whichever read it: R111 does not say whether the interlock tells lanes apart (the model's choice, notes/assumptions/44). -/
def Slow.until (e : Slow) (w : Wave) (sg : Sig) (g : Group) : Nat :=
  max (if e.regs.any (w.uses sg g).contains || e.lanes.any g.lanes.contains then e.ready else 0) (if e.engine = engineOf g.word then e.busy else 0)

/-- The fourth case of R32: the instruction would wait on a result of the third case. -/
def Wave.late (w : Wave) (sg : Sig) (g : Group) : Bool :=
  w.slow.any fun e => e.third && decide (w.soonest g < e.ready) && e.regs.any (w.uses sg g).contains

/-- The wave's clock, and what the instruction holds back in turn. -/
def Wave.timed (w : Wave) (sg : Sig) (g : Group) : Wave :=
  let t := w.slow.foldl (fun t e => max t (e.until w sg g)) (w.soonest g)
  { w with
    now := t
    slow := (w.slow.filter fun e => decide (t < e.ready) || decide (t < e.busy)) ++
      [{ regs := sg.results g, lanes := g.steered, ready := t + latencyOf g.word w.width + w.extra g, third := sg.ends, engine := engineOf g.word,
         busy := t + occupancyOf g.word w.width + w.extraBusy g }] }

/-- The result of the instruction that a wave has just issued comes later than its word says, and its engine is free later. -/
def Wave.delayLast (w : Wave) (ready busy : Nat) : Wave :=
  { w with slow := w.slow.mapIdx fun i e => if i + 1 = w.slow.length then { e with ready := e.ready + ready, busy := e.busy + busy } else e }

/-- An instruction that a wave has just issued reads registers that no field of its word names: it has issued no earlier than their producers allow (R111). -/
def Wave.awaits (w : Wave) (rs : List Nat) : Wave :=
  let t := w.slow.dropLast.foldl (fun t e => if e.regs.any rs.contains then max t e.ready else t) w.now
  { (w.delayLast (t - w.now) (t - w.now)) with now := t }

/-- The hold over a wave ends, and with it what its latches hold (R32, R33). -/
def Wave.endHold (w : Wave) : Wave := { w with hold := 0, latchLive := [false, false, false, false] }

/-- Holds at an issue (R31-R33, R38): an instruction that ends a hold issues outside it; a scheduling hint opens one; latches stay live only
while a hold covers the issue. -/
def Wave.coverHold (w : Wave) (ends : Bool) (sched : Option Nat) : Wave :=
  let n := match sched with | some n => n | none => 0
  if ends then w.endHold
  else if n ≥ 2 then { w with hold := n, latchLive := if w.hold > 0 then w.latchLive else [false, false, false, false] }
  else if w.hold > 0 then w
  else { w with latchLive := [false, false, false, false] }

/-- Whether the fourth case of R32 ends a hold at a group: an interlock on a result of the third case would make it wait, or did when the
group was judged before it began to wait. -/
def Wave.fourth (w : Wave) (sg : Sig) (g : Group) : Bool := w.late sg g || w.barred == some g.first

/-- A wave as it issues a group: its hold ended, opened or going on, its clock at the issue. -/
def Wave.cover (w : Wave) (sg : Sig) (g : Group) : Wave :=
  (({ w with barred := if w.fourth sg g then some g.first else none } : Wave).coverHold (sg.ends || w.fourth sg g) g.sched).timed sg g

/-- The count of a hold after the issue it covers. -/
def State.countHold (s : State) (wid : Nat) : State := s.updWave wid fun w => { w with hold := w.hold - 1 }

/-- The wave registers that a group's instruction reads (`StoreLoc.waveReg`): `fpmode` in floating point and `mma`, the window and the held latch in the
matrix instructions, what `srd` names, the address of an abort. -/
def Group.waveWords (g : Group) : List Nat :=
  let major := (g.word.extractLsb' 26 6).toNat
  let fn := (g.word.extractLsb' 22 4).toNat
  let sel := (g.word.extractLsb' 0 14).toNat
  if major = 0x38 then (if fn ≠ 1 then [] else if sel = 0x10 then [0] else if sel = 0x20 then [2] else if sel = 0x22 then [3] else [])
  else if major = 0x18 then (if fn = 0 then [0, 2, 3] else if fn ≤ 4 then [2] else [])
  else if major = 0x26 then (if 6 ≤ fn && fn ≤ 8 then [fn - 2] else [])
  else if engineOf g.word = 1 then [0]
  else []

/-- The word of a lane's state that holds return entry e on chip. -/
def chipWord (e k : Nat) : Bool := k / 2 == 1 + (e - 1) % 4

/-- How a group's instruction moves the return stacks (R208, R209): a call, taken or not by a lane, and `ret`. -/
def Ctx.calls (c : Ctx) (i : Nat) : Bool :=
  let major := (c.g.word.extractLsb' 26 6).toNat
  let fn := (c.g.word.extractLsb' 22 4).toNat
  (major == 0x32 && fn == 0) || (major == 0x31 && decide (8 ≤ fn) && decide (fn < 12)) ||
    (major == 0x30 && decide (8 ≤ fn) && decide (fn < 12) && (c.predOf i (c.g.word.extractLsb' 21 3).toNat != c.g.word.getLsbD 20))
def Ctx.returns (c : Ctx) : Bool := (c.g.word.extractLsb' 26 6).toNat == 0x32 && (c.g.word.extractLsb' 22 4).toNat == 1

/-- Whether a lane's move of its return stack reads a word: of its chip entries, or (`spilled`) an entry of its spill area; and whether it replaces
it. A call at depth 4 or more moves entry depth - 3 to the spill area and puts its own in that place; a `ret` reads the top, and at depth 5 or more
reads entry depth - 4 back into that place. -/
def Ctx.stackReads (c : Ctx) (i : Nat) (spilled : Bool) (k : Nat) : Bool :=
  let d := (c.lane i).depth
  if c.returns then (if spilled then decide (d ≥ 5) && k == d - 4 else decide (d ≥ 1) && chipWord d k)
  else c.calls i && !spilled && decide (d ≥ 4) && chipWord (d - 3) k
def Ctx.stackWrites (c : Ctx) (i : Nat) (spilled : Bool) (k : Nat) : Bool :=
  let d := (c.lane i).depth
  if c.returns then !spilled && decide (d ≥ 5) && chipWord d k
  else c.calls i && (if spilled then decide (d ≥ 4) && k == d - 3 else chipWord (d + 1) k)

/-- A poisoned word that an issue reads: the code of its storage (Table 106). The selection of a group reads the key words of every live lane. -/
def State.poisonRead (s : State) (c : Ctx) (sg : Sig) : Option Nat :=
  if s.errors.isEmpty then none
  else
    let reads := sg.flds.flatMap Fld.reads
    let sreads := (sg.scalarReads c.g).map (· - 128)
    let ls := c.w.physical c.g.lanes
    let preds := !c.g.predReads.isEmpty || (c.g.wordWrites.any fun r => decide (160 ≤ r)) || (c.g.waveWords.any fun k => decide (4 ≤ k))
    s.errors.findSome? fun e => match e with
      | .vreg w i r => if w = c.w.wid && c.phys.contains i && (reads.contains r || (c.carries (c.index i)).contains r) then some 0 else none
      | .laneState w i k =>
        if w = c.w.wid && ((decide (k < 2) && (c.lane i).live) || (k == 10 && preds && ls.contains i) || (c.phys.contains i && c.stackReads i false k)) then some 0
        else none
      | .spill w i k => if w = c.w.wid && c.phys.contains i && c.stackReads i true k then some 1 else none
      | .sreg w r => if w = c.w.wid && sreads.contains r then some 5 else none
      | .waveReg w k => if w = c.w.wid && c.g.waveWords.contains k then some 5 else none
      | _ => none

/-- Marks of the return-stack words that a call or `ret` replaces go (R315). -/
def State.cleanStacks (s : State) (c : Ctx) : State :=
  s.forget fun e => match e with
    | .laneState w i k => w == c.w.wid && c.phys.contains i && c.stackWrites i false k
    | .spill w i k => w == c.w.wid && c.phys.contains i && c.stackWrites i true k
    | _ => false

/-- Whether a program lane and its shadow hold different values for what R328 compares. -/
def shadowsDiffer (c : Ctx) (cmp : Ctx → Nat → List W64) : Bool :=
  c.w.grade == 1 && c.act.any fun i => cmp c i != cmp c (i + c.w.width / 2)

/-- Operations that the matrix engine of a core holds (R125). -/
def State.engineUse (s : State) (core : Nat) : Nat :=
  (s.mmas.filter fun m => m.core == core && (match m.phase with | .issued => true | .started _ => true | _ => false)).length

/-- The matrix engine holds 16 operations, so that it accepts no group of a wave (R216); one that has issued and waits for rows goes on. -/
def State.matrixFull (s : State) (sg : Sig) (w : Wave) : Bool := sg.matrix && w.inWait.isNone && decide (s.engineUse w.core ≥ Config.mmaDepth)

/-- Issue a bound group whose checks have passed. -/
def issueChecked (sg : Sig) (cmp : Ctx → Nat → List W64) (g : Group) (w : Wave) (s : State) (k : Ctx → State → Res) : State :=
  if s.matrixFull sg w then ({ s with grp := none } : State).updWave w.wid fun x => if sg.ends then x.endHold.stall else x.stall
  else
  let locked := s.interlocked w.wid (sg.flds.flatMap Fld.writes) && !(activeLanes g w).isEmpty
  let w := if locked then { w.coverHold true g.sched with barred := some g.first } else w.cover sg g
  let s := s.updWave w.wid fun _ => w
  let c := mkCtx g w
  match s.poisonRead c sg with
  | some code => settle s c (.poisoned code)
  | none =>
    if c.act.isEmpty then (settle s c (.done s)).countHold w.wid
    else if w.protects (sg.flds.flatMap Fld.writes) then settle s c (.fault Cause.illegal)
    else if locked then ({ s with grp := none } : State).updWave w.wid Wave.stall
    else if shadowsDiffer c cmp then settle s c (.fault Cause.lane)
    else (settle s c (k c s)).countHold w.wid

/-- ISSUE a bound group: every instruction's meaning runs inside this. With no group selected, or no such wave, nothing issues. -/
def issueWith (sg : Sig) (cmp : Ctx → Nat → List W64) (s : State) (k : Ctx → State → Res) : Host.Outcome State Fault Refusal :=
  match s.grp with
  | none => .fault .noIssuingGroup
  | some g =>
    match s.wave? g.wid with
    | none => .fault .noIssuingGroup
    | some w =>
      match checkGroup sg g w with
      | some cause => .next (s.faultBefore (mkCtx g w) cause [])
      | none => .next (issueChecked sg cmp g w s k)

/-- Issue an instruction for which R328 compares nothing. -/
def issue (sg : Sig) (s : State) (k : Ctx → State → Res) : Host.Outcome State Fault Refusal := issueWith sg (fun _ _ => []) s k

end Sys2Proof.Machine
end

