-- ==== Sys2Proof/Machine/Float.lean ====
section
/-! DEFINITION. Floating point (spec/04_numbers.md R62-R74): formats, exact dyadic values, the one rounding of R68 and R69, special
operands (Table 22), conversions (R72). Every operation answers a bit pattern and the flags it raises (Table 24). -/

namespace Sys2Proof.Machine

/-- A format of Table 19: exponent and fraction widths. -/
structure Fmt where
  eb : Nat
  fb : Nat
  deriving DecidableEq, Repr

def Fmt.f64 : Fmt := { eb := 11, fb := 52 }
def Fmt.f32 : Fmt := { eb := 8, fb := 23 }
def Fmt.f16 : Fmt := { eb := 5, fb := 10 }
def Fmt.bf16 : Fmt := { eb := 8, fb := 7 }

/-- The exponent of the least normal number and of the least subnormal (Table 19). -/
def Fmt.emin (f : Fmt) : Int := 2 - (2 ^ (f.eb - 1) : Nat)
def Fmt.qmin (f : Fmt) : Int := f.emin - f.fb
def Fmt.infBits (f : Fmt) : Nat := (2 ^ f.eb - 1) * 2 ^ f.fb
def Fmt.nanBits (f : Fmt) : Nat := f.infBits + 2 ^ (f.fb - 1)
def Fmt.signBit (f : Fmt) : Nat := 2 ^ (f.eb + f.fb)

/-- What an operand is. A finite nonzero value is m × 2^e. -/
inductive FVal where
  | nan (signalling : Bool)
  | inf (neg : Bool)
  | zero (neg : Bool)
  | fin (neg : Bool) (m : Nat) (e : Int)
  deriving DecidableEq, Repr

/-- Flags of Table 24. -/
def flNv : BitVec 8 := 1
def flDz : BitVec 8 := 2
def flOf : BitVec 8 := 4
def flUf : BitVec 8 := 8
def flNx : BitVec 8 := 16
def flIdz : BitVec 8 := 32
def flQnf : BitVec 8 := 64
def flSat : BitVec 8 := 128

/-- A result: bits and flags. -/
abbrev FRes := Nat × BitVec 8

/-- The rounding environment: effective mode (R68), flush bit of the format (R74), saturating overflow (R103). -/
structure FEnv where
  rm : Nat
  fz : Bool
  sat : Bool := false
  deriving DecidableEq, Repr

/-- Read a pattern, through the flush bit (R74). -/
def Fmt.read (f : Fmt) (fz : Bool) (x : Nat) : FVal :=
  let neg := bits x (f.eb + f.fb) 1 = 1
  let ex := bits x f.fb f.eb
  let fr := bits x 0 f.fb
  if ex = 2 ^ f.eb - 1 then (if fr = 0 then .inf neg else .nan (bits fr (f.fb - 1) 1 = 0))
  else if ex = 0 then (if fr = 0 || fz then .zero neg else .fin neg fr f.qmin)
  else .fin neg (2 ^ f.fb + fr) (f.qmin + (ex - 1 : Nat))

def Fmt.sgn (f : Fmt) (neg : Bool) (x : Nat) : Nat := if neg then f.signBit + x else x
def Fmt.zero (f : Fmt) (neg : Bool) : Nat := f.sgn neg 0
def Fmt.inf (f : Fmt) (neg : Bool) : Nat := f.sgn neg f.infBits
/-- A NaN result is canonical (R70). -/
def Fmt.nan (f : Fmt) (invalid : Bool) : FRes := (f.nanBits, if invalid then flNv else 0)

/-- m × 2^e as a count of quanta 2^q, rounded in a mode for a sign: the count, and whether it is exact. -/
def roundAt (rm : Nat) (neg : Bool) (m : Nat) (e q : Int) : Nat × Bool :=
  if q ≤ e then (m * 2 ^ (e - q).toNat, true)
  else
    let k := (q - e).toNat
    let n := m / 2 ^ k
    let r := m % 2 ^ k
    if r = 0 then (n, true)
    else
      let up := if rm = 0 then decide (2 * r > 2 ^ k) || (decide (2 * r = 2 ^ k) && n % 2 == 1)
        else if rm = 1 then false else if rm = 2 then !neg else neg
      (if up then n + 1 else n, false)

/-- The value an overflow writes (Table 21), or the largest finite one with sat (R103). -/
def Fmt.overflow (f : Fmt) (env : FEnv) (neg : Bool) : Nat :=
  let big := if env.sat then false else if env.rm = 0 then true else if env.rm = 1 then false else if env.rm = 2 then !neg else neg
  f.sgn neg (if big then f.infBits else f.infBits - 1)

/-- The one rounding (R68, R69, R73, R74) of m × 2^e, m > 0. -/
def Fmt.round (f : Fmt) (env : FEnv) (neg : Bool) (m : Nat) (e : Int) : FRes :=
  let top : Int := (Nat.log2 m : Int) + e
  let qu : Int := top - f.fb
  let u := roundAt env.rm neg m e qu
  let tiny := decide (u.1 = 0) || decide ((Nat.log2 u.1 : Int) + qu < f.emin)
  let q := max qu f.qmin
  let n := roundAt env.rm neg m e q
  let b := ((q - f.qmin).toNat) * 2 ^ f.fb + n.1
  if tiny && env.fz then (f.zero neg, flUf ||| flNx)
  else if b ≥ f.infBits then (f.overflow env neg, flOf ||| flNx)
  else (f.sgn neg b, (if n.2 then 0 else flNx) ||| (if tiny && !n.2 then flUf else 0))

/-- A signed exact dyadic as an integer of quanta 2^q. -/
def FVal.units (q : Int) : FVal → Int
  | .fin neg m e => (if neg then -1 else 1) * ((m * 2 ^ (e - q).toNat : Nat) : Int)
  | _ => 0
def FVal.exp : FVal → Int | .fin _ _ e => e | _ => 0
def FVal.isNan : FVal → Bool | .nan _ => true | _ => false
def FVal.isSnan : FVal → Bool | .nan s => s | _ => false
def FVal.isInf : FVal → Bool | .inf _ => true | _ => false
def FVal.isZero : FVal → Bool | .zero _ => true | _ => false
def FVal.neg? : FVal → Bool | .inf n => n | .zero n => n | .fin n _ _ => n | .nan _ => false
def FVal.flip : FVal → FVal | .inf n => .inf !n | .zero n => .zero !n | .fin n m e => .fin (!n) m e | x => x

/-- Round an exact signed sum of quanta 2^q (R71 for an exact zero). -/
def Fmt.roundInt (f : Fmt) (env : FEnv) (x : Int) (q : Int) : FRes :=
  if x = 0 then (f.zero (env.rm == 3), 0) else f.round env (decide (x < 0)) x.natAbs q

/-- The sum of two values (R71, Table 22). -/
def Fmt.addV (f : Fmt) (env : FEnv) (a b : FVal) : FRes :=
  if a.isNan || b.isNan then f.nan (a.isSnan || b.isSnan)
  else match a, b with
    | .inf x, .inf y => if x = y then (f.inf x, 0) else f.nan true
    | .inf x, _ => (f.inf x, 0)
    | _, .inf y => (f.inf y, 0)
    | .zero x, .zero y => (f.zero (if x = y then x else env.rm == 3), 0)
    | _, _ =>
      let q := if a.isZero then b.exp else if b.isZero then a.exp else min a.exp b.exp
      f.roundInt env (a.units q + b.units q) q

/-- The exact product of two values, neither a NaN nor 0 × ∞. -/
def mulExact (a b : FVal) : FVal :=
  let s := a.neg? != b.neg?
  match a, b with
  | .fin _ m e, .fin _ n k => .fin s (m * n) (e + k)
  | _, _ => if a.isInf || b.isInf then .inf s else .zero s

def zeroTimesInf (a b : FVal) : Bool := (a.isZero && b.isInf) || (a.isInf && b.isZero)

def Fmt.mulV (f : Fmt) (env : FEnv) (a b : FVal) : FRes :=
  if a.isNan || b.isNan then f.nan (a.isSnan || b.isSnan)
  else if zeroTimesInf a b then f.nan true
  else match mulExact a b with
    | .inf s => (f.inf s, 0)
    | .zero s => (f.zero s, 0)
    | .fin s m e => f.round env s m e
    | .nan s => f.nan s

/-- a × b + c with one rounding (R101, Table 22). -/
def Fmt.fmaV (f : Fmt) (env : FEnv) (a b c : FVal) : FRes :=
  if zeroTimesInf a b then f.nan true
  else if a.isNan || b.isNan || c.isNan then f.nan (a.isSnan || b.isSnan || c.isSnan)
  else f.addV env (mulExact a b) c

/-- The quotient m / n × 2^e as a dyadic with a sticky bit, with at least k significant bits. -/
def quotient (k m n : Nat) (e : Int) : Nat × Int :=
  let sh := k + Nat.log2 n + 1 - Nat.log2 m
  let q := m * 2 ^ sh / n
  (2 * q + (if m * 2 ^ sh % n = 0 then 0 else 1), e - sh - 1)

def Fmt.divV (f : Fmt) (env : FEnv) (a b : FVal) : FRes :=
  if a.isNan || b.isNan then f.nan (a.isSnan || b.isSnan)
  else
    let s := a.neg? != b.neg?
    match a, b with
    | .inf _, .inf _ => f.nan true
    | .zero _, .zero _ => f.nan true
    | .inf _, _ => (f.inf s, 0)
    | _, .inf _ => (f.zero s, 0)
    | _, .zero _ => (f.inf s, flDz)
    | .zero _, _ => (f.zero s, 0)
    | .fin _ m e, .fin _ n k => let r := quotient (f.fb + 4) m n (e - k); f.round env s r.1 r.2
    | _, _ => f.nan false

/-- The integer square root, bit by bit from bit `k`. -/
def isqrtFrom : Nat → Nat → Nat → Nat
  | 0, n, r => if (r + 1) * (r + 1) ≤ n then r + 1 else r
  | k + 1, n, r => isqrtFrom k n (if (r + 2 ^ (k + 1)) * (r + 2 ^ (k + 1)) ≤ n then r + 2 ^ (k + 1) else r)
def isqrt (n : Nat) : Nat := isqrtFrom (Nat.log2 n / 2 + 1) n 0

/-- √(m × 2^e) as a dyadic with a sticky bit, with at least k significant bits. -/
def rootOf (k m : Nat) (e : Int) : Nat × Int :=
  let sh0 := 2 * k + 2
  let sh := if (e - (sh0 : Int)) % 2 = 0 then sh0 else sh0 + 1
  let n := m * 2 ^ sh
  let r := isqrt n
  (2 * r + (if r * r = n then 0 else 1), (e - (sh : Int)) / 2 - 1)

def Fmt.sqrtV (f : Fmt) (env : FEnv) : FVal → FRes
  | .nan s => f.nan s
  | .inf neg => if neg then f.nan true else (f.inf false, 0)
  | .zero neg => (f.zero neg, 0)
  | .fin neg m e => if neg then f.nan true else let r := rootOf (f.fb + 4) m e; f.round env false r.1 r.2

def Fmt.rcpV (f : Fmt) (env : FEnv) (a : FVal) : FRes := f.divV env (.fin false 1 0) a

/-- 1 / √(m × 2^e) as a dyadic with a sticky bit. -/
def invRoot (k m : Nat) (e : Int) : Nat × Int :=
  let m2 := if e % 2 = 0 then m else 2 * m
  let h := if e % 2 = 0 then e / 2 else (e - 1) / 2
  let sh := k + Nat.log2 m2 / 2 + 2
  let r := isqrt (2 ^ (2 * sh) / m2)
  (2 * r + (if r * r * m2 = 2 ^ (2 * sh) then 0 else 1), -h - sh - 1)

def Fmt.rsqV (f : Fmt) (env : FEnv) : FVal → FRes
  | .nan s => f.nan s
  | .inf neg => if neg then f.nan true else (f.zero false, 0)
  | .zero neg => (f.inf neg, flDz)
  | .fin neg m e => if neg then f.nan true else let r := invRoot (f.fb + 4) m e; f.round env false r.1 r.2

/-- Order of two values that are no NaN: −0 and +0 equal. -/
def FVal.lt (a b : FVal) : Bool :=
  match a, b with
  | .inf x, .inf y => x && !y
  | .inf x, _ => x
  | _, .inf y => !y
  | _, _ =>
    let q := if a.isZero then b.exp else if b.isZero then a.exp else min a.exp b.exp
    decide (a.units q < b.units q)
def FVal.eq (a b : FVal) : Bool := !a.lt b && !b.lt a

/-- A pattern as an operand reads it: a flushed subnormal is a zero of its sign (R74). -/
def Fmt.flushed (f : Fmt) (fz : Bool) (x : Nat) : Nat := match f.read fz x with | .zero neg => f.zero neg | _ => x

/-- `min` and `max` (Table 22): the operand itself, no rounding. -/
def Fmt.minMax (f : Fmt) (fz max : Bool) (x y : Nat) : FRes :=
  let a := f.read fz x
  let b := f.read fz y
  if a.isSnan || b.isSnan then f.nan true
  else if a.isNan && b.isNan then f.nan false
  else if a.isNan then (f.flushed fz y, 0)
  else if b.isNan then (f.flushed fz x, 0)
  else
    let less := a.lt b || (a.isZero && b.isZero && a.neg? && !b.neg?)
    (f.flushed fz (if less != max then x else y), 0)

/-- Comparisons (R97): 0 eq, 1 lt, 2 le. -/
def Fmt.compare (f : Fmt) (fz : Bool) (fn x y : Nat) : Bool × BitVec 8 :=
  let a := f.read fz x
  let b := f.read fz y
  if a.isNan || b.isNan then (false, if a.isSnan || b.isSnan || fn ≠ 0 then flNv else 0)
  else (if fn = 0 then a.eq b else if fn = 1 then a.lt b else !b.lt a, 0)

/-! ### Conversions (R72, R104, R105) -/

/-- To another format. -/
def cvtFloat (src dst : Fmt) (fzIn : Bool) (env : FEnv) (x : Nat) : FRes :=
  match src.read fzIn x with
  | .nan s => dst.nan s
  | .inf n => (dst.inf n, 0)
  | .zero n => (dst.zero n, 0)
  | .fin n m e => dst.round env n m e

/-- To an integer of k bits: rounded, then saturated (R72). -/
def cvtToInt (src : Fmt) (fz : Bool) (rm k : Nat) (sgn : Bool) (x : Nat) : FRes :=
  let lo : Int := if sgn then -(2 ^ (k - 1) : Nat) else 0
  let hi : Int := if sgn then (2 ^ (k - 1) : Nat) - 1 else (2 ^ k : Nat) - 1
  match src.read fz x with
  | .nan _ => (0, flNv)
  | .inf n => (unsignedOf k (if n then lo else hi), flNv)
  | .zero _ => (0, 0)
  | .fin n m e =>
    let r := roundAt rm n m e 0
    let v : Int := if n then -(r.1 : Int) else r.1
    if v < lo then (unsignedOf k lo, flNv) else if v > hi then (unsignedOf k hi, flNv) else (unsignedOf k v, if r.2 then 0 else flNx)

/-- From an integer. -/
def cvtFromInt (dst : Fmt) (env : FEnv) (x : Int) : FRes := if x = 0 then (0, 0) else dst.round env (decide (x < 0)) x.natAbs 0

end Sys2Proof.Machine
end

