-- ==== Sys2Proof/Machine/Flags.lean ====
section
/-! DEFINITION. Flags and traps (R76-R78): the union over the lanes of Active, the enabled exceptions, and how an arithmetic instruction
ends with its results. -/

namespace Sys2Proof.Machine

/-- The union of the flags that the program lanes of Active raise (R77, R328). -/
def flagUnion (act : List Nat) (f : Nat → BitVec 8) : BitVec 8 := act.foldl (fun u i => u ||| f i) 0

/-- The cause of the lowest enabled exception among flags (R76, R78); `sat` has no enable. -/
def trapCause (fpmode : W64) (fl : BitVec 8) : Option Nat :=
  ((List.range 7).find? fun k => fl.getLsbD k && fpmode.getLsbD (16 + k)).map (3 + ·)

/-- The flags of each physical lane as a record shows them (R78): those of Active. -/
def laneFlagList (c : Ctx) (f : Nat → BitVec 8) : List (BitVec 8) := (List.range c.w.width).map fun i => if c.phys.contains i then f i else 0

/-- Finish an instruction that raises flags: with an enabled exception nothing is written and the wave traps, else the write is made (R78). -/
def finishFlags (c : Ctx) (s : State) (f : Nat → BitVec 8) (write : State → State) : Res :=
  let u := flagUnion c.act f
  match trapCause c.w.fpmode u with
  | some cause => .trap u cause (laneFlagList c f)
  | none => .done ((write s).raise c.w.wid u)

/-- The same with one set of flags that every lane of Active is charged with (R78, lane reductions). -/
def finishUnion (c : Ctx) (s : State) (u : BitVec 8) (write : State → State) : Res := finishFlags c s (fun _ => u) write

/-- The rounding environment of a format in a context (R68, R74). -/
def Ctx.env (c : Ctx) (f : Fmt) : FEnv := { rm := c.rm, fz := c.w.fpmode.getLsbD (if f = Fmt.f64 then 3 else 2), sat := c.sat }
def Ctx.fz (c : Ctx) (f : Fmt) : Bool := c.w.fpmode.getLsbD (if f = Fmt.f64 then 3 else 2)

end Sys2Proof.Machine
end

