-- ==== Sys2Proof/Machine/Trans.lean ====
section
/-! DEFINITION. exp2, log2, sinpi and cospi (Table 32), each rounded once (R68): evaluated in fixed point of 352 fraction bits, with the
exact cases apart. FP32 and FP16 results lie further from a rounding boundary than that error (DEDUCED, notes/assumptions/11). -/

namespace Sys2Proof.Machine

/-- Fraction bits of the fixed point. -/
def fixBits : Nat := 352
/-- π and the natural logarithm of 2, times 2^352, rounded down. -/
def piFix : Nat := 28820953612051067831822135727651693028268026353726104117893637513302106275766300664804203396325081653470927
def ln2Fix : Nat := 6358928397166619073799727950702657526331395863850634013586543962628151833936298946809452269120457102676731

/-- e^y for fixed-point y below 1, by its series: terms left, k, the current term. -/
def expSeries (y : Nat) : Nat → Nat → Nat → Nat
  | 0, _, _ => 0
  | n + 1, k, t => t + expSeries y n (k + 1) (t * y / 2 ^ fixBits / k)

/-- Σ z^(2j+1) / (2j+1), the series of the inverse hyperbolic tangent. -/
def atanhSeries (zz : Nat) : Nat → Nat → Nat → Nat
  | 0, _, _ => 0
  | n + 1, k, t => t / k + atanhSeries zz n (k + 2) (t * zz / 2 ^ fixBits)

/-- The alternating series of sin (from k = 2, t = y) and of cos (from k = 1, t = 1). -/
def trigSeries (yy : Nat) : Nat → Nat → Nat → Bool → Int
  | 0, _, _, _ => 0
  | n + 1, k, t, neg => (if neg then -(t : Int) else t) + trigSeries yy n (k + 2) (t * yy / 2 ^ fixBits / (k * (k + 1))) (!neg)

/-- A finite value in fixed point; exact for the exponents of FP32 and FP16. -/
def toFix (m : Nat) (e : Int) : Nat := m * 2 ^ (e + fixBits).toNat / 2 ^ (-(e + fixBits)).toNat

/-- 2^x. -/
def Fmt.exp2V (f : Fmt) (env : FEnv) : FVal → FRes
  | .nan s => f.nan s
  | .inf neg => if neg then (f.zero false, 0) else (f.inf false, 0)
  | .zero _ => f.round env false 1 0
  | .fin neg m e =>
    if (Nat.log2 m : Int) + e ≥ 11 then (if neg then f.round env false 3 (-5000) else f.round env false 1 5000)
    else
      let x : Int := if neg then -(toFix m e : Int) else toFix m e
      let n := x / (2 ^ fixBits : Nat)
      let r := (x % (2 ^ fixBits : Nat)).toNat
      if r = 0 then f.round env false 1 n
      else
        let v := expSeries (r * ln2Fix / 2 ^ fixBits) 90 1 (2 ^ fixBits)
        f.round env false (2 * v + 1) (n - fixBits - 1)

/-- log₂ x. -/
def Fmt.log2V (f : Fmt) (env : FEnv) : FVal → FRes
  | .nan s => f.nan s
  | .inf neg => if neg then f.nan true else (f.inf false, 0)
  | .zero _ => (f.inf true, flDz)
  | .fin neg m e =>
    if neg then f.nan true
    else
      let k := Nat.log2 m
      let top : Int := (k : Int) + e
      if m = 2 ^ k then (if top = 0 then (f.zero false, 0) else f.round env (decide (top < 0)) top.natAbs 0)
      else
        let z := (m - 2 ^ k) * 2 ^ fixBits / (m + 2 ^ k)
        let ln := 2 * atanhSeries (z * z / 2 ^ fixBits) 120 1 z
        let v : Int := top * (2 ^ fixBits : Nat) + ((ln * 2 ^ fixBits / ln2Fix : Nat) : Int)
        f.round env (decide (v < 0)) (2 * v.natAbs + 1) (-fixBits - 1)

/-- sin(πr) for fixed-point r in (0, 1/2), and cos(πr). -/
def sinFix (r : Nat) : Nat := let y := r * piFix / 2 ^ fixBits; (trigSeries (y * y / 2 ^ fixBits) 100 2 y false).toNat
def cosFix (r : Nat) : Nat := let y := r * piFix / 2 ^ fixBits; (trigSeries (y * y / 2 ^ fixBits) 100 1 (2 ^ fixBits) false).toNat

/-- sin(πx) (R102). -/
def Fmt.sinpiV (f : Fmt) (env : FEnv) : FVal → FRes
  | .nan s => f.nan s
  | .inf _ => f.nan true
  | .zero neg => (f.zero neg, 0)
  | .fin neg m e =>
    if e ≥ 0 then (f.zero neg, 0)
    else
      let one := 2 ^ fixBits
      let x := toFix m e % (2 * one)
      if x % one = 0 then (f.zero neg, 0)
      else
        let s := neg != decide (x ≥ one)
        let r := if 2 * (x % one) > one then one - x % one else x % one
        if 2 * r = one then f.round env s 1 0 else f.round env s (2 * sinFix r + 1) (-fixBits - 1)

/-- cos(πx) (R102). -/
def Fmt.cospiV (f : Fmt) (env : FEnv) : FVal → FRes
  | .nan s => f.nan s
  | .inf _ => f.nan true
  | .zero _ => f.round env false 1 0
  | .fin _ m e =>
    let one := 2 ^ fixBits
    let x := toFix m e % (2 * one)
    if x % one = 0 then f.round env (decide (x = one)) 1 0
    else
      let r := if x > one then 2 * one - x else x
      if 2 * r = one then (f.zero false, 0)
      else if 2 * r < one then f.round env false (2 * cosFix r + 1) (-fixBits - 1)
      else f.round env true (2 * cosFix (one - r) + 1) (-fixBits - 1)

end Sys2Proof.Machine
end

