-- ==== Sys2Proof/Machine/Shapes.lean ====
section
/-! DEFINITION. The shapes that arithmetic instructions share: which fields are read and written, and the lanewise function applied
(R88-R90, Table 27). -/

namespace Sys2Proof.Machine

/-- Modifiers of Table 27: rnd and sat; guard and scalar are always accepted, and the forms are lawful in a prologue where R245 says. -/
structure Mods where
  rnd : Bool := false
  sat : Bool := false
  pro : Bool := false

def Mods.sig (m : Mods) (flds : List Fld) : Sig := { flds := flds, rnd := m.rnd, sat := m.sat, scalar := true, pro := m.pro }

/-- Two 32-bit sources, one 32-bit destination, no flag. -/
def binary32 (n : BitVec 1) (d a b : BitVec 7) (f : W32 → W32 → W32) (s : State) : Host.Outcome State Fault Refusal :=
  issue (({ pro := true } : Mods).sig [.w32 d (n == 0), .r32 a, .r32 b]) s fun c s =>
    .done (if n = 1 then s else s.put32 c d fun i => f (c.src32 i a) (c.src32 i b))

/-- The same with flags (Table 20, `adds.s32`). -/
def binary32F (m : Mods) (n : BitVec 1) (d a b : BitVec 7) (f : Ctx → W32 → W32 → W32 × BitVec 8) (s : State) : Host.Outcome State Fault Refusal :=
  issue (m.sig [.w32 d (n == 0), .r32 a, .r32 b]) s fun c s =>
    finishFlags c s (fun i => (f c (c.src32 i a) (c.src32 i b)).2) fun s =>
      if n = 1 then s else s.put32 c d fun i => (f c (c.src32 i a) (c.src32 i b)).1

/-- Two 64-bit sources, one 64-bit destination. -/
def binary64 (n : BitVec 1) (d a b : BitVec 7) (f : W64 → W64 → W64) (s : State) : Host.Outcome State Fault Refusal :=
  issue (({ pro := true } : Mods).sig [.w64 d (n == 0), .r64 a, .r64 b]) s fun c s =>
    .done (if n = 1 then s else s.put64 c d fun i => f (c.src64 i a) (c.src64 i b))

def binary64F (m : Mods) (n : BitVec 1) (d a b : BitVec 7) (f : Ctx → W64 → W64 → W64 × BitVec 8) (s : State) : Host.Outcome State Fault Refusal :=
  issue (m.sig [.w64 d (n == 0), .r64 a, .r64 b]) s fun c s =>
    finishFlags c s (fun i => (f c (c.src64 i a) (c.src64 i b)).2) fun s =>
      if n = 1 then s else s.put64 c d fun i => (f c (c.src64 i a) (c.src64 i b)).1

/-- One 32-bit source, b unused. -/
def unary32 (n : BitVec 1) (d a : BitVec 7) (f : W32 → W32) (s : State) : Host.Outcome State Fault Refusal :=
  issue (({ pro := true } : Mods).sig [.w32 d (n == 0), .r32 a]) s fun c s =>
    .done (if n = 1 then s else s.put32 c d fun i => f (c.src32 i a))

def unary32F (m : Mods) (n : BitVec 1) (d a : BitVec 7) (f : Ctx → W32 → W32 × BitVec 8) (s : State) : Host.Outcome State Fault Refusal :=
  issue (m.sig [.w32 d (n == 0), .r32 a]) s fun c s =>
    finishFlags c s (fun i => (f c (c.src32 i a)).2) fun s => if n = 1 then s else s.put32 c d fun i => (f c (c.src32 i a)).1

def unary64F (m : Mods) (n : BitVec 1) (d a : BitVec 7) (f : Ctx → W64 → W64 × BitVec 8) (s : State) : Host.Outcome State Fault Refusal :=
  issue (m.sig [.w64 d (n == 0), .r64 a]) s fun c s =>
    finishFlags c s (fun i => (f c (c.src64 i a)).2) fun s => if n = 1 then s else s.put64 c d fun i => (f c (c.src64 i a)).1

/-- 64-bit result of a 32-bit source, and the other way (conversions). -/
def widen (m : Mods) (n : BitVec 1) (d a : BitVec 7) (f : Ctx → W32 → W64 × BitVec 8) (s : State) : Host.Outcome State Fault Refusal :=
  issue (m.sig [.w64 d (n == 0), .r32 a]) s fun c s =>
    finishFlags c s (fun i => (f c (c.src32 i a)).2) fun s => if n = 1 then s else s.put64 c d fun i => (f c (c.src32 i a)).1
def narrow (m : Mods) (n : BitVec 1) (d a : BitVec 7) (f : Ctx → W64 → W32 × BitVec 8) (s : State) : Host.Outcome State Fault Refusal :=
  issue (m.sig [.w32 d (n == 0), .r64 a]) s fun c s =>
    finishFlags c s (fun i => (f c (c.src64 i a)).2) fun s => if n = 1 then s else s.put32 c d fun i => (f c (c.src64 i a)).1

/-- d is a source too (`fma`, `bfi`); it is read with nw = 1 as well (R30). -/
def ternary32F (m : Mods) (n : BitVec 1) (d a b : BitVec 7) (f : Ctx → W32 → W32 → W32 → W32 × BitVec 8) (s : State) : Host.Outcome State Fault Refusal :=
  issue (m.sig [.rw32 d (n == 0), .r32 a, .r32 b]) s fun c s =>
    finishFlags c s (fun i => (f c (c.src32 i a) (c.src32 i b) (c.src32 i d)).2) fun s =>
      if n = 1 then s else s.put32 c d fun i => (f c (c.src32 i a) (c.src32 i b) (c.src32 i d)).1
def ternary64F (m : Mods) (n : BitVec 1) (d a b : BitVec 7) (f : Ctx → W64 → W64 → W64 → W64 × BitVec 8) (s : State) : Host.Outcome State Fault Refusal :=
  issue (m.sig [.rw64 d (n == 0), .r64 a, .r64 b]) s fun c s =>
    finishFlags c s (fun i => (f c (c.src64 i a) (c.src64 i b) (c.src64 i d)).2) fun s =>
      if n = 1 then s else s.put64 c d fun i => (f c (c.src64 i a) (c.src64 i b) (c.src64 i d)).1

/-- Comparisons write a predicate (R96, R97). -/
def compare32F (n : BitVec 1) (p : BitVec 3) (a b : BitVec 7) (pro : Bool) (f : Ctx → W32 → W32 → Bool × BitVec 8) (s : State) : Host.Outcome State Fault Refusal :=
  issue (({ pro := pro } : Mods).sig [.r32 a, .r32 b]) s fun c s =>
    finishFlags c s (fun i => (f c (c.src32 i a) (c.src32 i b)).2) fun s =>
      if n = 1 then s else s.putPred c p.toNat fun i => (f c (c.src32 i a) (c.src32 i b)).1
def compare64F (n : BitVec 1) (p : BitVec 3) (a b : BitVec 7) (pro : Bool) (f : Ctx → W64 → W64 → Bool × BitVec 8) (s : State) : Host.Outcome State Fault Refusal :=
  issue (({ pro := pro } : Mods).sig [.r64 a, .r64 b]) s fun c s =>
    finishFlags c s (fun i => (f c (c.src64 i a) (c.src64 i b)).2) fun s =>
      if n = 1 then s else s.putPred c p.toNat fun i => (f c (c.src64 i a) (c.src64 i b)).1

/-- The immediate forms of major 0x04 (R91): y is v[31:0] of R36. -/
def immediate32 (n : BitVec 1) (d a i : BitVec 7) (f : W32 → W32 → W32) (s : State) : Host.Outcome State Fault Refusal :=
  issue { flds := [.w32 d (n == 0), .r32 a], scalar := true, wides := 2, pro := true } s fun c s =>
    .done (if n = 1 then s else s.put32 c d fun k => f (c.src32 k a) (BitVec.ofInt 32 (wideValue c.g 7 i.toNat)))

/-- A scalar instruction whose second source is a scalar register (R98). -/
def scalarReg (d a b : BitVec 5) (f : W64 → W64 → W64) (s : State) : Host.Outcome State Fault Refusal :=
  issue { flds := [.sreg a, .sreg b], pro := true } s fun c s =>
    .done (s.putScalar c d.toNat (f (c.w.sregs.getD a.toNat 0) (c.w.sregs.getD b.toNat 0)))

/-- A scalar instruction whose second source is the immediate (R98). -/
def scalarImm (d a : BitVec 5) (i : BitVec 11) (f : W64 → W64 → W64) (s : State) : Host.Outcome State Fault Refusal :=
  issue { flds := [.sreg a], wides := 2, pro := true } s fun c s =>
    .done (s.putScalar c d.toNat (f (c.w.sregs.getD a.toNat 0) (BitVec.ofInt 64 (wideValue c.g 11 i.toNat))))

end Sys2Proof.Machine
end

