-- ==== Sys2Proof/Machine/Integer.lean ====
section
/-! DEFINITION. Majors 0x01-0x07: integer arithmetic, shifts, bit fields, division and comparisons (spec/05 R92-R96, R64, R65). -/

namespace Sys2Proof.Machine

/-- A sum clamped to the signed 32-bit range, with `sat` when it clamps (R64). -/
def clamp32 (x : Int) : W32 × BitVec 8 :=
  if x < -(2 ^ 31 : Nat) then (0x80000000, flSat) else if x > (2 ^ 31 : Nat) - 1 then (0x7FFFFFFF, flSat) else (BitVec.ofInt 32 x, 0)

/-- Shifts read the whole amount (R93). -/
def shlN {w : Nat} (x : BitVec w) (n : Nat) : BitVec w := if n ≥ w then 0 else x <<< n
def shrZN {w : Nat} (x : BitVec w) (n : Nat) : BitVec w := if n ≥ w then 0 else x >>> n
def shrSN {w : Nat} (x : BitVec w) (n : Nat) : BitVec w := if n ≥ w then (if x.msb then BitVec.allOnes w else 0) else x.sshiftRight n

/-- One bits, and leading zero bits (Table 28). -/
def popcount (x : W32) : W32 := BitVec.ofNat 32 ((List.range 32).filter fun i => x.getLsbD i).length
def leadingZeros (x : W32) : W32 := if x = 0 then 32 else BitVec.ofNat 32 (31 - Nat.log2 x.toNat)

/-- Signed division and remainder at their limits (Table 20). -/
def divS (a b : W32) : W32 × BitVec 8 :=
  if b = 0 then (if a.msb then 0x80000000 else 0x7FFFFFFF, flIdz)
  else if a = 0x80000000 && b = 0xFFFFFFFF then (0x7FFFFFFF, flSat)
  else (BitVec.ofInt 32 (a.toInt.tdiv b.toInt), 0)
def divZ (a b : W32) : W32 × BitVec 8 := if b = 0 then (0xFFFFFFFF, flIdz) else (BitVec.ofNat 32 (a.toNat / b.toNat), 0)
def remS (a b : W32) : W32 × BitVec 8 :=
  if b = 0 then (a, flIdz) else if a = 0x80000000 && b = 0xFFFFFFFF then (0, flSat) else (BitVec.ofInt 32 (a.toInt.tmod b.toInt), 0)
def remZ (a b : W32) : W32 × BitVec 8 := if b = 0 then (a, flIdz) else (BitVec.ofNat 32 (a.toNat % b.toNat), 0)

/-- Bit fields (R94): the lowest bit, the clamped width, the mask. -/
def fieldLo (b : W32) : Nat := bits b.toNat 0 5
def fieldW (b : W32) : Nat := min (bits b.toNat 8 6) (32 - fieldLo b)
def fieldMask (b : W32) : W32 := BitVec.ofNat 32 ((2 ^ fieldW b - 1) * 2 ^ fieldLo b)
def bfxZ (a b : W32) : W32 := BitVec.ofNat 32 (bits a.toNat (fieldLo b) (fieldW b))
def bfxS (a b : W32) : W32 := if fieldW b = 0 then 0 else BitVec.ofInt 32 (signed (fieldW b) (bits a.toNat (fieldLo b) (fieldW b)))
def bfi (d a b : W32) : W32 := (d &&& ~~~(fieldMask b)) ||| ((a <<< fieldLo b) &&& fieldMask b)

/-- `add.b32` (R92). -/
def execAddB32 (n : BitVec 1) (d a b : BitVec 7) (s : State) : Host.Outcome State Fault Refusal :=
  binary32 n d a b (fun x y => x + y) s

/-- `sub.b32` (R92). -/
def execSubB32 (n : BitVec 1) (d a b : BitVec 7) (s : State) : Host.Outcome State Fault Refusal :=
  binary32 n d a b (fun x y => x - y) s

/-- `adds.s32` (R92). -/
def execAddsS32 (n : BitVec 1) (d a b : BitVec 7) (s : State) : Host.Outcome State Fault Refusal :=
  binary32F { pro := true } n d a b (fun _ x y => clamp32 (x.toInt + y.toInt)) s

/-- `subs.s32` (R92). -/
def execSubsS32 (n : BitVec 1) (d a b : BitVec 7) (s : State) : Host.Outcome State Fault Refusal :=
  binary32F { pro := true } n d a b (fun _ x y => clamp32 (x.toInt - y.toInt)) s

/-- `min.s32` (R92). -/
def execMinS32 (n : BitVec 1) (d a b : BitVec 7) (s : State) : Host.Outcome State Fault Refusal :=
  binary32 n d a b (fun x y => if x.slt y then x else y) s

/-- `min.z32` (R92). -/
def execMinZ32 (n : BitVec 1) (d a b : BitVec 7) (s : State) : Host.Outcome State Fault Refusal :=
  binary32 n d a b (fun x y => if x.ult y then x else y) s

/-- `max.s32` (R92). -/
def execMaxS32 (n : BitVec 1) (d a b : BitVec 7) (s : State) : Host.Outcome State Fault Refusal :=
  binary32 n d a b (fun x y => if x.slt y then y else x) s

/-- `max.z32` (R92). -/
def execMaxZ32 (n : BitVec 1) (d a b : BitVec 7) (s : State) : Host.Outcome State Fault Refusal :=
  binary32 n d a b (fun x y => if x.ult y then y else x) s

/-- `mul.b32` (R92). -/
def execMulB32 (n : BitVec 1) (d a b : BitVec 7) (s : State) : Host.Outcome State Fault Refusal :=
  binary32 n d a b (fun x y => x * y) s

/-- `mulhi.s32` (R92). -/
def execMulhiS32 (n : BitVec 1) (d a b : BitVec 7) (s : State) : Host.Outcome State Fault Refusal :=
  binary32 n d a b (fun x y => BitVec.ofInt 32 (x.toInt * y.toInt / 4294967296)) s

/-- `mulhi.z32` (R92). -/
def execMulhiZ32 (n : BitVec 1) (d a b : BitVec 7) (s : State) : Host.Outcome State Fault Refusal :=
  binary32 n d a b (fun x y => BitVec.ofNat 32 (x.toNat * y.toNat / 4294967296)) s

/-- `div.s32` (R95, R65). -/
def execDivS32 (n : BitVec 1) (d a b : BitVec 7) (s : State) : Host.Outcome State Fault Refusal :=
  binary32F { pro := true } n d a b (fun _ => divS) s

/-- `div.z32` (R95, R65). -/
def execDivZ32 (n : BitVec 1) (d a b : BitVec 7) (s : State) : Host.Outcome State Fault Refusal :=
  binary32F { pro := true } n d a b (fun _ => divZ) s

/-- `rem.s32` (R95, R65). -/
def execRemS32 (n : BitVec 1) (d a b : BitVec 7) (s : State) : Host.Outcome State Fault Refusal :=
  binary32F { pro := true } n d a b (fun _ => remS) s

/-- `rem.z32` (R95, R65). -/
def execRemZ32 (n : BitVec 1) (d a b : BitVec 7) (s : State) : Host.Outcome State Fault Refusal :=
  binary32F { pro := true } n d a b (fun _ => remZ) s

/-- `and.b32` (R92). -/
def execAndB32 (n : BitVec 1) (d a b : BitVec 7) (s : State) : Host.Outcome State Fault Refusal :=
  binary32 n d a b (fun x y => x &&& y) s

/-- `or.b32` (R92). -/
def execOrB32 (n : BitVec 1) (d a b : BitVec 7) (s : State) : Host.Outcome State Fault Refusal :=
  binary32 n d a b (fun x y => x ||| y) s

/-- `xor.b32` (R92). -/
def execXorB32 (n : BitVec 1) (d a b : BitVec 7) (s : State) : Host.Outcome State Fault Refusal :=
  binary32 n d a b (fun x y => x ^^^ y) s

/-- `shl.b32` (R93). -/
def execShlB32 (n : BitVec 1) (d a b : BitVec 7) (s : State) : Host.Outcome State Fault Refusal :=
  binary32 n d a b (fun x y => shlN x y.toNat) s

/-- `shr.z32` (R93). -/
def execShrZ32 (n : BitVec 1) (d a b : BitVec 7) (s : State) : Host.Outcome State Fault Refusal :=
  binary32 n d a b (fun x y => shrZN x y.toNat) s

/-- `shr.s32` (R93). -/
def execShrS32 (n : BitVec 1) (d a b : BitVec 7) (s : State) : Host.Outcome State Fault Refusal :=
  binary32 n d a b (fun x y => shrSN x y.toNat) s

/-- `popc.b32` (R92). -/
def execPopcB32 (n : BitVec 1) (d a : BitVec 7) (s : State) : Host.Outcome State Fault Refusal :=
  unary32 n d a popcount s

/-- `clz.b32` (R92). -/
def execClzB32 (n : BitVec 1) (d a : BitVec 7) (s : State) : Host.Outcome State Fault Refusal :=
  unary32 n d a leadingZeros s

/-- `add.b32 d, a, imm` (R92). -/
def execAddB32Imm (n : BitVec 1) (d a i : BitVec 7) (s : State) : Host.Outcome State Fault Refusal :=
  immediate32 n d a i (fun x y => x + y) s

/-- `and.b32 d, a, imm` (R92). -/
def execAndB32Imm (n : BitVec 1) (d a i : BitVec 7) (s : State) : Host.Outcome State Fault Refusal :=
  immediate32 n d a i (fun x y => x &&& y) s

/-- `shl.b32 d, a, imm` (R93). -/
def execShlB32Imm (n : BitVec 1) (d a i : BitVec 7) (s : State) : Host.Outcome State Fault Refusal :=
  immediate32 n d a i (fun x y => shlN x y.toNat) s

/-- `shr.z32 d, a, imm` (R93). -/
def execShrZ32Imm (n : BitVec 1) (d a i : BitVec 7) (s : State) : Host.Outcome State Fault Refusal :=
  immediate32 n d a i (fun x y => shrZN x y.toNat) s

/-- `add.b64` (R92). -/
def execAddB64 (n : BitVec 1) (d a b : BitVec 7) (s : State) : Host.Outcome State Fault Refusal :=
  binary64 n d a b (fun x y => x + y) s

/-- `sub.b64` (R92). -/
def execSubB64 (n : BitVec 1) (d a b : BitVec 7) (s : State) : Host.Outcome State Fault Refusal :=
  binary64 n d a b (fun x y => x - y) s

/-- `mul.b64` (R92). -/
def execMulB64 (n : BitVec 1) (d a b : BitVec 7) (s : State) : Host.Outcome State Fault Refusal :=
  binary64 n d a b (fun x y => x * y) s

/-- `shl.b64` (R93). -/
def execShlB64 (n : BitVec 1) (d a b : BitVec 7) (s : State) : Host.Outcome State Fault Refusal :=
  binary64 n d a b (fun x y => shlN x y.toNat) s

/-- `shr.z64` (R93). -/
def execShrZ64 (n : BitVec 1) (d a b : BitVec 7) (s : State) : Host.Outcome State Fault Refusal :=
  binary64 n d a b (fun x y => shrZN x y.toNat) s

/-- `shr.s64` (R93). -/
def execShrS64 (n : BitVec 1) (d a b : BitVec 7) (s : State) : Host.Outcome State Fault Refusal :=
  binary64 n d a b (fun x y => shrSN x y.toNat) s

/-- `bfx.z32` (R94). -/
def execBfxZ32 (n : BitVec 1) (d a b : BitVec 7) (s : State) : Host.Outcome State Fault Refusal :=
  binary32 n d a b (fun x y => bfxZ x y) s

/-- `bfx.s32` (R94). -/
def execBfxS32 (n : BitVec 1) (d a b : BitVec 7) (s : State) : Host.Outcome State Fault Refusal :=
  binary32 n d a b (fun x y => bfxS x y) s

/-- `bfi.b32` (R94). -/
def execBfiB32 (n : BitVec 1) (d a b : BitVec 7) (s : State) : Host.Outcome State Fault Refusal :=
  ternary32F { pro := true } n d a b (fun _ x y z => (bfi z x y, 0)) s

/-- `cmp.eq.b32` (R96). -/
def execCmpEqB32 (n : BitVec 1) (p : BitVec 3) (a b : BitVec 7) (s : State) : Host.Outcome State Fault Refusal :=
  compare32F n p a b true (fun _ x y => (x == y, 0)) s

/-- `cmp.ne.b32` (R96). -/
def execCmpNeB32 (n : BitVec 1) (p : BitVec 3) (a b : BitVec 7) (s : State) : Host.Outcome State Fault Refusal :=
  compare32F n p a b true (fun _ x y => (x != y, 0)) s

/-- `cmp.lt.s32` (R96). -/
def execCmpLtS32 (n : BitVec 1) (p : BitVec 3) (a b : BitVec 7) (s : State) : Host.Outcome State Fault Refusal :=
  compare32F n p a b true (fun _ x y => (x.slt y, 0)) s

/-- `cmp.lt.z32` (R96). -/
def execCmpLtZ32 (n : BitVec 1) (p : BitVec 3) (a b : BitVec 7) (s : State) : Host.Outcome State Fault Refusal :=
  compare32F n p a b true (fun _ x y => (x.ult y, 0)) s

/-- `cmp.eq.b64` (R96). -/
def execCmpEqB64 (n : BitVec 1) (p : BitVec 3) (a b : BitVec 7) (s : State) : Host.Outcome State Fault Refusal :=
  compare64F n p a b true (fun _ x y => (x == y, 0)) s

/-- `cmp.lt.s64` (R96). -/
def execCmpLtS64 (n : BitVec 1) (p : BitVec 3) (a b : BitVec 7) (s : State) : Host.Outcome State Fault Refusal :=
  compare64F n p a b true (fun _ x y => (x.slt y, 0)) s

/-- `cmp.lt.z64` (R96). -/
def execCmpLtZ64 (n : BitVec 1) (p : BitVec 3) (a b : BitVec 7) (s : State) : Host.Outcome State Fault Refusal :=
  compare64F n p a b true (fun _ x y => (x.ult y, 0)) s

end Sys2Proof.Machine
end

