-- ==== Sys2Proof/Machine/Scalar.lean ====
section
/-! DEFINITION. Majors 0x08 and 0x09: the scalar instructions (spec/05 R98, R99, Table 31). -/

namespace Sys2Proof.Machine

/-- 1 or 0 as a scalar. -/
def truth64 (b : Bool) : W64 := if b then 1 else 0

/-- `sadd.b64 sd, sa, sb` (R98). -/
def execSaddB64 (d a b : BitVec 5) (s : State) : Host.Outcome State Fault Refusal :=
  scalarReg d a b (fun x y => x + y) s

/-- `sadd.b64 sd, sa, imm` (R98). -/
def execSaddB64Imm (d a : BitVec 5) (i : BitVec 11) (s : State) : Host.Outcome State Fault Refusal :=
  scalarImm d a i (fun x y => x + y) s

/-- `ssub.b64 sd, sa, sb` (R98). -/
def execSsubB64 (d a b : BitVec 5) (s : State) : Host.Outcome State Fault Refusal :=
  scalarReg d a b (fun x y => x - y) s

/-- `ssub.b64 sd, sa, imm` (R98). -/
def execSsubB64Imm (d a : BitVec 5) (i : BitVec 11) (s : State) : Host.Outcome State Fault Refusal :=
  scalarImm d a i (fun x y => x - y) s

/-- `smul.b64 sd, sa, sb` (R98). -/
def execSmulB64 (d a b : BitVec 5) (s : State) : Host.Outcome State Fault Refusal :=
  scalarReg d a b (fun x y => x * y) s

/-- `smul.b64 sd, sa, imm` (R98). -/
def execSmulB64Imm (d a : BitVec 5) (i : BitVec 11) (s : State) : Host.Outcome State Fault Refusal :=
  scalarImm d a i (fun x y => x * y) s

/-- `sand.b64 sd, sa, sb` (R98). -/
def execSandB64 (d a b : BitVec 5) (s : State) : Host.Outcome State Fault Refusal :=
  scalarReg d a b (fun x y => x &&& y) s

/-- `sand.b64 sd, sa, imm` (R98). -/
def execSandB64Imm (d a : BitVec 5) (i : BitVec 11) (s : State) : Host.Outcome State Fault Refusal :=
  scalarImm d a i (fun x y => x &&& y) s

/-- `sor.b64 sd, sa, sb` (R98). -/
def execSorB64 (d a b : BitVec 5) (s : State) : Host.Outcome State Fault Refusal :=
  scalarReg d a b (fun x y => x ||| y) s

/-- `sor.b64 sd, sa, imm` (R98). -/
def execSorB64Imm (d a : BitVec 5) (i : BitVec 11) (s : State) : Host.Outcome State Fault Refusal :=
  scalarImm d a i (fun x y => x ||| y) s

/-- `sxor.b64 sd, sa, sb` (R98). -/
def execSxorB64 (d a b : BitVec 5) (s : State) : Host.Outcome State Fault Refusal :=
  scalarReg d a b (fun x y => x ^^^ y) s

/-- `sxor.b64 sd, sa, imm` (R98). -/
def execSxorB64Imm (d a : BitVec 5) (i : BitVec 11) (s : State) : Host.Outcome State Fault Refusal :=
  scalarImm d a i (fun x y => x ^^^ y) s

/-- `sshl.b64 sd, sa, sb` (R98). -/
def execSshlB64 (d a b : BitVec 5) (s : State) : Host.Outcome State Fault Refusal :=
  scalarReg d a b (fun x y => shlN x y.toNat) s

/-- `sshl.b64 sd, sa, imm` (R98). -/
def execSshlB64Imm (d a : BitVec 5) (i : BitVec 11) (s : State) : Host.Outcome State Fault Refusal :=
  scalarImm d a i (fun x y => shlN x y.toNat) s

/-- `sshr.z64 sd, sa, sb` (R98). -/
def execSshrZ64 (d a b : BitVec 5) (s : State) : Host.Outcome State Fault Refusal :=
  scalarReg d a b (fun x y => shrZN x y.toNat) s

/-- `sshr.z64 sd, sa, imm` (R98). -/
def execSshrZ64Imm (d a : BitVec 5) (i : BitVec 11) (s : State) : Host.Outcome State Fault Refusal :=
  scalarImm d a i (fun x y => shrZN x y.toNat) s

/-- `scmp.eq.b64 sd, sa, sb` (R98). -/
def execScmpEqB64 (d a b : BitVec 5) (s : State) : Host.Outcome State Fault Refusal :=
  scalarReg d a b (fun x y => truth64 (x == y)) s

/-- `scmp.eq.b64 sd, sa, imm` (R98). -/
def execScmpEqB64Imm (d a : BitVec 5) (i : BitVec 11) (s : State) : Host.Outcome State Fault Refusal :=
  scalarImm d a i (fun x y => truth64 (x == y)) s

/-- `scmp.lt.s64 sd, sa, sb` (R98). -/
def execScmpLtS64 (d a b : BitVec 5) (s : State) : Host.Outcome State Fault Refusal :=
  scalarReg d a b (fun x y => truth64 (x.slt y)) s

/-- `scmp.lt.s64 sd, sa, imm` (R98). -/
def execScmpLtS64Imm (d a : BitVec 5) (i : BitVec 11) (s : State) : Host.Outcome State Fault Refusal :=
  scalarImm d a i (fun x y => truth64 (x.slt y)) s

/-- `scmp.lt.z64 sd, sa, sb` (R98). -/
def execScmpLtZ64 (d a b : BitVec 5) (s : State) : Host.Outcome State Fault Refusal :=
  scalarReg d a b (fun x y => truth64 (x.ult y)) s

/-- `scmp.lt.z64 sd, sa, imm` (R98). -/
def execScmpLtZ64Imm (d a : BitVec 5) (i : BitVec 11) (s : State) : Host.Outcome State Fault Refusal :=
  scalarImm d a i (fun x y => truth64 (x.ult y)) s

/-- `smov.b64 sd, sa` (R98, R99). -/
def execSmovB64 (d a : BitVec 5) (s : State) : Host.Outcome State Fault Refusal :=
  issue { flds := [.sreg a], pro := true } s fun c s => .done (s.putScalar c d.toNat (c.w.sregs.getD a.toNat 0))

/-- `smov.b64 sd, imm` (R98, R99). -/
def execSmovB64Imm (d : BitVec 5) (i : BitVec 11) (s : State) : Host.Outcome State Fault Refusal :=
  issue { flds := [], wides := 2, pro := true } s fun c s => .done (s.putScalar c d.toNat (BitVec.ofInt 64 (wideValue c.g 11 i.toNat)))

end Sys2Proof.Machine
end

