-- ==== Sys2Proof/Machine/FloatArith.lean ====
section
/-! DEFINITION. Majors 0x10-0x14: floating-point arithmetic and comparisons (spec/05 R97, R100-R103, Table 32). -/

namespace Sys2Proof.Machine

/-- A result as a register word, and as a pair. -/
def as32 (r : FRes) : W32 × BitVec 8 := (BitVec.ofNat 32 r.1, r.2)
def as64 (r : FRes) : W64 × BitVec 8 := (BitVec.ofNat 64 r.1, r.2)

/-- Operations on FP32 and FP64 operands read through the flush bit. -/
def two32 (f : FEnv → FVal → FVal → FRes) (c : Ctx) (x y : W32) : W32 × BitVec 8 :=
  as32 (f (c.env .f32) (Fmt.f32.read (c.fz .f32) x.toNat) (Fmt.f32.read (c.fz .f32) y.toNat))
def one32 (f : FEnv → FVal → FRes) (c : Ctx) (x : W32) : W32 × BitVec 8 := as32 (f (c.env .f32) (Fmt.f32.read (c.fz .f32) x.toNat))
def two64 (f : FEnv → FVal → FVal → FRes) (c : Ctx) (x y : W64) : W64 × BitVec 8 :=
  as64 (f (c.env .f64) (Fmt.f64.read (c.fz .f64) x.toNat) (Fmt.f64.read (c.fz .f64) y.toNat))
def one64 (f : FEnv → FVal → FRes) (c : Ctx) (x : W64) : W64 × BitVec 8 := as64 (f (c.env .f64) (Fmt.f64.read (c.fz .f64) x.toNat))

/-- Two packed elements, each on its own, with the union of their flags (R63). -/
def packTwo (lo hi : FRes) : W32 × BitVec 8 := (BitVec.ofNat 32 (lo.1 + 65536 * hi.1), lo.2 ||| hi.2)
def two16 (fm : Fmt) (f : FEnv → FVal → FVal → FRes) (c : Ctx) (x y : W32) : W32 × BitVec 8 :=
  let g (k : Nat) : FRes := f (c.env fm) (fm.read (c.fz fm) (bits x.toNat k 16)) (fm.read (c.fz fm) (bits y.toNat k 16))
  packTwo (g 0) (g 16)
def one16 (fm : Fmt) (f : FEnv → FVal → FRes) (c : Ctx) (x : W32) : W32 × BitVec 8 :=
  let g (k : Nat) : FRes := f (c.env fm) (fm.read (c.fz fm) (bits x.toNat k 16))
  packTwo (g 0) (g 16)
def three16 (fm : Fmt) (c : Ctx) (x y z : W32) : W32 × BitVec 8 :=
  let g (k : Nat) : FRes :=
    fm.fmaV (c.env fm) (fm.read (c.fz fm) (bits x.toNat k 16)) (fm.read (c.fz fm) (bits y.toNat k 16)) (fm.read (c.fz fm) (bits z.toNat k 16))
  packTwo (g 0) (g 16)
def fma32 (c : Ctx) (x y z : W32) : W32 × BitVec 8 :=
  as32 (Fmt.f32.fmaV (c.env .f32) (Fmt.f32.read (c.fz .f32) x.toNat) (Fmt.f32.read (c.fz .f32) y.toNat) (Fmt.f32.read (c.fz .f32) z.toNat))
def fma64 (c : Ctx) (x y z : W64) : W64 × BitVec 8 :=
  as64 (Fmt.f64.fmaV (c.env .f64) (Fmt.f64.read (c.fz .f64) x.toNat) (Fmt.f64.read (c.fz .f64) y.toNat) (Fmt.f64.read (c.fz .f64) z.toNat))

/-- Subtraction is the addition of the negated operand; a NaN keeps its kind. -/
def Fmt.subV (f : Fmt) (env : FEnv) (a b : FVal) : FRes := f.addV env a b.flip

/-- `add.f32` (R100). -/
def execAddF32 (n : BitVec 1) (d a b : BitVec 7) (s : State) : Host.Outcome State Fault Refusal :=
  binary32F { rnd := true } n d a b (two32 Fmt.f32.addV) s

/-- `sub.f32` (R100). -/
def execSubF32 (n : BitVec 1) (d a b : BitVec 7) (s : State) : Host.Outcome State Fault Refusal :=
  binary32F { rnd := true } n d a b (two32 Fmt.f32.subV) s

/-- `mul.f32` (R100). -/
def execMulF32 (n : BitVec 1) (d a b : BitVec 7) (s : State) : Host.Outcome State Fault Refusal :=
  binary32F { rnd := true } n d a b (two32 Fmt.f32.mulV) s

/-- `fma.f32` (R101). -/
def execFmaF32 (n : BitVec 1) (d a b : BitVec 7) (s : State) : Host.Outcome State Fault Refusal :=
  ternary32F { rnd := true } n d a b fma32 s

/-- `div.f32` (R100). -/
def execDivF32 (n : BitVec 1) (d a b : BitVec 7) (s : State) : Host.Outcome State Fault Refusal :=
  binary32F { rnd := true } n d a b (two32 Fmt.f32.divV) s

/-- `min.f32` (R100, Table 22). -/
def execMinF32 (n : BitVec 1) (d a b : BitVec 7) (s : State) : Host.Outcome State Fault Refusal :=
  binary32F {} n d a b (fun c x y => as32 (Fmt.f32.minMax (c.fz .f32) false x.toNat y.toNat)) s

/-- `max.f32` (R100, Table 22). -/
def execMaxF32 (n : BitVec 1) (d a b : BitVec 7) (s : State) : Host.Outcome State Fault Refusal :=
  binary32F {} n d a b (fun c x y => as32 (Fmt.f32.minMax (c.fz .f32) true x.toNat y.toNat)) s

/-- `sqrt.f32` (R100). -/
def execSqrtF32 (n : BitVec 1) (d a : BitVec 7) (s : State) : Host.Outcome State Fault Refusal :=
  unary32F { rnd := true } n d a (one32 Fmt.f32.sqrtV) s

/-- `rcp.f32` (R100). -/
def execRcpF32 (n : BitVec 1) (d a : BitVec 7) (s : State) : Host.Outcome State Fault Refusal :=
  unary32F { rnd := true } n d a (one32 Fmt.f32.rcpV) s

/-- `rsq.f32` (R100). -/
def execRsqF32 (n : BitVec 1) (d a : BitVec 7) (s : State) : Host.Outcome State Fault Refusal :=
  unary32F { rnd := true } n d a (one32 Fmt.f32.rsqV) s

/-- `exp2.f32` (R100). -/
def execExp2F32 (n : BitVec 1) (d a : BitVec 7) (s : State) : Host.Outcome State Fault Refusal :=
  unary32F { rnd := true } n d a (one32 Fmt.f32.exp2V) s

/-- `log2.f32` (R100). -/
def execLog2F32 (n : BitVec 1) (d a : BitVec 7) (s : State) : Host.Outcome State Fault Refusal :=
  unary32F { rnd := true } n d a (one32 Fmt.f32.log2V) s

/-- `sinpi.f32` (R102). -/
def execSinpiF32 (n : BitVec 1) (d a : BitVec 7) (s : State) : Host.Outcome State Fault Refusal :=
  unary32F { rnd := true } n d a (one32 Fmt.f32.sinpiV) s

/-- `cospi.f32` (R102). -/
def execCospiF32 (n : BitVec 1) (d a : BitVec 7) (s : State) : Host.Outcome State Fault Refusal :=
  unary32F { rnd := true } n d a (one32 Fmt.f32.cospiV) s

/-- `add.f64` (R100). -/
def execAddF64 (n : BitVec 1) (d a b : BitVec 7) (s : State) : Host.Outcome State Fault Refusal :=
  binary64F { rnd := true } n d a b (two64 Fmt.f64.addV) s

/-- `sub.f64` (R100). -/
def execSubF64 (n : BitVec 1) (d a b : BitVec 7) (s : State) : Host.Outcome State Fault Refusal :=
  binary64F { rnd := true } n d a b (two64 Fmt.f64.subV) s

/-- `mul.f64` (R100). -/
def execMulF64 (n : BitVec 1) (d a b : BitVec 7) (s : State) : Host.Outcome State Fault Refusal :=
  binary64F { rnd := true } n d a b (two64 Fmt.f64.mulV) s

/-- `fma.f64` (R101). -/
def execFmaF64 (n : BitVec 1) (d a b : BitVec 7) (s : State) : Host.Outcome State Fault Refusal :=
  ternary64F { rnd := true } n d a b fma64 s

/-- `div.f64` (R100). -/
def execDivF64 (n : BitVec 1) (d a b : BitVec 7) (s : State) : Host.Outcome State Fault Refusal :=
  binary64F { rnd := true } n d a b (two64 Fmt.f64.divV) s

/-- `min.f64` (R100, Table 22). -/
def execMinF64 (n : BitVec 1) (d a b : BitVec 7) (s : State) : Host.Outcome State Fault Refusal :=
  binary64F {} n d a b (fun c x y => as64 (Fmt.f64.minMax (c.fz .f64) false x.toNat y.toNat)) s

/-- `max.f64` (R100, Table 22). -/
def execMaxF64 (n : BitVec 1) (d a b : BitVec 7) (s : State) : Host.Outcome State Fault Refusal :=
  binary64F {} n d a b (fun c x y => as64 (Fmt.f64.minMax (c.fz .f64) true x.toNat y.toNat)) s

/-- `sqrt.f64` (R100). -/
def execSqrtF64 (n : BitVec 1) (d a : BitVec 7) (s : State) : Host.Outcome State Fault Refusal :=
  unary64F { rnd := true } n d a (one64 Fmt.f64.sqrtV) s

/-- `add.f16` (R100, R103). -/
def execAddF16 (n : BitVec 1) (d a b : BitVec 7) (s : State) : Host.Outcome State Fault Refusal :=
  binary32F { rnd := true, sat := true } n d a b (two16 .f16 Fmt.f16.addV) s

/-- `sub.f16` (R100, R103). -/
def execSubF16 (n : BitVec 1) (d a b : BitVec 7) (s : State) : Host.Outcome State Fault Refusal :=
  binary32F { rnd := true, sat := true } n d a b (two16 .f16 Fmt.f16.subV) s

/-- `mul.f16` (R100, R103). -/
def execMulF16 (n : BitVec 1) (d a b : BitVec 7) (s : State) : Host.Outcome State Fault Refusal :=
  binary32F { rnd := true, sat := true } n d a b (two16 .f16 Fmt.f16.mulV) s

/-- `fma.f16` (R101, R103). -/
def execFmaF16 (n : BitVec 1) (d a b : BitVec 7) (s : State) : Host.Outcome State Fault Refusal :=
  ternary32F { rnd := true, sat := true } n d a b (three16 .f16) s

/-- `div.f16` (R100, R103). -/
def execDivF16 (n : BitVec 1) (d a b : BitVec 7) (s : State) : Host.Outcome State Fault Refusal :=
  binary32F { rnd := true, sat := true } n d a b (two16 .f16 Fmt.f16.divV) s

/-- `add.bf16` (R100, R103). -/
def execAddBf16 (n : BitVec 1) (d a b : BitVec 7) (s : State) : Host.Outcome State Fault Refusal :=
  binary32F { rnd := true, sat := true } n d a b (two16 .bf16 Fmt.bf16.addV) s

/-- `sub.bf16` (R100, R103). -/
def execSubBf16 (n : BitVec 1) (d a b : BitVec 7) (s : State) : Host.Outcome State Fault Refusal :=
  binary32F { rnd := true, sat := true } n d a b (two16 .bf16 Fmt.bf16.subV) s

/-- `mul.bf16` (R100, R103). -/
def execMulBf16 (n : BitVec 1) (d a b : BitVec 7) (s : State) : Host.Outcome State Fault Refusal :=
  binary32F { rnd := true, sat := true } n d a b (two16 .bf16 Fmt.bf16.mulV) s

/-- `fma.bf16` (R101, R103). -/
def execFmaBf16 (n : BitVec 1) (d a b : BitVec 7) (s : State) : Host.Outcome State Fault Refusal :=
  ternary32F { rnd := true, sat := true } n d a b (three16 .bf16) s

/-- `sqrt.f16` (R100, R103). -/
def execSqrtF16 (n : BitVec 1) (d a : BitVec 7) (s : State) : Host.Outcome State Fault Refusal :=
  unary32F { rnd := true, sat := true } n d a (one16 .f16 Fmt.f16.sqrtV) s

/-- `rcp.f16` (R100, R103). -/
def execRcpF16 (n : BitVec 1) (d a : BitVec 7) (s : State) : Host.Outcome State Fault Refusal :=
  unary32F { rnd := true, sat := true } n d a (one16 .f16 Fmt.f16.rcpV) s

/-- `rsq.f16` (R100, R103). -/
def execRsqF16 (n : BitVec 1) (d a : BitVec 7) (s : State) : Host.Outcome State Fault Refusal :=
  unary32F { rnd := true, sat := true } n d a (one16 .f16 Fmt.f16.rsqV) s

/-- `exp2.f16` (R100, R103). -/
def execExp2F16 (n : BitVec 1) (d a : BitVec 7) (s : State) : Host.Outcome State Fault Refusal :=
  unary32F { rnd := true, sat := true } n d a (one16 .f16 Fmt.f16.exp2V) s

/-- `log2.f16` (R100, R103). -/
def execLog2F16 (n : BitVec 1) (d a : BitVec 7) (s : State) : Host.Outcome State Fault Refusal :=
  unary32F { rnd := true, sat := true } n d a (one16 .f16 Fmt.f16.log2V) s

/-- `cmp.eq.f32` (R97). -/
def execCmpEqF32 (n : BitVec 1) (p : BitVec 3) (a b : BitVec 7) (s : State) : Host.Outcome State Fault Refusal :=
  compare32F n p a b false (fun c x y => Fmt.f32.compare (c.fz .f32) 0 x.toNat y.toNat) s

/-- `cmp.lt.f32` (R97). -/
def execCmpLtF32 (n : BitVec 1) (p : BitVec 3) (a b : BitVec 7) (s : State) : Host.Outcome State Fault Refusal :=
  compare32F n p a b false (fun c x y => Fmt.f32.compare (c.fz .f32) 1 x.toNat y.toNat) s

/-- `cmp.le.f32` (R97). -/
def execCmpLeF32 (n : BitVec 1) (p : BitVec 3) (a b : BitVec 7) (s : State) : Host.Outcome State Fault Refusal :=
  compare32F n p a b false (fun c x y => Fmt.f32.compare (c.fz .f32) 2 x.toNat y.toNat) s

/-- `cmp.eq.f64` (R97). -/
def execCmpEqF64 (n : BitVec 1) (p : BitVec 3) (a b : BitVec 7) (s : State) : Host.Outcome State Fault Refusal :=
  compare64F n p a b false (fun c x y => Fmt.f64.compare (c.fz .f64) 0 x.toNat y.toNat) s

/-- `cmp.lt.f64` (R97). -/
def execCmpLtF64 (n : BitVec 1) (p : BitVec 3) (a b : BitVec 7) (s : State) : Host.Outcome State Fault Refusal :=
  compare64F n p a b false (fun c x y => Fmt.f64.compare (c.fz .f64) 1 x.toNat y.toNat) s

/-- `cmp.le.f64` (R97). -/
def execCmpLeF64 (n : BitVec 1) (p : BitVec 3) (a b : BitVec 7) (s : State) : Host.Outcome State Fault Refusal :=
  compare64F n p a b false (fun c x y => Fmt.f64.compare (c.fz .f64) 2 x.toNat y.toNat) s

end Sys2Proof.Machine
end

