-- ==== Sys2Proof/Machine/Convert.lean ====
section
/-! DEFINITION. Majors 0x15-0x17: conversions (spec/05 R104, R105), lane reductions (R81, R106, R107) and the counter-based random
numbers (R108). -/

namespace Sys2Proof.Machine

/-- The rounding environment for a destination format: its own flush bit (R74). -/
def Ctx.cvt (c : Ctx) (src dst : Fmt) (x : Nat) : FRes := cvtFloat src dst (c.fz src) (c.env dst) x

/-- `cvt.f64.f32` (R104, Table 33). -/
def execCvtF64F32 (n : BitVec 1) (d a : BitVec 7) (s : State) : Host.Outcome State Fault Refusal :=
  widen {} n d a (fun c x => as64 (c.cvt .f32 .f64 x.toNat)) s

/-- `cvt.f32.f64` (R104, Table 33). -/
def execCvtF32F64 (n : BitVec 1) (d a : BitVec 7) (s : State) : Host.Outcome State Fault Refusal :=
  narrow { rnd := true, sat := true } n d a (fun c x => as32 (c.cvt .f64 .f32 x.toNat)) s

/-- `cvt.f32.f16` (R104, Table 33). -/
def execCvtF32F16 (n : BitVec 1) (d a : BitVec 7) (s : State) : Host.Outcome State Fault Refusal :=
  unary32F {} n d a (fun c x => as32 (c.cvt .f16 .f32 (bits x.toNat 0 16))) s

/-- `cvt.f16.f32` (R104, Table 33). -/
def execCvtF16F32 (n : BitVec 1) (d a : BitVec 7) (s : State) : Host.Outcome State Fault Refusal :=
  unary32F { rnd := true, sat := true } n d a (fun c x => as32 (c.cvt .f32 .f16 x.toNat)) s

/-- `cvt.f32.bf16` (R104, Table 33). -/
def execCvtF32Bf16 (n : BitVec 1) (d a : BitVec 7) (s : State) : Host.Outcome State Fault Refusal :=
  unary32F {} n d a (fun c x => as32 (c.cvt .bf16 .f32 (bits x.toNat 0 16))) s

/-- `cvt.bf16.f32` (R104, Table 33). -/
def execCvtBf16F32 (n : BitVec 1) (d a : BitVec 7) (s : State) : Host.Outcome State Fault Refusal :=
  unary32F { rnd := true, sat := true } n d a (fun c x => as32 (c.cvt .f32 .bf16 x.toNat)) s

/-- `cvt.s32.f32` (R104, Table 33). -/
def execCvtS32F32 (n : BitVec 1) (d a : BitVec 7) (s : State) : Host.Outcome State Fault Refusal :=
  unary32F { rnd := true } n d a (fun c x => as32 (cvtToInt .f32 (c.fz .f32) c.rm 32 true x.toNat)) s

/-- `cvt.z32.f32` (R104, Table 33). -/
def execCvtZ32F32 (n : BitVec 1) (d a : BitVec 7) (s : State) : Host.Outcome State Fault Refusal :=
  unary32F { rnd := true } n d a (fun c x => as32 (cvtToInt .f32 (c.fz .f32) c.rm 32 false x.toNat)) s

/-- `cvt.f32.s32` (R104, Table 33). -/
def execCvtF32S32 (n : BitVec 1) (d a : BitVec 7) (s : State) : Host.Outcome State Fault Refusal :=
  unary32F { rnd := true } n d a (fun c x => as32 (cvtFromInt .f32 (c.env .f32) x.toInt)) s

/-- `cvt.f32.z32` (R104, Table 33). -/
def execCvtF32Z32 (n : BitVec 1) (d a : BitVec 7) (s : State) : Host.Outcome State Fault Refusal :=
  unary32F { rnd := true } n d a (fun c x => as32 (cvtFromInt .f32 (c.env .f32) x.toNat)) s

/-- `cvt.s64.f64` (R104, Table 33). -/
def execCvtS64F64 (n : BitVec 1) (d a : BitVec 7) (s : State) : Host.Outcome State Fault Refusal :=
  unary64F { rnd := true } n d a (fun c x => as64 (cvtToInt .f64 (c.fz .f64) c.rm 64 true x.toNat)) s

/-- `cvt.f64.s64` (R104, Table 33). -/
def execCvtF64S64 (n : BitVec 1) (d a : BitVec 7) (s : State) : Host.Outcome State Fault Refusal :=
  unary64F { rnd := true } n d a (fun c x => as64 (cvtFromInt .f64 (c.env .f64) x.toInt)) s

/-- One level of the tree of R81: present values are combined in pairs of positions. -/
def treeLevel {α : Type} (f : α → α → α × BitVec 8) : List (Option α) → List (Option α) × BitVec 8
  | x :: y :: rest =>
    let r := treeLevel f rest
    match x, y with
    | some u, some v => (some (f u v).1 :: r.1, (f u v).2 ||| r.2)
    | some u, none => (some u :: r.1, r.2)
    | none, y => (y :: r.1, r.2)
  | l => (l, 0)

/-- The tree of R81 over its levels: the root, if any lane is present, and the union of the nodes' flags. -/
def treeReduce {α : Type} (f : α → α → α × BitVec 8) : Nat → List (Option α) → Option α × BitVec 8
  | 0, l => (l.headD none, 0)
  | n + 1, l => let a := treeLevel f l; let r := treeReduce f n a.1; (r.1, a.2 ||| r.2)

/-- The values of a reduction by lane position of the half a physical lane lies in (R106, R231). -/
def laneTree {α : Type} (c : Ctx) (half : Nat) (v : Nat → α) : List (Option α) :=
  (List.range c.w.plan).map fun i => if c.act.contains i then some (v (i + half * c.w.plan)) else none

def reduce32 (m : Mods) (n : BitVec 1) (d a : BitVec 7) (f : Ctx → W32 → W32 → W32 × BitVec 8) (s : State) : Host.Outcome State Fault Refusal :=
  issue (m.sig [.w32 d (n == 0), .r32 a]) s fun c s =>
    let r (half : Nat) := treeReduce (f c) 6 (laneTree c half fun i => c.src32 i a)
    finishUnion c s (r 0).2 fun s => if n = 1 then s else s.put32 c d fun i => (r (i / c.w.plan)).1.getD 0
def reduce64 (m : Mods) (n : BitVec 1) (d a : BitVec 7) (f : Ctx → W64 → W64 → W64 × BitVec 8) (s : State) : Host.Outcome State Fault Refusal :=
  issue (m.sig [.w64 d (n == 0), .r64 a]) s fun c s =>
    let r (half : Nat) := treeReduce (f c) 6 (laneTree c half fun i => c.src64 i a)
    finishUnion c s (r 0).2 fun s => if n = 1 then s else s.put64 c d fun i => (r (i / c.w.plan)).1.getD 0

/-- `rdc.add.f32` (R106, R81). -/
def execRdcAddF32 (n : BitVec 1) (d a : BitVec 7) (s : State) : Host.Outcome State Fault Refusal :=
  reduce32 { rnd := true } n d a (two32 Fmt.f32.addV) s

/-- `rdc.add.f64` (R106, R81). -/
def execRdcAddF64 (n : BitVec 1) (d a : BitVec 7) (s : State) : Host.Outcome State Fault Refusal :=
  reduce64 { rnd := true } n d a (two64 Fmt.f64.addV) s

/-- `rdc.min.f32` (R106). -/
def execRdcMinF32 (n : BitVec 1) (d a : BitVec 7) (s : State) : Host.Outcome State Fault Refusal :=
  reduce32 {} n d a (fun c x y => as32 (Fmt.f32.minMax (c.fz .f32) false x.toNat y.toNat)) s

/-- `rdc.max.f32` (R106). -/
def execRdcMaxF32 (n : BitVec 1) (d a : BitVec 7) (s : State) : Host.Outcome State Fault Refusal :=
  reduce32 {} n d a (fun c x y => as32 (Fmt.f32.minMax (c.fz .f32) true x.toNat y.toNat)) s

/-- `rdc.add.s32` (R107). -/
def execRdcAddS32 (n : BitVec 1) (d a : BitVec 7) (s : State) : Host.Outcome State Fault Refusal :=
  issue (({} : Mods).sig [.w32 d (n == 0), .r32 a]) s fun c s =>
    let r (half : Nat) := clamp32 (c.act.foldl (fun t i => t + (c.src32 (i + half * c.w.plan) a).toInt) 0)
    finishUnion c s (r 0).2 fun s => if n = 1 then s else s.put32 c d fun i => (r (i / c.w.plan)).1

/-- `rdc.add.z64` (R106). -/
def execRdcAddZ64 (n : BitVec 1) (d a : BitVec 7) (s : State) : Host.Outcome State Fault Refusal :=
  reduce64 {} n d a (fun _ x y => (x + y, 0)) s

/-- RngF (R108): the rounds from j on. -/
def rngRounds (k : W64) : Nat → Nat → W64 → W64
  | 0, _, x => x
  | n + 1, j, x =>
    let x := x + k.rotateLeft (16 * j) + BitVec.ofNat 64 (j * 0x9E3779B97F4A7C15)
    let x := (x ^^^ (x >>> 30)) * 0xBF58476D1CE4E5B9#64
    let x := (x ^^^ (x >>> 27)) * 0x94D049BB133111EB#64
    rngRounds k n (j + 1) (x ^^^ (x >>> 31))
def rngF (k c : W64) : W64 := rngRounds k 4 0 c

/-- `rngx.b32` (R108). -/
def execRngxB32 (n : BitVec 1) (d a b : BitVec 7) (s : State) : Host.Outcome State Fault Refusal :=
  issue (({} : Mods).sig [.w32 d (n == 0), .r64 a, .r64 b]) s fun c s =>
    .done (if n = 1 then s else s.put32 c d fun i => lo32 (rngF (c.src64 i a) (c.src64 i b)))

/-- `rngx.b64` (R108). -/
def execRngxB64 (n : BitVec 1) (d a b : BitVec 7) (s : State) : Host.Outcome State Fault Refusal :=
  issue (({} : Mods).sig [.w64 d (n == 0), .r64 a, .r64 b]) s fun c s =>
    .done (if n = 1 then s else s.put64 c d fun i => rngF (c.src64 i a) (c.src64 i b))

end Sys2Proof.Machine
end

