-- ==== Sys2Proof/Machine/MatrixMath.lean ====
section
/-! DEFINITION. What the matrix engine computes (spec/06 R120, R124, R126, R80, R82) and the arithmetic of quantisation (R139, R140). -/

namespace Sys2Proof.Machine

/-- Element k of an A row's code registers: 16-bit, 8-bit or 4-bit by format (R124). -/
def aElem (fmt : Nat) (regs : List W32) (k : Nat) : Nat :=
  if fmt ≤ 1 then bits (regs.getD (k / 2) 0).toNat (16 * (k % 2)) 16
  else if fmt = 2 then bits (regs.getD (k / 4) 0).toNat (8 * (k % 4)) 8
  else bits (regs.getD (k / 8) 0).toNat (4 * (k % 8)) 4

/-- A cassette byte of a reservation, by its offset in the range. -/
def cassByte (b : Block) (r : Resv) (off : Nat) : Nat := (Cells.get b.cass (r.off + off)).toNat

/-- Element k of column n, k counted from the operation's first chunk (R120). -/
def bElem (b : Block) (r : Resv) (bst k n : Nat) : Nat :=
  let kc := kcOf r.fmt
  let at_ := (bst + k / kc) * 4096 + n * 64
  let j := k % kc
  if r.fmt ≤ 1 then cassByte b r (at_ + 2 * j) + 256 * cassByte b r (at_ + 2 * j + 1)
  else if r.fmt = 2 then cassByte b r (at_ + j)
  else bits (cassByte b r (at_ + j / 2)) (4 * (j % 2)) 4

/-- B's scale and zero point of group g (counted from K = 0 of the reservation) and column n (R120). -/
def bScale (b : Block) (r : Resv) (g n : Nat) : Nat :=
  let o := r.sclo * 64 + (g * 64 + n) * 2
  cassByte b r o + 256 * cassByte b r (o + 1)
def bZero (b : Block) (r : Resv) (g n : Nat) : Nat :=
  if r.fmt = 2 then cassByte b r (r.zpo * 64 + g * 64 + n)
  else bits (cassByte b r (r.zpo * 64 + (g * 64 + n) / 2)) (4 * ((g * 64 + n) % 2)) 4

/-- A's scale and zero point of group g from its scale registers (R124). -/
def aScale (regs : List W32) (g : Nat) : Nat := bits (regs.getD g 0).toNat 0 16
def aZero (fmt : Nat) (regs : List W32) (g : Nat) : Nat := bits (regs.getD g 0).toNat 16 (if fmt = 2 then 8 else 4)

/-- The common quantum of the engine's exact sums: below every product of BF16 or FP16 values. -/
def sumUnit : Int := -300

/-- One chunk's exact sum with the accumulator, rounded once (R80, R126). A NaN or infinite product gives the canonical NaN
(notes/assumptions/12). A sum that is exactly zero is -0 only where the accumulator and every product are -0, which extends to many terms what R71 says of
two zeros of one sign (the model's choice, notes/assumptions/44). -/
def chunkSum (env : FEnv) (c : Nat) (terms : List (FVal × FVal)) : FRes :=
  let acc := Fmt.f32.read env.fz c
  let invalid := acc.isSnan || terms.any fun t => t.1.isSnan || t.2.isSnan || (!t.1.isNan && !t.2.isNan && (t.1.isInf || t.2.isInf))
  if acc.isNan || terms.any (fun t => t.1.isNan || t.2.isNan || t.1.isInf || t.2.isInf) then Fmt.f32.nan invalid
  else match acc with
    | .inf n => (Fmt.f32.inf n, 0)
    | _ =>
      let ps := terms.map fun t => mulExact t.1 t.2
      let total := ps.foldl (fun x p => x + p.units sumUnit) (acc.units sumUnit)
      if total = 0 then
        (Fmt.f32.zero (acc.isZero && acc.neg? && ps.all fun p => p.isZero && p.neg?), 0)
      else Fmt.f32.roundInt env total sumUnit

/-- An integer as a value. -/
def FVal.ofInt (x : Int) : FVal := if x = 0 then .zero false else .fin (decide (x < 0)) x.natAbs 0

/-- One group's contribution (R82): two roundings. -/
def groupSum (env : FEnv) (c : Nat) (s : Int) (sa sb : Nat) : FRes :=
  let va := Fmt.f16.read env.fz sa
  let vb := Fmt.f16.read env.fz sb
  let scale : FVal × Bool :=
    if zeroTimesInf va vb then (.nan false, true) else if va.isNan || vb.isNan then (.nan false, va.isSnan || vb.isSnan) else (mulExact va vb, false)
  let v := Fmt.f32.mulV env (FVal.ofInt s) scale.1
  let r := Fmt.f32.addV env (Fmt.f32.read env.fz c) (Fmt.f32.read false v.1)
  (r.1, r.2 ||| v.2 ||| (if scale.2 then flNv else 0))

/-- One entry of the product (R126): `a` holds the row's code registers, `m` its scale registers; the start value and the chunks. -/
def mmaEntry (o : MmaOp) (b : Block) (a m : List W32) (c0 : Nat) (n : Nat) : FRes :=
  let r := o.resv
  let env : FEnv := { rm := 0, fz := o.fpmode.getLsbD 2 }
  let kc := kcOf r.fmt
  let g := groupOf r.grp
  let g0 := o.bst * kc / g
  let start := if o.accumulate then c0 else 0
  let diff (k : Nat) : Int :=
    (((aElem r.fmt a k : Nat) : Int) - (aZero r.fmt m (k / g) : Nat)) * (((bElem b r o.bst k n : Nat) : Int) - (bZero b r (g0 + k / g) n : Nat))
  if r.fmt ≤ 1 then
    let f := if r.fmt = 0 then Fmt.bf16 else Fmt.f16
    (List.range o.chunks).foldl (fun (acc : FRes) ch =>
      let ts := (List.range kc).map fun j =>
        (f.read env.fz (aElem r.fmt a (ch * kc + j)), f.read env.fz (bElem b r o.bst (ch * kc + j) n))
      let x := chunkSum env acc.1 ts
      (x.1, acc.2 ||| x.2)) (start, 0)
  else if !o.integer then
    (List.range (o.chunks * kc / g)).foldl (fun (acc : FRes) i =>
      let s := (List.range g).foldl (fun t j => t + diff (i * g + j)) (0 : Int)
      let x := groupSum env acc.1 s (aScale m i) (bScale b r (g0 + i) n)
      (x.1, acc.2 ||| x.2)) (start, 0)
  else
    (List.range o.chunks).foldl (fun (acc : FRes) ch =>
      let s := (List.range kc).foldl (fun t j => t + diff (ch * kc + j)) (signed 32 acc.1)
      let x := clamp32 s
      (x.1.toNat, acc.2 ||| x.2)) (start, 0)

/-- One row of the product from one lane's A: its entries and the union of their flags. -/
def mmaRow (o : MmaOp) (b : Block) (lane : List W32) (old : Row) : List W32 × BitVec 8 :=
  let a := lane.take (16 * o.chunks)
  let m := lane.drop (16 * o.chunks)
  let es := (List.range 64).map fun n => mmaEntry o b a m (old.entries.getD n 0).toNat n
  (es.map fun e => BitVec.ofNat 32 e.1, es.foldl (fun f e => f ||| e.2) 0)

/-! ### Quantisation (R139, R140) -/

/-- The nearest integer of a / b, ties to even. -/
def rneDiv (a : Int) (b : Nat) : Int :=
  let q := a / (b : Int)
  let r := a % (b : Int)
  if 2 * r > (b : Int) || (2 * r = (b : Int) && q % 2 = 1) then q + 1 else q

def clampTo (x lo hi : Int) : Nat := (if x < lo then lo else if x > hi then hi else x).toNat

/-- FP16 values as integers of 2^-24. -/
def f16Units (v : FVal) : Int := v.units (-24)

/-- `quant` of one group (R139): the scale, the zero point, the codes, and whether it was not finite. -/
def quantGroup (fz : Bool) (q : Nat) (xs : List Nat) : Nat × Nat × List Nat × Bool :=
  let vs := xs.map (Fmt.f16.read fz)
  if vs.any fun v => v.isNan || v.isInf then
    (0x7E00, 0, vs.map fun v => match v with | .inf false => q | _ => 0, true)
  else
    let us := vs.map f16Units
    let lo := us.foldl min 0
    let hi := us.foldl max 0
    let s := if hi = lo then 0 else
      let r := quotient 16 (hi - lo).toNat q (-24)
      (Fmt.f16.round { rm := 0, fz := false } false r.1 r.2).1
    if s = 0 || (fz && s < 0x400) then (0, 0, us.map fun _ => 0, false)
    else
      let su := (f16Units (Fmt.f16.read false s)).toNat
      let z := clampTo (rneDiv (-lo) su) 0 q
      (s, z, us.map fun u => clampTo (rneDiv u su + z) 0 q, false)

/-- Codes packed into words, w bits each (R66). -/
def packCodes (w : Nat) (cs : List Nat) : List W32 :=
  let per := 32 / w
  (List.range (cs.length / per)).map fun i =>
    BitVec.ofNat 32 ((List.range per).foldl (fun t j => t + cs.getD (i * per + j) 0 * 2 ^ (w * j)) 0)

/-- 16-bit elements of registers, and the other way (R63). -/
def halves (rs : List W32) : List Nat := rs.flatMap fun r => [bits r.toNat 0 16, bits r.toNat 16 16]

/-- `dquant` of one group image (R140). -/
def dquantGroup (env : FEnv) (w g : Nat) (img : List W32) : List W32 × BitVec 8 :=
  let h := (img.headD 0).toNat
  let s := Fmt.f16.read env.fz (bits h 0 16)
  let z := bits h 16 w
  let code (k : Nat) : Nat := bits (img.getD (1 + k / (32 / w)) 0).toNat (w * (k % (32 / w))) w
  let xs := (List.range g).map fun k => Fmt.f16.mulV env s (FVal.ofInt ((code k : Int) - z))
  ((List.range (g / 2)).map fun i => BitVec.ofNat 32 ((xs.getD (2 * i) (0, 0)).1 + 65536 * (xs.getD (2 * i + 1) (0, 0)).1),
    xs.foldl (fun f x => f ||| x.2) 0)

end Sys2Proof.Machine
end

