-- ==== Sys2Proof/Machine/Matrix.lean ====
section
/-! DEFINITION. Majors 0x18 and 0x19: the matrix instructions and quantisation (spec/06 R113, R117, R122-R133, R138-R140). -/

namespace Sys2Proof.Machine

/-- Whether a table entry of the wave's block that an issue reads is poisoned (R315). -/
def State.tablePoison (s : State) (w : Wave) (reads : TableEntry → Bool) : Bool :=
  s.errors.any fun e => match e with | .table t b x => t == w.team && b == w.blk && reads x | _ => false

/-- Which entries: the tag table, the handles, one handle, the reservations, one of them, the scoreboard. -/
def isTag : TableEntry → Bool | .tag _ => true | _ => false
def isHandle : TableEntry → Bool | .handle _ => true | _ => false
def isHandleNo (n : Nat) : TableEntry → Bool | .handle k => k == n | _ => false
def isResv : TableEntry → Bool | .resv _ => true | _ => false
def isResvNo (n : Nat) : TableEntry → Bool | .resv k => k == n | _ => false
def isScore : TableEntry → Bool | .score _ => true | _ => false

/-- A poisoned scratchpad or pannier word among n bytes read through a wave's view (R315), or a poisoned scoreboard entry (R189): its storage code. -/
def State.viewPoison (s : State) (w : Wave) (va n : Nat) : Option Nat :=
  if s.errors.isEmpty then none
  else if s.tablePoison w isScore then some 4
  else (List.range n).findSome? fun i =>
    let ta := toTeam w.core (va + i)
    if (Held.get? w.pan ta).isSome then (if s.errors.any fun e => match e with | .pannier x a => x == w.wid && a / 8 == ta / 8 | _ => false then some 5 else none)
    else if s.errors.any fun e => match e with | .spad t a => t == w.team && a / 8 == ta / 8 | _ => false then some 1 else none

/-- A poisoned word among n of an accumulator row from one on: entries 0 to 63, the status 64 (R315). -/
def State.rowPoison (s : State) (w : Wave) (r from_ n : Nat) : Bool :=
  s.errors.any fun e => match e with | .row t b x k => t == w.team && b == w.blk && x == r && decide (from_ ≤ k) && decide (k < from_ + n) | _ => false

/-- Whether a row lies in the wave's window (R113). -/
def Wave.inWindow (w : Wave) (r : Nat) : Bool := decide (w.winBase ≤ r) && decide (r < w.winLimit)

/-- The row may be accessed by a group: it lies in the window; a group that has issued and waits for its rows keeps them whatever an `mwin` sets since
(R117, R131). -/
def Wave.mayReach (w : Wave) (first : W57) (r : Nat) : Bool := w.inWindow r || w.rowWait.any fun e => e.1 == first && e.2.2.contains r

/-- The row and the column group that a lane names (R128). -/
def rowOf (x : W32) : Nat := bits x.toNat 0 13
def colOf (x : W32) : Nat := bits x.toNat 16 3

/-- The checks of R125 that need no reservation. -/
def mmaIllegal (n : Nat) (p : List Byte) : Bool :=
  let b (i : Nat) : Nat := leAt p i 1
  bits (b 0) 7 1 ≠ 0 || bits (b 1) 7 1 ≠ 0 || bits (b 2) 3 5 ≠ 0 || bits (b 2) 0 3 = 0 || bits (b 3) 2 6 ≠ 0 || (p.drop 10).any (· ≠ 0) ||
    b 0 + 16 * b 2 > n

/-- The first failure of R125 for a parameter block, a reservation and a wave; none when the operation may enter the engine. -/
def mmaCheck (w : Wave) (p : List Byte) (r : Option Resv) : Option Nat :=
  let areg := leAt p 0 1
  let ameta := leAt p 1 1
  let nc := leAt p 2 1
  let int := bits (leAt p 3 1) 1 1 = 1
  let bst := leAt p 6 2
  let row := leAt p 8 2
  let latchBad := match w.mlatch with | some l => l.areg ≠ areg || l.ameta ≠ ameta || l.chunks ≠ nc | none => false
  if mmaIllegal w.nregs p || latchBad then some Cause.illegal
  else match r with
    | none => some Cause.cassRange
    | some r =>
      let kc := kcOf r.fmt
      let g := groupOf r.grp
      let ng := groupsIn r.fmt r.grp nc
      let g0 := bst * kc / g
      let aq := decide (2 ≤ r.fmt)
      if (!aq && (int || ameta ≠ 0)) || (aq && (nc * kc % g ≠ 0 || ameta + ng > w.nregs)) then some Cause.illegal
      else if (bst + nc) * 4096 > r.len || (aq && bst * kc % g ≠ 0) || (aq && !int && r.sclo * 64 + (g0 + ng) * 128 > r.len) ||
          (r.fmt = 2 && r.zpo * 64 + (g0 + ng) * 64 > r.len) || (r.fmt = 3 && r.zpo * 64 + (g0 + ng) * 32 > r.len) then some Cause.cassRange
      else if row < w.winBase || row + w.plan > w.winLimit then some Cause.accWindow
      else none

/-- The live reservation that a block's handle names (R119). -/
def State.liveResv (s : State) (w : Wave) (h : Nat) : Option Resv :=
  s.resvs.find? fun r => r.core == w.core && r.idx == h && r.team == w.team && r.blk == w.blk && r.live

/-- The registers of an A operand (R124). -/
def MLatch.regs (l : MLatch) : List Nat := (List.range (16 * l.chunks)).map (l.areg + ·) ++ (List.range l.scales).map (l.ameta + ·)

/-- `mma` (R124, R125, R127): the checks in their order, then the snapshot enters the engine; the wave goes on, once the registers of A hold their
values (R111). An operation that takes A from a
held latch reads the scale registers that its own reservation asks for; those beyond the latch's it reads at issue, where nothing protects
them since the latch was set: the spec does not say (the model's choice, notes/assumptions/44). -/
def execMma (a : BitVec 7) (s : State) : Host.Outcome State Fault Refusal :=
  issue { flds := [.unused 0x7C, .r32 a, .unused 0x7C], reuse := true, scalar := true, ends := true, matrix := true } s fun c s =>
    let va := (c.src32 c.elected a).toNat
    if va % 32 ≠ 0 || !inOwnView (s.viewSize c.w) va 32 then .fault Cause.illegal
    else if s.guarded c.w.team (toTeam c.w.core va) 32 false then .stall
    else match s.viewPoison c.w va 32 with
      | some k => .poisoned k
      | none =>
        let p := s.viewBytes c.w va 32
        let r := s.liveResv c.w (leAt p 4 2)
        if s.tablePoison c.w (isResvNo (leAt p 4 2)) then .poisoned 4 else
        match mmaCheck c.w p r with
        | some cause => .fault cause
        | none =>
          match r with
          | none => .fault Cause.cassRange
          | some r =>
            if s.engineUse c.w.core ≥ Config.mmaDepth then .stall else
            let scales := groupsIn r.fmt r.grp (leAt p 2 1)
            let snap := c.w.mlatch.map fun _ => c.w.lanes.map fun l => aRegs l (leAt p 0 1) (leAt p 1 1) (leAt p 2 1) scales
            let op : MmaOp :=
              { id := s.nextId, core := c.w.core, team := c.w.team, blk := c.w.blk, wid := c.w.wid, widx := c.w.idx, width := c.w.width,
                grade := c.w.grade, asid := c.w.asid, param := p, resv := r, fpmode := c.w.fpmode, snap := snap, phase := .issued, flags := 0,
                launch := s.launchOf c.w.team }
            let latch : MLatch := { areg := leAt p 0 1, ameta := leAt p 1 1, chunks := leAt p 2 1, scales := scales }
            let s := { s with mmas := s.mmas ++ [op], nextId := s.nextId + 1 }
            .done (s.updWave c.w.wid fun w => ({ w with mlatch := if c.reuse then some (w.mlatch.getD latch) else none } : Wave).awaits latch.regs)

/-- `mread` (R128). -/
def execMread (d a : BitVec 7) (s : State) : Host.Outcome State Fault Refusal :=
  issue { flds := [.range d 8 true, .r32 a], scalar := true, ends := true, matrix := true } s fun c s =>
    let row (i : Nat) := rowOf (c.src32 i a)
    if c.act.any fun i => !c.w.mayReach c.g.first (row i) then .fault Cause.accWindow
    else if c.act.any fun i => s.rowBusy c.w c.g.first (row i) then .hold (s.awaitRows c.w c.g.first (c.act.map row))
    else if c.act.any fun i => s.rowPoison c.w (row i) (8 * colOf (c.src32 i a)) 8 then .poisoned 2
    else match s.block? c.w.team c.w.blk with
      | none => .done s
      | some b => .done (s.putRange c d fun i => ((b.row (row i)).entries.drop (8 * colOf (c.src32 i a))).take 8)

/-- Write 8 entries of a row, leaving its status (R128). -/
def Row.set8 (r : Row) (q : Nat) (xs : List W32) : Row :=
  { r with entries := r.entries.mapIdx fun j x => if j / 8 = q then xs.getD (j % 8) 0 else x }

/-- `mwrite` (R128): lanes in ascending order, so the higher lane's value remains. -/
def execMwrite (a b : BitVec 7) (s : State) : Host.Outcome State Fault Refusal :=
  issue { flds := [.r32 a, .range b 8 false], scalar := true, ends := true, matrix := true } s fun c s =>
    let row (i : Nat) := rowOf (c.src32 i a)
    if c.act.any fun i => !c.w.mayReach c.g.first (row i) then .fault Cause.accWindow
    else if c.act.any fun i => s.rowBusy c.w c.g.first (row i) then .hold (s.awaitRows c.w c.g.first (c.act.map row))
    else .done ((s.forget fun e => match e with
        | .row t b r k => t == c.w.team && b == c.w.blk && c.act.any fun i => row i == r && colOf (c.src32 i a) == k / 8
        | _ => false).updBlock c.w.team c.w.blk fun k =>
      c.act.foldl (fun k i => k.setRow (row i) ((k.row (row i)).set8 (colOf (c.src32 i a)) (c.srcRange i b 8))) k)

/-- `mzero` (R129). -/
def execMzero (a : BitVec 7) (s : State) : Host.Outcome State Fault Refusal :=
  issue { flds := [.r32 a], scalar := true, ends := true, matrix := true } s fun c s =>
    let x := c.src32 c.elected a
    let rows := (List.range (bits x.toNat 16 13)).map (rowOf x + ·)
    if rows.any fun r => !c.w.mayReach c.g.first r then .fault Cause.accWindow
    else if rows.any fun r => s.rowBusy c.w c.g.first r then .hold (s.awaitRows c.w c.g.first rows)
    else
      let s := s.forget fun e => match e with | .row t b r _ => t == c.w.team && b == c.w.blk && rows.contains r | _ => false
      .done (s.updBlock c.w.team c.w.blk fun k => rows.foldl (fun k r => k.setRow r Row.zero) k)

/-- The bits of a row status that a mask of ones clears (Table 40). -/
def statusW1c : W32 := 0x4000009D

/-- `mstat` (R130): every lane reads before any lane clears; `own` shows an operation issued since (Table 40). -/
def execMstat (d a b : BitVec 7) (s : State) : Host.Outcome State Fault Refusal :=
  issue { flds := [.w32 d true, .r32 a, .r32 b], scalar := true, ends := true, matrix := true } s fun c s =>
    let row (i : Nat) := rowOf (c.src32 i a)
    if c.act.any fun i => !c.w.mayReach c.g.first (row i) then .fault Cause.accWindow
    else if c.act.any fun i => s.rowBusy c.w c.g.first (row i) then .hold (s.awaitRows c.w c.g.first (c.act.map row))
    else if c.act.any fun i => s.rowPoison c.w (row i) 64 1 then .poisoned 2
    else match s.block? c.w.team c.w.blk with
      | none => .done s
      | some k =>
        let own (i : Nat) : W32 := if s.owned c.w.team c.w.blk (row i) then 0x80000000 else 0
        let s := s.put32 c d fun i => (k.row (row i)).status ||| own i
        .done (s.updBlock c.w.team c.w.blk fun k =>
          c.act.foldl (fun k i => k.setRow (row i) { k.row (row i) with status := (k.row (row i)).status &&& ~~~(c.src32 i b &&& statusW1c) }) k)

/-- The block leader: the resident wave with the lowest `%wave`, none that is parked (R113, R289). -/
def State.isLeader (s : State) (w : Wave) : Bool :=
  (s.blockWaves w.team w.blk).all fun x => x.isRack || x.parkedIn?.isSome || decide (w.idx ≤ x.idx)

/-- The status of one lane of `mwin` (Table 44), in the order 3, 2, 1. A wave that is parked in a record is no resident target: R131 does not say
(the model's choice, notes/assumptions/44). -/
def State.mwinStatus (s : State) (w : Wave) (t base limit : Nat) : W32 :=
  if !s.isLeader w then 3
  else match (s.blockWaves w.team w.blk).find? fun x => x.idx == t && !x.isRack && x.parkedIn?.isNone with
    | none => 2
    | some x =>
      if base > limit || limit > ((s.block? w.team w.blk).map (·.acc)).getD 0 then 2
      else if s.locked x.wid then 1 else 0

/-- `mwin` (R131): a window is replaced whole, so a mark on it clears (R315). -/
def execMwin (d a b : BitVec 7) (s : State) : Host.Outcome State Fault Refusal :=
  issue { flds := [.w32 d true, .r32 a, .r32 b], scalar := true, ends := true } s fun c s =>
    let t (i : Nat) := bits (c.src32 i a).toNat 0 4
    let base (i : Nat) := bits (c.src32 i b).toNat 0 13
    let limit (i : Nat) := bits (c.src32 i b).toNat 16 13
    let st (i : Nat) := s.mwinStatus c.w (t i) (base i) (limit i)
    let target (i : Nat) (x : Wave) : Bool := x.team == c.w.team && x.blk == c.w.blk && x.idx == t i && !x.isRack
    let s1 := c.act.foldl (fun (u : State) i =>
      if st i = 0 then
        let u := u.forget fun e => match e with | .waveReg w k => k == 2 && s.waves.any fun x => target i x && x.wid == w | _ => false
        { u with waves := updWhere u.waves (target i) (fun x => { x with winBase := base i, winLimit := limit i }) }
      else u) s
    .done (s1.put32 c d fun i => st i)

/-- The reason of a descriptor that `crsv` refuses (R132); 0 when it stands. -/
def State.crsvReason (s : State) (w : Wave) (p : List Byte) : Nat :=
  let off := leAt p 0 4
  let len := leAt p 4 4
  let fmt := leAt p 8 1
  let grp := leAt p 9 1
  let cap := ((s.block? w.team w.blk).map (·.cassLen)).getD 0
  if off % 256 ≠ 0 || len % 256 ≠ 0 || len < 256 || fmt > 3 || (if fmt ≤ 1 then grp ≠ 0 else grp = 0 || grp > 3) || leAt p 10 2 ≠ 0 ||
      (fmt ≤ 1 && (leAt p 12 2 ≠ 0 || leAt p 14 2 ≠ 0)) then 1
  else if off ≥ cap || off + len > cap then 2
  else if s.resvs.any fun r => r.team == w.team && r.blk == w.blk && overlap r.off r.len off len then 3
  else if (s.resvs.filter fun r => r.core == w.core).length ≥ Config.reservations then 4
  else 0

/-- `crsv` (R132). -/
def execCrsv (d a : BitVec 7) (s : State) : Host.Outcome State Fault Refusal :=
  issue { flds := [.w32 d true, .r32 a], scalar := true, ends := true } s fun c s =>
    let va := (c.src32 c.elected a).toNat
    if va % 16 ≠ 0 || !inOwnView (s.viewSize c.w) va 16 then .fault Cause.illegal
    else if s.guarded c.w.team (toTeam c.w.core va) 16 false then .stall
    else match s.viewPoison c.w va 16 with
      | some k => .poisoned k
      | none =>
        if s.tablePoison c.w isResv then .poisoned 4
        else
          let p := s.viewBytes c.w va 16
          let n := s.crsvReason c.w p
          if n ≠ 0 then .done (s.put32 c d fun _ => BitVec.ofNat 32 (n * 65536 + 0xFFFF))
          else match (List.range Config.reservations).find? fun i => !s.resvs.any fun r => r.core == c.w.core && r.idx == i with
            | none => .done (s.put32 c d fun _ => 0x4FFFF)
            | some i =>
              let r : Resv :=
                { core := c.w.core, idx := i, team := c.w.team, blk := c.w.blk, off := leAt p 0 4, len := leAt p 4 4, fmt := leAt p 8 1,
                  grp := leAt p 9 1, sclo := leAt p 12 2, zpo := leAt p 14 2, live := true }
              .done (({ s with resvs := s.resvs ++ [r] }).put32 c d fun _ => BitVec.ofNat 32 i)

/-- `crel` (R133). -/
def execCrel (d a : BitVec 7) (s : State) : Host.Outcome State Fault Refusal :=
  issue { flds := [.w32 d true, .r32 a], scalar := true, ends := true } s fun c s =>
    let h := bits (c.src32 c.elected a).toNat 0 16
    if s.tablePoison c.w (isResvNo h) then .poisoned 4
    else match s.liveResv c.w h with
      | none => .done (s.put32 c d fun _ => 1)
      | some r =>
        let s := { s with resvs := updWhere s.resvs (fun x => x.core == r.core && x.idx == r.idx && x.team == r.team && x.blk == r.blk) fun x => { x with live := false } }
        .done (s.freeResvs.put32 c d fun _ => 0)

/-! ### Quantisation -/

/-- The group length that a code names (R138). -/
def quantLen (g : BitVec 7) : Nat := if g = 0x20 then 32 else if g = 0x40 then 64 else 128
def quantCodeOk (g : BitVec 7) : Bool := g == 0x20 || g == 0x40

/-- `quant` of codes of w bits (R138, R139). -/
def quantWith (w : Nat) (d a g : BitVec 7) (s : State) : Host.Outcome State Fault Refusal :=
  let n := quantLen g
  issue { flds := [.range d (1 + n * w / 32) true, .range a (n / 2) false], ok := quantCodeOk g, ends := true } s fun c s =>
    let r (i : Nat) := quantGroup (c.fz .f16) (2 ^ w - 1) (halves (c.srcRange i a (n / 2)))
    finishFlags c s (fun i => if (r i).2.2.2 then flQnf else 0) fun s =>
      s.putRange c d fun i => BitVec.ofNat 32 ((r i).1 + 65536 * (r i).2.1) :: packCodes w (r i).2.2.1

/-- `dquant` of codes of w bits (R138, R140). -/
def dquantWith (w : Nat) (d a g : BitVec 7) (s : State) : Host.Outcome State Fault Refusal :=
  let n := quantLen g
  issue { flds := [.range d (n / 2) true, .range a (1 + n * w / 32) false], ok := quantCodeOk g, rnd := true, ends := true } s fun c s =>
    let r (i : Nat) := dquantGroup (c.env .f16) w n (c.srcRange i a (1 + n * w / 32))
    finishFlags c s (fun i => (r i).2) fun s => s.putRange c d fun i => (r i).1

/-- `quant.aq8` (R139). -/
def execQuantAq8 (d a g : BitVec 7) (s : State) : Host.Outcome State Fault Refusal := quantWith 8 d a g s
/-- `quant.aq4` (R139). -/
def execQuantAq4 (d a g : BitVec 7) (s : State) : Host.Outcome State Fault Refusal := quantWith 4 d a g s
/-- `dquant.aq8` (R140). -/
def execDquantAq8 (d a g : BitVec 7) (s : State) : Host.Outcome State Fault Refusal := dquantWith 8 d a g s
/-- `dquant.aq4` (R140). -/
def execDquantAq4 (d a g : BitVec 7) (s : State) : Host.Outcome State Fault Refusal := dquantWith 4 d a g s

end Sys2Proof.Machine
end

