-- ==== Sys2Proof/Machine/LoadStore.lean ====
section
/-! DEFINITION. Majors 0x20-0x22: scratchpad loads and stores (spec/08 R173-R175, R143) and the tag table (R176, R177). In a prologue
both address the prologue area (R245). -/

namespace Sys2Proof.Machine

/-- The effective address of a lane (R174). -/
def Ctx.ea (c : Ctx) (i : Nat) (a o : BitVec 7) (size : Nat) : Nat :=
  unsignedOf 32 (((c.src32 i a).toNat : Int) + wideValue c.g 7 o.toNat * (size : Int))

/-- Whether a lane's access breaks R174 (or lies outside the prologue area). -/
def State.badAccess (s : State) (w : Wave) (ea size : Nat) : Bool :=
  ea % size ≠ 0 || (match w.prologue with | some _ => decide (ea + size > 4096) | none => !inView (s.viewSize w) ea size)

/-- n bytes as a wave loads them: through its view, or from the prologue area. -/
def State.loadBytes (s : State) (w : Wave) (ea n : Nat) : List Byte :=
  match w.prologue with | some p => (p.area.drop ea).take n | none => s.viewBytes w ea n

/-- Whether any access of the lanes of Active is held back by the scoreboard (R175, R189). -/
def State.anyGuarded (s : State) (c : Ctx) (ea : Nat → Nat) (size : Nat) (store : Bool) : Bool :=
  c.w.prologue.isNone && c.act.any fun i => s.guarded c.w.team (toTeam c.w.core (ea i)) size store

/-- A load (R173-R175): every lane is checked before any is read. -/
def loadWith (size : Nat) (sext pair : Bool) (d a o : BitVec 7) (s : State) : Host.Outcome State Fault Refusal :=
  issue { flds := [if pair then .w64 d true else .w32 d true, .r32 a], scalar := true, wides := 2, ends := true, pro := true } s fun c s =>
    if c.act.any fun i => s.badAccess c.w (c.ea i a o size) size then .fault Cause.illegal
    else if s.anyGuarded c (fun i => c.ea i a o size) size false then .stall
    else match c.act.findSome? fun i => s.viewPoison c.w (c.ea i a o size) size with
      | some k => .poisoned k
      | none =>
        let v (i : Nat) : Nat := leNat (s.loadBytes c.w (c.ea i a o size) size)
        if pair then .done (s.put64 c d fun i => BitVec.ofNat 64 (v i))
        else .done (s.put32 c d fun i => if sext then BitVec.ofInt 32 (signed (8 * size) (v i)) else BitVec.ofNat 32 (v i))

/-- The pannier after a store of the lanes of Active, ascending, so that the higher lane's bytes remain (R143). -/
def storePan (c : Ctx) (ea : Nat → Nat) (data : Nat → List Byte) : Held :=
  c.act.foldl (fun h i => Held.putBytes h (toTeam c.w.core (ea i)) (data i)) c.w.pan

/-- The pannier words whose eight bytes a store replaces (R315). -/
def panReplaced (c : Ctx) (ea : Nat → Nat) (size : Nat) : StoreLoc → Bool
  | .pannier w x => w == c.w.wid && (List.range 8).all fun k => c.act.any fun i =>
      decide (toTeam c.w.core (ea i) ≤ x / 8 * 8 + k) && decide (x / 8 * 8 + k < toTeam c.w.core (ea i) + size)
  | _ => false

/-- A store (R173-R175, R143): into the pannier, or the prologue area. -/
def storeWith (size : Nat) (pair : Bool) (d a o : BitVec 7) (s : State) : Host.Outcome State Fault Refusal :=
  let bytes (c : Ctx) (i : Nat) : List Byte := leBytes size (if pair then (c.src64 i d).toNat else (c.src32 i d).toNat)
  issueWith { flds := [if pair then .st64 d else .st32 d, .r32 a], scalar := true, wides := 2, ends := true, pro := true }
    (fun c i => [BitVec.ofNat 64 (c.ea i a o size), BitVec.ofNat 64 (leNat (bytes c i))]) s fun c s =>
    if c.act.any fun i => s.badAccess c.w (c.ea i a o size) size then .fault Cause.illegal
    else if s.anyGuarded c (fun i => c.ea i a o size) size true then .stall
    else if c.w.prologue.isNone && s.tablePoison c.w isScore then .poisoned 4
    else match c.w.prologue with
      | some p => .done (s.updWave c.w.wid fun w => { w with
          prologue := some { p with area := c.act.foldl (fun m i => patchBytes m (c.ea i a o size) (bytes c i)) p.area } })
      | none =>
        let pan := storePan c (fun i => c.ea i a o size) (bytes c)
        if (sectorsOf pan).length + c.w.reds.length > Config.pannierSectors then .fault Cause.pannierFull
        else .done ((s.forget (panReplaced c (fun i => c.ea i a o size) size)).updWave c.w.wid fun w => { w with pan := pan })

/-- `ld.z8` (R173). -/
def execLdZ8 (d a o : BitVec 7) (s : State) : Host.Outcome State Fault Refusal := loadWith 1 false false d a o s
/-- `ld.s8` (R173). -/
def execLdS8 (d a o : BitVec 7) (s : State) : Host.Outcome State Fault Refusal := loadWith 1 true false d a o s
/-- `ld.z16` (R173). -/
def execLdZ16 (d a o : BitVec 7) (s : State) : Host.Outcome State Fault Refusal := loadWith 2 false false d a o s
/-- `ld.s16` (R173). -/
def execLdS16 (d a o : BitVec 7) (s : State) : Host.Outcome State Fault Refusal := loadWith 2 true false d a o s
/-- `ld.b32` (R173). -/
def execLdB32 (d a o : BitVec 7) (s : State) : Host.Outcome State Fault Refusal := loadWith 4 false false d a o s
/-- `ld.b64` (R173). -/
def execLdB64 (d a o : BitVec 7) (s : State) : Host.Outcome State Fault Refusal := loadWith 8 false true d a o s
/-- `st.b8` (R173). -/
def execStB8 (d a o : BitVec 7) (s : State) : Host.Outcome State Fault Refusal := storeWith 1 false d a o s
/-- `st.b16` (R173). -/
def execStB16 (d a o : BitVec 7) (s : State) : Host.Outcome State Fault Refusal := storeWith 2 false d a o s
/-- `st.b32` (R173). -/
def execStB32 (d a o : BitVec 7) (s : State) : Host.Outcome State Fault Refusal := storeWith 4 false d a o s
/-- `st.b64` (R173). -/
def execStB64 (d a o : BitVec 7) (s : State) : Host.Outcome State Fault Refusal := storeWith 8 true d a o s

/-! ### The tag table -/

/-- The slot of a key. -/
def tagOf (tags : List (W64 × W16)) (k : W64) : Option W16 := (tags.find? fun e => e.1 == k).map (·.2)

/-- One lane of `tagset` (Table 57): the table after it and the status. -/
def tagSetOne (share : Nat) (tags : List (W64 × W16)) (k : W64) (v : W16) : List (W64 × W16) × W32 :=
  if v = 0xFFFF then (tags, 3)
  else if (tagOf tags k).isSome then (tags.map fun e => if e.1 = k then (k, v) else e, 1)
  else if tags.length < share then (tags ++ [(k, v)], 0)
  else (tags, 2)

/-- Run a tag instruction over the lanes of Active in ascending order: the table and the statuses by lane. -/
def tagFold (act : List Nat) (f : List (W64 × W16) → Nat → List (W64 × W16) × W32) (tags : List (W64 × W16)) : List (W64 × W16) × List (Nat × W32) :=
  act.foldl (fun acc i => let r := f acc.1 i; (r.1, acc.2 ++ [(i, r.2)])) (tags, [])

/-- A tag instruction on the block's table (R176, R177); shadows receive their lane's status. -/
def tagWith (sg : Sig) (d : BitVec 7) (f : Ctx → Nat → List (W64 × W16) → Nat → List (W64 × W16) × W32) (s : State) : Host.Outcome State Fault Refusal :=
  issue sg s fun c s =>
    if s.tablePoison c.w isTag then .poisoned 4
    else
      let tags := ((s.block? c.w.team c.w.blk).map (·.tags)).getD []
      let share := 128 * ((s.team? c.w.team).map (·.nwaves)).getD 0
      let r := tagFold c.act (f c share) tags
      let s := s.updBlock c.w.team c.w.blk fun b => { b with tags := r.1 }
      .done (s.put32 c d fun i => (assoc r.2 (c.index i)).getD 0)

/-- `tagq` (Table 57). -/
def execTagq (d a : BitVec 7) (s : State) : Host.Outcome State Fault Refusal :=
  tagWith { flds := [.w32 d true, .r64 a], scalar := true, ends := true } d
    (fun c _ tags i => (tags, match tagOf tags (c.src64 i a) with | some v => v.setWidth 32 | none => 0xFFFF)) s

/-- `tagset` (Table 57). -/
def execTagset (d a b : BitVec 7) (s : State) : Host.Outcome State Fault Refusal :=
  tagWith { flds := [.w32 d true, .r64 a, .r32 b], scalar := true, ends := true } d
    (fun c share tags i => tagSetOne share tags (c.src64 i a) ((c.src32 i b).setWidth 16)) s

/-- `tagclr` (Table 57). -/
def execTagclr (d a : BitVec 7) (s : State) : Host.Outcome State Fault Refusal :=
  tagWith { flds := [.w32 d true, .r64 a], scalar := true, ends := true } d
    (fun c _ tags i => (tags.filter fun e => e.1 != c.src64 i a, if (tagOf tags (c.src64 i a)).isSome then 0 else 1)) s

/-- `taginv` (Table 57): the number removed, in every lane of Active. -/
def execTaginv (d : BitVec 7) (s : State) : Host.Outcome State Fault Refusal :=
  issue { flds := [.w32 d true], scalar := true, ends := true } s fun c s =>
    let n := ((s.block? c.w.team c.w.blk).map (·.tags.length)).getD 0
    let s := s.forget fun e => match e with | .table t b x => t == c.w.team && b == c.w.blk && isTag x | _ => false
    .done ((s.updBlock c.w.team c.w.blk fun b => { b with tags := [] }).put32 c d fun _ => BitVec.ofNat 32 n)

end Sys2Proof.Machine
end

