-- ==== Sys2Proof/Machine/Copy.lean ====
section
/-! DEFINITION. Major 0x23: the issue of copies (spec/08 R178-R180, R189, R159) and the handle instructions (R185, R186, Table 63). What
the copy engine then does stands in the engine files. -/

namespace Sys2Proof.Machine

/-! ### The scalar block (Table 58) -/

def scal (sc : List W64) (i : Nat) : Nat := (sc.getD i 0).toNat
/-- Element size in bytes. -/
def scalSize (sc : List W64) : Nat := 2 ^ bits (scal sc 0) 57 2
/-- The global address of the layout record. -/
def scalRecord (sc : List W64) : Nat := bits (scal sc 0) 0 57
def scalCassette (sc : List W64) : Bool := bits (scal sc 0) 59 1 == 1
/-- The box sizes B0 to B4. -/
def scalBox (sc : List W64) : List Nat :=
  [bits (scal sc 4) 0 16 + 1, bits (scal sc 4) 16 16 + 1, bits (scal sc 4) 32 16 + 1, bits (scal sc 4) 48 16 + 1, bits (scal sc 3) 32 16 + 1]
/-- The start coordinates c0 to c4. -/
def scalStart (sc : List W64) : List Int :=
  [signed 32 (bits (scal sc 1) 0 32), signed 32 (bits (scal sc 1) 32 32), signed 32 (bits (scal sc 2) 0 32), signed 32 (bits (scal sc 2) 32 32),
   signed 32 (bits (scal sc 3) 0 32)]
/-- The image size N × sz from all five box sizes (R179). -/
def scalBytes (sc : List W64) : Nat := (scalBox sc).foldl (· * ·) 1 * scalSize sc

/-- The image address and the handle of operand a (R178). -/
def copyImage (a : W32) : Nat := bits a.toNat 0 22
def copyHandle (a : W32) : Nat := bits a.toNat 22 8

/-- The handle of a block, if it is allocated. -/
def Block.handle? (b : Block) (n : Nat) : Option Handle := b.handles.find? fun h => h.num == n
def State.handleOf? (s : State) (w : Wave) (n : Nat) : Option Handle := (s.block? w.team w.blk).bind fun b => b.handle? n

/-- Step 1 of R180 for a copy: what makes it ILLEGAL. -/
def State.copyIllegal (s : State) (w : Wave) (k : CopyKind) (sreg : Nat) (a : W32) (sc : List W64) (dig : W32) : Bool :=
  let v := s.viewSize w
  let size := scalBytes sc
  let img := copyImage a
  decide (sreg > 27) || bits (scal sc 0) 60 4 ≠ 0 || bits (scal sc 3) 48 16 ≠ 0 || scalRecord sc % 64 ≠ 0 || (scalCassette sc && k ≠ .inward) ||
  img % scalSize sc ≠ 0 || (!scalCassette sc && !inView v img size) ||
  (k == .digest && (dig.toNat % 32 ≠ 0 || !inView v dig.toNat (digestLen size))) ||
  (match s.handleOf? w (copyHandle a) with | some h => !(h.state == .free || h.state == .full) | none => true)

/-- Whether a new copy waits on entries of Table 64: its image as source or destination, and its digest area. -/
def State.copyHeld (s : State) (w : Wave) (k : CopyKind) (a : W32) (sc : List W64) (dig : W32) : Bool :=
  let size := scalBytes sc
  let img := toTeam w.core (copyImage a)
  let hit (g : Guarded) (ta n : Nat) : Bool := g.team == w.team && overlap g.start g.len ta n
  match k with
  | .inward =>
    if scalCassette sc then s.copies.any fun c => c.kind == .inward && c.cassette && c.team == w.team && c.blk == w.blk && overlap c.start c.len (copyImage a) size
    else s.guards.any fun g => hit g img size
  | _ =>
    s.guards.any (fun g => g.kind ≠ 1 && hit g img size) ||
    (k == .digest && s.guards.any fun g => g.kind ≠ 1 && hit g (toTeam w.core dig.toNat) (digestLen size))

/-- Pending outward data that a core keeps (R159): of its pending copies the model keeps the data of those that fit when they issue, each whole (the model's
choice, notes/assumptions/44). -/
def State.pendingKept (s : State) (core : Nat) : Nat := ((s.copies.filter fun c => c.core == core && c.pendingOut && c.stored).map (·.len)).sum

/-- Issue a copy (R178-R180, R189): the checks, the waits, then the handle moves and the engine holds it. -/
def copyWith (k : CopyKind) (flds : List Fld) (a d : BitVec 7) (s : State) : Host.Outcome State Fault Refusal :=
  let sreg (c : Ctx) : Nat := match c.g.modifier with | some m => modSreg m | none => 0
  let block (c : Ctx) : List W64 := (List.range 5).map fun i => c.w.sregs.getD (sreg c + i) 0
  issueWith { flds := flds ++ [.r32 a, .code 0x7E true], scalar := true, ends := true, ok := a != 0x7E && d != 0x7E }
    (fun c i => [(c.src32 i a).setWidth 64, (c.src32 i d).setWidth 64]) s fun c s =>
    let av := c.src32 c.elected a
    let dv := c.src32 c.elected d
    let sc := block c
    if (List.range 5).any fun i => s.errors.contains (.sreg c.w.wid (sreg c + i)) then .poisoned 5
    else if s.tablePoison c.w (isHandleNo (copyHandle av)) || s.tablePoison c.w isScore then .poisoned 4
    else if s.copyIllegal c.w k (sreg c) av sc dv then .fault Cause.illegal
    else if scalCassette sc && !(s.resvs.any fun r => r.team == c.w.team && r.blk == c.w.blk && r.live &&
        decide (r.off ≤ copyImage av) && decide (copyImage av + scalBytes sc ≤ r.off + r.len)) then .fault Cause.cassRange
    else if s.copyHeld c.w k av sc dv || s.scoreUse c.w.core + (if k = .digest then 2 else 1) > Config.scoreboard then .stall
    else
      let out := k != .inward
      match if out then s.viewPoison c.w (copyImage av) (scalBytes sc) else none with
      | some code => .poisoned code
      | none =>
        let cp : Copy :=
          { id := s.nextId, kind := k, core := c.w.core, team := c.w.team, blk := c.w.blk, wid := c.w.wid, widx := c.w.idx, handle := copyHandle av,
            scal := sc, a := av, dig := dv, start := if scalCassette sc then copyImage av else toTeam c.w.core (copyImage av), len := scalBytes sc,
            cassette := scalCassette sc, data := if out then s.viewBytes c.w (copyImage av) (scalBytes sc) else [], recs := none,
            segs := List.replicate ((scalBytes sc + 4095) / 4096) .todo, level := .wave, lines := [], vlines := [], kil := false,
            rdr := false, digested := false, gbase := 0,
            stored := decide (s.pendingKept c.w.core + scalBytes sc ≤ Config.pendingBytes) }
        let s := { s with copies := s.copies ++ [cp], nextId := s.nextId + 1 }
        .done (s.setHandle c.w.team c.w.blk (copyHandle av) fun h => { h with state := if out then .draining else .filling, kil := false, rdr := false })

/-- `copy.in` (R178). -/
def execCopyIn (a : BitVec 7) (s : State) : Host.Outcome State Fault Refusal := copyWith .inward [.unused 0x7C] a 0x7C s
/-- `copy.out` (R178). -/
def execCopyOut (a : BitVec 7) (s : State) : Host.Outcome State Fault Refusal := copyWith .outward [.unused 0x7C] a 0x7C s
/-- `copy.out.digest` (R178, R188). -/
def execCopyOutDigest (d a : BitVec 7) (s : State) : Host.Outcome State Fault Refusal := copyWith .digest [.r32 d] a d s

/-! ### Handles -/

/-- `hget` (R186). -/
def execHget (d : BitVec 7) (s : State) : Host.Outcome State Fault Refusal :=
  issue { flds := [.w32 d true], scalar := true, ends := true } s fun c s =>
    let share := 8 * ((s.team? c.w.team).map (·.nwaves)).getD 0
    if s.tablePoison c.w isHandle then .poisoned 4
    else match s.block? c.w.team c.w.blk with
      | none => .done s
      | some b => match (List.range share).find? fun n => (b.handle? n).isNone with
        | none => .done (s.put32 c d fun _ => 0xFFFF)
        | some n =>
          let s := s.updBlock c.w.team c.w.blk fun b => { b with handles := b.handles ++ [{ num := n, state := .free, kil := false, rdr := false }] }
          .done (s.put32 c d fun _ => BitVec.ofNat 32 n)

/-- `hfree` (R186). -/
def execHfree (d a : BitVec 7) (s : State) : Host.Outcome State Fault Refusal :=
  issue { flds := [.w32 d true, .r32 a], scalar := true, ends := true } s fun c s =>
    let n := bits (c.src32 c.elected a).toNat 0 8
    if s.tablePoison c.w (isHandleNo n) then .poisoned 4
    else match s.handleOf? c.w n with
      | none => .done (s.put32 c d fun _ => 2)
      | some h =>
        if h.state = .free || h.state = .full then
          .done ((s.updBlock c.w.team c.w.blk fun b => { b with handles := b.handles.filter fun x => x.num != n }).put32 c d fun _ => 0)
        else .done (s.put32 c d fun _ => 1)

/-- Codes of Table 61. -/
def HState.code : HState → Nat | .free => 0 | .filling => 1 | .full => 2 | .draining => 3

/-- The status of Table 63. -/
def handleStatus (h : Option Handle) : W32 :=
  match h with
  | none => 0xFFFFFFFF
  | some h => BitVec.ofNat 32 (h.state.code + (if h.kil then 4 else 0) + (if h.rdr then 8 else 0))

/-- `hwait` (R186): the wave waits until every lane's handle is in its named state. -/
def execHwait (d a : BitVec 7) (s : State) : Host.Outcome State Fault Refusal :=
  issue { flds := [.w32 d true, .r32 a], scalar := true, ends := true } s fun c s =>
    let h (i : Nat) : Option Handle := s.handleOf? c.w (bits (c.src32 i a).toNat 0 8)
    if c.act.any fun i => s.tablePoison c.w (isHandleNo (bits (c.src32 i a).toNat 0 8)) then .poisoned 4
    else if c.act.any fun i => match h i with | some x => x.state.code != bits (c.src32 i a).toNat 8 2 | none => false then .wait
    else .done (s.put32 c d fun i => handleStatus (h i))

end Sys2Proof.Machine
end

