-- ==== Sys2Proof/Machine/Atomic.lean ====
section
/-! DEFINITION. Majors 0x24 and 0x25: remote atomics, deferred reductions and cells (spec/08 R190-R192) and bank operations
(R193-R197) as they issue, with the running signature of a twin (R330). What is performed at the line's home stands in the engine
files. -/

namespace Sys2Proof.Machine

/-! ### Signatures (R330) -/

/-- One bit of a CRC of width w, most significant bit first, no reflection. -/
def crcBit {w : Nat} (poly crc : BitVec w) : BitVec w := if crc.msb then (crc <<< 1) ^^^ poly else crc <<< 1

/-- One byte of a CRC. -/
def crcByte {w : Nat} (poly crc : BitVec w) (b : Byte) : BitVec w :=
  (List.range 8).foldl (fun c _ => crcBit poly c) (crc ^^^ (b.setWidth w <<< (w - 8)))

/-- CRC-64/ECMA-182 with initial value 0. -/
def crc64 (bs : List Byte) : W64 := bs.foldl (crcByte 0x42F0E1EBA9EA3693) 0

/-- An item of a signature: tag of a kind and an address, 32 data bytes, a mask. -/
def sigItem (kind addr : Nat) (data : List Byte) (mask : Nat) : W64 :=
  crc64 (leBytes 8 (kind * 2 ^ 62 + bits addr 0 57) ++ (data ++ zeros (32 - data.length)).take 32 ++ leBytes 4 mask ++ zeros 4)

/-- Fold an immediate access into the running signature of a twin (R329, R330 kind 3). -/
def State.foldAccess (s : State) (team : Nat) (addr : W64) (x y : W64) (fn : Nat) : State :=
  s.updTeam team fun t =>
    if t.twin.isSome then { t with sigRun := t.sigRun + sigItem 3 addr.toNat (le64 x ++ le64 y ++ [BitVec.ofNat 8 fn]) 0 } else t

/-! ### Atomics, reductions, cells -/

/-- The virtual function of a wave's team. -/
def State.vfOf (s : State) (w : Wave) : Nat := ((s.team? w.team).map (·.vf)).getD 0

/-- The failure over the lanes of Active: layouts and alignment, then scopes, then the lowest lane's translation (R171, R165, R172; that order among lanes is
the model's choice, notes/assumptions/44). -/
def firstCause (rs : List (Except Nat Nat)) : Option Nat :=
  let cs := rs.filterMap fun r => match r with | .error c => some c | .ok _ => none
  if cs.contains Cause.illegal then some Cause.illegal else if cs.contains Cause.scope then some Cause.scope else cs.head?

/-- Remember the translations a group used. -/
def State.noteAll (s : State) (w : Wave) (vas : List Nat) : State :=
  vas.foldl (fun s va => s.noteTlb w.core (s.vfOf w) w.asid (bits va 0 57)) s

/-- The operands of a lane: address, b, and the comparand d of a compare-and-swap. -/
structure RemoteArgs where
  addr : Ctx → Nat → W64
  val : Ctx → Nat → W64
  cmp : Ctx → Nat → W64

/-- Issue an immediate operation of Table 65: one request for each lane of Active, in ascending order (R190, R191). With a destination
the wave waits for every reply, the longer beyond its stack neighbourhood (Table 68). -/
def remoteWith (fn : Nat) (sg : Sig) (r : RemoteArgs) (dst : Option Nat) (s : State) : Host.Outcome State Fault Refusal :=
  issueWith sg (fun c i => [r.addr c i, r.val c i, r.cmp c i]) s fun c s =>
    let vf := s.vfOf c.w
    let at_ (i : Nat) : Except Nat Nat := s.remoteAddr c.w.core vf c.w.asid fn (r.addr c i)
    match firstCause (c.act.map at_) with
    | some cause => .fault cause
    | none =>
      let s := s.noteAll c.w (c.act.map fun i => (r.addr c i).toNat)
      let s := c.act.foldl (fun (u : State) i =>
        let op : RemoteOp :=
          { id := u.nextId, wid := c.w.wid, lane := i, fn := fn, addr := r.addr c i, dpa := (at_ i).toOption.getD 0, val := r.val c i, cmp := r.cmp c i,
            dst := dst, vf := vf, asid := c.w.asid, team := c.w.team, epoch := c.w.epoch, failed := false, core := c.w.core, launch := s.launchOf c.w.team,
            group := c.w.physical c.g.lanes, act := c.act, yielded := (c.lane (c.g.lanes.headD 0)).yielded }
        ({ u with remotes := u.remotes ++ [op], nextId := u.nextId + 1 }).foldAccess c.w.team (r.addr c i) (r.val c i) (r.cmp c i) fn) s
      match dst with
      | none => .done s
      | some _ =>
        let far := c.act.any fun i => stackOf ((at_ i).toOption.getD 0) != hoodOfCore c.w.core
        .moved ((s.advance c).updWave c.w.wid fun w => { (w.delayLast (if far then 160 else 0) 0) with wait := .replies c.act.length c.g.first })

/-- Issue a deferred reduction: each lane's operation takes one sector of the pannier (R192) and its place in the team's issue order (R152). -/
def deferWith (fn : Nat) (sg : Sig) (r : RemoteArgs) (s : State) : Host.Outcome State Fault Refusal :=
  issueWith sg (fun c i => [r.addr c i, r.val c i]) s fun c s =>
    let at_ (i : Nat) : Except Nat Nat := s.remoteAddr c.w.core (s.vfOf c.w) c.w.asid fn (r.addr c i)
    match firstCause (c.act.map at_) with
    | some cause => .fault cause
    | none =>
      if c.w.sectors + c.act.length > Config.pannierSectors then .fault Cause.pannierFull
      else
        let place := s.nextId
        let s := s.noteAll c.w (c.act.map fun i => (r.addr c i).toNat)
        .done (({ s with nextId := place + 1 } : State).updWave c.w.wid fun w => { w with
          reds := w.reds ++ c.act.map fun i =>
            { fn := fn, addr := r.addr c i, value := r.val c i, dpa := (at_ i).toOption.getD 0, ord := place, odd := decide (c.w.core % 2 = 1) } })

/-- A returning atomic: d is written unless nw = 1; `pair` widens b and d, `cas` reads d. -/
def atomWith (fn : Nat) (pair cas : Bool) (n : BitVec 1) (d a b : BitVec 7) (s : State) : Host.Outcome State Fault Refusal :=
  let fd : Fld := match pair, cas with
    | false, false => .w32 d (n == 0)
    | true, false => .w64 d (n == 0)
    | false, true => .rw32 d (n == 0)
    | true, true => .rw64 d (n == 0)
  remoteWith fn { flds := [fd, .r64 a, if pair then .r64 b else .r32 b], scalar := true, ends := true }
    { addr := fun c i => c.src64 i a
      val := fun c i => if pair then c.src64 i b else (c.src32 i b).setWidth 64
      cmp := fun c i => if cas then (if pair then c.src64 i d else (c.src32 i d).setWidth 64) else 0 }
    (if n = 1 then none else some d.toNat) s

/-- `atom.add.z32` (Table 65). -/
def execAtomAddZ32 (n : BitVec 1) (d a b : BitVec 7) (s : State) : Host.Outcome State Fault Refusal := atomWith 0 false false n d a b s
/-- `atom.add.z64` (Table 65). -/
def execAtomAddZ64 (n : BitVec 1) (d a b : BitVec 7) (s : State) : Host.Outcome State Fault Refusal := atomWith 1 true false n d a b s
/-- `atom.xchg.b32` (Table 65). -/
def execAtomXchgB32 (n : BitVec 1) (d a b : BitVec 7) (s : State) : Host.Outcome State Fault Refusal := atomWith 2 false false n d a b s
/-- `atom.cas.b32` (Table 65). -/
def execAtomCasB32 (n : BitVec 1) (d a b : BitVec 7) (s : State) : Host.Outcome State Fault Refusal := atomWith 3 false true n d a b s
/-- `atom.cas.b64` (Table 65). -/
def execAtomCasB64 (n : BitVec 1) (d a b : BitVec 7) (s : State) : Host.Outcome State Fault Refusal := atomWith 4 true true n d a b s

/-- A reduction of a and b into the pannier. -/
def redWith (fn : Nat) (pair : Bool) (a b : BitVec 7) (s : State) : Host.Outcome State Fault Refusal :=
  deferWith fn { flds := [.r64 a, if pair then .r64 b else .r32 b], scalar := true, ends := true }
    { addr := fun c i => c.src64 i a, val := fun c i => if pair then c.src64 i b else (c.src32 i b).setWidth 64, cmp := fun _ _ => 0 } s

/-- `red.add.f32` (Table 65). -/
def execRedAddF32 (a b : BitVec 7) (s : State) : Host.Outcome State Fault Refusal := redWith 5 false a b s
/-- `red.add.f64` (Table 65). -/
def execRedAddF64 (a b : BitVec 7) (s : State) : Host.Outcome State Fault Refusal := redWith 6 true a b s
/-- `xadd.f32` (Table 65). -/
def execXaddF32 (a b : BitVec 7) (s : State) : Host.Outcome State Fault Refusal := redWith 7 false a b s

/-- `xseal` (Table 65): value and status return to d. -/
def execXseal (d a : BitVec 7) (s : State) : Host.Outcome State Fault Refusal :=
  remoteWith 8 { flds := [.w64 d true, .r64 a], scalar := true, ends := true }
    { addr := fun c i => c.src64 i a, val := fun _ _ => 0, cmp := fun _ _ => 0 } (some d.toNat) s

/-- `xzero` (Table 65). -/
def execXzero (a : BitVec 7) (s : State) : Host.Outcome State Fault Refusal :=
  remoteWith 9 { flds := [.r64 a], scalar := true, ends := true }
    { addr := fun c i => c.src64 i a, val := fun _ _ => 0, cmp := fun _ _ => 0 } none s

/-! ### Bank operations -/

/-- A plain global address operand (R171): no scope, no control, no reserved bit. -/
def plainAddr (x : Nat) : Bool := bits x 57 7 == 0

/-- Fields of b of the bank operations (Table 66). -/
def bkldBytes (b : Nat) : Nat := 32 * (bits b 22 4 + 1)
def bkSpad (b : Nat) : Nat := bits b 0 22

/-- The first set of checks (R194). -/
def State.bankIllegal (s : State) (w : Wave) (fn x b : Nat) : Bool :=
  let v := s.viewSize w
  !plainAddr x || ((fn == 1 || fn == 2 || fn == 3) && x % 32 ≠ 0) ||
  (fn == 1 && (bits b 26 4 + bits b 22 4 + 1 > 16 || bkSpad b % 32 ≠ 0 || !inView v (bkSpad b) (bkldBytes b))) ||
  (fn == 2 && bits b 8 2 == 3) ||
  (fn == 3 && (bkSpad b % 64 ≠ 0 || !inView v (bkSpad b) 4096))

/-- What a bank operation needs (Table 159). -/
def bankNeed (fn : Nat) : Need := if fn = 2 || fn = 3 then Need.bankRead else Need.bankWrite

/-- Whether the scoreboard holds a bank operation back (Table 64, R189). -/
def State.bankHeld (s : State) (w : Wave) (fn b : Nat) : Bool :=
  let ta := toTeam w.core (bkSpad b)
  let hit (g : Guarded) (n : Nat) : Bool := g.team == w.team && overlap g.start g.len ta n
  (fn == 1 && s.guards.any fun g => g.kind == 0 && hit g (bkldBytes b)) ||
  (fn == 3 && ((s.guards.any fun g => g.kind ≠ 0 && hit g 4096) || decide (s.scoreUse w.core + 1 > Config.scoreboard)))

/-- Issue a bank operation in the elected lane (R194). -/
def bankWith (fn : Nat) (a b : BitVec 7) (s : State) : Host.Outcome State Fault Refusal :=
  issueWith { flds := [.unused 0x7C, .r64 a, .r32 b], scalar := true, ends := true } (fun c i => [c.src64 i a, (c.src32 i b).setWidth 64]) s fun c s =>
    let x := c.src64 c.elected a
    let bv := c.src32 c.elected b
    let vf := s.vfOf c.w
    if s.bankIllegal c.w fn x.toNat bv.toNat then .fault Cause.illegal
    else match s.translate c.w.core vf c.w.asid (bits x.toNat 0 57) (bankNeed fn) with
      | .error cause => .fault cause
      | .ok (dpa, _) =>
        if s.bankHeld c.w fn bv.toNat then .stall
        else match if fn = 1 then s.viewPoison c.w (bkSpad bv.toNat) (bkldBytes bv.toNat) else none with
          | some code => .poisoned code
          | none =>
            let op : BankOp :=
              { id := s.nextId, core := c.w.core, wid := c.w.wid, team := c.w.team, fn := fn, dpa := dpa, b := bv,
                data := if fn = 1 then s.viewBytes c.w (bkSpad bv.toNat) (bkldBytes bv.toNat) else [], dst := toTeam c.w.core (bkSpad bv.toNat),
                epoch := c.w.epoch, launch := s.launchOf c.w.team }
            let s := (s.noteAll c.w [x.toNat]).foldAccess c.w.team x (bv.setWidth 64) 0 fn
            .done { s with bankOps := s.bankOps ++ [op], nextId := s.nextId + 1 }

/-- `bkmode` (Table 66). -/
def execBkmode (a b : BitVec 7) (s : State) : Host.Outcome State Fault Refusal := bankWith 0 a b s
/-- `bkld` (Table 66). -/
def execBkld (a b : BitVec 7) (s : State) : Host.Outcome State Fault Refusal := bankWith 1 a b s
/-- `bkmac` (Table 66). -/
def execBkmac (a b : BitVec 7) (s : State) : Host.Outcome State Fault Refusal := bankWith 2 a b s
/-- `bkrd` (Table 66). -/
def execBkrd (a b : BitVec 7) (s : State) : Host.Outcome State Fault Refusal := bankWith 3 a b s
/-- `bkzero` (Table 66). -/
def execBkzero (a b : BitVec 7) (s : State) : Host.Outcome State Fault Refusal := bankWith 4 a b s

/-- `bkwait` (Table 66). -/
def execBkwait (s : State) : Host.Outcome State Fault Refusal :=
  issue { flds := [.unused 0x7C, .unused 0x7C, .unused 0x7C], ends := true } s fun c s =>
    if s.bankOps.any fun o => o.wid == c.w.wid then .wait else .done s

end Sys2Proof.Machine
end

