-- ==== Sys2Proof/Machine/ErrorOps.lean ====
section
/-! DEFINITION. Shared operations of errors and of kills wider than a team (spec/14 R317-R323, spec/11 R255, spec/12 R266): a launch, a
context, a function; pages and ways that leave service; what a consumer of a line meets. -/

namespace Sys2Proof.Machine

/-! ### Kills -/

/-- Kill every team of a launch that has not ended (one killed before that has still to end is then not relaunched), with its waiting tasks, a prologue that the host was asked to run, and pending notices (R255): the launch then has the status given
unless another became final first. -/
def State.killLaunch (s : State) (lid status : Nat) : State :=
  let teams := (s.teams.filter fun t => t.launch == lid && t.phase != .dead).map (·.id)
  let s : State := { s with teams := updWhere s.teams (fun t => t.launch == lid) fun (t : Team) => { t with fate := t.fate.map fun f => (false, f.2.1, status) } }
  let s := teams.foldl (fun s t => s.killOne t false 0 status) s
  let s := { s with
    tasks := s.tasks.filter (fun t => match t.kind with | .team l _ => l != lid | _ => true)
    assist := s.assist.filter (· != AssistReq.prologue lid)
    waves := s.waves.filter (fun w => match w.prologue with | some p => p.launch != lid | none => true) }
  let notes := (s.records.filter fun r => r.launch == lid && r.kind == .notice).map (·.id)
  let s := (notes.foldl State.killRecord s).reap
  s.updLaunch lid fun l => { l with left := 0, again := false, status := some (l.status.getD status) }

/-- The domestique tasks that satisfy a test end; records they hold are posted again, the homes of those on peer parts told, their requests
forgotten and their stacks released (R304, R310, R317). -/
def State.endDoms (s : State) (p : Dom → Bool) : State :=
  let gone := s.doms.filter p
  let s := s.forget fun e => match e with | .dom c _ => gone.any fun d => d.core == c | _ => false
  let s := { s with doms := s.doms.filter fun d => !p d, ksReqs := s.ksReqs.filter fun r => !gone.any fun d => d.core == r.core }
  gone.foldl (fun (s : State) d => d.remotes.foldl (fun (s : State) h => s.sendFor d.vf (homeLink h) fun _ => .handlerEnded h) (s.repost d.holds).reap) s

/-- Kill every task of some launches and the domestique tasks beside them, as at a deadline (R255). -/
def State.killTasks (s : State) (p : Launch → Bool) (dom : Dom → Bool) (status : Nat) : State :=
  let s := s.endDoms dom
  let ls := (s.launches.filter p).map (·.id)
  ls.foldl (fun s l => s.killLaunch l status) s

/-- Terminate a context: every task of an ASID (R319 step 2). -/
def State.endContext (s : State) (vf asid : Nat) : State :=
  s.killTasks (fun l => l.vf == vf && l.asid == asid) (fun d => d.vf == vf && d.asid == asid) 7

/-! ### Pages and ways -/

/-- Whether an error location is a line of a page. -/
def locPage (page : Nat) : StoreLoc → Bool
  | .l2 a => a / 65536 == page | .ms a => a / 65536 == page | .hbm a => a / 65536 == page | .cell a => a / 65536 == page | _ => false

/-- Retire a page (Table 94 `pgret`): its cached lines go without write-back, and no spare serves it. False when the stack's table is full. -/
def State.retire (s : State) (page : Nat) : State × Bool :=
  if (s.retired.filter fun p => pageStack p == pageStack page).length ≥ Config.retireTable then (s, false)
  else
    ({ s with
      retired := s.retired ++ [page]
      spared := s.spared.filter (· != page)
      fills := s.fills.filter (· != page)
      lines := s.lines.filter fun e => e.dpa / 65536 != page
      errors := s.errors.filter fun e => match e with | .l2 a => a / 65536 != page | .ms a => a / 65536 != page | _ => true }, true)

/-- Whether the host decides on the retirement of a page: its owner's function is in that host-assisted mode (R283, Table 86 `fwm`). -/
def State.retireAsked (s : State) (page : Nat) : Bool := match s.pageOwner page with | some p => (s.part p).fwm.getLsbD 3 | none => false

/-- A page fails and waits for a spare (R323). -/
def State.queueFill (s : State) (page : Nat) : State := if s.fills.contains page then s else { s with fills := s.fills ++ [page] }

/-! ### Consuming a line (R319-R321) -/

/-- The event of a line. -/
def State.lineEvent (s : State) (e : Line) (code action cause : Nat) : Event :=
  { code := code, action := action, cause := cause, vf := e.vf, asid := e.asid, host := e.host, part := (s.pageOwner (e.dpa / 65536)).getD 0x7F,
    stack := stackOf e.dpa, dpa := e.dpa }

/-- The owner tag of a line in HBM4: function, ASID, host bit (R316). -/
def State.hbmTag (s : State) (dpa : Nat) : Nat × Nat × Bool := (assoc s.tags (dpa / 64)).getD (0x7F, 0, false)

/-- The event of a line in HBM4. -/
def State.hbmEvent (s : State) (dpa action cause : Nat) : Event :=
  { code := 8, action := action, cause := cause, vf := (s.hbmTag dpa).1, asid := (s.hbmTag dpa).2.1, host := (s.hbmTag dpa).2.2,
    part := (s.pageOwner (dpa / 65536)).getD 0x7F, stack := stackOf dpa, dpa := dpa }

/-- The event of a storage location found with an error (Table 108). -/
def State.locEvent (s : State) (loc : StoreLoc) (action cause : Nat) : Event :=
  let ofTeam (t : Option Team) (core : Nat) : Event :=
    { code := storeCode loc, action := action, cause := cause, vf := (t.map (·.vf)).getD 0x7F, asid := (t.map (·.asid)).getD 0, host := false,
      part := partOfCore core, stack := hoodOfCore core, dpa := 0 }
  let ofWave (wid : Nat) : Event := match s.wave? wid with
    | some w => ofTeam (s.team? w.team) w.core
    | none => ofTeam none 0
  let ofBlock (team blk : Nat) : Event := ofTeam (s.team? team) (((s.block? team blk).map (·.core)).getD 0)
  let ofLine (a : Nat) : Event := match s.lines.find? fun e => e.dpa / 64 == a / 64 with
    | some e => { s.lineEvent e (storeCode loc) action cause with dpa := a }
    | none => { code := storeCode loc, action := action, cause := cause, vf := 0x7F, asid := 0, host := false,
                part := (s.pageOwner (a / 65536)).getD 0x7F, stack := stackOf a, dpa := a }
  match loc with
  | .vreg w _ _ => ofWave w
  | .laneState w _ _ => ofWave w
  | .spill w _ _ => ofWave w
  | .sreg w _ => ofWave w
  | .waveReg w _ => ofWave w
  | .pannier w _ => ofWave w
  | .spad t a => ofTeam (s.team? t) (coreOfTeamAddr (((s.team? t).map (·.pair)).getD 0) a)
  | .dom c _ => { ofTeam none c with vf := ((s.dom? c).map (·.vf)).getD 0x7F, asid := ((s.dom? c).map (·.asid)).getD 0 }
  | .row t b _ _ => ofBlock t b
  | .cass t b _ => ofBlock t b
  | .table t b _ => ofBlock t b
  | .icache c => ofTeam none c
  | .bank pc _ => { code := 10, action := action, cause := cause, vf := 0x7F, asid := 0, host := false, part := 0x7F, stack := pc / 192, dpa := 0 }
  | .l2 a => ofLine a
  | .ms a => ofLine a
  | .hbm a => s.hbmEvent a action cause
  | .spare a => s.hbmEvent a action cause
  | .cell a => ofLine a
  | .pending c a => { ofTeam ((s.copy? c).bind fun c => s.team? c.team) (((s.copy? c).map (·.core)).getD 0) with dpa := a }

/-- A correctable error is repaired and logged (R315); the eighth of an HBM4 page since its last fill starts one (R323). -/
def State.repair (s : State) (loc : StoreLoc) : State :=
  let s := { s with softs := s.softs.filter (· != loc) }
  let s := s.logEvent (s.locEvent loc 0 0)
  match loc with
  | .hbm a =>
    let page := a / 65536
    let n := (assoc s.softCount page).getD 0 + 1
    let s := { s with softCount := assocSet s.softCount page n }
    if n ≥ 8 then s.queueFill page else s
  | _ => s

/-- An access meets the correctable errors of some places: each is repaired (R315). -/
def State.repairAt (s : State) (p : StoreLoc → Bool) : State := (s.softs.filter p).foldl State.repair s

/-- Places of a line of global data. -/
def onLine (line : Nat) : StoreLoc → Bool | .l2 a => a / 64 == line | .ms a => a / 64 == line | .hbm a => a / 64 == line | _ => false

/-- The storage of a core that holds a team's work: what a wave, block or team on the core keeps there, and the core's caches. -/
def State.onCore (s : State) (core : Nat) : StoreLoc → Bool
  | .spad t a => (s.team? t).any fun t => coreOfTeamAddr t.pair a == core
  | .row t b _ _ => (s.block? t b).any fun b => b.core == core
  | .cass t b _ => (s.block? t b).any fun b => b.core == core
  | .table t b _ => (s.block? t b).any fun b => b.core == core
  | .dom c _ => c == core
  | .icache c => c == core
  | e => s.waves.any fun w => w.core == core && waveErr w.wid e

/-- A parity error of a core's instruction cache, L1 or translation store is repaired by a refetch, and logged (Table 106, R315). -/
def State.parity (s : State) (core : Nat) : State :=
  if s.errors.contains (.icache core) then { (s.logEvent (s.locEvent (.icache core) 0 0)) with errors := s.errors.filter (· != .icache core) } else s

/-- Correctable errors in a core's storage are repaired, by the accesses that meet them or by patrol: the model makes every repair that is due on a
core before its next group is chosen (notes/assumptions/44). -/
def State.sweep (s : State) (core : Nat) : State := if s.softs.isEmpty then s else s.repairAt (s.onCore core)

/-- Write back one dirty line: to the memory-side cache at level 0, to HBM4 at level 1. -/
def State.cleanLine (s : State) (e : Line) (level : Nat) : State :=
  if !e.dirty then s else if level = 0 then (if e.l2 then s.sinkLine e else s) else s.storeLine e

/-- Invalidate one line that is clean at the level and every level above it. -/
def State.dropLine (s : State) (e : Line) (level : Nat) : State :=
  match s.lines.find? fun x => x.dpa == e.dpa with
  | none => s
  | some x =>
    if x.dirty || (level = 0 && !x.l2) then s
    else
      { s with lines := s.lines.filter (fun y => y.dpa != e.dpa)
               errors := moveErrors s.errors (e.dpa / 64) fun y => match y with | .l2 _ => none | .ms a => if level = 0 then some (.ms a) else none | y => some y }

/-- Steps 1-3 of R319 for a dirty line with an uncorrectable error: the context of its tag is terminated, the page retired. In host-assisted
mode the page is retired when the host answers (R283). A page that stays in use keeps the line poisoned, in HBM4 with its tag (R316). -/
def State.ownerError (s : State) (e : Line) : State :=
  let code := if e.l2 then 6 else 7
  let cause := s.lineCause e.dpa
  let s := if e.host then s.logEvent (s.lineEvent e code 1 cause) else (s.endContext e.vf e.asid).logEvent (s.lineEvent e code 3 cause)
  let r := if s.retireAsked (e.dpa / 65536) then ({ s with assist := s.assist ++ [.retire (e.dpa / 65536)] }, false) else s.retire (e.dpa / 65536)
  if r.2 then r.1.logEvent (s.lineEvent e code 4 cause)
  else { r.1 with found := .hbm (e.dpa / 64 * 64) :: r.1.found
                  errors := moveErrors r.1.errors (e.dpa / 64) fun x => match x with | .l2 a => some (.hbm a) | .ms a => some (.hbm a) | x => some x
                  tags := assocSet r.1.tags (e.dpa / 64) (e.vf, e.asid, e.host)
                  lines := r.1.lines.filter fun x => x.dpa != e.dpa }

/-- Quarantine a way (Table 94 `wayq`): its dirty lines are written back, its clean lines invalidated; a line found bad takes steps 1-3 of
R319. Pending data of an L2 slice is dropped (R159): which of it lies in the way the spec leaves open, and the model drops it all (notes/assumptions/44). -/
def State.quarantine (s : State) (l2 : Bool) (unit way : Nat) : State :=
  let mine (e : Line) : Bool := e.l2 == l2 && e.unit == unit && e.way == way && !e.aside
  let dirty := s.lines.filter fun e => mine e && e.dirty
  let s := { s with ways := s.ways ++ [(l2, unit, way)] }
  let s := dirty.foldl (fun s e => if s.lineBad e then s.ownerError e else s.cleanLine e (if l2 then 0 else 1)) s
  let held := s.copies.filter fun c => l2 && c.core == unit && c.pendingOut
  ({ s with lines := s.lines.filter (fun e => !mine e)
            copies := s.copies.map fun c => if l2 && c.core = unit && c.pendingOut then { c with stored := false } else c } : State).forget (pendingErr held)

/-- An uncorrectable error in a dirty published line is found (R319): steps 1-3, then its way is quarantined. -/
def State.dirtyError (s : State) (e : Line) : State :=
  let code := if e.l2 then 6 else 7
  let cause := s.lineCause e.dpa
  let t := s.ownerError e
  if (t.waysOf e.l2 e.unit).contains e.way then t
  else if (t.waysOf e.l2 e.unit).length ≥ 4 || (!e.l2 && t.wayHoldsCells e.unit e.way) then t.logEvent (s.lineEvent e code 8 cause)
  else (t.quarantine e.l2 e.unit e.way).logEvent (s.lineEvent e code 5 cause)

/-- Write back one dirty line: the part reads it, so that an uncorrectable error in it is found (R315, R319). -/
def State.writeBack (s : State) (e : Line) (level : Nat) : State :=
  if e.dirty && s.lineBad e then s.dirtyError e else s.cleanLine e level

/-- The cached lines that satisfy a test are written back to HBM4 where they are dirty, and go. -/
def State.putLines (s : State) (p : Line → Bool) : State :=
  (s.lines.filter p).foldl (fun (s : State) e =>
    let t := if e.dirty then s.writeBack e 1 else s
    { t with lines := t.lines.filter fun x => x.dpa != e.dpa }) s

/-- An error in a clean copy of a line, where another store below it holds the line: in the L2 unless the dirty line stands there, in the memory-side
cache unless a dirty line stands above or there. -/
def State.stale (s : State) (line : Nat) : StoreLoc → Bool
  | .l2 a => a / 64 == line && !(s.lines.any fun e => e.dpa / 64 == line && e.dirty && e.l2)
  | .ms a => a / 64 == line && !(s.lines.any fun e => e.dpa / 64 == line && e.dirty)
  | _ => false

/-- A clean copy of a line is invalidated and fetched again from the next level (R320), and each such event logged (R325). -/
def State.refetch (s : State) (line : Nat) : State :=
  let bad := s.errors.filter (s.stale line)
  let t := { s with errors := s.errors.filter fun e => !s.stale line e, lines := s.lines.filter fun x => x.dirty || x.dpa / 64 != line }
  bad.foldl (fun t e => t.logEvent (s.locEvent e 0 (s.lineCause (line * 64)))) t

/-- A consumer reads a line: true when it meets an uncorrectable error. Correctable ones are repaired on the way (R315); the dirty line is given before
what stands below it, a clean copy fetched again (R320); HBM4 is logged and starts a spare fill (R321). -/
def State.consumeLine (s : State) (dpa : Nat) : State × Bool :=
  if (s.errors.isEmpty && s.softs.isEmpty) || s.blank (dpa / 65536) then (s, false)
  else
    let line := dpa / 64
    let s := s.repairAt (onLine line)
    let fresh (s : State) : State := if s.errors.any (s.stale line) then s.refetch line else s
    match s.dirtyLine? dpa with
    | some e => if s.lineBad e then (s.dirtyError e, true) else (fresh s, false)
    | none =>
      let s := fresh s
      let bad := s.errors.filter fun e => match e with | .hbm a => a / 64 == line | _ => false
      if bad.isEmpty then (s, false)
      else
        let s := s.logEvent (s.hbmEvent dpa 1 (s.lineCause dpa))
        if bad.all fun e => s.found.contains e then (s, true)
        else (({ s with found := bad.filter (fun e => !s.found.contains e) ++ s.found } : State).queueFill (dpa / 65536), true)

/-- Whether a consumer would meet an error in a dirty line of another owner (R319). -/
def State.dirtyBad (s : State) (dpa : Nat) : Bool := s.lines.any fun e => e.dpa / 64 == dpa / 64 && e.dirty && s.lineBad e

/-- Consume every line of some bytes. -/
def State.consumeLines (s : State) (dpas : List Nat) : State × Bool :=
  ((dpas.map (· / 64)).eraseDups).foldl (fun acc l => let r := acc.1.consumeLine (l * 64); (r.1, acc.2 || r.2)) (s, false)

/-! ### Errors of the pool (R312) -/

/-- A record with an uncorrectable error in it, or on a page that has been retired. -/
def State.recordBad (s : State) (r : Record) : Bool := s.placeBad r 0 r.room

/-- The monitor kills the task that owns a record, frees the record, and lets the page take its own path (R312). -/
def State.loseRecord (s : State) (r : Record) : State :=
  (s.consumeLines ((s.badLines (s.placeOf r) r.room).map (· * 64))).1.dropRecord r

/-- An access to a record meets an uncorrectable error in it, or a translation fault on its extent, which then loses every record of the extent
(R312). -/
def State.poolFault (s : State) (r : Record) : State :=
  if s.lostExtent r.part (r.extent, r.slot) then s.loseExtent r.part r.extent else s.loseRecord r

/-- Whether a deferred reduction that is held, or published and not yet applied, pins a page (R192). -/
def State.pinned (s : State) (page : Nat) : Bool :=
  let on (r : Red) : Bool := r.dpa / 65536 == page
  (s.waves.any fun w => w.reds.any on) || (s.blocks.any fun b => b.reds.any on) || (s.teams.any fun t => t.reds.any on || t.applyQ.any on)

/-! ### Zeroing pages (R275, R276) -/

/-- Every armed monitor on a page learns that the page becomes zeros, as of a write: R163 does not list that among the writes (the model's choice,
notes/assumptions/44). -/
def State.hitPage (s : State) (page : Nat) : State :=
  { s with waves := s.waves.map fun w => { w with lanes := w.lanes.map fun l => match l.sleep with
      | some a => if a.armed && a.dpa / 65536 == page then { l with sleep := some { a with hit := true } } else l
      | none => l } }

/-- The engines of a pseudo-channel at grant (R193). -/
def Bank.fresh (pc : Nat) : Bank :=
  { pc := pc, pages := [], allBank := false, x := List.replicate 16 (List.replicate 256 0), acc := List.replicate 16 (List.replicate 64 0) }

/-- The places whose error marks go when a page becomes zeros: its lines and cells, and for a bank-engine page the engines of its pseudo-channel. -/
def zeroed (page : Nat) (bank : Bool) : StoreLoc → Bool
  | .bank pc _ => bank && pc == pseudoChannel (page * 65536)
  | e => locPage page e

/-- A page becomes zeros, being a bank-engine page or not: the cells of an exact-reduction page, an ordinary page with its cleared bit, a
bank-engine page with its engines: the x registers and accumulators of its pseudo-channel, though another page of it may still be in use, and not the mode
bit. R193, R276 and R343 do not say what becomes of a shared pseudo-channel (the model's choice, notes/assumptions/44). -/
def State.zeroPageAs (s : State) (page : Nat) (bank : Bool) : State :=
  let s := (s.hitPage page)
  let cells := s.cellBlocks.any fun b => b.page == page
  { s with
    errors := s.errors.filter (fun e => !zeroed page (bank && !cells) e), softs := s.softs.filter (fun e => !zeroed page (bank && !cells) e)
    mismatch := s.mismatch.filter (fun l => l / 1024 != page), tags := s.tags.filter (fun e => e.1 / 1024 != page)
    cellBlocks := if cells then s.cellBlocks.map fun b => if b.page = page then { b with cells := [] } else b else s.cellBlocks
    mem := s.mem.filter (fun e => e.1 / 65536 != page)
    lines := s.lines.filter (fun e => e.dpa / 65536 != page)
    cleared := if bank && !cells then s.cleared.filter (· != page) else if s.cleared.contains page then s.cleared else s.cleared ++ [page]
    banks := if bank && !cells then
        s.banks.map fun b => if b.pc = pseudoChannel (page * 65536) then { Bank.fresh b.pc with pages := b.pages, allBank := b.allBank } else b
      else s.banks }

/-- A page becomes zeros (R275, R276). -/
def State.zeroPage (s : State) (page : Nat) : State := s.zeroPageAs page (s.bankPage page)

/-- The page leaves its bank-engine region, whose mode is single-bank when it is granted again (R193); a pseudo-channel keeps its mode until the last page of it
that has been reached leaves (the model's choice, notes/assumptions/44). -/
def State.ungrant (s : State) (page : Nat) : State :=
  { s with banks := s.banks.map fun b =>
      if b.pages.contains page then { b with pages := b.pages.filter (· != page), allBank := if b.pages == [page] then false else b.allBank } else b }

/-! ### What caches hold (Table 3) -/

/-- A line that has given up its way is written back, and an error in it found (R319; notes/assumptions/9). -/
def State.putOut (s : State) (l2 : Bool) (unit : Nat) : State :=
  match s.lines.find? fun e => e.l2 == l2 && e.unit == unit && e.aside with
  | none => s
  | some e =>
    let t := if e.dirty then s.writeBack e (if l2 then 0 else 1) else s
    if l2 && e.dirty then t else { t with lines := t.lines.filter fun x => !(x.dpa == e.dpa && x.l2 == l2) }

end Sys2Proof.Machine
end

