-- ==== Sys2Proof/Machine/Commit.lean ====
section
/-! DEFINITION. Majors 0x26-0x28: commits, aborts, fences, level openings and cache maintenance (spec/08 R198-R200, spec/07 R146-R166), over
one notion of a block or team barrier that `bsync` shares (R229). -/

namespace Sys2Proof.Machine

/-! ### Barriers -/

/-- Whether an engine access of a wave is outstanding (R166): a remote operation, a bank operation, an arming that has not been performed. -/
def State.accessOut (s : State) (wid : Nat) : Bool :=
  (s.remotes.any fun o => o.wid == wid) || (s.bankOps.any fun o => o.wid == wid)

/-- The waves a barrier over a block, or over a whole team, has as members when it begins (R229, R210): launched waves that have not ended,
parked ones among them. -/
def State.barMembers (s : State) (team : Nat) (blk : Option Nat) : List Nat :=
  (s.waves.filter fun w => w.team == team && !w.isRack && (match blk with | some b => w.blk == b | none => true)).map (·.wid)

/-- The live lanes of a wave become normal at an address (R207). -/
def State.liveAt (s : State) (wid : Nat) (pc : W57) : State :=
  s.updWave wid fun w => { w with wait := .ready, age := 0, lanes := w.lanes.map fun l => if l.live then { l with pc := pc, yielded := false } else l }

/-- Write a pair in every live lane (R150). -/
def State.reportLive (s : State) (wid d : Nat) (v : W64) : State :=
  if d < 120 then
    let s := s.forget fun e => match e with | .vreg w i r => w == wid && (r == d || r == d + 1) && ((s.wave? wid).bind (·.lanes[i]?)).any (·.live) | _ => false
    s.updWave wid fun w => { w with lanes := w.lanes.map fun l => if l.live then l.setPair d v else l }
  else s

/-- What the completion of a barrier still holds back in a participant: 4 clocks after a `bsync`, 8 after a commit and its report (Tables 68, 76). -/
def Wave.released (w : Wave) (a : Arrival) : Wave :=
  { w with slow := w.slow ++
      [{ regs := if a.nw || a.dst ≥ 120 then [] else [a.dst, a.dst + 1], lanes := if a.fn = 0x10 then (List.range w.plan).filter fun i => (w.lanes[i]?.map (·.live)).getD false else [],
         ready := w.now + (if a.fn = 0x10 then 4 else 8), third := true, engine := 5, busy := 0 }] }

/-- A wave that took part in a barrier goes on. -/
def State.release (s : State) (a : Nat × Arrival) (report : W64) : State :=
  ((if a.2.nw then s else s.reportLive a.1 a.2.dst report).liveAt a.1 a.2.next).updWave a.1 fun w => w.released a.2

/-- The kind of a barrier: the instruction without its `.lw`. -/
def barKind (fn : Nat) : Nat := if fn = 4 then 1 else if fn = 5 then 2 else fn

/-- Which barrier of the state an instruction belongs to: its block's, or its team's. -/
def State.bar (s : State) (w : Wave) (fn : Nat) : Option Barrier :=
  if barKind fn = 2 || fn = 0x12 then (s.team? w.team).bind (·.bar) else (s.block? w.team w.blk).bind (·.bar)
def State.setBar (s : State) (w : Wave) (fn : Nat) (b : Option Barrier) : State :=
  if barKind fn = 2 || fn = 0x12 then s.updTeam w.team fun t => { t with bar := b } else s.updBlock w.team w.blk fun k => { k with bar := b }

/-- Members that are still there (R229). -/
def State.stillMembers (s : State) (b : Barrier) : List Nat := b.members.filter fun m => s.waves.any fun w => w.wid == m

/-- The participating wave with the lowest `%blk` and then the lowest `%wave` (R153). -/
def State.lowestOf (s : State) (b : Barrier) : Option (Nat × Arrival) :=
  (List.range 8).findSome? fun k => (List.range 16).findSome? fun i =>
    b.arrived.find? fun a => match s.wave? a.1 with | some w => w.blk == k && w.idx == i | none => false

/-- OVERLAY_FULL at a barrier commit: that wave detaches and no longer counts as arrived; the others stay waiting (R153). -/
def State.overlayFull (s : State) (w : Wave) (fn : Nat) (b : Barrier) : State :=
  match s.lowestOf b with
  | none => s
  | some v =>
    let s := s.setBar w fn (some { b with arrived := b.arrived.filter fun a => a.1 != v.1 })
    let mask := match s.wave? v.1 with | some x => maskOf 64 fun i => decide (i < x.plan) && (x.lanes[i]?.map (·.live)).getD false | none => 0
    s.detach v.1 { cause := Cause.overlayFull, done := false, faddr := v.2.first, amask := mask, laneFlags := [], codes := [] }

/-- Every member that is still there has arrived. -/
def State.barFull (s : State) (b : Barrier) : Bool := (s.stillMembers b).all fun m => b.arrived.any fun a => a.1 == m

/-- A wave that has issued a barrier waits; it does not issue it again (R229). What the barrier holds back is counted at its completion. -/
def Wave.atBarrier (w : Wave) : Wave := { w with wait := .barrier, slow := w.slow.dropLast }

/-- Note a wave's arrival at a barrier and, when every member has arrived, do `finish` (R229, R147, Table 50). A wave that meets a barrier it
is no member of, or one of another kind, waits. -/
def arriveAt (fn : Nat) (arr : Ctx → Arrival) (c : Ctx) (s : State) (finish : Wave → Barrier → State → State) : Res :=
  let b : Barrier := match s.bar c.w fn with
    | some b => b
    | none => { fn := barKind fn, members := s.barMembers c.w.team (if barKind fn = 2 || fn = 0x12 then none else some c.w.blk), arrived := [] }
  if b.fn ≠ barKind fn || !b.members.contains c.w.wid then .wait
  else
    let b := { b with arrived := b.arrived.filter (fun a => a.1 != c.w.wid) ++ [(c.w.wid, arr c)] }
    let t := (s.setBar c.w fn (some b)).updWave c.w.wid Wave.atBarrier
    .moved (if s.barFull b then finish c.w b t else t)

/-- Every participant goes on with one report. -/
def State.releaseAll (s : State) (b : Barrier) (report : W64) : State := b.arrived.foldl (fun s a => s.release a report) s

def plainArrival (fn : Nat) (c : Ctx) : Arrival :=
  { fn := fn, dst := 0x7C, nw := true, target := 0, next := c.next, first := c.g.first }

/-! ### Commits (R150-R153) -/

def commitSig (n : BitVec 1) (d : BitVec 7) : Sig :=
  { flds := [.w64 d (n == 0), .unused 0x7C, .unused 0x7C], guard := false, ends := true }

/-- `cmt.b` and `cmt.b.lw`: after the wave's engine accesses, the overlay store checked, publish or report (R150, R153, R166). -/
def commitB (lw : Bool) (n : BitVec 1) (d : BitVec 7) (s : State) : Host.Outcome State Fault Refusal :=
  issue (commitSig n d) s fun c s =>
    if s.accessOut c.w.wid then .wait
    else if s.pannierPoison c.w.wid then .poisoned 5
    else
      let r := s.commitWave c.w.wid lw
      if !r.1.overlaysFit (c.w.core / 2) then .fault Cause.overlayFull
      else .done (if n = 1 then r.1 else r.1.put64 c d fun _ => r.2)

/-- `cmt.b` (Table 50). -/
def execCmtB (n : BitVec 1) (d : BitVec 7) (s : State) : Host.Outcome State Fault Refusal := commitB false n d s
/-- `cmt.b.lw` (Table 50). -/
def execCmtBLw (n : BitVec 1) (d : BitVec 7) (s : State) : Host.Outcome State Fault Refusal := commitB true n d s

/-- A barrier commit arrives once the wave's own engine accesses have been performed (R166). -/
def barrierCommit (fn : Nat) (n : BitVec 1) (d : BitVec 7) (finish : Wave → Barrier → State → State) (s : State) : Host.Outcome State Fault Refusal :=
  issue (commitSig n d) s fun c s =>
    if s.accessOut c.w.wid || (barKind fn = 2 && ((s.team? c.w.team).bind (·.gather)).isSome) then .wait
    else if s.pannierPoison c.w.wid then .poisoned 5
    else arriveAt fn (fun c => { plainArrival fn c with dst := d.toNat, nw := n == 1 }) c s finish

/-- The forms of a barrier commit: last writer wins only when every wave issued that form (R150). -/
def Barrier.allLw (b : Barrier) : Bool := b.arrived.all fun a => decide (3 ≤ a.2.fn)

/-- The completion of `cmt.t`. -/
def finishT (w : Wave) (b : Barrier) (s : State) : State :=
  let r := s.commitT w.team w.blk (b.arrived.map (·.1)) b.allLw
  if !r.1.overlaysFit (w.core / 2) then s.overlayFull w 1 b
  else (r.1.setBar w 1 none).releaseAll b r.2

/-- The completion of `cmt.d`: the implied lower commits are performed and the team gathers (R152). -/
def finishD (w : Wave) (b : Barrier) (s : State) : State :=
  let r := s.commitLower w.team (b.arrived.map (·.1))
  if !r.overlaysFit (w.core / 2) then s.overlayFull w 2 b
  else r.updTeam w.team fun t => { t with gather := some { checked := !b.allLw, final := false, lowered := true } }

/-- `cmt.t` (Table 50). -/
def execCmtT (n : BitVec 1) (d : BitVec 7) (s : State) : Host.Outcome State Fault Refusal := barrierCommit 1 n d finishT s
/-- `cmt.t.lw` (Table 50). -/
def execCmtTLw (n : BitVec 1) (d : BitVec 7) (s : State) : Host.Outcome State Fault Refusal := barrierCommit 4 n d finishT s
/-- `cmt.d` (Table 50). -/
def execCmtD (n : BitVec 1) (d : BitVec 7) (s : State) : Host.Outcome State Fault Refusal := barrierCommit 2 n d finishD s
/-- `cmt.d.lw` (Table 50). -/
def execCmtDLw (n : BitVec 1) (d : BitVec 7) (s : State) : Host.Outcome State Fault Refusal := barrierCommit 5 n d finishD s

/-! ### Aborts, fences, openings -/

/-- An abort (R155, R148): ILLEGAL while the wave's own address for the level is unset. -/
def abortWith (fn : Nat) (s : State) : Host.Outcome State Fault Refusal :=
  issue { flds := [.unused 0x7C, .unused 0x7C, .unused 0x7C], guard := false, ends := true } s fun c s =>
    if (c.w.abortAddr fn).isNone then .fault Cause.illegal else .moved (s.abort fn c.w)

/-- `abt.w` (R155). -/
def execAbtW (s : State) : Host.Outcome State Fault Refusal := abortWith 6 s
/-- `abt.b` (R155). -/
def execAbtB (s : State) : Host.Outcome State Fault Refusal := abortWith 7 s
/-- `abt.t` (R155). -/
def execAbtT (s : State) : Host.Outcome State Fault Refusal := abortWith 8 s

/-- `fence` (R164-R166): later engine accesses of the wave are performed after those issued before (the stronger order R166 allows). -/
def execFence (scope : BitVec 3) (s : State) : Host.Outcome State Fault Refusal :=
  issue { flds := [.unused 0x7C, .code (scope.setWidth 7) (decide (scope.toNat ≤ 5)), .unused 0x7C], ends := true } s fun c s =>
    if !s.scopeAllowed (s.vfOf c.w) scope.toNat then .fault Cause.scope
    else .done (s.updWave c.w.wid fun w => { w with epoch := w.epoch + 1 })

/-- The target of a word of format B in a group, as an integer (R43, R199, R224). -/
def targetOf (g : Group) (o : BitVec 20) : Int := (g.at_.toNat : Int) + 4 * wideValue g 20 o.toNat
def targetOk (g : Group) (o : BitVec 20) : Bool := decide (0 ≤ targetOf g o) && decide (targetOf g o ≤ 2 ^ 57 - 4)
def openSig (s : State) (o : BitVec 20) : Sig :=
  { flds := [], guard := false, wides := 1, bfmt := true, ends := true, ok := match s.grp with | some g => targetOk g o | none => true }

/-- Record an abort address and the depths of the live lanes (R147). -/
def Wave.openAt (w : Wave) (kind : Nat) (a : W57) : Wave :=
  if kind = 0 then { w with abtW := some a, lanes := w.lanes.map fun l => if l.live then { l with abtW := l.depth } else l }
  else if kind = 1 then { w with abtB := some a, lanes := w.lanes.map fun l => if l.live then { l with abtB := l.depth } else l }
  else { w with abtT := some a, lanes := w.lanes.map fun l => if l.live then { l with abtT := l.depth } else l }

/-- A wave opens a level: the word of its abort address is replaced whole, so a mark on it clears (R147, R315). -/
def State.openLevel (s : State) (wid kind : Nat) (a : W57) : State := (s.forget (· == .waveReg wid (kind + 4))).updWave wid fun w => w.openAt kind a

/-- `opn.w` (R147). -/
def execOpnW (o : BitVec 20) (s : State) : Host.Outcome State Fault Refusal :=
  issue (openSig s o) s fun c s => .done (s.openLevel c.w.wid 0 (BitVec.ofInt 57 (targetOf c.g o)))

/-- The completion of `opn.b` and `opn.t`: each wave records its own instruction's address (R147). -/
def finishOpen (fn : Nat) (w : Wave) (b : Barrier) (s : State) : State :=
  let s := b.arrived.foldl (fun s a => s.openLevel a.1 (fn - 0x10) a.2.target) s
  (s.setBar w fn none).releaseAll b 0

/-- The completion of `bsync`: its waves go on (R229). -/
def finishSync (w : Wave) (b : Barrier) (s : State) : State := (s.setBar w 0x10 none).releaseAll b 0

/-- A barrier whose last missing members have ended completes without another arrival (R229): that of a block, or its team's, while the team is on its
cores. -/
def State.settleBar (s : State) (team : Nat) (blk : Option Nat) : State :=
  let bar := match blk with | some b => (s.block? team b).bind (·.bar) | none => (s.team? team).bind (·.bar)
  match bar with
  | none => s
  | some b =>
    match b.arrived.findSome? fun a => s.wave? a.1 with
    | none => s
    | some w =>
      if !s.barFull b || !((s.team? team).map fun t => t.active && t.gather.isNone).getD false then s
      else if b.fn = 0x10 then (finishSync w b s).wakeRetry
      else if b.fn = 1 then (finishT w b s).wakeRetry
      else if b.fn = 2 then (finishD w b s).wakeRetry
      else (finishOpen b.fn w b s).wakeRetry

def openBarrier (fn : Nat) (o : BitVec 20) (s : State) : Host.Outcome State Fault Refusal :=
  issue (openSig s o) s fun c s =>
    arriveAt fn (fun c => { plainArrival fn c with target := BitVec.ofInt 57 (targetOf c.g o) }) c s (finishOpen fn)

/-- `opn.b` (R147). -/
def execOpnB (o : BitVec 20) (s : State) : Host.Outcome State Fault Refusal := openBarrier 0x11 o s
/-- `opn.t` (R147). -/
def execOpnT (o : BitVec 20) (s : State) : Host.Outcome State Fault Refusal := openBarrier 0x12 o s

/-! ### Cache maintenance (R200) -/

/-- What b must satisfy. Where it does not, the instruction is ILLEGAL: R200 names no outcome (the model's choice, notes/assumptions/30). -/
def rangeOk (b : Nat) : Bool := bits b 0 27 ≠ 0 && bits b 0 27 % 64 == 0 && bits b 27 4 == 0

/-- The pieces of a range, page by page: virtual start and length. -/
def pagePieces (va n : Nat) : List (Nat × Nat) :=
  (List.range ((va % 65536 + n + 65535) / 65536)).map fun k =>
    let lo := max va ((va / 65536 + k) * 65536)
    (lo, min (va + n) ((va / 65536 + k + 1) * 65536) - lo)

/-- One maintenance instruction on a range of device physical addresses. -/
def State.maintain (s : State) (fn level lo n : Nat) : State :=
  let hit := s.lines.filter fun e => decide (lo ≤ e.dpa) && decide (e.dpa < lo + n) && !s.recalled e.dpa
  hit.foldl (fun s e =>
    let s := if fn = 1 then s else s.writeBack e level
    if fn = 0 then s else s.dropLine e level) s

/-- The lines of a range whose write-back meets an uncorrectable error of another context, or of a host (R319); a line that a pending outward copy
owns is left untouched (R200). -/
def State.othersBad (s : State) (w : Wave) (lo n : Nat) : List Line :=
  s.lines.filter fun e => decide (lo ≤ e.dpa) && decide (e.dpa < lo + n) && e.dirty && !s.recalled e.dpa && s.lineBad e &&
    (e.host || e.vf != s.vfOf w || e.asid != w.asid)
def State.meetsOther (s : State) (w : Wave) (lo n : Nat) : Bool := !(s.othersBad w lo n).isEmpty

/-- `cln`, `inv`, `cinv` (R200): every lane is checked before any acts; accesses issued before an earlier fence come first (R166). A
secondary twin's is not performed (R329). -/
def maintainWith (fn : Nat) (a b : BitVec 7) (s : State) : Host.Outcome State Fault Refusal :=
  issue { flds := [.unused 0x7C, .r64 a, .r32 b], scalar := true, ends := true } s fun c s =>
    let x (i : Nat) : Nat := (c.src64 i a).toNat
    let b (i : Nat) : Nat := (c.src32 i b).toNat
    let pieces (i : Nat) : List (Nat × Nat × Except Nat Nat) := (pagePieces (x i) (bits (b i) 0 27)).map fun p =>
      (p.1, p.2, if p.1 ≥ 2 ^ 57 then .error Cause.notPresent
        else (s.translate c.w.core (s.vfOf c.w) c.w.asid p.1 Need.maintain).map (·.1))
    if c.act.any fun i => !plainAddr (x i) || x i % 64 ≠ 0 || !rangeOk (b i) then .fault Cause.illegal
    else match firstCause (c.act.flatMap fun i => (pieces i).map (·.2.2)) with
      | some cause => .fault cause
      | none =>
        if (s.remotes.any fun o => o.wid == c.w.wid && decide (o.epoch < c.w.epoch)) || (s.bankOps.any fun o => o.wid == c.w.wid && decide (o.epoch < c.w.epoch)) then
          .wait
        else
          let s := s.noteAll c.w (c.act.map x)
          let s := c.act.foldl (fun s i => s.foldAccess c.w.team (c.src64 i a) (BitVec.ofNat 64 (b i)) 0 fn) s
          if ((s.team? c.w.team).map (·.secondary)).getD false then .done s
          else
            let t := c.act.foldl (fun s i =>
              (pieces i).foldl (fun s p => match p.2.2 with | .ok d => s.maintain fn (bits (b i) 31 1) d p.2.1 | .error _ => s) s) s
            let bad := c.act.any fun i => (pieces i).any fun p => match p.2.2 with
              | .ok d => (s.othersBad c.w d p.2.1).any fun e => s.mismatch.contains (e.dpa / 64)
              | .error _ => false
            if fn ≠ 1 && c.act.any fun i => (pieces i).any fun p => match p.2.2 with | .ok d => s.meetsOther c.w d p.2.1 | .error _ => false then
              .moved (t.faultBefore c (if bad then Cause.checkValue else Cause.ecc) [])
            else .done t

/-- `cln` (R200). -/
def execCln (a b : BitVec 7) (s : State) : Host.Outcome State Fault Refusal := maintainWith 0 a b s
/-- `inv` (R200). -/
def execInv (a b : BitVec 7) (s : State) : Host.Outcome State Fault Refusal := maintainWith 1 a b s
/-- `cinv` (R200). -/
def execCinv (a b : BitVec 7) (s : State) : Host.Outcome State Fault Refusal := maintainWith 2 a b s

end Sys2Proof.Machine
end

