-- ==== Sys2Proof/Machine/Control.lean ====
section
/-! DEFINITION. Majors 0x30-0x32: branches, calls, returns, exit, trap, the block barrier, yield and nop (spec/10 R222-R229, spec/09
R207-R209). -/

namespace Sys2Proof.Machine

/-- Push a return address (R208, R209): the oldest on-chip entry moves to the spill area when a fifth would stand on chip. -/
def Lane.push (l : Lane) (ra : W57) : Lane :=
  let d := l.depth + 1
  if d ≥ 5 then { l with depth := d, spill := l.spill.set (d - 5) ((l.chip.headD 0).setWidth 64), chip := l.chip.drop 1 ++ [ra] }
  else { l with depth := d, chip := l.chip ++ [ra] }

/-- The top return entry. -/
def Lane.top (l : Lane) : W57 := l.entry l.depth

/-- Pop the top entry (R208, R209): an entry is read back from the spill area when the lane stays at depth 4 or deeper. -/
def Lane.pop (l : Lane) : Lane :=
  let d := l.depth - 1
  if d ≥ 4 then { l with depth := d, chip := (l.spill.getD (d - 4) 0).setWidth 57 :: l.chip.dropLast }
  else { l with depth := d, chip := l.chip.dropLast }

/-- A lawful code address operand (R222). -/
def codeAddr (x : W64) : Bool := x.toNat % 4 == 0 && x.toNat < 2 ^ 57

/-- The group's lanes go on, then the physical lanes of Active are changed. -/
def State.steer (s : State) (c : Ctx) (f : Nat → Lane → Lane) : State := (s.advance c).onLanes c f

/-! ### Branches (R224) -/

/-- Kind 0 `br`, 1 `bry`, 2 `call`; the lanes for which `taken` holds go to the target. -/
def branchWith (kind : Nat) (taken : Ctx → Nat → Bool) (o : BitVec 20) (s : State) : Host.Outcome State Fault Refusal :=
  let ok := match s.grp with | some g => targetOk g o && (kind ≠ 1 || decide (wideValue g 20 o.toNat ≤ 0)) | none => true
  issueWith { flds := [], guard := false, wides := 1, bfmt := true, ends := kind == 1, ok := ok, pro := kind == 0 }
    (fun c i => [if taken c i then 1 else 0]) s fun c s =>
    let t : W57 := BitVec.ofInt 57 (targetOf c.g o)
    if kind = 2 && c.act.any fun i => taken c i && decide ((c.lane i).depth ≥ 32) then .fault Cause.stackOvf
    else .moved ((s.cleanStacks c).steer c fun i l =>
      if taken c i then { (if kind = 2 then l.push c.next else l) with pc := t, yielded := kind == 1 } else l)

/-- The guard of major 0x30. -/
def guardTaken (g : BitVec 3) (e : BitVec 1) (c : Ctx) (i : Nat) : Bool := c.predOf i g.toNat != (e == 1)

/-- `br` of major 0x30 (R224). -/
def execBrGuarded (g : BitVec 3) (e : BitVec 1) (o : BitVec 20) (s : State) : Host.Outcome State Fault Refusal := branchWith 0 (guardTaken g e) o s
/-- `bry` of major 0x30 (R224). -/
def execBryGuarded (g : BitVec 3) (e : BitVec 1) (o : BitVec 20) (s : State) : Host.Outcome State Fault Refusal := branchWith 1 (guardTaken g e) o s
/-- `call` of major 0x30 (R224). -/
def execCallGuarded (g : BitVec 3) (e : BitVec 1) (o : BitVec 20) (s : State) : Host.Outcome State Fault Refusal := branchWith 2 (guardTaken g e) o s
/-- `br` of major 0x31 (R224). -/
def execBr (o : BitVec 20) (s : State) : Host.Outcome State Fault Refusal := branchWith 0 (fun _ _ => true) o s
/-- `bry` of major 0x31 (R224). -/
def execBry (o : BitVec 20) (s : State) : Host.Outcome State Fault Refusal := branchWith 1 (fun _ _ => true) o s
/-- `call` of major 0x31 (R224). -/
def execCall (o : BitVec 20) (s : State) : Host.Outcome State Fault Refusal := branchWith 2 (fun _ _ => true) o s

/-! ### Indirect transfers (R225) -/

/-- `callr` (R225). -/
def execCallr (a : BitVec 7) (s : State) : Host.Outcome State Fault Refusal :=
  issueWith { flds := [.unused 0x7C, .r64 a, .unused 0x7C], scalar := true } (fun c i => [c.src64 i a]) s fun c s =>
    if c.act.any fun i => !codeAddr (c.src64 i a) then .fault Cause.illegal
    else if c.act.any fun i => decide ((c.lane i).depth ≥ 32) then .fault Cause.stackOvf
    else .moved ((s.cleanStacks c).steer c fun i l => { l.push c.next with pc := (c.src64 i a).setWidth 57, yielded := false })

/-- `ret` (R225, R208). -/
def execRet (s : State) : Host.Outcome State Fault Refusal :=
  issueWith { flds := [.unused 0x7C, .unused 0x7C, .unused 0x7C] } (fun c i => [(c.lane i).top.setWidth 64]) s fun c s =>
    if c.act.any fun i => (c.lane i).depth == 0 then .fault Cause.illegal
    else .moved ((s.cleanStacks c).steer c fun _ l => { l.pop with pc := l.top, yielded := false })

/-- `jmpr` (R225). -/
def execJmpr (a : BitVec 7) (s : State) : Host.Outcome State Fault Refusal :=
  issueWith { flds := [.unused 0x7C, .r64 a, .unused 0x7C], scalar := true } (fun c i => [c.src64 i a]) s fun c s =>
    if c.act.any fun i => !codeAddr (c.src64 i a) then .fault Cause.illegal
    else .moved (s.steer c fun i l => { l with pc := (c.src64 i a).setWidth 57, yielded := false })

/-! ### Ends, traps, barrier (R226-R229) -/

/-- `exit` (R226): the lanes of Active end; with no live lane left the wave commits implicitly, and its block with it when it was the last (R153, R154), and ends once its matrix operations
have completed or parked (R136). In a prologue it ends the run (R246). -/
def execExit (s : State) : Host.Outcome State Fault Refusal :=
  issue { flds := [.unused 0x7C, .unused 0x7C, .unused 0x7C], ends := true, pro := true } s fun c s =>
    let s1 := s.steer c fun _ l => { l with live := false, sleep := none }
    match c.w.prologue with
    | some p => .moved (s1.updWave c.w.wid fun w => { w with prologue := some { p with ended := some 0 } })
    | none =>
      if (s1.wave? c.w.wid).any fun w => w.lanes.any (·.live) then .moved s1
      else if s.accessOut c.w.wid then .wait
      else if s.pannierPoison c.w.wid then .poisoned 5
      else
        let r := s1.exitCommits c.w
        if !r.overlaysFit (c.w.core / 2) then .fault Cause.overlayFull else .moved (r.tryFinish c.w.wid)

/-- `trap` (R227): the lanes move on and the wave parks after the group with the codes of Active. -/
def execTrap (a : BitVec 7) (s : State) : Host.Outcome State Fault Refusal :=
  issueWith { flds := [.unused 0x7C, .r32 a, .unused 0x7C], scalar := true, ends := true } (fun c i => [(c.src32 i a).setWidth 64]) s fun c s =>
    .moved ((s.advance c).detach c.w.wid
      { cause := Cause.trap, done := true, faddr := c.g.first, amask := c.amask, laneFlags := [],
        codes := (List.range c.w.width).map fun i => if c.phys.contains i then c.src32 i a else 0 })

/-- `bsync` (R229). -/
def execBsync (s : State) : Host.Outcome State Fault Refusal :=
  issue { flds := [.unused 0x7C, .unused 0x7C, .unused 0x7C], guard := false, ends := true } s fun c s =>
    arriveAt 0x10 (plainArrival 0x10) c s finishSync

/-- `yield` (R228). -/
def execYield (s : State) : Host.Outcome State Fault Refusal :=
  issue { flds := [.unused 0x7C, .unused 0x7C, .unused 0x7C], ends := true } s fun c s => .moved (s.steer c fun _ l => { l with yielded := true })

/-- `nop` (R228). -/
def execNop (s : State) : Host.Outcome State Fault Refusal :=
  issue { flds := [.unused 0x7C, .unused 0x7C, .unused 0x7C], pro := true } s fun _ s => .done s

end Sys2Proof.Machine
end

