-- ==== Sys2Proof/Machine/Digest.lean ====
section
/-! DEFINITION. SHAKE256, the digest of spec/08 R188 (32 bytes) and spec/12 R282 (64 bytes). The spec names the function and does not
restate it; it is FIPS 202's (PRESUMED, notes/assumptions/10). -/

namespace Sys2Proof.Machine

/-- Rotation offsets of Keccak's step ρ, lane x + 5y. -/
def keccakRho : List Nat := [0, 1, 62, 28, 27, 36, 44, 6, 55, 20, 3, 10, 43, 25, 39, 41, 45, 15, 21, 8, 18, 2, 61, 56, 14]

/-- Round constants of step ι. -/
def keccakRc : List W64 :=
  [0x0000000000000001, 0x0000000000008082, 0x800000000000808A, 0x8000000080008000, 0x000000000000808B, 0x0000000080000001,
   0x8000000080008081, 0x8000000000008009, 0x000000000000008A, 0x0000000000000088, 0x0000000080008009, 0x000000008000000A] ++
  [0x000000008000808B, 0x800000000000008B, 0x8000000000008089, 0x8000000000008003, 0x8000000000008002, 0x8000000000000080,
   0x000000000000800A, 0x800000008000000A, 0x8000000080008081, 0x8000000000008080, 0x0000000080000001, 0x8000000080008008]

/-- One round of Keccak-f[1600] on 25 lanes. -/
def keccakRound (a : List W64) (rc : W64) : List W64 :=
  let at_ (l : List W64) (x y : Nat) : W64 := l.getD (x % 5 + 5 * (y % 5)) 0
  let c := (List.range 5).map fun x => (List.range 5).foldl (fun t y => t ^^^ at_ a x y) 0
  let d := (List.range 5).map fun x => c.getD ((x + 4) % 5) 0 ^^^ (c.getD ((x + 1) % 5) 0).rotateLeft 1
  let b := (List.range 25).map fun k =>
    let y := k % 5
    let x := (k / 5 + 15 - 3 * y) * 3 % 5
    (at_ a x y ^^^ d.getD x 0, x + 5 * y)
  let r := b.map fun e => e.1.rotateLeft (keccakRho.getD e.2 0)
  (List.range 25).map fun k =>
    let x := k % 5
    let y := k / 5
    let v := at_ r x y ^^^ (~~~(at_ r (x + 1) y) &&& at_ r (x + 2) y)
    if k = 0 then v ^^^ rc else v

def keccakF (a : List W64) : List W64 := keccakRc.foldl keccakRound a

/-- Absorb one block of 136 bytes. -/
def keccakAbsorb (a : List W64) (block : List Byte) : List W64 :=
  keccakF (a.mapIdx fun i v => if i < 17 then v ^^^ BitVec.ofNat 64 (leAt block (8 * i) 8) else v)

/-- The message with SHAKE's suffix and padding, to whole blocks of 136 bytes. -/
def shakePad (m : List Byte) : List Byte :=
  let r := 136 - m.length % 136
  if r = 1 then m ++ [0x9F] else m ++ [0x1F] ++ List.replicate (r - 2) 0 ++ [0x80]

/-- The first n bytes of SHAKE256 of a message, n at most 136. -/
def shake256 (n : Nat) (m : List Byte) : List Byte :=
  let p := shakePad m
  let a := (List.range (p.length / 136)).foldl (fun a k => keccakAbsorb a ((p.drop (136 * k)).take 136)) (List.replicate 25 0)
  (a.flatMap fun v => leBytes 8 v.toNat).take n

end Sys2Proof.Machine
end

