-- ==== Sys2Proof/Machine/CrossLane.lean ====
section
/-! DEFINITION. Major 0x33: votes, ballots, shuffles and `sget` (spec/10 R230-R232). Lane positions count program lanes (R231). -/

namespace Sys2Proof.Machine

/-- `lany` (R230). -/
def execLany (p q : BitVec 3) (s : State) : Host.Outcome State Fault Refusal :=
  issue { flds := [.unused 0x7C] } s fun c s => .done (s.putPred c p.toNat fun _ => c.act.any fun i => c.predOf i q.toNat)

/-- `lall` (R230). -/
def execLall (p q : BitVec 3) (s : State) : Host.Outcome State Fault Refusal :=
  issue { flds := [.unused 0x7C] } s fun c s => .done (s.putPred c p.toNat fun _ => c.act.all fun i => c.predOf i q.toNat)

/-- `lbits` (R230). -/
def execLbits (d : BitVec 7) (q : BitVec 3) (s : State) : Host.Outcome State Fault Refusal :=
  issue { flds := [.w64 d true, .unused 0x7C] } s fun c s => .done (s.put64 c d fun _ => maskOf 64 fun i => c.act.contains i && c.predOf i q.toNat)

/-- A cross-lane read (R231): a lane whose source is out of range or outside Active keeps its d. -/
def shuffle (src : Nat → Nat → Nat → Option Nat) (d a b : BitVec 7) (s : State) : Host.Outcome State Fault Refusal :=
  issue { flds := [.rw32 d true, .r32 a, .r32 b], scalar := true } s fun c s =>
    let from_ (i : Nat) : Option Nat :=
      match src c.w.plan (c.index i) (c.src32 i b).toNat with
      | some j => if c.act.contains j then some (j + (i - c.index i)) else none
      | none => none
    .done (s.put32 c d fun i => match from_ i with | some j => c.src32 j a | none => c.src32 i d)

/-- `xl.idx` (R231). -/
def execXlIdx (d a b : BitVec 7) (s : State) : Host.Outcome State Fault Refusal := shuffle (fun l _ n => some (n % l)) d a b s
/-- `xl.lo` (R231). -/
def execXlLo (d a b : BitVec 7) (s : State) : Host.Outcome State Fault Refusal := shuffle (fun _ i n => if n > i then none else some (i - n)) d a b s
/-- `xl.hi` (R231). -/
def execXlHi (d a b : BitVec 7) (s : State) : Host.Outcome State Fault Refusal := shuffle (fun l i n => if i + n ≥ l then none else some (i + n)) d a b s
/-- `xl.xor` (R231). -/
def execXlXor (d a b : BitVec 7) (s : State) : Host.Outcome State Fault Refusal := shuffle (fun l i n => some (i ^^^ (n % l))) d a b s
/-- `xl.rot` (R231). -/
def execXlRot (d a b : BitVec 7) (s : State) : Host.Outcome State Fault Refusal := shuffle (fun l i n => some ((i + n) % l)) d a b s

/-- `sget` (R232). -/
def execSget (n : BitVec 5) (a : BitVec 7) (s : State) : Host.Outcome State Fault Refusal :=
  issueWith { flds := [.r64 a, .unused 0x7C], scalar := true } (fun c i => [c.src64 i a]) s fun c s => .done (s.putScalar c n.toNat (c.src64 c.elected a))

end Sys2Proof.Machine
end

