-- ==== Sys2Proof/Machine/Rack.lean ====
section
/-! DEFINITION. Majors 0x34 and 0x35: racks, `spawn`, `regroup`, `racktm` (spec/09 R210-R214, spec/10 R233-R235) and `waitc` (R236). -/

namespace Sys2Proof.Machine

/-- A lane position of a rack that nothing has filled (R212). -/
def Lane.empty (nregs : Nat) (entry : W57) : Lane :=
  { live := false, sleep := none, yielded := false, depth := 0, pc := entry, chip := [], spill := List.replicate 28 0, preds := 0,
    regs := List.replicate nregs 0, tid := 0, abtW := 0, abtB := 0, abtT := 0 }

/-- A new rack of a wave's block (R210, R212): its place and its launch state. -/
def Wave.newRack (w : Wave) (wid idx slot : Nat) (entry : W57) (timer : Nat) : Wave :=
  { wid := wid, team := w.team, blk := w.blk, idx := idx, core := w.core, slot := slot, width := w.width, nregs := w.nregs, grade := w.grade,
    sup := w.sup, asid := w.asid, status := .rack entry timer, wait := .ready, lanes := List.replicate w.width (Lane.empty w.nregs entry),
    sregs := List.replicate 32 0, fpmode := 0, fpflags := 0, winBase := 0, winLimit := 0, mlatch := none,
    latches := List.replicate 4 (List.replicate w.width 0), latchLive := [false, false, false, false], hold := 0, pan := [], reds := [],
    abtW := none, abtB := none, abtT := none, foreign := [], epoch := 0, age := 0, prologue := none }

/-- A thread on its way into a rack (R211): whether a `spawn` once placed it (R233), its `%tid` and its carried values, for the program lane and for its shadow. -/
structure Thread where
  spawned : Bool
  tid : W32
  vals : List W32
  shadow : List W32

/-- Carried values at the head of a register list. -/
def carry (regs vals : List W32) : List W32 := vals ++ regs.drop vals.length

/-- Program lanes that a rack holds. -/
def Wave.filled (w : Wave) : Nat := ((w.lanes.take w.plan).filter (·.live)).length

/-- A thread joins a rack at the lowest position not filled; a rack that is then full launches (R211). -/
def Wave.join (r : Wave) (t : Thread) : Wave :=
  let k := r.filled
  let put (l : Lane) (vs : List W32) : Lane := { l with live := true, tid := t.tid, regs := carry l.regs vs, spawned := t.spawned }
  let r := { r with
    spawned := r.spawned || t.spawned
    lanes := r.lanes.mapIdx fun i l => if i = k then put l t.vals else if r.grade = 1 && i = k + r.width / 2 then put l t.shadow else l }
  if r.filled ≥ r.plan then r.launchRack else r

/-- The words that a thread which joins a rack replaces whole: its carried registers and its position's key word (R315). -/
def Wave.joined (r : Wave) (t : Thread) : StoreLoc → Bool
  | .vreg w i k => w == r.wid && (i == r.filled || (r.grade == 1 && i == r.filled + r.width / 2)) && decide (k < t.vals.length)
  | .laneState w i k => w == r.wid && (i == r.filled || (r.grade == 1 && i == r.filled + r.width / 2)) && decide (k < 2)
  | _ => false

/-- PlaceInRack (R211) for a wave's block. With `own`, the wave regroups: its own slot, register space and number count as free, and the
first new rack takes its number and slot over (R213). -/
def State.placeInRack (s : State) (w : Wave) (own : Bool) (entry : W57) (t : Thread) : State × Bool :=
  let others := s.waves.filter fun x => !(own && x.wid == w.wid)
  let mine := others.filter fun x => x.team == w.team && x.blk == w.blk
  match mine.find? fun x => match x.status with | .rack e _ => e == entry | _ => false with
  | some r => ((s.forget (r.joined t)).updWave r.wid fun r => r.join t, true)
  | none =>
    let taken (k : Nat) : Bool := mine.any fun x => x.idx == k
    let slot := if own then (if others.any fun x => x.core == w.core && x.slot == w.slot then s.freeSlot? w.core else some w.slot) else s.freeSlot? w.core
    let idx := if own && !taken w.idx then some w.idx else (List.range 16).find? fun k => !taken k
    let size := w.width * w.nregs * 4
    let use := s.coreUse w.core
    match slot, idx with
    | some slot, some idx =>
      if mine.length ≥ 16 || use.slots + 1 > Config.slotsPerCore + (if own then 1 else 0) ||
          use.regs + size > Config.regFileBytes + (if own then size else 0) then (s, false)
      else
        let timer := ((s.block? w.team w.blk).map (·.rackT)).getD 256
        ({ s with waves := s.waves ++ [(w.newRack s.nextId idx slot entry timer).join t], nextId := s.nextId + 1 }, true)
    | _, _ => (s, false)

/-- A code address that breaks R222, or a carried range that breaks R233, in a lane. -/
def spawnBad (c : Ctx) (a b : BitVec 7) (i : Nat) : Bool :=
  let k := bits (c.src32 i b).toNat 0 7
  let sr := bits (c.src32 i b).toNat 8 7
  !codeAddr (c.src64 i a) || decide (k > c.w.nregs) || (decide (k > 0) && decide (sr + k > c.w.nregs))

/-- The shadow of a program lane (R328). -/
def Ctx.shadow (c : Ctx) (i : Nat) : Nat := if c.w.grade = 1 then i + c.w.width / 2 else i

/-- `spawn` (R233). -/
def execSpawn (d a b : BitVec 7) (s : State) : Host.Outcome State Fault Refusal :=
  issueWith { flds := [.rw32 d true, .r64 a, .r32 b], scalar := true, ends := true }
    (fun c i => [c.src64 i a, (c.src32 i b).setWidth 64, (c.src32 i d).setWidth 64]) s fun c s =>
    if c.act.any (spawnBad c a b) then .fault Cause.illegal
    else
      let vals (i j : Nat) : List W32 :=
        (List.range (bits (c.src32 i b).toNat 0 7)).map fun k => (c.lane j).regs.getD (bits (c.src32 i b).toNat 8 7 + k) 0
      let r := c.act.foldl (fun (acc : State × List (Nat × W32)) i =>
        let p := acc.1.placeInRack c.w false ((c.src64 i a).setWidth 57) { spawned := true, tid := c.src32 i d, vals := vals i i, shadow := vals i (c.shadow i) }
        (p.1, acc.2 ++ [(i, if p.2 then 0 else 1)])) (s, [])
      .done (r.1.put32 c d fun i => (assoc r.2 (c.index i)).getD 0)

/-- Place the lanes of a regrouping wave: the state, and the lanes that stay (R213 step 4, R214). -/
def State.placeAll (s : State) (c : Ctx) (own : Bool) (a b : BitVec 7) : State × List Nat :=
  c.act.foldl (fun (acc : State × List Nat) i =>
    let n := bits (c.src32 i b).toNat 0 7
    let p := acc.1.placeInRack c.w own ((c.src64 i a).setWidth 57)
      { spawned := (c.lane i).spawned, tid := (c.lane i).tid, vals := (c.lane i).regs.take n, shadow := (c.lane (c.shadow i)).regs.take n }
    (p.1, if p.2 then acc.2 else acc.2 ++ [i])) (s, [])

/-- `regroup` (R213, R214, R234). Whether the wave's own slot counts as free when some lane stays, R213 and R214 leave open: it then does
not (notes/assumptions/13). -/
def execRegroup (a b : BitVec 7) (s : State) : Host.Outcome State Fault Refusal :=
  issueWith { flds := [.unused 0x7C, .r64 a, .r32 b], guard := false, scalar := true, ends := true }
    (fun c i => [c.src64 i a, (c.src32 i b).setWidth 64]) s fun c s =>
    if c.act.any fun i => !codeAddr (c.src64 i a) || decide (bits (c.src32 i b).toNat 0 7 > c.w.nregs) || decide ((c.lane i).depth > 0) then
      .fault Cause.illegal
    else if s.accessOut c.w.wid then .wait
    else if s.pannierPoison c.w.wid then .poisoned 5
    else
      let s1 := (s.commitWave c.w.wid true).1
      if !s1.overlaysFit (c.w.core / 2) then .fault Cause.overlayFull
      else if s.mmas.any fun m => m.wid == c.w.wid && m.phase == .issued then
        (if c.w.pan.isEmpty && c.w.reds.isEmpty then .wait else .hold s1)
      else
        let s2 := s1.updWave c.w.wid fun w => { w with mlatch := none }
        let r := match s2.placeAll c true a b with
          | (t, []) => (t, [])
          | _ => s2.placeAll c false a b
        let stay := c.w.physical r.2
        let t := r.1.updWave c.w.wid fun w => { w with
          lanes := w.lanes.mapIdx fun i l =>
            if stay.contains i then { l with pc := (c.src64 i a).setWidth 57, yielded := false } else { l with live := false, sleep := none } }
        .moved (if r.2.isEmpty then t.finishWave c.w.wid else t)

/-- `racktm` (R235). -/
def execRacktm (a : BitVec 7) (s : State) : Host.Outcome State Fault Refusal :=
  issue { flds := [.unused 0x7C, .r32 a, .unused 0x7C], scalar := true, ends := true } s fun c s =>
    let t := (c.src32 c.elected a).toNat
    if t < 16 || t > 4096 then .fault Cause.illegal else .done (s.updBlock c.w.team c.w.blk fun b => { b with rackT := t })

/-- `waitc` (R236 steps 1 and 2): every lane is checked, then the lanes of Active fall asleep at their group until they are woken. -/
def execWaitc (d a b : BitVec 7) (s : State) : Host.Outcome State Fault Refusal :=
  issueWith { flds := [.w64 d true, .r64 a, .r32 b], scalar := true, ends := true } (fun c i => [c.src64 i a, (c.src32 i b).setWidth 64]) s fun c s =>
    let x (i : Nat) : Nat := (c.src64 i a).toNat
    let at_ (i : Nat) : Except Nat Nat :=
      if !plainAddr (x i) || x i % 4 ≠ 0 then .error Cause.illegal
      else (s.translate c.w.core (s.vfOf c.w) c.w.asid (x i) Need.monitor).map (·.1)
    match firstCause (c.act.map at_) with
    | some cause => .fault cause
    | none =>
      let s := s.noteAll c.w (c.act.map x)
      let s := c.act.foldl (fun s i => s.foldAccess c.w.team (c.src64 i a) ((c.src32 i b).setWidth 64) 0 0) s
      .moved (s.steer c fun i l =>
        { l with
          pc := c.g.first
          yielded := false
          sleep := some { addr := c.src64 i a, dpa := (at_ (c.index i)).toOption.getD 0, cmp := c.src32 i b, dst := d.toNat, next := c.next,
                          epoch := c.w.epoch, armed := false, hit := false, ready := (c.w.slow.getLast?.map (·.ready)).getD 0 } })

end Sys2Proof.Machine
end

