-- ==== Sys2Proof/Machine/Special.lean ====
section
/-! DEFINITION. Major 0x38: special registers, wave registers and supervisor selectors (spec/02 R41, spec/10 R238, Tables 23, 24, 38, 39,
88, 86, 93, 110, R127). -/

namespace Sys2Proof.Machine

/-- PCTL of a partition as a word (Table 86). -/
def Part.pctl (p : Part) : W64 :=
  BitVec.ofNat 64 ((if p.busy then 2 ^ 31 else 0) + p.owner * 2 ^ 24 + p.fwm.toNat * 2 ^ 16 + (if p.pev then 2 ^ 9 else 0) + (if p.perr then 2 ^ 8 else 0) + p.nest)

/-- `pinfo` of a wave (Table 93). -/
def State.pinfo (s : State) (w : Wave) : W64 :=
  let p := partOfCore w.core
  let v := s.vfOf w
  BitVec.ofNat 64 (s.ordinal p * 2 ^ 24 + (s.vf v).ld * 2 ^ 16 + v * 2 ^ 8 + p)

/-- `mxcfg` of a wave's block (Table 39). -/
def State.mxcfg (s : State) (w : Wave) : W64 :=
  match s.block? w.team w.blk with
  | some b => BitVec.ofNat 64 (b.cassLen * 2 ^ 32 + b.acc)
  | none => 0

/-- `redgrade` of a wave (Table 110). -/
def State.redgrade (s : State) (w : Wave) : W64 :=
  BitVec.ofNat 64 ((if ((s.team? w.team).map (·.secondary)).getD false then 4 else 0) + w.grade)

/-- The wave register of a selector; none where no chapter lists one (R41). -/
def State.waveReg (s : State) (w : Wave) (sel : Nat) : Option W64 :=
  if sel = 0x10 then some w.fpmode
  else if sel = 0x11 then some w.fpflags
  else if sel = 0x20 then some (accwinWord (s.locked w.wid) w)
  else if sel = 0x21 then some (s.mxcfg w)
  else if sel = 0x22 then some (mlatchWord w.mlatch)
  else if sel = 0x30 then some (s.redgrade w)
  else if sel = 0x1000 then some (s.pinfo w)
  else if sel = 0x1001 then some (s.vf (s.vfOf w)).hpol
  else if sel = 0x1002 then some (s.part (partOfCore w.core)).pctl
  else if sel = 0x1003 then some (BitVec.ofNat 64 w.asid)
  else none

/-- The selectors that `srd` accepts. -/
def readableSel (sel : Nat) : Bool := [0x10, 0x11, 0x20, 0x21, 0x22, 0x30, 0x1000, 0x1001, 0x1002, 0x1003].contains sel

/-- `spr` (R41, R238). -/
def execSpr (x : BitVec 7) (sel : BitVec 14) (s : State) : Host.Outcome State Fault Refusal :=
  issue { flds := [.reg x], sup := decide (0x1000 ≤ sel.toNat), ok := decide (sel.toNat ≤ 5) } s fun c s =>
    let team := BitVec.ofNat 32 (((s.team? c.w.team).map (·.idx)).getD 0)
    .done (s.put32 c x fun i =>
      if sel = 0 then (c.lane i).tid
      else if sel = 1 then BitVec.ofNat 32 c.w.idx
      else if sel = 2 then BitVec.ofNat 32 c.w.blk
      else if sel = 3 then team
      else if sel = 4 then BitVec.ofNat 32 (c.lane i).depth
      else BitVec.ofNat 32 (c.index i))

/-- `srd` (R238); of `fpflags`, once every earlier matrix operation has set its flags (R77). -/
def execSrd (x : BitVec 5) (sel : BitVec 14) (s : State) : Host.Outcome State Fault Refusal :=
  issue { flds := [.wsreg x], sup := decide (0x1000 ≤ sel.toNat), ok := readableSel sel.toNat, ends := true } s fun c s =>
    if sel = 0x11 && s.mmaBusy c.w.wid then .wait
    else if sel = 0x11 && s.errors.contains (.waveReg c.w.wid 1) then .poisoned 5
    else .done (s.putScalar c x.toNat ((s.waveReg c.w sel.toNat).getD 0))

/-- `swr` (R238, R77): `fpmode` takes its writable bits, `fpflags` clears the bits written 1; every other selector is read-only. -/
def execSwr (x : BitVec 5) (sel : BitVec 14) (s : State) : Host.Outcome State Fault Refusal :=
  issue { flds := [.sreg x], sup := decide (0x1000 ≤ sel.toNat), ok := sel == 0x10 || sel == 0x11 } s fun c s =>
    let v := c.w.sregs.getD x.toNat 0
    .done ((s.forget fun e => e == .waveReg c.w.wid 0 && sel == 0x10).updWave c.w.wid fun w =>
      if sel = 0x10 then { w with fpmode := v &&& fpmodeMask } else { w with fpflags := w.fpflags &&& ~~~(v &&& fpflagsMask) })

end Sys2Proof.Machine
end

