-- ==== Sys2Proof/Machine/StateAccess.lean ====
section
/-! DEFINITION. Majors 0x39 and 0x3A (spec/13 R293-R303): records reached by handle and offset, claims, dispositions, posts and queue clocks.
The same operations serve a wave, a domestique (R304) and a peer part (R310). -/

namespace Sys2Proof.Machine

/-- The task that holds a record: a team, the domestique task of a core, or a handler on a peer part. -/
inductive Holder where
  | team (id : Nat)
  | dom (core : Nat)
  | peer
  deriving DecidableEq, Repr

/-- The record that a handle names within a function (R293). -/
def State.byHandle (s : State) (vf : Nat) (h : W32) : Option Record := s.records.find? fun r => r.vf == vf && r.handle == h

/-- Whether a task holds a record. -/
def State.holdsRec (s : State) (h : Holder) (r : Record) : Bool :=
  match h with
  | .team t => (s.taskHolds t).contains r.id
  | .dom c => ((s.dom? c).map fun d => d.holds.contains r.id).getD false
  | .peer => r.peer

/-- The held record of a handle. -/
def State.heldRec (s : State) (h : Holder) (vf : Nat) (x : W32) : Option Record :=
  match s.byHandle vf x with
  | some r => if s.holdsRec h r then some r else none
  | none => none

/-- A task takes a record (R297, R299): CLAIMED, its waiting fault task gone. -/
def State.claimRec (s : State) (h : Holder) (r : Record) : State :=
  let s := (s.updRecord r.id fun x => { x with state := .claimed, stopped := false }).dropFaultTask r.id
  match h with
  | .team t => (s.updTeam t fun t => { t with holds := r.id :: t.holds }).serve t r.depth r.handle
  | .dom c => match s.dom? c with
    | some d => s.setDom { d with holds := r.id :: d.holds, serving := max d.serving r.depth }
    | none => s
  | .peer => s.updRecord r.id fun x => { x with peer := true }

/-- A task lets a record go. -/
def State.letGo (s : State) (h : Holder) (rid : Nat) : State :=
  match h with
  | .team t => { s with teams := s.teams.map fun (x : Team) => if x.id = t || x.twin = some t then { x with holds := x.holds.filter (· != rid) } else x }
  | .dom c => match s.dom? c with
    | some d => s.setDom { d with holds := d.holds.filter (· != rid) }
    | none => s
  | .peer => s.updRecord rid fun x => { x with peer := false }

/-! ### Reading and writing (R300, Table 97) -/

/-- Whether an offset names an existing part of a record (R300). -/
def State.offsetOk (s : State) (r : Record) (off : Nat) : Bool :=
  off % 8 == 0 &&
  (decide (off < 0x100) || (decide (0x100 ≤ off) && decide (off + 8 ≤ 0x100 + r.body.length)) ||
   (r.kind == .wave && decide (0x10000 ≤ off) && decide (off < 0x12800)) ||
   (r.kind == .wave && decide (0x14000 ≤ off) && decide (off < 0x14000 + 224 * (s.spillOf r).length)))

/-- `psave` of a record (Table 98): where the part keeps the pannier save space of the wave's slot on its core (notes/assumptions/9). -/
def State.savePlace (s : State) (r : Record) : W32 :=
  match r.kind, s.wave? r.unit with
  | .wave, some w => Config.savePlace w.core w.slot r.team
  | _, _ => 0

/-- The 8 bytes of a record at an offset. -/
def State.recRead (s : State) (r : Record) (off : Nat) : W64 :=
  if off < 0x100 then BitVec.ofNat 64 (leAt (recordHeader (s.poolBase r.part) (s.savePlace r) r) off 8)
  else if off < 0x10000 then BitVec.ofNat 64 (leAt r.body (off - 0x100) 8)
  else if off < 0x14000 then BitVec.ofNat 64 (leAt r.pan (off - 0x10000) 8)
  else ((s.spillOf r).getD ((off - 0x14000) / 224) []).getD ((off - 0x14000) % 224 / 8) 0

/-- The team-view address of the pannier word that an offset of a wave record names, by the key of its sector (R292); none for a key, a deferred
reduction or a sector not in use. -/
def State.panWord (s : State) (r : Record) (off : Nat) : Option Nat :=
  let key := leAt r.pan (8192 + 8 * ((off - 0x10000) / 32)) 8
  if 0x10000 ≤ off && off < 0x12000 && bits key 63 1 == 1 && bits key 62 1 == 0 then
    (s.wave? r.unit).map fun w => toTeam w.core (bits key 32 17 * 32 + off % 32)
  else none

/-- The word of a parked wave's local area that an offset of its record names (Table 97, R251): of a spill area, whose entries count from 1, or of the
save space of its pannier. -/
def State.localWord (s : State) (r : Record) (off : Nat) : StoreLoc → Bool
  | .spill w i e => r.kind == .wave && w == r.unit && decide (0x14000 ≤ off) && i == (off - 0x14000) / 224 && e == (off - 0x14000) % 224 / 8 + 1
  | .pannier w a => r.kind == .wave && w == r.unit && s.panWord r off == some (a / 8 * 8)
  | _ => false

/-- Write 8 bytes; a KILLED record ignores it (R294). A word of the local area that is written whole is no longer poisoned (R315). -/
def State.recWrite (s : State) (r : Record) (off : Nat) (v : W64) : State :=
  if r.state = .killed then s
  else if off < 0x10000 then s.updRecord r.id fun x => { x with body := patchBytes x.body (off - 0x100) (le64 v) }
  else if off < 0x14000 then (s.forget (s.localWord r off)).updRecord r.id fun x => { x with pan := patchBytes x.pan (off - 0x10000) (le64 v) }
  else
    let i := (off - 0x14000) / 224
    (s.forget (s.localWord r off)).updWave r.unit fun w => { w with lanes := w.lanes.mapIdx fun j l => if j = i then { l with spill := l.spill.set ((off - 0x14000) % 224 / 8) v } else l }

/-- Write 8 bytes of the record that a handle of this part names. -/
def State.writeHeld (s : State) (vf : Nat) (h : W32) (off : Nat) (v : W64) : State :=
  match s.byHandle vf h with | some r => s.recWrite r off v | none => s

/-- An access at an offset of a record meets an error of its bytes, or of its extent's page (R312). -/
def State.badRead (s : State) (r : Record) (off : Nat) : Bool := decide (off < 0x10000) && s.placeBad r off 8

/-- What a write at an offset of a record meets: a retired page (R312); none otherwise. -/
def State.writeFault (s : State) (r : Record) (off : Nat) : Option State :=
  if s.lostExtent r.part (r.extent, r.slot) && decide (off < 0x10000) then some (s.poolFault r) else none

/-- What a read at an offset of a record meets: an error of the record itself (R312), or a poisoned word of the parked wave's local area, whose team is
killed (Table 97, R317); none otherwise. -/
def State.readFault (s : State) (r : Record) (off : Nat) : Option State :=
  if s.badRead r off then some (s.poolFault r)
  else (s.errors.find? (s.localWord r off)).map fun e => s.poisonKill r.team (((s.wave? r.unit).map (·.core)).getD 0) r.asid (storeCode e)

/-! ### Dispositions (R301, Table 103) -/

/-- The pc of the lanes of amask, and of their shadows, set in a wave body; `normal` also sets the class (Table 103). -/
def retarget (r : Record) (w : Wave) (pc : W57) (normal : Bool) : List Byte :=
  (List.range w.width).foldl (fun (b : List Byte) i =>
    if r.amask.getLsbD (i % w.plan) then
      let key := leAt b (512 + 64 * i) 8
      let key := key / 2 ^ 57 * 2 ^ 57 + pc.toNat
      patchBytes b (512 + 64 * i) (leBytes 8 (if normal then key % 2 ^ 63 else key))
    else b) r.body

/-- Continue a copy from a segment record (R184): code 1 resume, 2 retry, 3 redirect. A record of a layout fault acts on the whole copy. A redirect
sets the handle's flag. -/
def State.disposeSegment (s : State) (r : Record) (code : Nat) : State :=
  let head := r.body.take 168
  let f (c : Copy) : Copy :=
    let whole := c.recs.isNone && (match c.kind with | .staging _ => false | .writeBack _ => false | _ => true)
    if whole then
      if code = 3 then { c with rdr := true, segs := c.segs.map fun _ => .outsideFrom 0 [] head }
      else { c with segs := c.segs.set r.seg (.from 0 [] head) }
    else match c.segs.getD r.seg .done with
      | .parked _ e got =>
        if code = 3 then { c with rdr := true, segs := c.segs.set r.seg (.outsideFrom e got head) }
        else if code = 1 then { c with segs := c.segs.set r.seg (.from e got head) }
        else Copy.disown { c with segs := c.segs.set r.seg (.from 0 [] head) }
      | _ => c
  let s := s.updCopy r.unit f
  match if code = 3 then s.copy? r.unit else none with
  | some c => s.setHandle c.team c.blk c.handle fun h => { h with rdr := h.rdr || c.rdr }
  | none => s

/-- The status bytes that a handler left in a matrix record go back to their rows (R135); `dz`, `qnf` and reserved bits stay 0 (R115). -/
def State.patchRows (s : State) (r : Record) : State :=
  match s.mma? r.unit with
  | none => s
  | some o => s.updBlock o.team o.blk fun b => (List.range o.m).foldl (fun b k =>
      let x := b.row (o.row + k)
      b.setRow (o.row + k) { x with status := x.status &&& 0xFFFFFF00 ||| BitVec.ofNat 32 (leAt r.body (48 + k) 1 % 256) &&& 0x9D }) b

/-- What resuming a notice does (R318, R331). -/
def State.resumeNotice (s : State) (r : Record) : State :=
  if r.notice = 1 then s.relaunch r.launch r.teamIdx.toNat (r.unit + 1)
  else if r.notice = 2 then
    { s with teams := s.teams.map fun t => if t.id = r.team || t.twin = some r.team then { t with notice := none } else t }
  else s

/-- A task releases its claim; the record returns to PARKED (Table 100). -/
def State.unclaim (s : State) (h : Holder) (rid : Nat) : State := (s.letGo h rid).updRecord rid fun x => { x with state := .parked }

/-- A RESUMING record of a segment or of a matrix operation has its effect and becomes FREE (Table 100, Table 103); the flags of the latter join the
launch's summary, whether or not its team still stands (Table 81, R136). -/
def State.finishDisposal (s : State) (r : Record) : State :=
  let gone : State := { s with records := s.records.filter fun x => x.id != r.id }
  match r.kind with
  | .segment => gone.disposeSegment r r.disp
  | .matrix => ((gone.joinFlags r).patchRows r).endMma r.unit false
  | _ => s

/-- An accepted disposition (Table 103). A unit of an evicted team takes it when the team is placed again (Table 100); a late record's team may have gone (R136). -/
def State.accept (s : State) (h : Holder) (r : Record) (code : Nat) (addr : W57) : State :=
  let s := s.letGo h r.id
  let s := s.updRecord r.id fun x => { x with disp := code, raddr := if code = 3 then addr.setWidth 64 else x.raddr }
  if code = 4 then ((s.killRecord r.id).killUnit r).reap
  else match r.kind with
    | .wave =>
      let body := match s.wave? r.unit with
        | some w => if code = 2 then retarget r w (r.faddr.setWidth 57) false else if code = 3 then retarget r w addr true else r.body
        | none => r.body
      s.updRecord r.id fun x => { x with state := .resuming, body := body }
    | .notice => ({ s with records := s.records.filter fun x => x.id != r.id }).resumeNotice r
    | _ =>
      if s.isEvicted r.team then s.updRecord r.id fun x => { x with state := .resuming } else s.finishDisposal { r with disp := code }

/-- Dispose of a record (R301): the state and the status. -/
def State.dispose (s : State) (h : Holder) (vf : Nat) (x : W32) (code : Nat) (addr : W57) : State × W32 :=
  match s.heldRec h vf x with
  | none => (s, 3)
  | some r =>
    if r.state = .killed then (s, 2)
    else if r.state != .claimed then (s, 3)
    else if code ≠ 4 && s.recordBad r then (s.poolFault r, 3)
    else if (code = 2 || code = 3) && (r.kind == .matrix || r.kind == .notice) then (s.unclaim h r.id, 1)
    else ((s.accept h r code addr).wakeRetry, 0)

/-- Post a held record to a queue (R302): the state and the status. -/
def State.post (s : State) (h : Holder) (vf part : Nat) (x : W32) (queue prio : Nat) : State × W32 :=
  match s.heldRec h vf x with
  | none => (s, 3)
  | some r =>
    if r.state = .killed then (s, 2)
    else if r.state != .claimed then (s, 3)
    else
      let s := (s.unclaim h r.id).updRecord r.id fun x =>
        { x with queue := queue, prio := prio, away := if x.pkind = 3 then some ((x.away.map (·.1)).getD ((x.pol.map (·.pord)).getD 0), queue) else x.away }
      (s.enqueue (mkTask part queue prio (.fault r.id)) false, 0)

/-- The oldest waiting fault task of a queue that names a PARKED record of a function, or a remote post (R299). -/
def State.oldestFault (s : State) (vf part queue : Nat) : Option Task :=
  let ok (t : Task) : Bool := t.part == part && t.queue == queue &&
    (match t.kind with
     | .fault r => ((s.record? r).map fun r => r.state == .parked && r.vf == vf).getD false
     | .remote p _ => p.vf == vf
     | _ => false)
  (s.tasks.filter ok).foldl (fun (b : Option Task) t => match b with | none => some t | some u => if t.order < u.order then some t else some u) none

/-- A task takes a fault task that a peer posted here: the claim is made at the record's home, and the task holds the remote handle (R299, R310). -/
def State.takeRemote (s : State) (h : Holder) (t : Task) (p : RemotePost) (d : Nat) : State :=
  let s := ({ s with tasks := s.tasks.filter fun y => y.id != t.id } : State).sendFor p.vf p.link fun n => .ksclaim n p.handle
  let due (l : List (W32 × Nat × Nat)) : List (W32 × Nat × Nat) := (p.handle, t.queue, d) :: l.filter fun e => e.1 != p.handle
  match h with
  | .team i => (s.updTeam i fun t => { t with remotes := p.handle :: t.remotes, due := due t.due }).serve i p.depth p.handle
  | .dom c => match s.dom? c with
    | some k => s.setDom { k with remotes := p.handle :: k.remotes, due := due k.due, serving := max k.serving p.depth }
    | none => s
  | .peer => s

/-- Claim by queue or by handle (R299): the state and the handle, null when there is none. -/
def State.claim (s : State) (h : Holder) (vf part : Nat) (byHandle : Bool) (queue : Nat) (x : W32) : State × W32 :=
  if byHandle then
    match s.byHandle vf x with
    | some r => if r.state = .parked then (s.claimRec h r, r.handle) else (s, 0xFFFFFFFF)
    | none =>
      match s.tasks.find? fun t => match t.kind with | .remote p _ => p.vf == vf && p.handle == x | _ => false with
      | some t => (match t.kind with | .remote p d => (s.takeRemote h t p d, p.handle) | _ => (s, 0xFFFFFFFF))
      | none => (s, 0xFFFFFFFF)
  else
    match s.oldestFault vf part queue with
    | none => (s, 0xFFFFFFFF)
    | some t =>
      match t.kind with
      | .fault r => match s.record? r with
        | some r => (s.claimRec h r, r.handle)
        | none => (s, 0xFFFFFFFF)
      | .remote p d => (s.takeRemote h t p d, p.handle)
      | _ => (s, 0xFFFFFFFF)

/-! ### The instructions -/

/-- A handle held on a peer part (R293). -/
def remoteHandle (x : W32) : Bool := x.getLsbD 31 && x != 0xFFFFFFFF
def State.holdsRemote (s : State) (w : Wave) (x : W32) : Bool := ((s.team? w.team).map fun t => t.remotes.contains x).getD false

/-- What one lane group of a state access asks for: its lanes, the handle, a value that is already here or a message to the home, and what the group
writes once every home has answered (R300). -/
structure Asked where
  lanes : List Nat
  handle : W32
  ask : Except W64 (Nat → SpokeMsg)
  write : Option (Nat × W64) := none
  final : Bool := false

/-- Send requests over links and let the wave wait for the replies (R300, R303). A link that the function's policy does not enable carries nothing
(R270): such a request ends as a link timeout. -/
def State.sendRemote (s : State) (c : Ctx) (dst : Option Nat) (pair : Bool) (reqs : List Asked) : State :=
  let vf := s.vfOf c.w
  let s := reqs.foldl (fun (s : State) (q : Asked) =>
    let link := homeLink q.handle
    let r : SpokeReq :=
      { id := s.nextId, link := link, wid := c.w.wid, lanes := q.lanes, dst := dst, pair := pair, next := c.next, first := c.g.first, amask := c.amask,
        value := match q.ask with | .error v => some v | .ok _ => none, handle := q.handle, write := q.write, final := q.final
        group := c.w.physical c.g.lanes }
    { s with
      spokeReqs := s.spokeReqs ++ [r]
      spokeOut := match q.ask with
        | .ok m => if s.linkOpen vf link then s.spokeOut ++ [(link, .request (s.groupOf vf) s.nextId (m s.nextId))] else s.spokeOut
        | .error _ => s.spokeOut
      nextId := s.nextId + 1 }) s
  s.updWave c.w.wid fun w => { w with wait := .replies reqs.length c.g.first }

/-- The partition an issuing wave belongs to. -/
def Ctx.part (c : Ctx) : Nat := partOfCore c.w.core

/-- `ksclaim` (R299). -/
def execKsclaim (d a : BitVec 7) (s : State) : Host.Outcome State Fault Refusal :=
  issue { flds := [.w32 d true, .r64 a, .unused 0x7C], scalar := true, ends := true } s fun c s =>
    let x := (c.src64 c.elected a).toNat
    let r := s.claim (.team c.w.team) (s.vfOf c.w) c.part (bits x 32 1 == 1) (bits x 0 6) (BitVec.ofNat 32 x)
    .done (r.1.put32 c d fun _ => r.2)

/-- The handle and the offset of a `ksrd` or `kswr` address. -/
def ksHandle (x : W64) : W32 := x.setWidth 32
def ksOffset (x : W64) : Nat := bits x.toNat 32 32

/-- An offset that some record has, by Table 97. -/
def placeOk (off : Nat) (write : Bool) : Bool := off % 8 == 0 && decide (off < 0x17800) && !(write && decide (off < 0x100))

/-- What makes a lane's access ILLEGAL (R300). -/
def State.ksBad (s : State) (w : Wave) (write : Bool) (x : W64) : Bool :=
  let off := ksOffset x
  if remoteHandle (ksHandle x) then !s.holdsRemote w (ksHandle x) || !placeOk off write
  else match s.heldRec (.team w.team) (s.vfOf w) (ksHandle x) with
    | none => true
    | some r => !s.offsetOk r off || (write && decide (off < 0x100))

/-- `ksrd` (R300). A record found in error is freed, and the group issues again (R312); so it does once a poisoned spill word has killed its team
(R317). -/
def execKsrd (d a : BitVec 7) (s : State) : Host.Outcome State Fault Refusal :=
  issue { flds := [.w64 d true, .r64 a, .unused 0x7C], scalar := true, ends := true } s fun c s =>
    let x (i : Nat) : W64 := c.src64 i a
    let v (i : Nat) : W64 := match s.byHandle (s.vfOf c.w) (ksHandle (x i)) with | some r => s.recRead r (ksOffset (x i)) | none => 0
    let lost := c.act.findSome? fun i => (s.byHandle (s.vfOf c.w) (ksHandle (x i))).bind fun r => s.readFault r (ksOffset (x i))
    if c.act.any fun i => s.ksBad c.w false (x i) then .fault Cause.illegal
    else if lost.isSome then .moved (lost.getD s)
    else if c.act.any fun i => remoteHandle (ksHandle (x i)) then
      .moved (s.sendRemote c (some d.toNat) true (c.act.map fun i =>
        { lanes := c.w.physical [i], handle := ksHandle (x i)
          ask := if remoteHandle (ksHandle (x i)) then .ok fun tag => .ksread tag (ksHandle (x i)) (ksOffset (x i)) else .error (v i) }))
    else .done (s.put64 c d fun i => v (c.index i))

/-- `kswr` (R300): lanes in ascending order. With a lane on a peer part the homes are asked first whether every such lane may act, and no lane writes
until they have answered (how the part asks is the model's choice, notes/assumptions/44). -/
def execKswr (a b : BitVec 7) (s : State) : Host.Outcome State Fault Refusal :=
  issueWith { flds := [.unused 0x7C, .r64 a, .r64 b], scalar := true, ends := true } (fun c i => [c.src64 i a, c.src64 i b]) s fun c s =>
    let x (i : Nat) : W64 := c.src64 i a
    let lost := c.act.findSome? fun i => (s.byHandle (s.vfOf c.w) (ksHandle (x i))).bind fun r => s.writeFault r (ksOffset (x i))
    if c.act.any fun i => s.ksBad c.w true (x i) then .fault Cause.illegal
    else if lost.isSome then .moved (lost.getD s)
    else if c.act.any fun i => remoteHandle (ksHandle (x i)) then
      .moved (s.sendRemote c none true (c.act.map fun i =>
        { lanes := c.w.physical [i], handle := ksHandle (x i)
          ask := if remoteHandle (ksHandle (x i)) then .ok fun tag => .ksread tag (ksHandle (x i)) (ksOffset (x i)) else .error 0
          write := some (ksOffset (x i), c.src64 i b) }))
    else .done (c.act.foldl (fun (u : State) i => u.writeHeld (s.vfOf c.w) (ksHandle (x i)) (ksOffset (x i)) (c.src64 i b)) s)

/-- A disposition of the elected lane's record; over the link for a record of a peer part (R301, R310). -/
def disposeWith (code : Nat) (d a : BitVec 7) (b : Option (BitVec 7)) (s : State) : Host.Outcome State Fault Refusal :=
  issueWith { flds := [.w32 d true, .r32 a, match b with | some b => .r64 b | none => .unused 0x7C], scalar := true, ends := true }
    (fun c i => [(c.src32 i a).setWidth 64, match b with | some b => c.src64 i b | none => 0]) s fun c s =>
    let x := c.src32 c.elected a
    let addr : W64 := match b with | some b => c.src64 c.elected b | none => 0
    if b.isSome && !codeAddr addr then .fault Cause.illegal
    else if remoteHandle x && s.holdsRemote c.w x then
      .moved (s.sendRemote c (some d.toNat) false
        [{ lanes := c.phys, handle := x, ask := .ok fun tag => .dispose tag x code (addr.setWidth 57), final := true }])
    else
      let r := s.dispose (.team c.w.team) (s.vfOf c.w) x code (addr.setWidth 57)
      .done (r.1.put32 c d fun _ => r.2)

/-- `ksres` (R301). -/
def execKsres (d a : BitVec 7) (s : State) : Host.Outcome State Fault Refusal := disposeWith 1 d a none s
/-- `ksrty` (R301). -/
def execKsrty (d a : BitVec 7) (s : State) : Host.Outcome State Fault Refusal := disposeWith 2 d a none s
/-- `ksdir` (R301). -/
def execKsdir (d a b : BitVec 7) (s : State) : Host.Outcome State Fault Refusal := disposeWith 3 d a (some b) s
/-- `kskill` (R301). -/
def execKskill (d a : BitVec 7) (s : State) : Host.Outcome State Fault Refusal := disposeWith 4 d a none s

/-- `qpost` (R302). -/
def execQpost (d a b : BitVec 7) (s : State) : Host.Outcome State Fault Refusal :=
  issue { flds := [.w32 d true, .r32 a, .r32 b], scalar := true, ends := true } s fun c s =>
    let x := c.src32 c.elected a
    let q := (c.src32 c.elected b).toNat
    if remoteHandle x && s.holdsRemote c.w x then
      .moved (s.sendRemote c (some d.toNat) false
        [{ lanes := c.phys, handle := x, ask := .ok fun tag => .post tag x (s.ordinal c.part) (bits q 0 6) (bits q 8 4) }])
    else
      let r := s.post (.team c.w.team) (s.vfOf c.w) c.part x (bits q 0 6) (bits q 8 4)
      .done (r.1.put32 c d fun _ => r.2)

/-- `qclk` (R302). -/
def execQclk (d a : BitVec 7) (s : State) : Host.Outcome State Fault Refusal :=
  issue { flds := [.w64 d true, .r32 a, .unused 0x7C], scalar := true, ends := true } s fun c s =>
    .done (s.put64 c d fun _ => BitVec.ofNat 64 (s.qclock c.part (bits (c.src32 c.elected a).toNat 0 6)))

end Sys2Proof.Machine
end

