-- ==== Sys2Proof/Machine/Redundancy.lean ====
section
/-! DEFINITION. Major 0x3C: twin signatures and check values (spec/14 R313, R332, Table 111). -/

namespace Sys2Proof.Machine

/-- The check value of a line (R313). -/
def crc16 (bs : List Byte) : W16 := bs.foldl (crcByte 0x8BB7) 0

/-- The value of a selector of `sigrd` (Table 111). -/
def sigValue (t : Team) (sel : Nat) : W64 :=
  if t.twin.isNone then 0
  else if sel = 0 then t.sigOwn
  else if sel = 1 then t.sigTwin
  else t.sigCount.setWidth 64 <<< 32 ||| t.sigMiss.setWidth 64 <<< 16 ||| 1

/-- `sigrd` (R332). -/
def execSigrd (d a : BitVec 7) (s : State) : Host.Outcome State Fault Refusal :=
  issue { flds := [.w64 d true, .r32 a, .unused 0x7C], scalar := true, ends := true } s fun c s =>
    let sel := bits (c.src32 c.elected a).toNat 0 2
    if sel = 3 then .fault Cause.illegal
    else .done (s.put64 c d fun _ => match s.team? c.w.team with | some t => sigValue t sel | none => 0)

/-- `sigclr` (R332). -/
def execSigclr (s : State) : Host.Outcome State Fault Refusal :=
  issue { flds := [.unused 0x7C, .unused 0x7C, .unused 0x7C], ends := true } s fun c s =>
    .done (s.updTeam c.w.team fun t => { t with sigCount := 0, sigMiss := 0 })

/-- `chkv` (R332): the check value of 64 bytes read through the wave's view. -/
def execChkv (d a : BitVec 7) (s : State) : Host.Outcome State Fault Refusal :=
  issue { flds := [.w32 d true, .r32 a, .unused 0x7C], scalar := true, ends := true } s fun c s =>
    let ea (i : Nat) : Nat := (c.src32 i a).toNat
    if c.act.any fun i => ea i % 64 ≠ 0 || !inView (s.viewSize c.w) (ea i) 64 then .fault Cause.illegal
    else if s.anyGuarded c ea 64 false then .stall
    else match c.act.findSome? fun i => s.viewPoison c.w (ea i) 64 with
      | some code => .poisoned code
      | none => .done (s.put32 c d fun i => (crc16 (s.viewBytes c.w (ea i) 64)).setWidth 32)

end Sys2Proof.Machine
end

