-- ==== Sys2Proof/Machine/Privileged.lean ====
section
/-! DEFINITION. Major 0x3D: the privileged instructions (spec/12 R285, R286, Table 94). Each issues as the elected lane, completes in one step
and comes after the engine accesses its wave issued before an earlier fence. -/

namespace Sys2Proof.Machine

/-- Remove cached translations (R286 `tlbinv`). -/
def State.dropTlb (s : State) (p : TlbEntry → Bool) : State := { s with tlb := s.tlb.filter fun e => !p e }

/-- Issue a privileged instruction: `bad` gives the operand values that are ILLEGAL, `act` the effect and the status. -/
def privWith (flds : List Fld) (d a b : BitVec 7) (wideA : Bool) (bad : Nat → Nat → Bool) (act : State → Ctx → Nat → Nat → State × W32) (s : State) :
    Host.Outcome State Fault Refusal :=
  issue { flds := .w32 d true :: flds, scalar := true, ends := true, sup := true } s fun c s =>
    let x := if wideA then (c.src64 c.elected a).toNat else (c.src32 c.elected a).toNat
    let y := (c.src32 c.elected b).toNat
    if bad x y then .fault Cause.illegal
    else if (s.remotes.any fun o => o.wid == c.w.wid && decide (o.epoch < c.w.epoch)) || (s.bankOps.any fun o => o.wid == c.w.wid && decide (o.epoch < c.w.epoch)) then
      .wait
    else
      let r := act s c x y
      .done (r.1.put32 c d fun _ => r.2)

/-- A device page address that R285 accepts: 40 bits, aligned, inside the part with the pages that follow. -/
def pageBad (x n : Nat) : Bool := decide (x ≥ 2 ^ 40) || x % 65536 ≠ 0 || decide (x + 65536 * n > Config.deviceBytes)

/-- `scrub` (Table 94). -/
def execScrub (d a b : BitVec 7) (s : State) : Host.Outcome State Fault Refusal :=
  privWith [.r64 a, .r32 b] d a b true (fun x y => bits y 13 19 ≠ 0 || bits y 0 13 = 0 || decide (bits y 0 13 > 4096) || pageBad x (bits y 0 13))
    (fun s c x y =>
      let pages := (List.range (bits y 0 13)).map (x / 65536 + ·)
      if pages.all (s.ownPage (s.vfOf c.w)) then ((pages.zip (pages.map s.bankPage)).foldl (fun (s : State) e => s.zeroPageAs e.1 e.2) s, 0) else (s, 1)) s

/-- `asidld` (Table 94); of two conditions that hold at once it gives the lower status (notes/assumptions/28). -/
def execAsidld (d a b : BitVec 7) (s : State) : Host.Outcome State Fault Refusal :=
  privWith [.r64 a, .r32 b] d a b true (fun x y => bits y 13 19 ≠ 0 || x % 4096 ≠ 0 || decide (x ≥ 2 ^ 57))
    (fun s c x y =>
      let vf := s.vfOf c.w
      if s.asids.any fun e => e.asid == y && e.vf != vf then (s, 1)
      else
        let ring := (s.asids.find? fun e => e.asid == y).bind (·.ring)
        let rest := s.asids.filter fun e => e.asid != y
        if x = 0 then ((({ s with asids := rest } : State)).dropTlb fun e => e.vf == vf && e.asid == y, 0)
        else if (s.walk2 vf x).isNone then (s, 2)
        else ((({ s with asids := rest ++ [{ asid := y, vf := vf, root := x, ring := ring }] } : State)).dropTlb fun e => e.vf == vf && e.asid == y, 0)) s

/-- `pgret` (Table 94); of two conditions that hold at once it gives the lower status (notes/assumptions/28). -/
def execPgret (d a : BitVec 7) (s : State) : Host.Outcome State Fault Refusal :=
  privWith [.r64 a, .unused 0x7C] d a 0x7C true (fun x _ => pageBad x 1)
    (fun s c x _ =>
      if s.pageGone (x / 65536) then (s, 1)
      else if !s.ownPage (s.vfOf c.w) (x / 65536) then (s, 2)
      else
        let r := s.retire (x / 65536)
        if r.2 then (r.1, 0) else (s, 3)) s

/-- `wayq` (Table 94). -/
def execWayq (d a b : BitVec 7) (s : State) : Host.Outcome State Fault Refusal :=
  privWith [.r32 a, .r32 b] d a b false
    (fun x y => bits x 9 23 ≠ 0 || bits y 4 28 ≠ 0 || (if bits x 8 1 = 0 then decide (bits x 0 8 ≥ Config.cores) else decide (bits x 0 8 ≥ Config.hbmStacks)))
    (fun s c x y =>
      let l2 := bits x 8 1 = 0
      let unit := bits x 0 8
      if l2 && partOfCore unit != c.part then (s, 3)
      else if (s.waysOf l2 unit).contains y then (s, 1)
      else if (s.waysOf l2 unit).length ≥ 4 then (s, 2)
      else if !l2 && s.wayHoldsCells unit y then (s, 4)
      else (s.quarantine l2 unit y, 0)) s

/-- `tlbinv` (Table 94). -/
def execTlbinv (d a b : BitVec 7) (s : State) : Host.Outcome State Fault Refusal :=
  privWith [.r64 a, .r32 b] d a b true (fun x y => bits x 57 6 ≠ 0 || bits y 13 18 ≠ 0)
    (fun s c x y =>
      let vf := s.vfOf c.w
      let asid := bits y 0 13
      if !(s.asids.any fun e => e.asid == asid && e.vf == vf) then (s, 1)
      else if bits y 31 1 = 1 then (s.dropTlb fun e => e.vf == vf, 0)
      else (s.dropTlb fun e => e.vf == vf && e.asid == asid &&
        (bits x 63 1 == 1 || (decide (bits x 16 41 ≤ e.vpage) && decide (e.vpage ≤ bits x 16 41 + bits x 0 16))), 0)) s

/-- The result of a wave's last instruction comes some clocks later (R287). -/
def Wave.later (w : Wave) (n : Nat) : Wave :=
  { w with slow := w.slow.mapIdx fun i e => if i + 1 = w.slow.length then { e with ready := e.ready + n } else e }

/-- `kspool` (Table 94, R306): the partition's pool with the nesting bound of PCTL. It takes 64 clocks for each page (R287). Of two conditions that hold at
once it gives the lower status (notes/assumptions/28). -/
def execKspool (d a : BitVec 7) (s : State) : Host.Outcome State Fault Refusal :=
  privWith [.r64 a, .unused 0x7C] d a 0x7C true (fun x _ => pageBad x 1)
    (fun s c x _ =>
      let p := c.part
      let nest := (s.part p).nest
      let s := s.updWave c.w.wid fun w => w.later (64 * (256 + 32 * nest))
      let pages := (List.range (256 + 32 * nest)).map (x / 65536 + ·)
      if s.records.any fun r => r.part == p then (s, 1)
      else if !pages.all fun g => s.ownPage (s.vfOf c.w) g && !s.pageGone g then (s, 2)
      else (s.setPart p { s.part p with pool := some (x, nest) }, 0)) s

end Sys2Proof.Machine
end

