-- ==== Sys2Proof/Machine/Hints.lean ====
section
/-! DEFINITION. Hint words (spec/02 R34-R38), words that are no instruction (R39 steps 1-4, R42), and fetches that fail (spec/10 R223). -/

namespace Sys2Proof.Machine

/-- What a fetch needs (Table 159): execute permission, or for prologue code the read permission of R249. -/
def Wave.fetchNeed (w : Wave) : Need := if w.prologue.isSome then Need.fetch else Need.exec

/-- Fetch one instruction word for a wave (R223): the word, or the cause. At an address that is no multiple of 4, which only a key word or return entry
patched by a handler gives, the word is the four bytes from there on: the spec does not say (the model's choice, notes/assumptions/44). -/
def State.fetch (s : State) (w : Wave) (vf : Nat) (pc : W57) : Except Nat IWord :=
  match s.translate w.core vf w.asid pc.toNat w.fetchNeed with
  | .error c => .error c
  | .ok (d, _) => if (s.lineError d).isSome then .error (s.lineCause d) else .ok (BitVec.ofNat 32 (s.readNat d 4))

/-- A fetch waits while its page is being copied to a spare (R323). -/
def State.fetchWaits (s : State) (w : Wave) (vf : Nat) (pc : W57) : Bool :=
  !s.fills.isEmpty && (match s.translate w.core vf w.asid pc.toNat w.fetchNeed with | .ok (d, _) => s.filling d | .error _ => false)

/-- The function a wave runs for: its team's, or its prologue's launch's. -/
def State.waveVf (s : State) (w : Wave) : Nat :=
  match w.prologue with
  | some p => ((s.launch? p.launch).map (·.vf)).getD 0
  | none => s.vfOf w

/-- Detach the issuing wave before its group (R288, R40). -/
def stopGroup (cause : Nat) (s : State) : Host.Outcome State Fault Refusal :=
  match s.grp with
  | none => .fault .noIssuingGroup
  | some g => match s.wave? g.wid with
    | none => .fault .noIssuingGroup
    | some w => .next (s.faultBefore (mkCtx g w) cause [])

/-- Bind a hint to the group, unless it would be a third hint or a second of its kind (R35). -/
def bindHint (second : Group → Bool) (f : Group → Group) (s : State) : Host.Outcome State Fault Refusal :=
  match s.grp with
  | none => .fault .noIssuingGroup
  | some g =>
    if second g || g.wides.length + g.modifier.toList.length + g.sched.toList.length ≥ 2 then stopGroup Cause.illegal s
    else .next { s with grp := some { f g with at_ := g.at_ + 4 } }

/-- A wide immediate (R36). -/
def execWideImmediate (p : BitVec 24) (s : State) : Host.Outcome State Fault Refusal :=
  bindHint (fun _ => false) (fun g => { g with wides := g.wides ++ [p] }) s

/-- A modifier hint (R37): its payload from its fields (Table 11). -/
def execModifierHint (r : BitVec 3) (t g : BitVec 1) (p : BitVec 3) (e u c : BitVec 1) (n : BitVec 5) (s : State) : Host.Outcome State Fault Refusal :=
  bindHint (fun g => g.modifier.isSome)
    (fun x => { x with modifier := some (r ++ t ++ g ++ p ++ e ++ u ++ c ++ n ++ (0 : BitVec 8)) }) s

/-- A scheduling hint (R38). -/
def execSchedulingHint (n : BitVec 4) (s : State) : Host.Outcome State Fault Refusal :=
  bindHint (fun g => g.sched.isSome) (fun g => { g with sched := some n.toNat }) s

/-- The privilege check of step 3 of R39 for a word whose slot is assigned but whose reserved bits or fields are wrong. -/
def privilegedSlot (word : IWord) : Bool :=
  let major := (word.extractLsb' 26 6).toNat
  let fn := (word.extractLsb' 22 4).toNat
  (major == 0x3D && decide (fn ≤ 5)) || (major == 0x38 && decide (fn ≤ 2) && decide (0x1000 ≤ (word.extractLsb' 0 14).toNat))

/-- What such a word accepts at step 1 of R39; the x field of `spr` is an operand field (R26). -/
def slotSig (word : IWord) : Sig :=
  if (word.extractLsb' 26 6).toNat = 0x3D then
    { flds := [.code (word.extractLsb' 14 7) true, .code (word.extractLsb' 7 7) true, .code (word.extractLsb' 0 7) true], scalar := true }
  else if (word.extractLsb' 26 6).toNat = 0x38 && (word.extractLsb' 22 4).toNat = 0 then { flds := [.code (word.extractLsb' 14 7) true] }
  else { flds := [] }

/-- A word that the opcode map does not assign, or that breaks a fixed field (R39, R42): PRIV where step 3 fails first, else ILLEGAL. -/
def execUnassignedSlot (word : IWord) (s : State) : Host.Outcome State Fault Refusal :=
  let cause := match s.grp with
    | none => Cause.illegal
    | some g => match s.wave? g.wid with
      | none => Cause.illegal
      | some w => if privilegedSlot word && hintsOk (slotSig word) g && w.prologue.isNone && !w.sup then Cause.priv else Cause.illegal
  stopGroup cause s

/-- What a failed fetch leads to: the wave detaches before the group (R223); prologue code that cannot be fetched ends the prologue (R249). -/
def State.fetchFault (s : State) (g : Group) (w : Wave) (cause : Nat) : State :=
  match w.prologue with
  | some p => ({ s with grp := none }).updWave w.wid fun x => { x with prologue := some { p with ended := some (256 + cause) } }
  | none => ({ s with grp := some g }).faultBefore (mkCtx g w) cause []

/-- A fetch that fails (R223): the missing page, the missing permission, or an uncorrectable word, whose line takes its own path (R319,
R321). A word that can be fetched changes nothing. -/
def execInstructionFetch (s : State) : Host.Outcome State Fault Refusal :=
  match s.grp with
  | none => .fault .noIssuingGroup
  | some g => match s.wave? g.wid with
    | none => .fault .noIssuingGroup
    | some w =>
      match s.translate w.core (s.waveVf w) w.asid g.at_.toNat w.fetchNeed with
      | .error c => .next (s.fetchFault g w c)
      | .ok (d, _) =>
        let r := s.consumeLine d
        if !r.2 then .next r.1
        else match r.1.wave? g.wid with
          | some x => .next (r.1.fetchFault g x (s.lineCause d))
          | none => .next { r.1 with grp := none }

end Sys2Proof.Machine
end

