-- ==== Sys2Proof/Machine/Engine.lean ====
section
/-! DEFINITION. What is performed at a line's home, outside the waves: immediate atomics and cell operations (spec/08 R191, spec/04 R84-R86,
Table 107), deferred reductions (R192, R83), bank operations (R194-R197), monitors (spec/10 R236) and rack timers (R212). Each step
changes nothing while its own condition does not hold. -/

namespace Sys2Proof.Machine

/-! ### Order and waits -/

/-- An engine access that a wave issued before a fence of a later access is outstanding (R166). -/
def State.earlierOut (s : State) (wid epoch : Nat) : Bool :=
  (s.remotes.any fun o => o.wid == wid && decide (o.epoch < epoch)) || (s.bankOps.any fun o => o.wid == wid && decide (o.epoch < epoch)) ||
  ((s.wave? wid).map fun w => w.lanes.any fun l => match l.sleep with | some a => !a.armed && !a.rs && decide (a.epoch < epoch) | none => false).getD false

/-- An access to a line waits: a pending copy owns it (R160), or its page is being filled (R323). -/
def State.lineHeld (s : State) (dpa : Nat) : Bool := s.recalled dpa || s.filling dpa

/-- The team's role under grade 2 (R329). -/
def State.isSecondary (s : State) (team : Nat) : Bool := ((s.team? team).map (·.secondary)).getD false

/-- The lane positions that a program lane's result reaches: its shadow too under grade 1 (R328). -/
def Wave.both (w : Wave) (i : Nat) : List Nat := w.physical [i]

/-- Write a 32-bit or a 64-bit result of an engine to some lane positions (Table 9): a register, or a latch, which is not live (R33: such an
instruction issues outside a hold). -/
def State.deliverAt (s : State) (wid : Nat) (ls : List Nat) (d : Nat) (pair : Bool) (v : W64) : State :=
  if d < 120 then
    let s := s.forget fun e => match e with | .vreg w i r => w == wid && ls.contains i && (r == d || (pair && r == d + 1)) | _ => false
    s.updWave wid fun w =>
      { w with lanes := w.lanes.mapIdx fun i l => if ls.contains i then (if pair then l.setPair d v else { l with regs := l.regs.set d (lo32 v) }) else l }
  else if d < 124 && !pair then
    s.updWave wid fun w =>
      { w with latches := w.latches.mapIdx fun j l => if j + 120 = d then l.mapIdx fun i x => if ls.contains i then lo32 v else x else l
               latchLive := w.latchLive.mapIdx fun j b => b && j + 120 != d }
  else s

/-- Write a result to one program lane. -/
def State.deliver (s : State) (wid lane d : Nat) (pair : Bool) (v : W64) : State :=
  match s.wave? wid with
  | some w => s.deliverAt wid (w.both lane) d pair v
  | none => s

/-- The lanes of an operation's group stand at the group again: its wave detaches before it (R319, R324). -/
def State.backBefore (s : State) (o : RemoteOp) (first : W57) : State :=
  s.updWave o.wid fun w => { w with lanes := w.lanes.mapIdx fun i l => if o.group.contains i then { l with pc := first, yielded := o.yielded } else l }

/-- One reply of a wave is in; after the last, the wave goes on, or detaches after its group when some operation was not performed
(Table 107): before its group where another owner's dirty line was met (R319). -/
def State.replied (s : State) (wid : Nat) : State :=
  match s.wave? wid with
  | none => s
  | some w =>
    match w.wait with
    | .replies n first =>
      if n > 1 then s.updWave wid fun w => { w with wait := .replies (n - 1) first }
      else
        let bad := s.remotes.filter fun o => o.wid == wid && o.failed
        let s := { s with remotes := s.remotes.filter fun o => !(o.wid == wid && o.failed) }
        let s := s.updWave wid fun w => { w with wait := .ready, now := max w.now ((w.slow.getLast?.map (·.ready)).getD 0) }
        match bad with
        | [] => s
        | o :: _ => match bad.find? (·.before) with
          | some b =>
            (s.backBefore b first).detach wid
              { cause := s.lineCause b.dpa, done := false, faddr := first, amask := maskOf 64 b.act.contains, laneFlags := [], codes := [] }
          | none =>
          s.detach wid { cause := s.lineCause o.dpa, done := false, faddr := first, amask := maskOf 64 fun i => bad.any fun o => o.lane == i, laneFlags := [], codes := [] }
    | _ => s

/-! ### Plain lines -/

/-- The value a word takes (Table 65). -/
def atomNew (fn old val cmp : Nat) : Nat :=
  if fn = 0 then (old + val) % 2 ^ 32 else if fn = 1 then (old + val) % 2 ^ 64 else if fn = 2 then val % 2 ^ 32
  else if old = cmp then val else old

/-- Whether an operation writes its word: a compare that fails does not. -/
def atomWrites (fn old cmp : Nat) : Bool := decide (fn ≤ 2) || old == cmp

/-- The width of an operation's word in bytes. -/
def remoteSize (fn : Nat) : Nat := if fn = 1 || fn = 4 || fn = 6 then 8 else 4

/-- The value of a deferred reduction (R83): operands through the flush bit, one rounding. -/
def redNew (fn : Nat) (addr : W64) (old val : Nat) : Nat :=
  let f := if fn = 6 then Fmt.f64 else Fmt.f32
  let env : FEnv := { rm := 0, fz := addr.getLsbD 60, sat := addr.getLsbD 61 }
  (f.addV env (f.read env.fz old) (f.read env.fz val)).1

/-! ### Exact cells (R84-R86, R322) -/

def ExactCell.zero : ExactCell := { nan := false, pinf := false, ninf := false, sum := 0, poison := false }

/-- The cell at a device physical address; a page holds one for each 64 bytes (R190). -/
def CellBlock.cell (b : CellBlock) (dpa : Nat) : ExactCell := (assoc b.cells (dpa / 64)).getD ExactCell.zero
def State.cell (s : State) (dpa : Nat) : ExactCell :=
  match s.cellBlocks.find? fun b => b.page == dpa / 65536 with | some b => b.cell dpa | none => ExactCell.zero

/-- Set a cell; a cell that is zero is not listed. -/
def State.setCell (s : State) (dpa : Nat) (c : ExactCell) : State :=
  { s with cellBlocks := updWhere s.cellBlocks (fun b => b.page == dpa / 65536) fun b =>
      { b with cells := if c = ExactCell.zero then b.cells.filter fun e => e.1 != dpa / 64 else assocSet b.cells (dpa / 64) c } }

/-- An access meets a cell's errors: a correctable one is repaired (R315), an uncorrectable one poisons the cell and kills nothing (R322). -/
def State.findCellError (s : State) (dpa : Nat) : State :=
  let here : StoreLoc → Bool | .cell a => a / 64 == dpa / 64 | _ => false
  let s := s.repairAt here
  if s.errors.any here then
    let s := { s with errors := s.errors.filter fun e => !here e }
    let s := s.setCell dpa { s.cell dpa with poison := true }
    s.logEvent { code := 9, action := 1, cause := Cause.ecc, vf := 0x7F, asid := 0, host := false, part := (s.pageOwner (dpa / 65536)).getD 0x7F,
                 stack := stackOf dpa, dpa := dpa }
  else s

/-- `xadd.f32` at the cell (R85); with flush a subnormal addend is zero. -/
def ExactCell.add (c : ExactCell) (flush : Bool) (x : Nat) : ExactCell :=
  match Fmt.f32.read flush x with
  | .nan _ => { c with nan := true }
  | .inf false => { c with pinf := true }
  | .inf true => { c with ninf := true }
  | v => { c with sum := signed 316 (unsignedOf 316 (c.sum + v.units (-149))) }

/-- The status bits of a seal (R191). -/
def sealStatus (fl : BitVec 8) : Nat :=
  (if fl.getLsbD 0 then 1 else 0) + (if fl.getLsbD 2 then 2 else 0) + (if fl.getLsbD 3 then 4 else 0) + (if fl.getLsbD 4 then 8 else 0)

/-- `xseal` (R86): value and status. A sum outside the range of R85 gives an unspecified value (notes/assumptions/3). A true sum beyond that range whose
field V has wrapped back into it is sealed as step 3 of R86 has it of V, though R85 leaves the sealed value open there too (the model's choice,
notes/assumptions/44). -/
def ExactCell.sealWith (c : ExactCell) (flush sat : Bool) (open_ : W64) : W64 :=
  if c.poison then 0x17FC00000#64
  else if c.nan || (c.pinf && c.ninf) then 0x17FC00000#64
  else if c.pinf then 0x7F800000#64
  else if c.ninf then 0xFF800000#64
  else if c.sum < -(2 ^ 314 : Nat) || c.sum ≥ (2 ^ 314 : Nat) then open_ &&& 0xFFFFFFFFF#64
  else
    let r := Fmt.f32.roundInt { rm := 0, fz := flush, sat := sat } c.sum (-149)
    BitVec.ofNat 64 (r.1 + sealStatus r.2 * 2 ^ 32)

/-! ### Performing an immediate operation -/

/-- The operation is no longer outstanding. -/
def State.dropRemote (s : State) (id : Nat) : State := { s with remotes := s.remotes.filter fun o => o.id != id }

/-- The reply of an operation reaches its lane, and the secondary's twin lane (R191, R329). -/
def State.answer (s : State) (o : RemoteOp) (v : W64) : State :=
  let s := s.dropRemote o.id
  match o.dst with
  | none => s
  | some d =>
    let s := match s.wave? o.wid with
      | some w => s.forward o.team { kind := 0, blk := w.blk, wave := w.idx, unit := o.lane, seg := 0, data := le64 v }
      | none => s
    (s.deliver o.wid o.lane d (remoteSize o.fn = 8 || o.fn = 8) v).replied o.wid

/-- An operation that met an uncorrectable line (Table 107), a dirty one of another owner when `before` (R319). -/
def State.unperformed (s : State) (o : RemoteOp) (before : Bool) : State :=
  match o.dst with
  | none => s.dropRemote o.id
  | some _ =>
    if (s.wave? o.wid).isNone then s.dropRemote o.id
    else ({ s with remotes := updWhere s.remotes (fun x => x.id == o.id) fun x => { x with failed := true, before := before } }).replied o.wid

/-- Perform an immediate operation at its line's home (R191). -/
def State.performRemote (s : State) (o : RemoteOp) : State :=
  if o.fn = 8 then
    let s := s.findCellError o.dpa
    let v := s.drawFree
    v.2.answer o ((s.cell o.dpa).sealWith (o.addr.getLsbD 60) (o.addr.getLsbD 61) v.1)
  else if o.fn = 9 then
    ((s.forget fun e => match e with | .cell a => a / 64 == o.dpa / 64 | _ => false).setCell o.dpa ExactCell.zero).answer o 0
  else
    let r := s.consumeLine o.dpa
    if r.2 then r.1.unperformed o (s.dirtyBad o.dpa)
    else
      let n := remoteSize o.fn
      let old := r.1.readNat o.dpa n
      let t := if atomWrites o.fn old o.cmp.toNat then
          r.1.writeMem { vf := o.vf, asid := o.asid, host := false, l2 := none } (cellsAt o.dpa (leBytes n (atomNew o.fn old o.val.toNat o.cmp.toNat)))
        else r.1
      t.answer o (BitVec.ofNat 64 old)

/-- Whether an operation may be performed now: earlier accesses across a fence first (R166), a wave's operations on one line in issue order
(R190), no recall (R160), no spare fill (R323). -/
def State.remoteReady (s : State) (o : RemoteOp) : Bool :=
  !o.failed && !s.earlierOut o.wid o.epoch && !(s.remotes.any fun x => x.wid == o.wid && !x.failed && decide (x.id < o.id) && x.dpa / 64 == o.dpa / 64) &&
  (decide (o.fn ≥ 8) || !s.lineHeld o.dpa)

/-- An immediate atomic or cell operation is performed at its line's home (R191). A secondary twin's is not: it takes the value that the
primary received (R329). -/
def execRemoteOpPerform (op : Nat) (s : State) : Host.Outcome State Fault Refusal :=
  match s.remotes.find? fun o => o.id == op with
  | none => .next s
  | some o =>
    if s.isSecondary o.team then
      match o.dst, s.wave? o.wid with
      | some _, some w => match s.taken o.team 0 w.blk w.idx o.lane 0 with
        | some (r, t) => .next (t.answer o (BitVec.ofNat 64 (leNat r.data))).wakeRetry
        | none => .next s
      | _, _ => .next (s.dropRemote o.id).wakeRetry
    else if s.remoteReady o then .next (s.performRemote o).wakeRetry
    else .next s

/-! ### Deferred reductions (R192, R152) -/

/-- A team has ended: its launch counts one team fewer (R244); the launch of a handler team goes with it (R297). -/
def State.countEnd (s : State) (t : Team) : State :=
  if t.secondary then s
  else match s.launch? t.launch with
    | none => s
    | some l => if l.handler.isSome then { s with launches := s.launches.filter fun x => x.id != l.id } else s.updLaunch l.id fun l => { l with left := l.left - 1 }

/-- A team off its cores after its final commit, its published reductions applied (R152, R154, R297). -/
def State.endTeam (s : State) (team : Nat) : State :=
  match s.team? team with
  | none => s
  | some t =>
    let s := ((s.releaseHolds team).dropTeam team).chargeLaunch t.launch (if t.secondary then 0 else t.charged)
    ({ s with teams := s.teams.filter fun x => x.id != team }).countEnd t

/-- A team whose published reductions have all been applied: one that was killed ends, and one that has published its final commit ends, with its twin
(R152). -/
def State.applied (s : State) (team : Nat) : State :=
  match s.team? team with
  | none => s
  | some t =>
    if !t.applyQ.isEmpty then s
    else match t.phase with
      | .dead => match t.fate with
        | some f => s.buryTeam t f.1 f.2.1 f.2.2
        | none => { s with teams := s.teams.filter fun x => x.id != team }
      | .applying => t.pairUp.foldl State.endTeam s
      | _ => s

/-- A reduction of a context is performed at its line's home (R192, R85): no fault, no flag; on an uncorrectable line it is not (Table 107). Nor is one
whose pinned page has been retired meanwhile, of which the spec does not speak (the model's choice, notes/assumptions/44). -/
def State.applyRed (s : State) (vf asid : Nat) (r : Red) : State :=
  if s.pageGone (r.dpa / 65536) then s
  else if r.fn = 7 then
    let s := s.findCellError r.dpa
    s.setCell r.dpa ((s.cell r.dpa).add (r.addr.getLsbD 60) (r.value.toNat % 2 ^ 32))
  else
    let c := s.consumeLine r.dpa
    if c.2 then c.1
    else
      let n := remoteSize r.fn
      let v := redNew r.fn r.addr (c.1.readNat r.dpa n) (r.value.toNat % 2 ^ (8 * n))
      c.1.writeMem { vf := vf, asid := asid, host := false, l2 := none } (cellsAt r.dpa (leBytes n v))

/-- The oldest published reduction of a team is applied at its line's home (R192). One on a line that a pending copy owns waits as a recall:
it reads the line as an atomic does, though R160 does not list it (notes/assumptions/44). -/
def execDeferredReductionApply (team : Nat) (s : State) : Host.Outcome State Fault Refusal :=
  match s.team? team with
  | none => .next s
  | some t =>
    match t.applyQ with
    | [] => .next s
    | r :: rest =>
      if r.fn ≠ 7 && s.lineHeld r.dpa then .next s
      else .next (((s.applyRed t.vf t.asid r).updTeam team fun t => { t with applyQ := rest }).applied team).wakeRetry

/-- Published reductions of the teams that satisfy a test are applied at once, before their pages or contexts go (R154, R266, R279). -/
def State.applyAll (s : State) (p : Team → Bool) : State :=
  (s.teams.filter fun t => p t && !t.applyQ.isEmpty).foldl (fun (s : State) t =>
    ((t.applyQ.foldl (fun (s : State) r => s.applyRed t.vf t.asid r) s).updTeam t.id fun t => { t with applyQ := [] }).applied t.id) s

/-! ### Bank operations (R193-R197) -/

/-- The engines of a page's pseudo-channel. -/
def State.bankOf (s : State) (pc : Nat) : Bank := (s.banks.find? fun b => b.pc == pc).getD (Bank.fresh pc)

/-- Set the engines of a pseudo-channel. -/
def State.setBank (s : State) (b : Bank) : State :=
  if s.banks.any fun x => x.pc == b.pc then { s with banks := updWhere s.banks (fun x => x.pc == b.pc) fun _ => b } else { s with banks := s.banks ++ [b] }

/-- A bank-engine page has been reached. It has no cleared bit: one that was set before it became such a page leaves zeros in it (R276). Nor does a cache
hold its lines (R162): those cached before are written back and dropped. -/
def State.noteBankPage (s : State) (dpa : Nat) : State :=
  let page := dpa / 65536
  let b := s.bankOf (pseudoChannel dpa)
  let s := if s.cleared.contains page then { s with mem := s.mem.filter (fun e => e.1 / 65536 != page), cleared := s.cleared.filter (· != page) } else s
  if b.pages.contains page then s
  else (s.putLines fun e => e.dpa / 65536 == page).setBank { b with pages := b.pages ++ [page] }

/-- The banks an operation reaches in the mode in force (R193). -/
def bankTargets (all : Bool) (dpa : Nat) : List Nat := if all then List.range 16 else [dpa / 32 % 16]

/-- The second set of checks (R194). -/
def bankSkipped (fn : Nat) (all : Bool) (dpa b : Nat) : Bool :=
  let n := bits b 0 8 + 1
  let m := 2 ^ bits b 8 2
  (all && (fn == 1 || fn == 2 || fn == 3) && dpa % 512 ≠ 0) ||
  (fn == 2 && (decide (bits b 10 8 + bits b 18 8 * (if all then 15 else dpa / 32 % 16) + (n - 1) / m > 255) ||
    decide (dpa % 65536 / 512 * 512 + 512 * n > 65536)))

/-- One step of `bkmac` in one bank (R195); a step whose unit could not be read gives the canonical NaN (Table 107). -/
def macStep (unit : List Nat) (x : Nat) (g : Nat) (bad : Bool) (acc : List W32) : List W32 :=
  acc.mapIdx fun k v =>
    if k / 16 = g then
      if bad then 0x7FC00000
      else BitVec.ofNat 32 (Fmt.f32.fmaV { rm := 0, fz := false } (Fmt.f16.read false (unit.getD (k % 16) 0)) (Fmt.f16.read false x) (Fmt.f32.read false v.toNat)).1
    else v

/-- The lines `bkmac` reads. -/
def macLines (all : Bool) (dpa b : Nat) : List Nat :=
  let a := dpa / 512 * 512
  ((List.range (bits b 0 8 + 1)).flatMap fun s => (bankTargets all dpa).map fun k => (a + 512 * s + 32 * k) / 64).eraseDups

/-- `bkmac` (R195). -/
def State.bankMac (s : State) (bk : Bank) (dpa b : Nat) : State × Bank :=
  let a := dpa / 512 * 512
  let m := 2 ^ bits b 8 2
  let ts := bankTargets bk.allBank dpa
  (List.range (bits b 0 8 + 1)).foldl (fun (st : State × Bank) i =>
    let r := st.1.consumeLines (ts.map fun k => a + 512 * i + 32 * k)
    let g := i % m
    let acc := ts.foldl (fun (acc : List (List W32)) k =>
      let j := bits b 10 8 + bits b 18 8 * k + i / m
      let unit := halves ((List.range 8).map fun q => BitVec.ofNat 32 (r.1.readNat (a + 512 * i + 32 * k + 4 * q) 4))
      acc.set k (macStep unit ((st.2.x.getD k []).getD j 0).toNat g r.2 (acc.getD k []))) st.2.acc
    (r.1, { st.2 with acc := acc })) (s, bk)

/-- Bytes of the scratchpad base are replaced, outside the commit hierarchy (R156). -/
def State.writeBase (s : State) (team ta : Nat) (bs : List Byte) : State :=
  let s := s.forget fun e => match e with | .spad t a => t == team && decide (ta ≤ a / 8 * 8) && decide (a / 8 * 8 + 8 ≤ ta + bs.length) | _ => false
  s.updTeam team fun t => { t with base := Cells.putBytes t.base ta bs }

/-- The bytes of `bkrd` (R196). -/
def bankBytes (bk : Bank) (dpa : Nat) : List Byte := (bankTargets bk.allBank dpa).flatMap fun k => (bk.acc.getD k []).flatMap le32

/-- The context of a bank operation's team, for the tags of what it writes. -/
def State.writerOf (s : State) (o : BankOp) : Writer :=
  match s.team? o.team with
  | some t => { vf := t.vf, asid := t.asid, host := false, l2 := none }
  | none => { vf := (s.part (partOfCore o.core)).owner, asid := 0, host := false, l2 := none }

/-- What an operation does at the base die, in the mode in force. -/
def State.performBank (s : State) (o : BankOp) : State :=
  let bk := s.bankOf (pseudoChannel o.dpa)
  let ts := bankTargets bk.allBank o.dpa
  let b := o.b.toNat
  if bankSkipped o.fn bk.allBank o.dpa b then s
  else if o.fn = 0 then s.setBank { bk with allBank := bits b 0 1 = 1 }
  else if o.fn = 1 then
    let vals := (halves ((List.range (o.data.length / 4)).map fun i => BitVec.ofNat 32 (leAt o.data (4 * i) 4))).map fun x => BitVec.ofNat 16 x
    let put (x : List W16) : List W16 := x.mapIdx fun i v => if 16 * bits b 26 4 ≤ i && i < 16 * bits b 26 4 + vals.length then vals.getD (i - 16 * bits b 26 4) 0 else v
    s.setBank { bk with x := bk.x.mapIdx fun k x => if ts.contains k then put x else x }
  else if o.fn = 2 then
    let r := s.bankMac bk o.dpa b
    r.1.setBank r.2
  else if o.fn = 3 then
    let bs := bankBytes bk o.dpa
    let s := s.forward o.team { kind := 2, blk := 0, wave := 0, unit := o.dst, seg := 0, data := bs }
    s.writeBase o.team o.dst bs
  else
    let s := if bits b 0 1 = 1 then s.setBank { bk with acc := bk.acc.mapIdx fun k x => if ts.contains k then x.map fun _ => 0 else x } else s
    if bits b 1 1 = 1 then
      s.writeUncached (s.writerOf o) ((List.range 65536).filterMap fun i => if ts.contains (i / 32 % 16) then some (o.dpa / 65536 * 65536 + i, 0) else none)
    else s

/-- Whether an operation waits: earlier accesses across a fence, its wave's earlier operations of the channel (R194), a recall where it reads
(R195, R160), a spare fill (R323). -/
def State.bankReady (s : State) (o : BankOp) : Bool :=
  let bk := s.bankOf (pseudoChannel o.dpa)
  !s.earlierOut o.wid o.epoch &&
  !(s.bankOps.any fun x => x.wid == o.wid && decide (x.id < o.id) && pseudoChannel x.dpa == pseudoChannel o.dpa) &&
  (o.fn ≠ 2 || bankSkipped 2 bk.allBank o.dpa o.b.toNat || !((macLines bk.allBank o.dpa o.b.toNat).any fun l => s.lineHeld (l * 64))) &&
  (o.fn ≠ 4 || !s.filling o.dpa)

/-- The words of a channel's engines that an operation reads, and those it replaces: `bkmac` reads the x entries and the accumulator groups of its steps
(R195), `bkrd` the accumulators, `bkld` replaces entries of x registers, `bkzero` accumulators. -/
def BankOp.touches (o : BankOp) (all : Bool) (word : Nat) : Bool × Bool :=
  let ts := bankTargets all o.dpa
  let b := o.b.toNat
  let lo := 8 * bits b 26 4
  let n := bits b 0 8 + 1
  let m := 2 ^ bits b 8 2
  if word < 2048 then
    (o.fn == 2 && ts.contains (word / 128) &&
       (List.range n).any fun i => (bits b 10 8 + bits b 18 8 * (word / 128) + i / m) / 2 == word % 128,
     o.fn == 1 && ts.contains (word / 128) && decide (lo ≤ word % 128) && decide (word % 128 < lo + o.data.length / 4))
  else
    ((o.fn == 3 || (o.fn == 2 && decide ((word - 2048) % 64 < 16 * min n m))) && ts.contains ((word - 2048) / 64), o.fn == 4 && bits b 0 1 == 1 && ts.contains ((word - 2048) / 64))

/-- Whether an operation reads a poisoned word of the engines (R317). -/
def State.bankPoison (s : State) (o : BankOp) : Bool :=
  let all := (s.bankOf (pseudoChannel o.dpa)).allBank
  !bankSkipped o.fn all o.dpa o.b.toNat && s.errors.any fun e => match e with
    | .bank pc k => pc == pseudoChannel o.dpa && (o.touches all k).1
    | _ => false

/-- Marks of the engines' words that an operation replaces whole go (R315). -/
def State.bankWhole (s : State) (o : BankOp) : State :=
  let all := (s.bankOf (pseudoChannel o.dpa)).allBank
  if bankSkipped o.fn all o.dpa o.b.toNat then s
  else s.forget fun e => match e with | .bank pc k => pc == pseudoChannel o.dpa && (o.touches all k).2 | _ => false

/-- A bank operation is performed at the base die (R194). A poisoned engine word that it reads kills the team whose operation reads it (R317). A secondary twin's
is not performed; its `bkrd` takes the primary's data (R329). -/
def execBankOpPerform (op : Nat) (s : State) : Host.Outcome State Fault Refusal :=
  match s.bankOps.find? fun o => o.id == op with
  | none => .next s
  | some o =>
    let done (s : State) : State := ({ s with bankOps := s.bankOps.filter fun x => x.id != op }).wakeRetry
    if s.isSecondary o.team then
      if o.fn = 3 then
        match s.taken o.team 2 0 0 o.dst 0 with
        | some (r, t) => .next (done (t.writeBase o.team o.dst r.data))
        | none => .next s
      else .next (done s)
    else if !s.bankReady o then .next s
    else if s.bankPoison o then
      let s := done s
      let u : UnitAt := match s.team? o.team with | some t => teamUnit t | none => { kind := .notice, id := 0, part := 0, vf := 0x7F, asid := 0, team := 0, launch := 0, blk := 0, wave := 0, seg := 0 }
      .next ((s.logEvent { code := 10, action := 2, cause := Cause.ecc, vf := u.vf, asid := u.asid, host := false, part := partOfCore o.core,
                           stack := stackOf o.dpa, dpa := o.dpa }).killTeam o.team true 10 7)
    else
      let s := s.repairAt fun e => match e with | .bank pc _ => pc == pseudoChannel o.dpa | _ => false
      .next (done (((s.bankWhole o).noteBankPage o.dpa).performBank o))

/-! ### Monitors (R236) -/

/-- Monitors of a core in use. -/
def State.monitorsUsed (s : State) (core : Nat) : Nat :=
  ((s.waves.filter fun w => w.core == core).map fun w => ((w.lanes.take w.plan).filter fun l => match l.sleep with | some a => a.armed | none => false).length).sum

/-- Wake one program lane with its shadow, which goes on once the result may be used (R110); a primary's result goes to its secondary (R329). -/
def State.wakeLane (s : State) (w : Wave) (lane : Nat) (a : Asleep) (v : W64) : State :=
  let s := if w.prologue.isNone then s.forward w.team { kind := 0, blk := w.blk, wave := w.idx, unit := lane, seg := 0, data := le64 v } else s
  (s.deliver w.wid lane a.dst true v).updWave w.wid fun x =>
    { x with
      now := max x.now a.ready
      lanes := x.lanes.mapIdx fun i l =>
        if (w.both lane).contains i then (match l.sleep with | some b => { l with sleep := none, pc := b.next, yielded := false } | none => l) else l }

/-- The read of a line's home for a monitor of a function: the word, or none where it cannot be read (Table 107). A page that has left the function's
partitions or has been retired since the `waitc` issued gives none (R274, R236; the model's choice, notes/assumptions/44). -/
def State.monitorRead (s : State) (vf dpa : Nat) : State × Option W32 :=
  if s.pageGone (dpa / 65536) || s.foreignPage vf (dpa / 65536) then (s, none)
  else
  let r := s.consumeLine dpa
  (r.1, if r.2 then none else some (BitVec.ofNat 32 (r.1.readNat dpa 4)))

/-- A lower lane of the same `waitc` has still to take its monitor: lanes act in ascending order (R236). It waits for a lower lane even
while that one waits as a recall, although R160 confines a recall's wait to its lane (the model's choice, notes/assumptions/44). -/
def Wave.armsLater (w : Wave) (lane : Nat) (a : Asleep) : Bool :=
  (w.lanes.take lane).any fun l => match l.sleep with | some b => !b.armed && !b.rs && b.next == a.next && b.epoch == a.epoch | none => false

/-- A monitor is taken and the word read in one step; the lane wakes at once on a mismatch, with no monitor free, or where the word cannot be
read (R236 steps 3 and 4). A secondary twin's lane takes the primary's word (R329). -/
def execMonitorArm (wid lane : Nat) (s : State) : Host.Outcome State Fault Refusal :=
  match s.wave? wid with
  | none => .next s
  | some w =>
    match (w.lanes[lane]?).bind fun l => l.sleep with
    | none => .next s
    | some a =>
      if !w.running || a.armed || a.rs || decide (lane ≥ w.plan) || s.isEvicted w.team then .next s
      else if s.isSecondary w.team then
        match s.taken w.team 0 w.blk w.idx lane 0 with
        | some (r, t) => .next (t.wakeLane w lane a (BitVec.ofNat 64 (leNat r.data))).wakeRetry
        | none => .next s
      else if s.lineHeld a.dpa || s.earlierOut wid a.epoch || w.armsLater lane a then .next s
      else
        let full := decide (s.monitorsUsed w.core ≥ Config.monitors)
        match s.monitorRead (s.vfOf w) a.dpa with
        | (t, none) => .next (match t.wave? wid with | some x => t.wakeLane x lane a (waitcResult none false full) | none => t).wakeRetry
        | (t, some m) =>
          if m ≠ a.cmp || full then .next (t.wakeLane w lane a (waitcResult (some m) false full)).wakeRetry
          else .next (t.updWave wid fun x =>
            { x with lanes := x.lanes.mapIdx fun i l =>
              if (x.both lane).contains i then { l with sleep := l.sleep.map fun b => { b with armed := true, hit := false } } else l }).wakeRetry

/-- A lane wakes with the word read afresh: after a write to its armed monitor's line (R236 step 5), or with rs = 1 once its wave stands on its core
again, when the address is translated anew and may have become unreadable (R237). The read is a recall (R160, R167). -/
def execMonitorWake (wid lane : Nat) (s : State) : Host.Outcome State Fault Refusal :=
  match s.wave? wid with
  | none => .next s
  | some w =>
    match (w.lanes[lane]?).bind fun l => l.sleep with
    | none => .next s
    | some a =>
      if !w.running || !(a.rs || (a.armed && a.hit)) || s.isEvicted w.team then .next s
      else
        match if a.rs then (s.translate w.core (s.vfOf w) w.asid (bits a.addr.toNat 0 57) Need.monitor).map (·.1) else .ok a.dpa with
        | .error _ => .next (s.wakeLane w lane a (waitcResult none true false)).wakeRetry
        | .ok d =>
          if s.lineHeld d then .next s
          else
            let r := s.monitorRead (s.vfOf w) d
            .next (match r.1.wave? wid with | some x => r.1.wakeLane x lane a (waitcResult r.2 a.rs false) | none => r.1).wakeRetry

/-! ### Rack timers (R212) -/

/-- A rack launches when its timer has run out. -/
def execRackTimerExpiry (wid : Nat) (s : State) : Host.Outcome State Fault Refusal :=
  match s.wave? wid with
  | none => .next s
  | some w => match w.status with
    | .rack _ 0 => if s.isEvicted w.team then .next s else .next (s.updWave wid Wave.launchRack).wakeRetry
    | _ => .next s

end Sys2Proof.Machine
end

