-- ==== Sys2Proof/Machine/MatrixEngine.lean ====
section
/-! DEFINITION. The matrix engine (spec/06 R117, R121, R125, R126, R134-R136): an operation starts, completes and leaves, or parks in a
record. -/

namespace Sys2Proof.Machine

/-- The cassette ranges an operation reads, as offsets of the block's cassette: chunks, scales unless it accumulates integers, zero points (R120,
R126). -/
def MmaOp.cassRanges (o : MmaOp) : List (Nat × Nat) :=
  let r := o.resv
  let g0 := o.bst * kcOf r.fmt / groupOf r.grp
  let ng := groupsIn r.fmt r.grp o.chunks
  (r.off + o.bst * 4096, o.chunks * 4096) ::
    (if r.fmt ≤ 1 then []
     else (if o.integer then [] else [(r.off + r.sclo * 64 + g0 * 128, ng * 128)]) ++
          [(r.off + r.zpo * 64 + g0 * (if r.fmt = 2 then 64 else 32), ng * (if r.fmt = 2 then 64 else 32))])

/-- Whether an operation is in the engine and has not yet completed or parked. -/
def MmaOp.inFlight (o : MmaOp) : Bool := match o.phase with | .issued => true | .started _ => true | _ => false

/-- The rows of an operation are free of earlier owners and of earlier accesses that wait (R116, R117). -/
def State.rowsFree (s : State) (o : MmaOp) : Bool :=
  !(s.mmas.any fun m => decide (m.id < o.id) && m.team == o.team && m.blk == o.blk && m.rows.any fun r => o.rows.contains r) &&
  !(o.rows.any fun r => s.rowAwaited o.team o.blk r o.id)

/-- An earlier copy in flight writes cassette bytes that the operation reads (R121). -/
def State.cassFilling (s : State) (o : MmaOp) : Bool :=
  s.copies.any fun c => c.kind == .inward && c.cassette && c.team == o.team && c.blk == o.blk && decide (c.id < o.id) &&
    o.cassRanges.any fun r => overlap c.start c.len r.1 r.2

/-- The storage code of a poisoned word that the start or the completion of an operation reads (R315, R317). -/
def State.mmaPoison (s : State) (o : MmaOp) : Option Nat :=
  if s.errors.isEmpty then none
  else s.errors.findSome? fun e => match e with
    | .vreg w _ r => if w = o.wid && o.snap.isNone && o.kept.isNone && o.phase = .issued &&
        inOperand o.areg o.ameta o.chunks (groupsIn o.resv.fmt o.resv.grp o.chunks) r then some 0 else none
    | .row t b r k => if t = o.team && b = o.blk && (o.accumulate || k = 64) && o.rows.contains r then some 2 else none
    | .cass t b a => if t = o.team && b = o.blk && o.cassRanges.any (fun r => overlap (a / 8 * 8) 8 r.1 r.2) then some 3 else none
    | _ => none

/-- The engine starts an issued operation and reads its A operand, from the held latch's snapshot or from the registers (R125, R127). -/
def execMmaStart (op : Nat) (s : State) : Host.Outcome State Fault Refusal :=
  match s.mma? op with
  | none => .next s
  | some o =>
    if o.phase != .issued || !s.rowsFree o || s.cassFilling o || !((s.team? o.team).map Team.active).getD false then .next s
    else match s.mmaPoison o with
      | some code => .next (s.poisonKill o.team o.core o.asid code).wakeRetry
      | none =>
        let a : List (List W32) := match o.snap.orElse fun _ => o.kept with
          | some x => x
          | none => match s.wave? o.wid with
            | some w => o.aOf w.lanes
            | none => []
        .next (s.setMma { o with phase := .started a }).wakeRetry

/-- The rows of an operation, with the union of their flags: from the program lanes' operands, or from the shadows' (R134). -/
def mmaResult (o : MmaOp) (b : Block) (a : List (List W32)) (shadow : Bool) : List (List W32 × BitVec 8) :=
  (List.range o.m).map fun i => mmaRow o b (a.getD (if shadow then i + o.m else i) []) (b.row (o.row + i))

/-- OR flags into the issuing wave's `fpflags`; a parked wave's stand in its record (R126, R301). -/
def State.orWaveFlags (s : State) (wid : Nat) (f : BitVec 8) : State :=
  let s := s.raise wid f
  match (s.wave? wid).bind Wave.parkedIn? with
  | some rid => s.updRecord rid fun r => { r with body := patchBytes r.body 264 (leBytes 8 (leAt r.body 264 8 ||| f.toNat)) }
  | none => s

/-- The unit of a matrix operation. -/
def State.mmaUnit (s : State) (o : MmaOp) : UnitAt :=
  { kind := .matrix, id := o.id, part := partOfCore o.core, vf := ((s.team? o.team).map (·.vf)).getD 0, asid := o.asid, team := o.team, launch := o.launch,
    blk := o.blk, wave := o.widx, seg := 0 }

/-- The record body of an operation as its rows stand (Table 45). Where no row's status holds an enabled flag, as at a REDUNDANCY_LANE park, Table 45 gives
bytes 112-119 no row: the model writes the operation's first (the model's choice, notes/assumptions/44). -/
def State.mmaBodyOf (s : State) (o : MmaOp) : List Byte :=
  match s.block? o.team o.blk with
  | none => mmaBody o [] 0
  | some b =>
    let st := o.rows.map fun r => ((b.row r).status.setWidth 8 : BitVec 8)
    let first := match (List.range o.m).find? fun i => (trapCause o.fpmode ((st.getD i 0) &&& 0x7F)).isSome with | some i => o.row + i | none => o.row
    mmaBody o st first

/-- Park an operation in a record at a free place (R134, R135). -/
def State.parkMma (s : State) (o : MmaOp) (cause depth : Nat) (parent : W32) (place : Nat × Nat) (waited : Bool) (deadline : Nat) : State :=
  let rid := s.nextId
  let t := s.makeRecord (s.mmaUnit o) cause depth parent place (if waited then 17 else 1) 0 0 (s.mmaBodyOf o) [] deadline
  if s.lostExtent (s.mmaUnit o).part place then (s.killTeam o.team false 8 7).loseExtent (s.mmaUnit o).part place.1
  else (t.setMma { o with phase := .parked rid }).serveParked rid

/-- An operation parks: in a record, in place while no extent is free (R308), or ends at the nesting bound (R307). -/
def State.detachMma (s : State) (o : MmaOp) (cause : Nat) : State :=
  let u := s.mmaUnit o
  match s.recordDepth o.team u.part with
  | none => s.nestLimit o.team fun s => s.endMma o.id true
  | some (depth, parent) =>
    match s.placeFor u.part depth false with
    | none => ({ s with poolWait := s.poolWait ++ [(o.id, 0)] } : State).setMma { o with phase := .waitsForPool cause (s.faultDeadline u cause) }
    | some place => s.parkMma o cause depth parent place false (s.faultDeadline u cause)

/-- A started operation completes: it writes its rows and their status, ORs its flags into `fpflags`, and leaves the engine, or parks when an
exception was enabled at issue or a shadow differs (R126, R134). -/
def execMmaComplete (op : Nat) (s : State) : Host.Outcome State Fault Refusal :=
  match s.mma? op with
  | none => .next s
  | some o =>
    match o.phase, s.block? o.team o.blk with
    | .started a, some b =>
      match s.mmaPoison o with
      | some code => .next (s.poisonKill o.team o.core o.asid code).wakeRetry
      | none =>
        let rows := mmaResult o b a false
        let differ := o.grade = 1 && rows != mmaResult o b a true
        let fl := rows.foldl (fun f r => f ||| r.2) (0 : BitVec 8)
        let b1 := (rows.mapIdx fun i r => (i, r)).foldl (fun (b : Block) e =>
          b.setRow (o.row + e.1) { entries := e.2.1, status := (b.row (o.row + e.1)).status ||| e.2.2.setWidth 32 }) b
        let s := if o.accumulate then s else
          s.forget fun e => match e with | .row t b r k => t == o.team && b == o.blk && o.rows.contains r && decide (k < 64) | _ => false
        let s := (s.setBlock b1).orWaveFlags o.wid fl
        let o := { o with flags := fl }
        let s := s.setMma o
        .next (match trapCause o.fpmode (fl &&& 0x7F) with
          | some cause => ((s.detachMma o cause).tryFinish o.wid).wakeRetry
          | none => if differ then ((s.detachMma o Cause.lane).tryFinish o.wid).wakeRetry else (s.endMma o.id false).wakeRetry)
    | _, _ => .next s

end Sys2Proof.Machine
end

