-- ==== Sys2Proof/Machine/CopyEngine.lean ====
section
/-! DEFINITION. The copy engine (spec/08 R179, R181-R184, R188, spec/07 R156, R159, R160, spec/11 R252, R384): one segment of a copy runs, waits
or parks. Staging and write-back are copies whose elements are bytes. -/

namespace Sys2Proof.Machine

/-! ### Layout records (R181, R182) -/

def layType (r : List Byte) : Nat := bits (leAt r 0 8) 60 4
def layRank (r : List Byte) : Nat := bits (leAt r 0 8) 57 3
def layBase (r : List Byte) : Nat := bits (leAt r 0 8) 0 57
def layExtent (r : List Byte) (j : Nat) : Nat := leAt r (8 + 4 * j) 4
def layStride (r : List Byte) (j : Nat) : Int := signed 40 (leAt r (28 + 5 * j) 5)
def layLink (r : List Byte) : Int := signed 24 (leAt r 53 3)
def layFill (r : List Byte) : List Byte := (r.drop 56).take 8

/-- Element sizes of Table 60; none for a reserved code. -/
def typeSize (t : Nat) : Option Nat :=
  if t ≤ 2 then some 1 else if t ≤ 6 then some 2 else if t ≤ 9 then some 4 else if t ≤ 12 then some 8 else none

/-- How an index type is read (Table 60): its sign; none where it is no index type. -/
def indexSigned (t : Nat) : Option Bool :=
  if t = 0 || t = 3 || t = 7 || t = 10 then some false else if t = 1 || t = 4 || t = 8 || t = 11 then some true else none

/-- The rank and the type of one record are lawful. -/
def layOk (r : List Byte) : Bool := (typeSize (layType r)).isSome && decide (1 ≤ layRank r) && decide (layRank r ≤ 5)

/-- Whether a pair of records is malformed (R182): the second is all zeros when the first has no link. -/
def recsMalformed (f d : List Byte) (sz : Nat) : Bool :=
  if layLink f = 0 then !layOk f || typeSize (layType f) != some sz
  else !layOk f || !layOk d || (indexSigned (layType f)).isNone || layLink d ≠ 0 || decide (layRank d > layRank f) || typeSize (layType d) != some sz

/-- Locate (R182): outside, an address, or an address that is out of range, which is held modulo 2^64, as its record shows it (the model's choice,
notes/assumptions/44). -/
inductive Spot where
  | outside
  | at (addr : Nat)
  | over (addr : Nat)

def locate (r : List Byte) (sz : Nat) (q : List Int) : Spot :=
  let k := layRank r
  if (List.range k).all fun j => decide (0 ≤ q.getD j 0) && decide (q.getD j 0 < layExtent r j) then
    let a : Int := (List.range k).foldl (fun t j => t + q.getD j 0 * layStride r j) (layBase r : Int)
    if 0 ≤ a ∧ a ≤ (2 ^ 57 : Nat) - (sz : Int) then .at a.toNat else .over (unsignedOf 64 a)
  else .outside

/-! ### One element -/

/-- What a copy's engine runs as. -/
structure Env where
  core : Nat
  vf : Nat
  asid : Nat
  team : Nat
  twin : Option Nat

/-- What stops a segment. -/
inductive Stop where
  | wait
  | fault (cause elem gaddr : Nat)

/-- A segment as it runs: the state, the bytes gathered, and the last page's translation. -/
structure Run where
  s : State
  got : List (Nat × Nat × Byte)
  pages : List Nat
  memo : Option (Nat × Except Nat (Nat × Nat))
  stop : Option Stop

/-- Translate one byte's page, remembering the last page. -/
def Run.page (r : Run) (e : Env) (need : Need) (va : Nat) : Run × Except Nat Nat :=
  let fresh : Except Nat (Nat × Nat) := r.s.translate e.core e.vf e.asid (va / 65536 * 65536) need
  let p := match r.memo with | some (k, x) => if k = va / 65536 then x else fresh | none => fresh
  ({ r with memo := some (va / 65536, p), pages := if r.pages.contains (va / 65536) then r.pages else r.pages ++ [va / 65536] },
    p.map fun q => q.1 + va % 65536)

/-- A line that another copy holds (R160), or that a spare fill holds. For a writer, the copies of its own team and twin share (R159). -/
def State.copyWaits (s : State) (e : Env) (writer : Bool) (dpa : Nat) : Bool :=
  s.filling dpa || (if writer then s.copies.any fun c => c.lines.contains (dpa / 64) && c.team != e.team && e.twin != some c.team else s.recalled dpa)

/-- Read bytes of global memory for an element: the bytes, or what stops the segment. -/
def Run.read (r : Run) (e : Env) (need : Need) (elem va n : Nat) : Run × List Byte :=
  (List.range n).foldl (fun (acc : Run × List Byte) k =>
    if acc.1.stop.isSome then acc
    else
      let p := acc.1.page e need (va + k)
      match p.2 with
      | .error c => ({ p.1 with stop := some (.fault c elem va) }, [])
      | .ok d =>
        if p.1.s.copyWaits e false d then ({ p.1 with stop := some .wait }, [])
        else
          let c := p.1.s.consumeLine d
          if c.2 then ({ p.1 with s := c.1, stop := some (.fault (c.1.lineCause d) elem va) }, [])
          else ({ p.1 with s := c.1 }, acc.2 ++ [c.1.readByte d])) (r, [])

/-- The place of an element (R182), with the index read of a linked copy. An index whose bytes end past 2^57 where its first byte passes Locate is out
of range too (the model's choice, notes/assumptions/44). -/
def Run.place (r : Run) (e : Env) (f d : List Byte) (sz elem : Nat) (p : List Int) : Run × Spot :=
  if layLink f = 0 then (r, locate f sz p)
  else
    let fs := (typeSize (layType f)).getD 1
    match locate f sz p with
    | .outside => (r, .outside)
    | .over a => (r, .over a)
    | .at xa =>
      if xa + fs > 2 ^ 57 then (r, .over xa) else
      let memo := r.memo
      let b := ({ r with memo := none }).read e Need.fetch elem xa fs
      let b := ({ b.1 with memo := memo }, b.2)
      if b.1.stop.isSome then (b.1, .outside)
      else
        let x : Int := if (indexSigned (layType f)).getD false then signed (8 * fs) (leNat b.2) else (leNat b.2 : Int)
        if -(2 ^ 31 : Nat) ≤ x ∧ x ≤ (2 ^ 31 - 1 : Nat) then (b.1, locate d sz (p.take (layRank d - 1) ++ [x])) else (b.1, .outside)

/-- Move one element of an inward copy: its bytes from global memory, or the fill (R182). -/
def Run.inward (r : Run) (e : Env) (fill : List Byte) (sz elem off : Nat) : Spot → Run
  | .outside => { r with got := r.got ++ (fill.take sz).mapIdx fun k v => (off + k, 0, v) }
  | .over a => { r with stop := some (.fault Cause.addrOvf elem a) }
  | .at a =>
    let b := r.read e Need.copyIn elem a sz
    if b.1.stop.isSome then b.1 else { b.1 with got := b.1.got ++ b.2.mapIdx fun k v => (off + k, a + k, v) }

/-- Move one element of an outward copy: its bytes are to be written to its place; one that is outside is skipped (R182, R159). A
line it takes over is read, so that an error in it stops the segment (R252, R319, R321; notes/assumptions/44). -/
def Run.outward (r : Run) (e : Env) (data : List Byte) (elem : Nat) : Spot → Run
  | .outside => r
  | .over a => { r with stop := some (.fault Cause.addrOvf elem a) }
  | .at a => (data.mapIdx fun k v => (k, v)).foldl (fun (r : Run) kv =>
      if r.stop.isSome then r
      else
        let p := r.page e Need.copyOut (a + kv.1)
        match p.2 with
        | .error c => { p.1 with stop := some (.fault c elem a) }
        | .ok d =>
          if p.1.s.copyWaits e true d then { p.1 with stop := some .wait }
          else
            let c := p.1.s.consumeLine d
            if c.2 then { p.1 with s := c.1, stop := some (.fault (c.1.lineCause d) elem a) }
            else { p.1 with s := c.1, got := p.1.got ++ [(d, a + kv.1, kv.2)] }) r

/-! ### The parameters of a segment -/

/-- What one segment of a copy moves: records, element size, box, start, rank-limited element count, and the first byte of its image. -/
structure SegPlan where
  f : List Byte
  d : List Byte
  sz : Nat
  box : List Nat
  start : List Int

/-- The plan of a copy from its records and scalars: dimensions at or above the record's rank count as 1 (R179). -/
def segPlan (f d : List Byte) (sc : List W64) : SegPlan :=
  let k := layRank f
  { f := f, d := d, sz := scalSize sc, box := (scalBox sc).mapIdx fun j b => if j < k then b else 1,
    start := (scalStart sc).mapIdx fun j c => if j < k then c else 0 }

/-- The coordinates of an element of the image (R179, R182). -/
def SegPlan.point (p : SegPlan) (idx : Nat) : List Int :=
  ((List.range 5).foldl (fun (acc : List Int × Nat) j =>
    let b := p.box.getD j 1
    (acc.1 ++ [p.start.getD j 0 + (acc.2 % b : Nat)], acc.2 / b)) ([], idx)).1

/-- The record whose fill an outside element takes. -/
def SegPlan.fill (p : SegPlan) : List Byte := layFill (if layLink p.f = 0 then p.f else p.d)

/-- Elements of the moved image. -/
def SegPlan.count (p : SegPlan) : Nat := p.box.foldl (· * ·) 1

/-- Bytes of a segment that lie in the image checked at issue. -/
def segBytes (c : Copy) (j : Nat) : Nat := min 4096 (c.len - 4096 * j)

/-- Records and scalars that a record's body holds. -/
def headRecs (h : List Byte) : List Byte × List Byte := (h.take 64, (h.drop 64).take 64)
def headScal (h : List Byte) : List W64 := (List.range 5).map fun i => BitVec.ofNat 64 (leAt h (128 + 8 * i) 8)

/-- Run the elements of a segment from one on (R183). -/
def runSeg (c : Copy) (p : SegPlan) (e : Env) (j from_ : Nat) (r : Run) : Run :=
  let per := segBytes c j / p.sz
  let inside := min per (p.count - 4096 * j / p.sz)
  (List.range (inside - from_)).foldl (fun (r : Run) i =>
    if r.stop.isSome then r
    else
      let elem := from_ + i
      let idx := 4096 * j / p.sz + elem
      let q := r.place e p.f p.d p.sz elem (p.point idx)
      if q.1.stop.isSome then q.1
      else if c.kind == .inward then q.1.inward e p.fill p.sz elem (idx * p.sz) q.2
      else q.1.outward e ((c.data.drop (idx * p.sz)).take p.sz) elem q.2) r

/-- Every later element of a segment as outside the extents (R184). -/
def outsideSeg (c : Copy) (p : SegPlan) (j from_ : Nat) (whole : Bool) (got : List (Nat × Nat × Byte)) : List (Nat × Nat × Byte) :=
  if c.kind == .inward then
    let per := segBytes c j / p.sz
    let n := if whole then per else min per (p.count - 4096 * j / p.sz)
    (List.range (n - from_)).foldl (fun g i => g ++ (p.fill.take p.sz).mapIdx fun k v => (4096 * j + (from_ + i) * p.sz + k, 0, v)) got
  else got

/-- Run the bytes of a staging or write-back segment from one on (R252, R384). -/
def runBytes (c : Copy) (e : Env) (base j from_ : Nat) (read : Nat → Byte) (r : Run) : Run :=
  (List.range (segBytes c j - from_)).foldl (fun (r : Run) i =>
    if r.stop.isSome then r
    else
      let elem := from_ + i
      let a := base + 4096 * j + elem
      if a ≥ 2 ^ 57 then { r with stop := some (.fault Cause.addrOvf elem a) }
      else match c.kind with
        | .staging _ => r.inward e [] 1 elem (4096 * j + elem) (.at a)
        | _ => r.outward e [read (4096 * j + elem)] elem (.at a)) r

/-! ### Completion and parking -/

/-- The engine's view of a copy. -/
def State.copyEnv (s : State) (c : Copy) : Env :=
  match s.team? c.team with
  | some t => { core := c.core, vf := t.vf, asid := t.asid, team := c.team, twin := t.twin }
  | none => { core := c.core, vf := 0, asid := 0, team := c.team, twin := none }

/-- An inward segment writes its image bytes at once: to the base of the scratchpad (R156), or to the cassette (R121). -/
def State.landBytes (s : State) (c : Copy) (got : List (Nat × Byte)) : State :=
  if c.cassette then
    let s := s.forget fun e => match e with
      | .cass t b a => t == c.team && b == c.blk && (List.range 8).all fun i => got.any fun g => c.start + g.1 == a / 8 * 8 + i
      | _ => false
    s.updBlock c.team c.blk fun b => { b with cass := Cells.putAll b.cass (got.map fun g => (c.start + g.1, g.2)) }
  else
    let s := s.forget fun e => match e with
      | .spad t a => t == c.team && (List.range 8).all fun i => got.any fun g => c.start + g.1 == a / 8 * 8 + i
      | _ => false
    s.updTeam c.team fun t => { t with base := Cells.putAll t.base (got.map fun g => (c.start + g.1, g.2)) }

/-- A segment completes: an inward one lands, an outward one owns its lines (R156, R159). A secondary hears of an inward one (R329). -/
def State.segDone (s : State) (c : Copy) (j : Nat) (got : List (Nat × Nat × Byte)) : State :=
  match c.kind with
  | .inward =>
    let s := s.landBytes c (got.map fun g => (g.1, g.2.2))
    let s := s.forward c.team { kind := 1, blk := c.blk, wave := 0, unit := c.unit, seg := j,
                                data := BitVec.ofNat 8 (if c.rdr then 2 else 0) :: got.flatMap fun g => leBytes 4 g.1 ++ [g.2.2] }
    (s.updCopy c.id fun x => { x with segs := x.segs.set j .done }).completeCopy c.id
  | .staging _ =>
    let s := s.landBytes c (got.map fun g => (g.1, g.2.2))
    let s := s.forward c.team { kind := 1, blk := c.blk, wave := 0, unit := c.unit, seg := j, data := 0 :: got.flatMap fun g => leBytes 4 g.1 ++ [g.2.2] }
    (s.updCopy c.id fun x => { x with segs := x.segs.set j .done }).completeCopy c.id
  | _ =>
    let e := s.copyEnv c
    let s := ((got.map fun g => g.2.1 / 65536).eraseDups).foldl (fun (s : State) p =>
      match s.translate e.core e.vf e.asid (p * 65536) Need.copyOut with
      | .ok (d, k) => if k = 1 then s.noteBankPage d else s
      | .error _ => s) s
    let shaped := match c.segs.getD j .done with | .todo => false | _ => true
    s.updCopy c.id fun x => Copy.own { x with segs := x.segs.set j (.gathered got shaped) } got

/-- Bytes that a segment of an outward copy keeps lie in a line that another team has come to own: the segment waits (R159). -/
def State.ownWaits (s : State) (c : Copy) (got : List (Nat × Nat × Byte)) : Bool :=
  c.pendingOut && got.any fun g => !c.lines.contains (g.1 / 64) && s.copyWaits (s.copyEnv c) true g.1

/-- The unit of a segment. -/
def State.segUnit (s : State) (c : Copy) (j : Nat) : UnitAt :=
  let t := s.team? c.team
  { kind := .segment, id := c.id, part := partOfCore c.core, vf := (t.map (·.vf)).getD 0, asid := (t.map (·.asid)).getD 0, team := c.team,
    launch := (t.map (·.launch)).getD 0, blk := c.blk, wave := c.widx, seg := j }

/-- Park a segment in a record at a free place, with the body of Table 62 (R183, R184). -/
def State.parkSegment (s : State) (c : Copy) (j cause gaddr elem : Nat) (body : List Byte) (got : List (Nat × Nat × Byte)) (depth : Nat)
    (parent : W32) (place : Nat × Nat) (waited : Bool) (deadline : Nat) : State :=
  let rid := s.nextId
  let t := s.makeRecord (s.segUnit c j) cause depth parent place (if waited then 16 else 0) (BitVec.ofNat 64 gaddr) 0 body [] deadline
  if s.lostExtent (s.segUnit c j).part place then (s.killTeam c.team false 8 7).loseExtent (s.segUnit c j).part place.1
  else (t.updCopy c.id fun x => Copy.own { x with segs := x.segs.set j (.parked rid elem got) } got).serveParked rid

/-- The records and scalars with which a handler let a segment go on, where one did. -/
def SegState.head : SegState → Option (List Byte)
  | .from _ _ h => some h
  | .outsideFrom _ _ h => some h
  | _ => none

/-- A segment detaches: into a record, waiting in place while no extent is free (R308), or ending at the nesting bound (R307). -/
def State.detachSegment (s : State) (c : Copy) (j cause gaddr elem : Nat) (gpos : List Nat) (off : Nat) (got : List (Nat × Nat × Byte)) : State :=
  let u := s.segUnit c j
  let body := segBody c j gaddr gpos off
  match s.recordDepth c.team u.part with
  | none => s.nestLimit c.team fun s => s.killSegment c.id j
  | some (depth, parent) =>
    match s.placeFor u.part depth false with
    | none =>
      let p : Pending := { cause := cause, done := false, faddr := BitVec.ofNat 57 gaddr, amask := 0, laneFlags := [], codes := [] }
      ({ s with poolWait := s.poolWait ++ [(c.id, j)] } : State).updCopy c.id fun x =>
        Copy.own { x with segs := x.segs.set j (.waitsForPool p elem body (c.segs.getD j .done).head got (s.faultDeadline u cause)) } got
    | some place => s.parkSegment c j cause gaddr elem body got depth parent place false (s.faultDeadline u cause)

/-- What a run of a segment leaves: it completes, waits with nothing changed, or detaches at an element with earlier elements kept. -/
def settleSeg (s : State) (c : Copy) (j : Nat) (body : Copy) (point : Nat → List Nat) (off : Nat → Nat) (r : Run) : State :=
  match r.stop with
  | some .wait => s
  | some (.fault cause elem gaddr) =>
    if (r.s.copy? c.id).isNone then r.s.wakeRetry
    else (r.s.detachSegment body j cause gaddr elem (point elem) (off elem) r.got).wakeRetry
  | none =>
    let e := s.copyEnv c
    let t := r.pages.foldl (fun s p => s.noteTlb e.core e.vf e.asid (p * 65536)) r.s
    (t.segDone c j r.got).wakeRetry

def Run.start (s : State) (got : List (Nat × Nat × Byte)) : Run := { s := s, got := got, pages := [], memo := none, stop := none }

/-! ### Reading the records -/

/-- The address of a linked record, where it is one. A record outside 0 to 2^57 - 1 is a page that is not present: the spec names no cause (the
model's choice, notes/assumptions/44). -/
def linkAddr (a : Nat) (link : Int) : Option Nat :=
  let x : Int := (a : Int) + 64 * link
  if 0 ≤ x ∧ x.toNat < 2 ^ 57 then some x.toNat else none

/-- The engine reads the records once, when the copy starts (R181, R183): the records read, and what stops the copy. -/
def State.readRecords (s : State) (c : Copy) (e : Env) : Run × List Byte × List Byte :=
  let f := (Run.start s []).read e Need.fetch 0 (scalRecord c.scal) 64
  if f.1.stop.isSome || layLink f.2 == 0 then (f.1, f.2, zeros 64)
  else match linkAddr (scalRecord c.scal) (layLink f.2) with
    | none => ({ f.1 with stop := some (.fault Cause.notPresent 0 0) }, f.2, zeros 64)
    | some a =>
      let d := ({ f.1 with memo := none }).read e Need.fetch 0 a 64
      (d.1, f.2, if d.1.stop.isSome then zeros 64 else d.2)

/-- Take records for a copy: with them it starts, and a digest copy writes its digests (R188). A record fault or malformed records detach
segment 0. -/
def State.takeRecords (s : State) (c : Copy) (f d : List Byte) (sc : List W64) (stop : Option Stop) : State :=
  let shown : Copy := { c with recs := some (if f.isEmpty then zeros 64 else f, d), scal := sc }
  match stop with
  | some .wait => s
  | some (.fault cause _ _) => (s.detachSegment shown 0 cause 0 0 [] 0 []).wakeRetry
  | none =>
    if recsMalformed f d (scalSize sc) then (s.detachSegment shown 0 Cause.illegal 0 0 [] 0 []).wakeRetry
    else
      let p := segPlan f d sc
      let n := min c.len (p.count * p.sz)
      let s := if c.kind == .digest && !c.digested then
          (List.range ((n + 65535) / 65536)).foldl (fun (s : State) m =>
            s.writeBase c.team (toTeam c.core c.dig.toNat + 32 * m) (shake256 32 ((c.data.take n).drop (65536 * m) |>.take 65536))) s
        else s
      (s.updCopy c.id fun x =>
        { x with recs := some (f, d), scal := sc, digested := true, segs := x.segs.map fun g => match g with | .from _ _ _ => .todo | g => g }).wakeRetry

/-! ### One segment -/

/-- Elements and kept bytes with which a segment goes on, with the head a handler left. -/
def SegState.resume : SegState → Option (Nat × List (Nat × Nat × Byte) × Option (List Byte))
  | .todo => some (0, [], none)
  | .from e got h => some (e, got, some h)
  | _ => none

/-- The data a secondary takes for an inward segment: image offsets and bytes after a first byte of flags. -/
def State.takeSegment (s : State) (c : Copy) (j : Nat) : State :=
  match s.taken c.team 1 c.blk 0 c.unit j with
  | none => s
  | some (r, t) =>
    let fl := (r.data.headD 0).toNat
    let bs := r.data.drop 1
    let got := (List.range (bs.length / 5)).map fun i => (leAt bs (5 * i) 4, (bs.drop (5 * i + 4)).headD 0)
    let t := if fl = 1 then t else t.landBytes c got
    let t := t.updCopy c.id fun x => { x with kil := x.kil || fl == 1, rdr := x.rdr || fl == 2, segs := x.segs.set j .done }
    let t := t.setHandle c.team c.blk c.handle fun h => { h with kil := h.kil || fl == 1, rdr := h.rdr || fl == 2 }
    (t.completeCopy c.id).wakeRetry

/-- An earlier matrix operation still reads cassette bytes that a copy writes (R121). -/
def State.cassBusy (s : State) (c : Copy) : Bool :=
  c.cassette && s.mmas.any fun o => o.inFlight && o.team == c.team && o.blk == c.blk && decide (o.id < c.id) &&
    o.cassRanges.any fun r => overlap c.start c.len r.1 r.2

/-- A data segment of `copy.in`, `copy.out` or `copy.out.digest`. Records that a handler left malformed in an element's record park the segment again
with ILLEGAL, as R184 has it for a record fault (the model's choice, notes/assumptions/44). A `copy.out.digest` whose record fault is redirected counts as
digested and writes no digest: the spec does not say that it writes any (the model's choice, notes/assumptions/44). -/
def State.runCopySegment (s : State) (c : Copy) (j : Nat) : State :=
  let e := s.copyEnv c
  match c.segs.getD j .done with
  | .outsideFrom e0 got h =>
    let p := segPlan (headRecs h).1 (headRecs h).2 (if c.recs.isNone then c.scal else headScal h)
    if s.ownWaits c got then s
    else
      let s := if c.recs.isNone then s.updCopy c.id fun x => { x with digested := true } else s
      (s.segDone c j (outsideSeg c p j e0 c.recs.isNone got)).wakeRetry
  | g =>
    match g.resume, c.recs with
    | none, _ => s
    | some (_, _, some h), none => if j = 0 then s.takeRecords c (headRecs h).1 (headRecs h).2 (headScal h) none else s
    | some _, none =>
      if j = 0 then
        let r := s.readRecords c e
        r.1.s.takeRecords c r.2.1 r.2.2 c.scal r.1.stop
      else s
    | some (e0, got, h), some (f, d) =>
      let fd := match h with | some h => headRecs h | none => (f, d)
      let sc := match h with | some h => headScal h | none => c.scal
      let p := segPlan fd.1 fd.2 sc
      let bad := h.isSome && recsMalformed fd.1 fd.2 p.sz
      let shown : Copy := { c with recs := some fd, scal := sc }
      let r := if bad then { Run.start s got with stop := some (.fault Cause.illegal e0 0) }
        else if s.ownWaits c got then { Run.start s got with stop := some .wait } else runSeg c p e j e0 (Run.start s got)
      settleSeg s c j shown (fun k => (p.point (4096 * j / p.sz + k)).map fun x => unsignedOf 32 x) (fun k => 4096 * j + k * p.sz) r

/-- A poisoned scratchpad word among the bytes that a write-back segment reads (R315, R317). -/
def State.sourcePoison (s : State) (c : Copy) (j : Nat) : Bool :=
  (match c.kind with | .writeBack _ => true | _ => false) && s.errors.any fun e => match e with
    | .spad t a => t == c.team && overlap (c.start + 4096 * j) (segBytes c j) (a / 8 * 8) 8
    | _ => false

/-- The elements that a staging or write-back segment has kept, as it goes on. A write-back's bytes are read as they stand now; where its lines are no
longer the copy's, since its team has been off its cores, every element is gathered again at its address (R257 step 3; notes/assumptions/15). -/
def State.kept (s : State) (c : Copy) (e : Env) (byte : Nat → Byte) (got : List (Nat × Nat × Byte)) : Run :=
  match c.kind with
  | .writeBack _ =>
    if got.all fun g => c.lines.contains (g.1 / 64) then Run.start s (got.mapIdx fun i g => (g.1, g.2.1, byte i))
    else (got.mapIdx fun i g => (i, g.2.1)).foldl (fun r x => if r.stop.isSome then r else r.outward e [byte x.1] x.1 (.at x.2)) (Run.start s [])
  | _ => Run.start s got

/-- A staging or write-back segment (R252, R384). Write-back reads the base and the team overlay as they stand (R154), byte i of a segment for its element i, those that
it gathered before an eviction or a disposition among them; a poisoned word among them is consumed, which kills the team (R317). -/
def State.runRegionSegment (s : State) (c : Copy) (j : Nat) : State :=
  let e := s.copyEnv c
  let byte (k : Nat) : Byte := match s.team? c.team with
    | some t => (Held.get? t.ovl (c.start + k)).getD (Cells.get t.base (c.start + k))
    | none => 0
  let part (k : Nat) : Byte := byte (4096 * j + k)
  let settle (base : Nat) (r : Run) : State := settleSeg s c j { c with gbase := base } (fun k => [4096 * j + k]) (fun k => 4096 * j + k) r
  let poisoned (t : State) : State := if s.sourcePoison c j then (s.poisonKill c.team c.core e.asid 1).wakeRetry else t
  match c.segs.getD j .done with
  | .outsideFrom _ got _ => poisoned (settle c.gbase (s.kept c e part got))
  | g =>
    match g.resume with
    | none => s
    | some (e0, got, h) =>
      let base := match h with | some h => leAt h 128 8 | none => c.gbase
      poisoned (settle base (runBytes c e base j e0 byte (s.kept c e part got)))

/-! ### The segments in flight (R183) -/

/-- The segments of a copy that take part now: those that are not over and hold no record; before the layout records are read, segment 0 alone. -/
def Copy.startable (c : Copy) (j : Nat) : Bool :=
  match c.segs.getD j .done with
  | .todo => c.recs.isSome || j == 0 || (match c.kind with | .staging _ => true | .writeBack _ => true | _ => false)
  | .from _ _ _ => true
  | .outsideFrom _ _ _ => true
  | .waitsForPool _ _ _ _ _ _ => true
  | _ => false

/-- Whether a segment has one of its core's 64 places: the first in the order of their copies' issue. One that waits, for a line or in place for a
record, keeps its place (R183, R308). A secondary twin starts no inward segment of its own (R329). -/
def State.inFlight (s : State) (c : Copy) (j : Nat) : Bool :=
  let taken (x : Copy) : Bool := match x.kind with | .inward => true | .staging _ => true | _ => false
  let on (x : Copy) : Bool :=
    x.core == c.core && ((s.team? x.team).map fun t => (t.active || t.phase == .staging) && !(t.secondary && taken x)).getD false
  let before := ((s.copies.filter fun x => on x && decide (x.id < c.id)).map fun x => ((List.range x.segs.length).filter x.startable).length).sum
  c.startable j && decide (before + ((List.range j).filter c.startable).length < 64)

/-- A copy segment runs (R183): it completes, waits, or detaches at an element. An inward segment of a secondary twin takes the primary's
bytes (R329). -/
def execCopySegmentRun (copy seg : Nat) (s : State) : Host.Outcome State Fault Refusal :=
  match s.copy? copy with
  | none => .next s
  | some c =>
    match s.team? c.team with
    | none => .next s
    | some t =>
      let region := match c.kind with | .staging _ => true | .writeBack _ => true | _ => false
      let inw := match c.kind with | .inward => true | .staging _ => true | _ => false
      if !(t.active || t.phase == .staging) || s.cassBusy c then .next s
      else if t.secondary && inw then
        (match c.segs.getD seg .done with | .done => .next s | _ => .next (s.takeSegment c seg))
      else if !s.inFlight c seg then .next s
      else if region then .next (s.runRegionSegment c seg)
      else .next (s.runCopySegment c seg)

end Sys2Proof.Machine
end

