-- ==== Sys2Proof/Machine/Publish.lean ====
section
/-! DEFINITION. Device commits (spec/07 R150-R154, R159, spec/14 R330, R331): the gathered commit of a team is checked, compared with its
twin's and published at one instant; the final one ends the team. -/

namespace Sys2Proof.Machine

/-! ### The write set -/

/-- The pending outward copies that a device commit of a team carries, in the order of their issues (R159). -/
def State.carried (s : State) (team : Nat) : List Copy :=
  s.copies.filter fun c => c.team == team && c.level == .team && (match c.kind with | .outward => true | .digest => true | .writeBack _ => true | _ => false)

/-- The global bytes of a list of copies; of two copies that write one byte the later's remains (R159). -/
def pendingBytes (cs : List Copy) : Held := cs.foldl (fun h c => Held.over c.writes h) []

/-- Whether a commit has gathered: no earlier reduction is left to apply, every segment of its copies has its lines (R152, R159), and no page that it
will write is being filled (R323). -/
def State.gathered (s : State) (t : Team) : Bool :=
  t.active && t.gather.isSome && t.notice.isNone && t.applyQ.isEmpty &&
    (s.carried t.id).all fun c => c.segs.all SegState.over && !(c.lines.any fun l => s.filling (l * 64))

/-! ### Conflicts (R149, R151) -/

/-- The conflicting destination sectors of a copy, by virtual address (R151). -/
def Copy.conflicts (c : Copy) (foreign : List Nat) : List (Nat × Nat) :=
  (c.writes.filter fun e => foreign.contains e.1).map fun e => (((assoc c.vlines (e.1 / 64)).getD 0) + e.1 % 64, e.1)

/-- The report of `cmt.d` (Table 51); 0 without a conflict. A destination sector that two pending copies write counts once for each: R151 does
not say (the model's choice, notes/assumptions/44). -/
def deviceReport (cs : List Copy) (foreign : List Nat) : W64 :=
  match cs.find? fun c => !(c.conflicts foreign).isEmpty with
  | none => 0
  | some c =>
    let n := (cs.flatMap fun c => (c.conflicts foreign).map fun e => (c.id, e.1 / 32)).eraseDups.length
    let vas := (c.conflicts foreign).map (·.1)
    let lo := vas.foldl (fun m x => min m (x / 32)) (vas.headD 0 / 32)
    let mask := (List.range 32).foldl (fun m i => if vas.contains (32 * lo + i) then m + 2 ^ i else m) 0
    BitVec.ofNat 64 (2 ^ 63 + min n 511 * 2 ^ 54 + (c.blk * 1024 + c.handle % 1024) * 2 ^ 32 + mask)

/-! ### Signatures (R330) -/

/-- A sector of a held map: its bytes and its mask. -/
def sectorOf (h : Held) (x : Nat) : List Byte × Nat :=
  ((List.range 32).map fun i => (Held.get? h (32 * x + i)).getD 0,
   (List.range 32).foldl (fun m i => if (Held.get? h (32 * x + i)).isSome then m + 2 ^ i else m) 0)

/-- The signature of a team's commit. -/
def State.signature (s : State) (t : Team) : W64 :=
  let cs := s.carried t.id
  let w := pendingBytes cs
  let va (x : Nat) : Nat := ((cs.findSome? fun c => assoc c.vlines (x / 2)).getD 0) + x % 2 * 32
  let k0 := (sectorsOf w).foldl (fun u x => u + sigItem 0 (va x) (sectorOf w x).1 (sectorOf w x).2) (0 : W64)
  let k1 := (sectorsOf t.ovl).foldl (fun u x => u + sigItem 1 (32 * x) (sectorOf t.ovl x).1 (sectorOf t.ovl x).2) (0 : W64)
  let k2 := t.reds.foldl (fun u r => u + sigItem 2 r.addr.toNat (le64 r.value ++ [BitVec.ofNat 8 r.fn]) 0) (0 : W64)
  k0 + k1 + k2 + t.sigRun

/-- One comparison is counted in both twins (R332). -/
def Team.compared (t : Team) (own twin : W64) : Team :=
  { t with sigOwn := own, sigTwin := twin, sigRun := 0, sigCount := if t.sigCount = 0xFFFFFFFF then t.sigCount else t.sigCount + 1,
           sigMiss := if own = twin || t.sigMiss = 0xFFFF then t.sigMiss else t.sigMiss + 1 }

/-! ### Errors of pending data (R320) -/

/-- Pending data that must be read again, because an error stands in it (R320) or because it was not kept (R159), cannot be: a word of the copy's protected
source is poisoned. The part reads the whole source again (which of its words it reads the spec does not say; the model's choice, notes/assumptions/44). -/
def State.sourceLost (s : State) (c : Copy) : Bool :=
  (s.errors.any (pendingErr [c]) || (c.pendingOut && !c.stored)) && s.errors.any fun e => match e with
    | .spad t a => t == c.team && overlap c.start c.len (a / 8 * 8) 8
    | _ => false

/-- Pending data in error is read again from the copies' sources, and each error logged (R320, R325); a correctable error is repaired on the way (R315). -/
def State.reread (s : State) (cs : List Copy) : State :=
  let s := s.repairAt (pendingErr cs)
  if s.errors.isEmpty then s
  else ((s.errors.filter (pendingErr cs)).foldl (fun (s : State) e => s.logEvent (s.locEvent e 0 Cause.ecc)) s).forget (pendingErr cs)

/-! ### Publication -/

/-- The team overlay goes to the base; words replaced whole lose their poison (R315). -/
def State.overlayToBase (s : State) (team : Nat) : State :=
  match s.team? team with
  | none => s
  | some t =>
    let s := s.forget fun e => match e with
      | .spad x a => x == team && (List.range 8).all fun i => (Held.get? t.ovl (a / 8 * 8 + i)).isSome
      | _ => false
    s.updTeam team fun t => { t with base := Cells.putAll t.base t.ovl, ovl := [] }

/-- Pending bytes reach global memory as one place in the order of R163, in the L2 slice of the team's even core; bank-engine regions have no
cache (R162). A clean copy of a line that is in error is fetched again first (R320). A page that has come to another tenant takes none of them (R274). -/
def State.publishBytes (s : State) (t : Team) (h : Held) : State :=
  let h := h.filter fun e => !s.foreignPage t.vf (e.1 / 65536)
  let wr : Writer := { vf := t.vf, asid := t.asid, host := false, l2 := some (2 * t.pair) }
  let s := if s.errors.isEmpty then s
    else ((h.map fun e => e.1 / 64).eraseDups).foldl (fun (s : State) l => if s.errors.any (s.stale l) then s.refetch l else s) s
  s.writeAs wr h

/-- The copies a commit carried end; their handles complete their cycle (R159, Table 61). -/
def State.endCopies (s : State) (cs : List Copy) : State :=
  cs.foldl (fun s c => s.setHandle c.team c.blk c.handle fun h => { h with state := .free, kil := c.kil, rdr := c.rdr })
    (({ s with copies := s.copies.filter fun c => !cs.any fun x => x.id == c.id } : State).forget (pendingErr cs))

/-- A reduction takes its place in the team's issue order, after those of its own instruction (R152). -/
def insertRed (r : Red) : List Red → List Red
  | [] => [r]
  | x :: xs => if r.ord < x.ord then r :: x :: xs else x :: insertRed r xs

/-- Deferred reductions in the team's issue order (R152). -/
def issueOrder (rs : List Red) : List Red := rs.foldl (fun l r => insertRed r l) []

/-- A team's write set leaves its holders: the overlay for the base, the copies, the deferred reductions (`keep` says whether they are to be
applied); its level reopens. -/
def State.clearWriteSet (s : State) (team : Nat) (keep : Bool) : State :=
  let s := (s.overlayToBase team).endCopies (s.carried team)
  s.updTeam team fun t => { t with applyQ := if keep then t.applyQ ++ issueOrder t.reds else t.applyQ, reds := [], foreign := [], committed := true }

/-- The commit's end in one team: its participants go on with the report, or the team ends once its reductions have been applied (R152). -/
def State.endGather (s : State) (team : Nat) (report : W64) : State :=
  match s.team? team with
  | none => s
  | some t =>
    match t.gather with
    | none => s
    | some g =>
      if g.final then s.updTeam team fun t => { t with phase := .applying, gather := none, bar := none }
      else
        let s := s.updTeam team fun t => { t with gather := none, bar := none }
        match t.bar with | some b => s.releaseAll b report | none => s

/-- Publish a gathered commit of a team, or report its conflict (R150). -/
def State.publish (s : State) (t : Team) (g : Gather) : State :=
  let cs := s.carried t.id
  let report := if g.checked then deviceReport cs t.foreign else 0
  let both (s : State) : State := match t.twin with | some t2 => (s.endGather t.id report).endGather t2 report | none => s.endGather t.id report
  if report ≠ 0 then both s
  else
    let h := pendingBytes cs
    let s := s.publishBytes t h
    let s := { s with teams := s.teams.map fun (x : Team) =>
        if x.launch = t.launch && x.id ≠ t.id && some x.id ≠ t.twin then { x with foreign := addForeign x.foreign h } else x }
    let s := s.clearWriteSet t.id true
    let s := match t.twin with | some t2 => s.clearWriteSet t2 false | none => s
    (both s).applied t.id

/-- Twins whose signatures differ (R331): both are discarded as by `abt.t`; a notice waits for its disposition, or the team kill follows. -/
def State.twinsDiffer (s : State) (t t2 : Team) (own other : W64) : State :=
  let addr := (s.teamWaves t.id).any fun w => w.abtT.isSome
  let ab (s : State) (team : Nat) : State := match s.teamWaves team with | w :: _ => s.abort 8 w | [] => s.updTeam team fun t => { t with gather := none }
  if addr && s.wantsNotice t.launch Cause.twin then
    let s := ab (ab s t.id) t2.id
    let rid := s.nextId
    let s := s.makeNotice (teamUnit t) Cause.twin 2 own other (BitVec.ofNat 32 t.idx)
    if (s.record? rid).isSome then (s.updTeam t.id fun t => { t with notice := some rid }).updTeam t2.id fun t => { t with notice := some rid }
    else s.killTeam t.id true 0 7
  else s.killTeam t.id true 0 7

/-- A gathered device commit and its pending data: an error in it is repaired from the source, or its team is killed (R317, R320); else `go` on. -/
def State.withSound (s : State) (t : Team) (cs : List Copy) (go : State → State) : State :=
  if cs.any s.sourceLost then s.poisonKill t.id (2 * t.pair) t.asid 1
  else go (s.reread cs)

/-- A gathered device commit is published (R152), after the comparison with its twin under grade 2 (R331). -/
def execDeviceCommitPublish (team : Nat) (s : State) : Host.Outcome State Fault Refusal :=
  match s.team? team with
  | none => .next s
  | some t =>
    match t.gather with
    | none => .next s
    | some g =>
      if !s.gathered t || t.secondary then .next s
      else match t.twin with
        | none => .next (s.withSound t (s.carried t.id) fun s => s.publish t g).wakeRetry
        | some i =>
          match s.team? i with
          | none => .next s
          | some t2 =>
            if !s.gathered t2 then .next s
            else
              .next (s.withSound t (s.carried t.id ++ s.carried t2.id) fun s =>
                let own := s.signature t
                let other := s.signature t2
                let s := (s.updTeam t.id fun t => t.compared own other).updTeam t2.id fun t => t.compared other own
                if own = other then s.publish t g else s.twinsDiffer t t2 own other).wakeRetry

end Sys2Proof.Machine
end

