-- ==== Sys2Proof/Machine/HostIf.lean ====
section
/-! DEFINITION. The rings of a virtual command processor (spec/11 R240-R243) and the host's reads and writes of device memory (spec/07 R168,
spec/14 R313, R315, R321): tickets, publication, notification, configuration, the consumption of slots. -/

namespace Sys2Proof.Machine

/-! ### Fetches by the command processor (R249) -/

/-- What a fetch gives. -/
inductive Fetched where
  | ok (bs : List Byte)
  | fail (cause : Nat)
  | wait

/-- The engine of the front end: function and ASID of a ring. -/
def frontEnv (vf asid : Nat) : Env := { core := Config.cores, vf := vf, asid := asid, team := 0, twin := none }

/-- Read n bytes at a virtual address through a ring's ASID (R249); of no bytes nothing is read. -/
def State.fetchBytes (s : State) (vf asid va n : Nat) : State × Fetched :=
  if 0 < n && 2 ^ 57 < va + n then (s, .fail Cause.notPresent)
  else
    let r := (Run.start s []).read (frontEnv vf asid) Need.fetch 0 va n
    match r.1.stop with
    | none => (r.1.s, .ok r.2)
    | some .wait => (s, .wait)
    | some (.fault c _ _) => (r.1.s, .fail c)

/-! ### Registers of a ring (Tables 77-79) -/

/-- Whether a function's registers act (R268, R279): enabled and not resetting. -/
def State.vfReady (s : State) (v : Nat) : Bool := (s.vf v).en && (s.vf v).st == 1

def Ring.enabled (r : Ring) : Bool := !r.malformed && (r.cfg.map (·.en)).getD false
def Ring.slots (r : Ring) : Nat := 2 ^ ((r.cfg.map (·.lgs)).getD 0)
def Ring.entries (r : Ring) : Nat := 2 ^ ((r.cfg.map (·.lgc)).getD 0)

/-- The host is given an answer. -/
def State.reply (s : State) (r : HostReply) : State := { s with hostReply := s.hostReply ++ [r] }

/-- Whether a host reaches a function: its logical device is bound to one (R264). -/
def State.hosted (s : State) (v : Nat) : Bool := s.hosts.any fun e => e.1 == (s.vf v).ld

/-- Whether a host's writes of a function's page act (R264, R268, R279). -/
def State.pageActs (s : State) (v : Nat) : Bool := s.hosted v && s.vfReady v

/-- A read of TICKET (R242, Table 79). -/
def execTicketRead (vf ring : Nat) (s : State) : Host.Outcome State Fault Refusal :=
  let r := s.ring vf ring
  if !s.hosted vf then .next s
  else if !s.vfReady vf || !r.enabled then .next (s.reply (.value (0x4000000000000000#64 ||| r.tail.setWidth 64)))
  else if (r.tail - r.head).toNat = r.slots then .next (s.reply (.value (0x8000000000000000#64 ||| r.tail.setWidth 64)))
  else .next ((s.setRing vf ring { r with tail := r.tail + 1 }).reply (.value (r.tail.setWidth 64)))

/-- A write to PUBLISH (R242); ignored while the function is off or resetting (R268, R279). After a bad publish, whose write R242 calls ignored, PUBLISH
still reads the value last written (R5; the model's choice, notes/assumptions/44). -/
def execPublishWrite (vf ring : Nat) (value : W64) (s : State) : Host.Outcome State Fault Refusal :=
  if !s.pageActs vf then .next s
  else
    let r := { s.ring vf ring with publish := value.setWidth 32 }
    let q : W32 := value.setWidth 32
    if (q - r.head).toNat < (r.tail - r.head).toNat && !r.bits.contains (q.toNat % r.slots) then
      .next (s.setRing vf ring { r with bits := r.bits ++ [q.toNat % r.slots] })
    else .next (s.setRing vf ring { r with status := r.status ||| 1 })

/-- A write to NOTIFY (R240): during a reset it is dropped and counted (R280), while the function is disabled dropped (R268). -/
def execNotifyWrite (vf : Nat) (ring : RingWord) (s : State) : Host.Outcome State Fault Refusal :=
  let v := s.vf vf
  if !s.hosted vf then .next s
  else if v.st ≥ 2 then .next (s.setVf vf { v with ndrop := if v.ndrop = 0xFFFFFFFF then v.ndrop else v.ndrop + 1 })
  else if !v.en then .next s
  else .next (s.setRing vf ring.ring { s.ring vf ring.ring with notify := true, notifyWord := ring.value })

/-- What RCFG and CCFG must satisfy (R241). -/
def State.cfgMalformed (s : State) (vf : Nat) (r : Ring) : Bool :=
  let lgs := bits r.rcfg.toNat 0 5
  let lgc := bits r.ccfg.toNat 0 5
  decide (lgs < 4) || decide (lgs > 16) || decide (lgc < 4) || decide (lgc > 16) || (s.partOfOrd vf (bits r.rcfg.toNat 16 5)).isNone

/-- The configuration a ring's registers hold. Bits [11:0] of RBASE and CBASE are dropped: Table 77 calls both multiples of 4,096, R241 does not
call another value malformed, and what such a value does the spec leaves open (the model's choice, notes/assumptions/44). -/
def ringCfgOf (r : Ring) : RingCfg :=
  { rbase := bits r.rbase.toNat 12 45 * 4096, lgs := bits r.rcfg.toNat 0 5, en := r.rcfg.getLsbD 7, queue := bits r.rcfg.toNat 8 6,
    ord := bits r.rcfg.toNat 16 5, cbase := bits r.cbase.toNat 12 45 * 4096, lgc := bits r.ccfg.toNat 0 5, vector := bits r.ccfg.toNat 16 11 }

/-- Whether a ring's ASID is bound (R273, R364). -/
def State.ringBound (s : State) (vf ring : Nat) : Bool :=
  match (s.ring vf ring).asid with
  | some a => s.asids.any fun b => b.asid == a && b.vf == vf && b.ring == some ring
  | none => false

/-- The ASID of a ring: the one it holds, unless something else has been bound under that number since; else the lowest that is neither bound nor any
ring's (R273; notes/assumptions/9). -/
def State.ringAsid (s : State) (vf ring : Nat) : Option Nat :=
  let lowest := (List.range 8192).find? fun a => !(s.asids.any fun b => b.asid == a) && !(s.vfs.any fun v => v.rings.any fun r => r.asid == some a)
  match (s.ring vf ring).asid with
  | some a => if s.asids.any fun b => b.asid == a && !(b.vf == vf && b.ring == some ring) then lowest else some a
  | none => lowest

/-- Bind a ring's ASID to its TROOT with the implied invalidation (R273, R286 `asidld`), also where stage 2 does not map the root,
which `asidld` would refuse: R273 does not say (the model's choice, notes/assumptions/44). -/
def State.bindRing (s : State) (vf ring : Nat) : State :=
  match s.ringAsid vf ring with
  | none => s
  | some a =>
    let root := bits (s.ring vf ring).troot.toNat 12 45 * 4096
    let rest := s.asids.filter fun b => b.asid != a
    (({ s with asids := rest ++ [{ asid := a, vf := vf, root := root, ring := some ring }] } : State).dropTlb fun e => e.vf == vf && e.asid == a).setRing vf ring { s.ring vf ring with asid := some a }

/-- Whether one entry of a group table is lawful (R333). -/
def groupEntryOk (spk : Nat) (e : List Byte) : Bool :=
  let n := leAt e 4 1
  decide (1 ≤ n) && decide (n ≤ 32) && decide (leAt e 5 1 < n) && (List.range n).all fun k =>
    let r := leAt e (8 + k) 1
    r == 0xFE || r == 0xFF || (decide (r < 12) && bits spk r 1 == 1)

/-- Firmware reads the function's communication groups through the notifying ring's ASID (R333); none while the read waits. -/
def State.readGroups (s : State) (vf asid : Nat) : Option State :=
  let v := s.vf vf
  let n := bits v.gtcnt.toNat 0 8
  let bad (s : State) : State :=
    (s.setVf vf { s.vf vf with groups := [], gtable := [] }).setRing vf 0 { s.ring vf 0 with status := (s.ring vf 0).status ||| 2 }
  match s.fetchBytes vf asid (bits v.gtbase.toNat 12 45 * 4096) (320 * n) with
  | (s, .ok bs) =>
    let es := (List.range n).map fun k => (bs.drop (320 * k)).take 320
    some (if es.all (groupEntryOk (bits v.hpol.toNat 16 12)) then s.setVf vf { s.vf vf with groups := es.map fun e => leAt e 0 4, gtable := es } else bad s)
  | (_, .wait) => none
  | (s, .fail _) => some (bad s)

/-- Firmware observes NOTIFY: the configuration takes effect, or the ring is disabled as malformed (R240, R241); the ring's ASID is bound
(R273) and the groups are admitted (R333). -/
def execConfigurationReread (vf ring : Nat) (s : State) : Host.Outcome State Fault Refusal :=
  let r := s.ring vf ring
  if !r.notify || !s.vfReady vf then .next s
  else
    let t := (s.setRing vf ring { r with notify := false }).bindRing vf ring
    match t.readGroups vf ((t.ring vf ring).asid.getD 0) with
    | none => .next s
    | some t =>
      let r := t.ring vf ring
      if t.cfgMalformed vf r then .next (t.setRing vf ring { r with malformed := true, status := r.status ||| 2 })
      else .next (t.setRing vf ring { r with malformed := false, cfg := some (ringCfgOf r) })

/-- A write to CHEAD (R243). -/
def execCheadWrite (vf ring : Nat) (value : W64) (s : State) : Host.Outcome State Fault Refusal :=
  if s.pageActs vf then .next (s.setRing vf ring { s.ring vf ring with chead := value.setWidth 32 }).wakeRetry else .next s

/-! ### Consumption (R242, R243) -/

/-- The partition and queue of a ring's tasks. -/
def State.ringQueue (s : State) (vf ring : Nat) : Option (Nat × Nat) :=
  (s.ring vf ring).cfg.bind fun c => (s.partOfOrd vf c.ord).map fun p => (p, c.queue)

/-- The command processor consumes the next published slot (R242). A slot that cannot be read completes as R249 states. -/
def execSlotConsume (vf ring : Nat) (s : State) : Host.Outcome State Fault Refusal :=
  let r := s.ring vf ring
  if !s.vfReady vf || !r.enabled || r.head = r.tail || !r.bits.contains (r.head.toNat % r.slots) then .next s
  else
    let k := r.head.toNat % r.slots
    let cmd (bs : List Byte) (p : CmdPhase) (s : State) : State :=
      let clock := match s.ringQueue vf ring with | some (p, q) => s.qclock p q | none => 0
      let s := s.setRing vf ring { s.ring vf ring with bits := (s.ring vf ring).bits.filter (· != k), head := (s.ring vf ring).head + 1 }
      { s with cmds := s.cmds ++ [{ vf := vf, ring := ring, seq := r.head.toNat, bytes := bs, consumed := clock, phase := p, flags := 0, ticks := 0 }] }
    match s.fetchBytes vf (r.asid.getD 0) ((r.cfg.map (·.rbase)).getD 0 + 64 * k) 64 with
    | (_, .wait) => .next s
    | (t, .ok bs) => .next (cmd bs .waiting t)
    | (t, .fail c) => .next (cmd [] (.unreadable c) t)

/-! ### The host and device memory -/

/-- A page that a host of a function may reach: owned by one of its partitions, not of an exact-reduction region (R162). -/
def State.hostPage (s : State) (vf dpa : Nat) : Bool :=
  decide (dpa < Config.deviceBytes) && s.ownPage vf (dpa / 65536) && !s.pageGone (dpa / 65536) && !(s.cellBlocks.any fun b => b.page == dpa / 65536) &&
    !s.pageKind (dpa / 65536) 2

/-- A host's access is performed; none while it waits: a read as a recall (R160), both for a spare fill (R323). A read of an uncorrectable line
returns poison (Table 107). What is written carries the function, ASID 0 and the host bit (R316); lines of a bank-engine region are not cached
(R162). A page the function does not own is not reached (R274). -/
def State.hostAccess (s : State) (h : HostAccess) : Option State :=
  let as := (List.range h.len).map (h.dpa + ·)
  let reach := as.all fun a => s.hostPage h.vf a
  match h.data with
  | none =>
    if !reach then some (s.reply .poison)
    else if as.any s.lineHeld then none
    else
      let r := s.consumeLines as
      some (if r.2 then r.1.reply .poison else r.1.reply (.bytes (r.1.readBytes h.dpa h.len))).wakeRetry
  | some data =>
    if !reach then some s
    else if as.any s.filling then none
    else
      let wr : Writer := { vf := h.vf, asid := 0, host := true, l2 := none }
      some (s.writeAs wr (cellsAt h.dpa data)).wakeRetry

/-- A host's access is performed or put to wait. -/
def State.hostRequest (s : State) (h : HostAccess) : State := (s.hostAccess h).getD { s with hostWait := s.hostWait ++ [h] }

/-- A waiting host access is performed once it can be. -/
def State.hostRetry (s : State) (h : HostAccess) : State := (({ s with hostWait := s.hostWait.erase h } : State).hostAccess h).getD s

/-- A host reads device memory (R168), of a function that it reaches (R264). -/
def execHostMemRead (vf dpa len : Nat) (s : State) : Host.Outcome State Fault Refusal :=
  if !s.hosted vf then .next s else .next (s.hostRequest { vf := vf, dpa := dpa, len := len, data := none })

/-- A host writes device memory (R163, R313), of a function that it reaches (R264). -/
def execHostMemWrite (vf dpa : Nat) (data : List Byte) (s : State) : Host.Outcome State Fault Refusal :=
  if !s.hosted vf then .next s else .next (s.hostRequest { vf := vf, dpa := dpa, len := data.length, data := some data })

end Sys2Proof.Machine
end

