-- ==== Sys2Proof/Machine/Launch.lean ====
section
/-! DEFINITION. Commands and launches (spec/11 R243-R249, R295, R335): the three command kinds, launch and fault-policy records, the prologue, and
completion. -/

namespace Sys2Proof.Machine

/-! ### Launch records (R247, R248) -/

/-- One region of a launch record (Table 83). -/
def regionAt (b : List Byte) (i : Nat) : Region :=
  let o := 128 + 24 * i
  { gaddr := leAt b o 8, ts := signed 64 (leAt b (o + 8) 8), spad := leAt b (o + 16) 3, dir := leAt b (o + 19) 1, size := leAt b (o + 20) 4 }

/-- The V that a record with view 0 takes (R248). -/
def viewFor (rs : List Region) : Nat :=
  let top := rs.foldl (fun m r => if r.dir = 0 then m else max m (r.spad + r.size)) 0
  max 65536 ((top + 65535) / 65536 * 65536)

/-- The fields of a launch record (Table 83). -/
def launchRecOf (b : List Byte) : LaunchRec :=
  let rs := (List.range 8).map (regionAt b)
  let v := leAt b 24 4
  { entry := BitVec.ofNat 57 (leAt b 0 8), width := leAt b 8 1, regs := leAt b 9 1, waves := leAt b 10 1, blocks := leAt b 11 1, teams := leAt b 12 4,
    acc := leAt b 16 2, prio := leAt b 18 1, grade := leAt b 19 1, cass := leAt b 20 4, view := if v = 0 then viewFor rs else v,
    reent := bits (leAt b 28 1) 0 1 = 1, budget := BitVec.ofNat 64 (leAt b 32 8), deadline := BitVec.ofNat 64 (leAt b 40 8), fpolicy := leAt b 48 8,
    arg := BitVec.ofNat 64 (leAt b 56 8), aff := leAt b 64 8, affs := signed 64 (leAt b 72 8), regions := rs }

/-- Whether a region's fields break Table 83, or a used region breaks R57. -/
def regionBad (r : Region) : Bool :=
  decide (r.dir > 3) || r.spad % 64 ≠ 0 || decide (r.spad ≥ 2 ^ 22) || (r.dir ≠ 0 && (decide (r.spad ≥ 0x200000) || r.size % 64 ≠ 0 || decide (r.size < 64) || decide (r.size > 0x200000) ||
    decide (r.spad + r.size > 0x200000)))

/-- Whether two used regions of a list overlap. -/
def regionsOverlap : List Region → Bool
  | [] => false
  | r :: rs => rs.any (fun q => r.dir ≠ 0 && q.dir ≠ 0 && overlap r.spad r.size q.spad q.size) || regionsOverlap rs

/-- Whether a launch record is malformed (R248, Table 83); so is one, whatever its V, a used region of which reaches into 0x1C_0000 or above (R144). The
alignment of its fault-policy record is judged with that record (R295). -/
def recordMalformed (b : List Byte) : Bool :=
  let r := launchRecOf b
  leAt b 0 8 % 4 ≠ 0 || decide (leAt b 0 8 ≥ 2 ^ 57) || !(r.width == 16 || r.width == 32 || r.width == 64) || r.regs == 0 || decide (r.regs > 120) ||
  r.waves == 0 || decide (r.waves > 16) || r.blocks == 0 || decide (r.blocks > 8) || decide (r.acc > 6144) || decide (r.prio > 15) || decide (r.grade > 2) ||
  decide (r.cass > 262144) || r.cass % 256 ≠ 0 || leAt b 24 4 % 65536 ≠ 0 || decide (leAt b 24 4 > 1835008) || decide (leAt b 28 1 > 1) || leAt b 29 3 ≠ 0 ||
  ((b.drop 80).take 48).any (· ≠ 0) || r.regions.any regionBad || regionsOverlap r.regions ||
  r.regions.any fun g => g.dir ≠ 0 && decide (g.spad + g.size > min r.view 1835008)

/-! ### Fault-policy records (R295) -/

/-- The causes of Table 96. -/
def causes : List Nat :=
  [1, 2, 3, 4, 5, 6, 7, 8, 9, 0x10, 0x11, 0x12, 0x13, 0x14, 0x18, 0x19, 0x1A, 0x1B, 0x1C, 0x20, 0x21, 0x22, 0x23, 0x24, 0x30, 0x31, 0x32, 0x3F]

/-- One entry of a fault-policy record (Table 101). -/
def polEntryAt (b : List Byte) (c : Nat) : PolEntry :=
  let o := 64 + 32 * c
  { handler := BitVec.ofNat 64 (leAt b o 8), deadline := BitVec.ofNat 64 (leAt b (o + 8) 8), budget := BitVec.ofNat 64 (leAt b (o + 16) 8),
    kind := leAt b (o + 24) 1, queue := leAt b (o + 25) 1, prio := leAt b (o + 26) 1, expiry := leAt b (o + 27) 1, link := leAt b (o + 28) 1,
    pord := leAt b (o + 29) 1, pq := leAt b (o + 30) 1 }

def policyOf (b : List Byte) : Policy := { arg := BitVec.ofNat 64 (leAt b 0 8), entries := (List.range 64).map (polEntryAt b) }

/-- Whether a fault-policy record at an address is malformed (R295). -/
def policyMalformed (at_ : Nat) (b : List Byte) : Bool :=
  at_ % 64 ≠ 0 || ((b.drop 8).take 56).any (· ≠ 0) || (List.range 64).any fun c =>
    let e := polEntryAt b c
    if causes.contains c then
      decide (e.kind > 3) || decide (e.queue > 63) || decide (e.prio > 15) || decide (e.expiry > 1) || (e.kind = 3 && decide (e.link > 11)) ||
        (e.kind = 3 && decide (e.pq > 63)) || leAt b (64 + 32 * c + 31) 1 ≠ 0
    else ((b.drop (64 + 32 * c)).take 32).any (· ≠ 0)

/-- The pairs of a partition, and the stack neighbourhood of a pair (R12). -/
def pairsOf (p : Nat) : List Nat := (List.range 6).map (6 * p + ·)
def hoodOfPair (k : Nat) : Nat := hoodOfCore (2 * k)

/-- Whether a record fits on an empty pair of a partition (R251); grade 2 needs pairs in two neighbourhoods (R17). -/
def LaunchRec.placeable (r : LaunchRec) (p : Nat) : Bool :=
  Need5.zero.fits (r.needOn 0) && Need5.zero.fits (r.needOn 1) &&
  (r.grade ≠ 2 || (pairsOf p).any fun a => (pairsOf p).any fun b => hoodOfPair a != hoodOfPair b)

/-! ### Starting commands (R243) -/

/-- Commands of the same ring consumed before one. -/
def State.earlierCmds (s : State) (c : Cmd) : List Cmd :=
  (s.cmds.takeWhile fun x => !(x.vf == c.vf && x.ring == c.ring && x.seq == c.seq)).filter fun x => x.vf == c.vf && x.ring == c.ring

def Cmd.started (c : Cmd) : Bool := match c.phase with | .waiting => false | .unreadable _ => false | _ => true

/-- Whether a command may start: every earlier one of its ring has, and a completion entry is free (R243). -/
def State.mayStart (s : State) (c : Cmd) : Bool :=
  let r := s.ring c.vf c.ring
  s.vfReady c.vf && (s.earlierCmds c).all Cmd.started &&
  decide ((r.ctail - r.chead).toNat + (s.cmds.filter fun x => x.vf == c.vf && x.ring == c.ring && x.started).length < r.entries)

/-- A command ends without a launch. -/
def State.finishCmd (s : State) (c : Cmd) (status cause : Nat) : State := s.setCmd { c with phase := .finished status cause 0 }

/-- Whether a slot is malformed (R243, Table 80). -/
def slotMalformed (b : List Byte) : Bool :=
  let k := leAt b 0 1
  let len (i : Nat) : Nat := leAt b (48 + 2 * i) 2
  decide (k > 2) || leAt b 1 7 ≠ 0 || (b.drop 54).any (· ≠ 0) ||
  (if k = 1 then
    leAt b 8 8 % 64 ≠ 0 || leAt b 16 8 % 4 ≠ 0 || len 0 % 8 ≠ 0 || len 1 % 8 ≠ 0 || len 2 % 8 ≠ 0 || decide (len 0 + len 1 + len 2 > 3072)
   else ((b.drop 8).take 46).any (· ≠ 0))

/-- Run `f` on a waiting command that may start and is of the kind given; a malformed one completes with 0x03 (R243). -/
def State.startCmd (s : State) (vf ring seq kind : Nat) (f : Cmd → State) : State :=
  match s.cmd? vf ring seq with
  | none => s
  | some c =>
    if c.phase != .waiting || !s.mayStart c then s
    else if slotMalformed c.bytes then (s.finishCmd c 3 0).wakeRetry
    else if leAt c.bytes 0 1 = kind then f c
    else s

/-- NOP (R243). -/
def execNopCommand (vf ring seq : Nat) (s : State) : Host.Outcome State Fault Refusal :=
  .next (s.startCmd vf ring seq 0 fun c => (s.finishCmd c 0 0).wakeRetry)

/-- BARRIER (R243): it starts once every earlier command of its ring has completed, and completes at once. -/
def execBarrier (vf ring seq : Nat) (s : State) : Host.Outcome State Fault Refusal :=
  .next (s.startCmd vf ring seq 2 fun c => if (s.earlierCmds c).isEmpty then (s.finishCmd c 0 0).wakeRetry else s)

/-! ### Launching (R248) -/

/-- The launch ends with a status and runs nothing further. -/
def State.endLaunch (s : State) (id status cause : Nat) : State :=
  s.updLaunch id fun l => { l with status := some (l.status.getD status), cause := cause, left := 0, again := false }

/-- The grade cap of a function; 0b11 acts as 2 (Table 88). -/
def State.gradeCap (s : State) (vf : Nat) : Nat := min 2 (bits (s.vf vf).hpol.toNat 6 2)

/-- Launch a record: the conditions of R248 in their order, then its teams are enqueued in ascending order (R253). None while a fetch waits. -/
def State.enterLaunch (s : State) (id consumed : Nat) (b : List Byte) : Option State :=
  match s.launch? id with
  | none => some s
  | some l =>
    let r := launchRecOf b
    if recordMalformed b then some (s.endLaunch id 3 0)
    else if r.grade > s.gradeCap l.vf then some (s.endLaunch id 5 0)
    else
      let go (s : State) (p : Option Policy) : State :=
        if !r.placeable l.part then s.endLaunch id 4 0
        else
          let s := s.updLaunch id fun l =>
            { l with rcd := r, policy := p, deadline := if r.deadline = 0 then none else some (consumed + r.deadline.toNat), left := r.teams }
          (List.range r.teams).foldl (fun (s : State) (t : Nat) =>
            let aff := if r.aff = 0 then none else some (unsignedOf 64 ((r.aff : Int) + (t : Int) * r.affs))
            s.enqueue { mkTask l.part l.queue r.prio (.team id t) with aff := aff } false) s
      if r.fpolicy = 0 then some (go s none)
      else match s.fetchBytes l.vf l.asid r.fpolicy 2112 with
        | (_, .wait) => none
        | (t, .fail c) => some (t.endLaunch id 8 c)
        | (t, .ok pb) => if policyMalformed r.fpolicy pb then some (t.endLaunch id 3 0) else some (go t (some (policyOf pb)))

/-! ### The prologue (R245, R246) -/

/-- The wave that runs a prologue: one lane on a front-end core. -/
def prologueWave (wid launch asid : Nat) (pc : W57) (area : List Byte) : Wave :=
  { wid := wid, team := 0, blk := 0, idx := 0, core := Config.cores, slot := launch, width := 1, nregs := 32, grade := 0, sup := false, asid := asid,
    status := .running, wait := .ready, lanes := [{ Lane.empty 32 pc with live := true }], sregs := List.replicate 32 0, fpmode := 0, fpflags := 0,
    winBase := 0, winLimit := 0, mlatch := none, latches := List.replicate 4 [0], latchLive := [false, false, false, false], hold := 0, pan := [],
    reds := [], abtW := none, abtB := none, abtT := none, foreign := [], epoch := 0, age := 0,
    prologue := some { launch := launch, area := area, code := pc.toNat, issued := 0, ended := none } }

/-- Bytes of the staging ranges of a command, in order (R245): none while a fetch waits. -/
def State.stageRanges (s : State) (vf asid : Nat) (b : List Byte) : State × Fetched :=
  (List.range 3).foldl (fun (acc : State × Fetched) i =>
    match acc.2 with
    | .ok bs =>
      (match acc.1.fetchBytes vf asid (leAt b (24 + 8 * i) 8) (leAt b (48 + 2 * i) 2) with
       | (t, .ok x) => (t, .ok (bs ++ x))
       | r => r)
    | _ => acc) (s, .ok [])

/-- Start a prologue over the first 0x400 bytes of its area (R245): in hardware, or by the host in host-assisted mode (R283). Bits of plg
above 56 are dropped (the model's choice, notes/assumptions/44). None while a fetch waits. -/
def State.startPrologue (s : State) (id : Nat) (c : Cmd) (head : List Byte) : Option State :=
  match s.launch? id with
  | none => some s
  | some l =>
    match s.stageRanges l.vf l.asid c.bytes with
    | (_, .wait) => none
    | (t, .fail x) => some (t.endLaunch id 8 x)
    | (t, .ok rs) =>
      let area := head ++ rs ++ zeros (4096 - 0x400 - rs.length)
      if (t.part l.part).fwm.getLsbD 1 then some { (t.updLaunch id fun l => { l with area := head }) with assist := t.assist ++ [.prologue id] }
      else some { t with waves := t.waves ++ [prologueWave t.nextId id l.asid (BitVec.ofNat 57 (leAt c.bytes 16 8)) area], nextId := t.nextId + 1 }

/-- Whether a launch's prologue is still to be decided. -/
def State.prologuePending (s : State) (id : Nat) : Bool :=
  (s.waves.any fun w => match w.prologue with | some p => p.launch == id | none => false) || s.assist.any fun a => match a with | .prologue i => i == id | _ => false

/-- LAUNCH (R245): the record is fetched, and launched or given to the prologue. A ring whose partition ordinal the function no longer holds has nowhere to
place it, and the command ends with status 0x04 before the fetch (the model's choice, notes/assumptions/44). -/
def execLaunch (vf ring seq : Nat) (s : State) : Host.Outcome State Fault Refusal :=
  .next (s.startCmd vf ring seq 1 fun c =>
    match s.ringQueue vf ring with
    | none => (s.finishCmd c 4 0).wakeRetry
    | some (p, q) =>
      let asid := (s.ring vf ring).asid.getD 0
      match s.fetchBytes vf asid (leAt c.bytes 8 8) 320 with
      | (_, .wait) => s
      | (t, .fail x) => (t.finishCmd c 8 x).wakeRetry
      | (t, .ok b) =>
        let id := t.nextId
        let l : Launch :=
          { id := id, vf := vf, ring := ring, seq := seq, asid := asid, part := p, queue := q, rcd := launchRecOf b, policy := none, deadline := none,
            left := 0, deadTeams := 0, status := none, flags := 0, ticks := 0, repeats := 0, again := false, handler := none, sup := false, cause := 0,
            area := [] }
        let t := ({ t with launches := t.launches ++ [l], nextId := id + 1 }).setCmd { c with phase := .running id }
        let r := if leAt c.bytes 16 8 = 0 then t.enterLaunch id c.consumed b else t.startPrologue id c (b ++ zeros (0x400 - 320))
        match r with
        | some u => u.wakeRetry
        | none => s)

/-- The command of a launch. -/
def State.cmdOf (s : State) (l : Launch) : Option Cmd := s.cmd? l.vf l.ring l.seq

/-- What follows when a prologue exits with s31 (R246); none while a fetch waits. -/
def State.prologueOutcome (s : State) (id : Nat) (s31 : W64) (area : List Byte) : Option State :=
  match s.launch? id with
  | none => some s
  | some l =>
    let s := s.updLaunch id fun l => { l with area := area.take 0x400 }
    if s31 = 0 || s31 = 2 then
      let s := s.updLaunch id fun l => { l with again := s31 == 2 && decide (l.repeats < 255) }
      s.enterLaunch id (((s.cmdOf l).map (·.consumed)).getD 0) (area.take 320)
    else if s31 = 1 then some (s.endLaunch id 1 0)
    else some (s.endLaunch id 2 Cause.illegal)

/-- A prologue has exited or faulted (R245, R246, R249). -/
def execPrologueEnd (launch : Nat) (s : State) : Host.Outcome State Fault Refusal :=
  match s.waves.find? fun w => match w.prologue with | some p => p.launch == launch && p.ended.isSome | none => false with
  | none => .next s
  | some w =>
    match w.prologue.bind fun p => p.ended.map fun e => (p, e) with
    | none => .next s
    | some (p, e) =>
      let t := { s with waves := s.waves.filter fun x => x.wid != w.wid }
      let t : State := { t with grp := if t.grp.any (fun g => g.wid == w.wid) then none else t.grp }
      if e ≥ 256 then .next (t.endLaunch launch 8 (e - 256)).wakeRetry
      else if e ≠ 0 then .next (t.endLaunch launch 2 e).wakeRetry
      else match t.prologueOutcome launch (w.sregs.getD 31 0) p.area with
        | some u => .next u.wakeRetry
        | none => .next s

/-- Teams of a launch that are still there, and its escalation notices. -/
def State.launchBusy (s : State) (l : Launch) : Bool :=
  l.left ≠ 0 || s.prologuePending l.id || (s.teams.any fun t => t.launch == l.id) || (s.records.any fun r => r.launch == l.id && r.kind == .notice && r.notice ≠ 0)

/-- When a repeating launch's teams have all ended, its prologue runs again over the area it left, with its ranges staged afresh (R246). It counts as a
repeat from here, though its staging or its code may fail to be fetched; it does not run again once a team of the launch has died unrelaunched, and the command then completes
with 0x07 (the model's choices, notes/assumptions/44). -/
def execPrologueRepeat (launch : Nat) (s : State) : Host.Outcome State Fault Refusal :=
  match s.launch? launch with
  | none => .next s
  | some l =>
    if !l.again || l.status.isSome || s.launchBusy l then .next s
    else match s.cmdOf l with
      | none => .next s
      | some c =>
        match (s.updLaunch launch fun l => { l with again := false, repeats := l.repeats + 1 }).startPrologue launch c l.area with
        | some t => .next t.wakeRetry
        | none => .next s

/-! ### Completion (R244, R168) -/

/-- The completion record (Table 81). -/
def completionRecord (seq status : Nat) (flags : BitVec 8) (cause repeats ticks : Nat) : List Byte :=
  leBytes 4 seq ++ leBytes 1 status ++ [flags] ++ leBytes 1 (if status = 2 || status = 8 then cause else 0) ++ leBytes 1 repeats ++ leBytes 8 ticks ++ zeros 16

/-- Lines that a context left dirty, whoever wrote them since, are written back to HBM4 (R168). -/
def State.cleanContext (s : State) (vf asid : Nat) : State :=
  (s.lines.filter fun e => e.dirty && ((e.vf == vf && e.asid == asid && !e.host) || e.earlier.contains (vf, asid))).foldl (fun s e => s.writeBack e 1) s

/-- Write a completion record, advance CTAIL and signal the vector; a record that cannot be written is lost (R244), and one in a bank-engine region is not
cached (R162). None while its line is held: R160 speaks of reads, and the record's write too waits while a pending copy owns the line (the model's choice,
notes/assumptions/44). -/
def State.complete (s : State) (c : Cmd) (status cause repeats : Nat) (flags : BitVec 8) (ticks : Nat) : Option State :=
  let r := s.ring c.vf c.ring
  let cfg := r.cfg.getD (ringCfgOf r)
  let va := cfg.cbase + 32 * (r.ctail.toNat % r.entries)
  let asid := r.asid.getD 0
  let fin (s : State) (lost : Bool) : State :=
    let r := s.ring c.vf c.ring
    let s := s.setRing c.vf c.ring { r with ctail := r.ctail + 1, status := if lost then r.status ||| 4 else r.status }
    { s with
      msix := if (s.vf c.vf).en then s.msix ++ [(c.vf, cfg.vector)] else s.msix
      cmds := s.cmds.filter fun x => !(x.vf == c.vf && x.ring == c.ring && x.seq == c.seq) }
  match if va + 32 > 2 ^ 57 then .error Cause.notPresent else s.translate Config.cores c.vf asid va Need.completion with
  | .error _ => some (fin s true)
  | .ok (d, kind) =>
    if s.lineHeld d then none
    else
      let wr : Writer := { vf := 0x7F, asid := 0, host := false, l2 := none }
      let bs := cellsAt d (completionRecord c.seq status flags cause repeats ticks)
      some (fin ((if kind = 1 then s.noteBankPage d else s).writeAs wr bs) false)

/-- No earlier command of the ring that ran no launch has a record to write: such a command, a barrier among them, completes at once (R243). -/
def State.inTurn (s : State) (c : Cmd) : Bool :=
  (s.earlierCmds c).all fun x => match x.phase with | .finished _ _ _ => false | .unreadable _ => false | _ => true

/-- A command completes (R244): it finished without a launch, its slot could not be read, or its launch's teams have ended and its dirty lines
are written back. -/
def execCommandComplete (vf ring seq : Nat) (s : State) : Host.Outcome State Fault Refusal :=
  match s.cmd? vf ring seq with
  | none => .next s
  | some c =>
    let finish (t : State) (o : Option State) : Host.Outcome State Fault Refusal := match o with | some u => .next u.wakeRetry | none => .next t
    match c.phase with
    | .waiting => .next s
    | .unreadable x => if s.mayStart c && s.inTurn c then finish s (s.complete c 8 x 0 0 0) else .next s
    | .finished st x n => if s.inTurn c then finish s (s.complete c st x n c.flags c.ticks) else .next s
    | .running id =>
      match s.launch? id with
      | none => .next s
      | some l =>
        if s.launchBusy l || !s.inTurn c || (l.again && l.status.isNone) || (s.remotes.any fun o => o.launch == id) || (s.bankOps.any fun o => o.launch == id) then .next s
        else
          let t := s.cleanContext l.vf l.asid
          let l := (t.launch? id).getD l
          finish s (((t.complete c (l.status.getD 0) l.cause l.repeats l.flags l.ticks)).map fun u => { u with launches := u.launches.filter fun x => x.id != id })

end Sys2Proof.Machine
end

