-- ==== Sys2Proof/Machine/Image.lean ====
section
/-! DEFINITION. The image of a core (spec/11 R258, Table 84, spec/17 R354): the sections that hold one team's state on it, each behind its 64-byte
header. The spec names what each section holds and at most how long it is; the order of the fields within one is the model's (notes/assumptions/15). -/

namespace Sys2Proof.Machine

/-- A section: its kind, counted from 1 in the order of Table 84, the block and wave that own it (0xFF where none does), its length, and its bytes
that are not zero, by offset. -/
structure Section where
  kind : Nat
  blk : Nat
  wave : Nat
  len : Nat
  cells : List Host.Cell
  deriving DecidableEq, Repr

/-- The bytes of a list that are not zero. -/
def nonZero (from_ : Nat) (bs : List Byte) : List Host.Cell := (cellsAt from_ bs).filter fun e => e.2 != 0

/-- A section written out whole. -/
def plainSection (kind blk wave : Nat) (bs : List Byte) : Section :=
  { kind := kind, blk := blk, wave := wave, len := bs.length, cells := nonZero 0 bs }

/-- What the overlay store holds for a level: per sector its 32 bytes and its key, in the layout of a pannier sector (R144, R292). -/
def storeBytes (from_ core : Nat) (held : Held) (reds : List Red) : List Byte :=
  let secs := ((sectorsOf held).filter fun x => coreOfTeamAddr (core / 2) (32 * x) == core)
  (secs.mapIdx fun k x =>
    ((List.range 32).map fun i => match Held.get? held (32 * x + i) with
      | some v => v
      | none => (freeBytes (from_ + 4 * k) 32).getD i 0) ++
    sectorKey false (toTeam core (32 * x)) ((List.range 32).foldl (fun m i => if (Held.get? held (32 * x + i)).isSome then m + 2 ^ i else m) 0)).flatten ++
  reds.flatMap fun r => le64 r.addr ++ le64 r.value ++ [BitVec.ofNat 8 r.fn] ++ zeros 15 ++ sectorKey true 0 0

/-- Lane state: key word, on-chip return entries, predicates, abort depths, liveness and sleep, 48 bytes (Table 84). -/
def laneState (from_ : Nat) (l : Lane) : List Byte :=
  leBytes 8 (keyWord l) ++ chipBytes from_ l ++ [l.preds, BitVec.ofNat 8 l.abtW, BitVec.ofNat 8 l.abtB, BitVec.ofNat 8 l.abtT] ++
    leBytes 1 (if l.live then 1 else 0) ++ leBytes 1 (if l.sleep.isSome then 1 else 0) ++ zeros 2

/-- Wave state, 1 KiB (Table 84): scalars, modes, window, latch, abort addresses, thread numbers, rack state, barrier arrival. -/
def State.waveState (s : State) (w : Wave) : List Byte :=
  let rack := match w.status with | .rack e t => leBytes 8 (e.toNat + 2 ^ 63) ++ leBytes 8 t | _ => zeros 16
  let b := w.sregs.flatMap le64 ++ le64 w.fpmode ++ le64 w.fpflags ++ le64 (accwinWord (s.locked w.wid) w) ++ le64 (mlatchWord w.mlatch) ++
    abtBytes w.abtW ++ abtBytes w.abtB ++ abtBytes w.abtT ++ [BitVec.ofNat 8 w.width, BitVec.ofNat 8 w.nregs, BitVec.ofNat 8 w.grade] ++ zeros 5 ++
    w.lanes.flatMap (fun l => le32 l.tid) ++ rack ++ leBytes 8 (if w.wait == .barrier then 1 else 0)
  b ++ zeros (1024 - b.length)

/-- The local area of a wave slot (R251): the spill areas of its lanes, then the save space of its pannier. -/
def localBytes (w : Wave) (pan : List Byte) : List Byte := w.lanes.flatMap (fun l => (List.range 28).flatMap fun k => le64 (l.spill.getD k 0)) ++ pan

/-- The sections of one wave. A parked wave travels as its record, but for its local area, which stays in the scratchpad (R209, R289, R292). -/
def State.waveSections (s : State) (from_ : Nat) (w : Wave) : List Section :=
  match w.parkedIn? with
  | some r => [plainSection 1 w.blk w.idx (localBytes w (((s.record? r).map (·.pan)).getD []))]
  | none =>
  [plainSection 1 w.blk w.idx (localBytes w (panPart from_ w)),
   plainSection 4 w.blk w.idx ((List.range w.nregs).flatMap fun r => w.lanes.flatMap fun l => le32 (l.regs.getD r 0)),
   plainSection 5 w.blk w.idx (w.lanes.mapIdx fun i l => laneState (from_ + 1024 + 4 * i) l).flatten,
   plainSection 6 w.blk w.idx (s.waveState w)]

/-- A copy in the handle section: what names it, its scalars and operands, and its segments that are over (R159, R187). -/
def Copy.saved (c : Copy) : List Byte :=
  leBytes 8 c.id ++ leBytes 2 c.handle ++ leBytes 1 c.widx ++ leBytes 1 c.blk ++ leBytes 4 c.start ++ leBytes 4 c.len ++ c.scal.flatMap le64 ++ le32 c.a ++
    le32 c.dig ++ leBytes 4 c.segs.length ++ c.segs.flatMap fun g => leBytes 1 (if g == .done then 1 else 0)

/-- A matrix operation in the handle section: one that has not started as its parameter block and its place in the issue order, 32 bytes (R137); one
that waits for a record as its 256-byte body (R308). -/
def State.mmaSaved (s : State) (o : MmaOp) : List Byte :=
  match o.phase with
  | .issued => o.param.take 16 ++ leBytes 8 o.id ++ leBytes 1 o.widx ++ leBytes 1 o.blk ++ leBytes 2 (packedMode o.fpmode) ++ zeros 4
  | .waitsForPool _ _ => s.mmaBodyOf o
  | _ => []

/-- The sections of one block. One that has ended holds no storage any more, but its pending copies keep their handles and descriptors (R159, R186). -/
def State.blockSections (s : State) (from_ : Nat) (t : Team) (b : Block) : List Section :=
  let rows := b.rows.flatMap fun r => nonZero (256 * r.1) (r.2.entries.flatMap le32)
  let status := b.rows.flatMap fun r => nonZero (4 * r.1) (le32 r.2.status)
  let clock := match s.launch? t.launch with | some l => s.qclock t.part l.queue | none => 0
  let live : List Section :=
    [plainSection 1 b.idx 0xFF (storeBytes from_ b.core b.ovl b.reds),
     { kind := 2, blk := b.idx, wave := 0xFF, len := 256 * b.acc, cells := rows },
     { kind := 3, blk := b.idx, wave := 0xFF, len := b.cassLen, cells := b.cass },
     { kind := 7, blk := b.idx, wave := 0xFF, len := 4 * b.acc, cells := status },
     plainSection 8 b.idx 0xFF (b.tags.flatMap fun e => le64 e.1 ++ leBytes 2 e.2.toNat)]
  (if b.ended then [] else live) ++
  [plainSection 9 b.idx 0xFF
    (leBytes 8 b.rackT ++ leBytes 8 clock ++
     (b.handles.flatMap fun h => leBytes 2 h.num ++ leBytes 1 (match h.state with | .free => 0 | .filling => 1 | .full => 2 | .draining => 3) ++
       leBytes 1 ((if h.kil then 1 else 0) + (if h.rdr then 2 else 0))) ++
     ((s.copies.filter fun c => c.team == t.id && c.blk == b.idx).flatMap Copy.saved) ++
     ((s.resvs.filter fun r => r.team == t.id && r.blk == b.idx).flatMap fun r => leBytes 2 r.idx ++ leBytes 4 r.off ++ leBytes 4 r.len ++ leBytes 1 r.fmt ++
       leBytes 1 r.grp ++ leBytes 2 r.sclo ++ leBytes 2 r.zpo) ++
     ((s.mmas.filter fun o => o.team == t.id && o.blk == b.idx).flatMap s.mmaSaved))]

/-- The sections of a team on one core of its pair: its slice and its overlay first, then its blocks and its waves; parked units travel as their
records (R258). The counter from which open bytes are drawn steps by 2,048. -/
def State.coreSections (s : State) (t : Team) (core : Nat) : List Section :=
  let slice := t.base.filterMap fun e => if e.1 / 0x200000 = core % 2 then some (e.1 % 0x200000, e.2) else none
  let bs := (s.blocks.filter fun b => b.team == t.id && b.core == core)
  let ws := (s.waves.filter fun w => w.team == t.id && w.core == core)
  [{ kind := 1, blk := 0xFF, wave := 0xFF, len := t.view, cells := slice },
   plainSection 1 0xFF 0xFF (storeBytes s.free core t.ovl (t.reds.filter fun r => r.odd == decide (core % 2 = 1)))] ++
  (bs.mapIdx fun k b => s.blockSections (s.free + 2048 * (k + 1)) t b).flatten ++
  (ws.mapIdx fun k w => s.waveSections (s.free + 2048 * (k + 1 + bs.length)) w).flatten

/-- The 64-byte header of a section (R258): its kind, its length and the logical indices of its owner. -/
def Section.header (t : Team) (x : Section) : List Byte :=
  leBytes 4 x.kind ++ leBytes 8 x.len ++ leBytes 4 t.idx ++ leBytes 1 x.blk ++ leBytes 1 x.wave ++ zeros 46

/-- The length of a core's image, at most 4,864 KiB (R258). -/
def imageLen (xs : List Section) : Nat := min ((xs.map fun x => 64 + x.len).sum) Config.imageBytes

/-- The bytes of a core's image that are not zero, by device physical address. -/
def imageCells (t : Team) (a : Nat) (xs : List Section) : List Host.Cell :=
  ((xs.foldl (fun (acc : Nat × List Host.Cell) x =>
    (acc.1 + 64 + x.len, acc.2 ++ nonZero acc.1 (x.header t) ++ x.cells.map fun e => (acc.1 + 64 + e.1, e.2))) (a, [])).2).filter
      fun e => e.1 < a + Config.imageBytes

/-- Bytes of device memory are set to zero, and error marks of lines that lie among them go (R315). -/
def State.clearRange (s : State) (a n : Nat) : State :=
  ({ s with mem := s.mem.filter fun e => !(decide (a ≤ e.1) && decide (e.1 < a + n)) } : State).forget fun e => match e with
    | .hbm d => decide (a ≤ d / 64 * 64) && decide (d / 64 * 64 + 64 ≤ a + n)
    | .ms d => decide (a ≤ d / 8 * 8) && decide (d / 8 * 8 + 8 ≤ a + n)
    | .l2 d => decide (a ≤ d / 8 * 8) && decide (d / 8 * 8 + 8 ≤ a + n)
    | _ => false

/-- Replace a range of memory: bytes that are zero need no cell (R259). -/
def State.replaceCells (s : State) (a n : Nat) (cells : List Host.Cell) : State :=
  (s.clearRange a n).writeAs { vf := 0x7F, asid := 0, host := false, l2 := none } cells
def State.replaceRange (s : State) (a : Nat) (bs : List Byte) : State := s.replaceCells a bs.length (nonZero a bs)

/-- The image of a team's core goes to an address of device memory; where the order names none, or none of device memory, no byte is written. A budget
expiry and an eviction of R262 name none (R257; the model's choice, notes/assumptions/15). -/
def State.writeImage (s : State) (t : Team) (core a : Nat) : State :=
  if a = 0 || a + Config.imageBytes > Config.deviceBytes then s
  else
    let xs := s.coreSections t core
    s.replaceCells a (imageLen xs) (imageCells t a xs)

/-- The cores of a team's pair and its twin's (R329), each with its place in the save area: the team's even core first, then its odd one (R258). -/
def State.imageCores (s : State) (t : Team) : List (Team × Nat × Nat) :=
  let both := t :: (t.twin.bind s.team?).toList
  (both.mapIdx fun k x => [(x, 2 * x.pair, 2 * k * Config.imageBytes), (x, 2 * x.pair + 1, (2 * k + 1) * Config.imageBytes)]).flatten

/-- The bytes of a team's images together. -/
def State.imagesLen (s : State) (t : Team) : Nat := ((s.imageCores t).map fun x => imageLen (s.coreSections x.1 x.2.1)).sum

/-- Every image of a team goes to its save area, one core's after another's; the open bytes in them are drawn. -/
def State.writeImages (s : State) (t : Team) : State :=
  let u := (s.imageCores t).foldl (fun (u : State) x => u.writeImage x.1 x.2.1 (if t.saveArea = 0 then 0 else t.saveArea + x.2.2)) s
  { u with free := u.free + 2048 * 64 }

end Sys2Proof.Machine
end

