-- ==== Sys2Proof/Machine/Evict.lean ====
section
/-! DEFINITION. Pre-emption and the move of a job (spec/11 R255, R257-R259, spec/13 R311, spec/16 R348): a team drains, its image is saved and it
leaves its cores; a launch's deadline; cells, bank contexts and records that move. -/

namespace Sys2Proof.Machine

/-- The pair on which the model keeps the units of an evicted team: no core has its number (notes/assumptions/15). -/
def evictedPair : Nat := 400

/-- The affinity address of a team (Table 83). -/
def Launch.affOf (l : Launch) (idx : Nat) : Option Nat :=
  if l.rcd.aff = 0 then none else some (unsignedOf 64 ((l.rcd.aff : Int) + (idx : Int) * l.rcd.affs))

/-- The budget a team task starts with (Table 83). -/
def LaunchRec.fullBudget (r : LaunchRec) : Option Nat := if r.budget = 0 then none else some r.budget.toNat

/-- The primary of a team (R329). -/
def Team.primary (t : Team) : Nat := if t.secondary then t.twin.getD t.id else t.id

/-! ### Eviction (R257) -/

/-- A team is ordered off its cores with its twin, to a save area or to none (0): it drains (R257). -/
def State.orderEviction (s : State) (team area : Nat) (renew : Bool) : State :=
  match s.team? team with
  | none => s
  | some t =>
    if !(t.active || t.phase == .staging) then s
    else
      let ids := t.pairUp
      { s with teams := s.teams.map fun (x : Team) => if ids.contains x.id then { x with phase := .draining, saveArea := area, renew := renew } else x }

/-- A partition is ordered off its cores (R261): every team of it, each with room for the images of two pairs in the save area; until the last has left,
nothing is placed on it. -/
def State.orderPartition (s : State) (part area : Nat) : State :=
  let ts := s.teams.filter fun t => t.part == part && !t.secondary
  let s := ((ts.mapIdx fun i t => (t.id, if area = 0 then 0 else area + 4 * i * Config.imageBytes))).foldl (fun (s : State) e => s.orderEviction e.1 e.2 false) s
  s.setPart part { s.part part with leaving := true }

/-- A partition that leaves its cores has left them with its last team: its queue clocks stand still (R253). -/
def State.settleLeaving (s : State) (part : Nat) : State :=
  if (s.part part).leaving && !(s.teams.any fun t => t.part == part && t.placed) then s.setPart part { s.part part with leaving := false, resident := false }
  else s

/-- A saved team is again a task of its queue: at the tail with its budget renewed after a budget expiry, else at the head with what remained of it
(R260). -/
def State.queueSaved (s : State) (team : Nat) : State :=
  match s.team? team with
  | none => s
  | some t =>
    match s.launch? t.launch with
    | none => s
    | some l =>
      let s := s.updTeam t.primary fun x => { x with budget := if x.renew then l.rcd.fullBudget else x.budget }
      s.enqueue { mkTask t.part l.queue l.rcd.prio (.saved t.primary) with aff := l.affOf t.idx } (!t.renew)

/-- A running team task has used its budget (R255). -/
def execBudgetExpiry (team : Nat) (s : State) : Host.Outcome State Fault Refusal :=
  match s.team? team with
  | none => .next s
  | some t => if t.budget == some 0 && !t.secondary && (t.active || t.phase == .staging) then .next (s.orderEviction team 0 true).wakeRetry else .next s

/-- The scheduler orders a team, or a partition with all its teams, evicted to a save area (R257, R261). The order's save area is a device physical
address, or 0 where it names none (notes/assumptions/15). -/
def execEvictionOrder (unit : EvictUnit) (saveArea : Nat) (s : State) : Host.Outcome State Fault Refusal :=
  match unit with
  | .team id => .next (s.orderEviction id saveArea false).wakeRetry
  | .partition p => .next (s.orderPartition p saveArea).wakeRetry

/-- Whether a draining team has reached group boundaries outside holds, has every reply, every bank operation performed and every started matrix
operation completed or parked (R257 steps 1-3, R137). -/
def State.drained (s : State) (team : Nat) : Bool :=
  let ws := s.teamWaves team
  ws.all (fun w => w.hold == 0) && !(s.remotes.any fun o => o.team == team) && !(s.bankOps.any fun o => o.team == team) &&
  !(s.spokeReqs.any fun r => ws.any fun w => w.wid == r.wid) &&
  !(s.mmas.any fun m => m.team == team && (match m.phase with | .started _ => true | _ => false)) &&
  (match s.grp with | some g => !ws.any (fun w => w.wid == g.wid) | none => true)

/-- Whether an error stands in storage of a team's core that its image holds (R317): a parked wave's local area among it, its spill
areas and the save space of its pannier (R209, R251). -/
def State.inImage (s : State) (team : Nat) (e : StoreLoc) : Bool :=
  match e with
  | .spad t _ => t == team
  | .row t _ _ _ => t == team
  | .cass t _ _ => t == team
  | .table t _ _ => t == team
  | .spill w _ _ => (s.teamWaves team).any fun x => x.wid == w
  | .pannier w _ => (s.teamWaves team).any fun x => x.wid == w
  | e => (s.teamWaves team).any fun w => waveErr w.wid e && w.parkedIn?.isNone

/-- A segment as its team leaves its cores (R187, R308): one in flight is abandoned and runs afresh, from the records that a handler left where one did;
a completed or killed one stays. One that a handler redirected and that has still to complete keeps the elements it had gathered before: R187 and R184 do
not say how the two combine (the model's choice, notes/assumptions/44). -/
def SegState.suspend (inward : Bool) : SegState → SegState
  | .from e g h => if inward then .from 0 [] h else .from e g h
  | .waitsForPool _ e _ h g _ => match h with | some h => if inward then .from 0 [] h else .from e g h | none => .todo
  | g => g

/-- A segment of a write-back as its team leaves its cores: it is gathered again (R257), over the elements that a handler left it. -/
def SegState.regather : SegState → SegState
  | .gathered g shaped => if shaped then .outsideFrom 0 g [] else .todo
  | g => g.suspend false

/-- A copy as its team leaves its cores: its descriptor and the set of its segments that are over (R187). A pending copy keeps its lines; its data is
dropped, and read again from its protected source at the gather, which gives the same bytes (R159). The write-back of a device commit that is abandoned owns nothing until it gathers
again (R257 step 3). -/
def Copy.suspend (c : Copy) : Copy :=
  match c.kind with
  | .inward => { c with segs := c.segs.map (SegState.suspend true) }
  | .staging _ => { c with segs := c.segs.map (SegState.suspend true) }
  | .writeBack _ => { c with lines := [], vlines := [], segs := c.segs.map SegState.regather }
  | _ => { c with stored := false, segs := c.segs.map (SegState.suspend false) }

/-- The core of a unit on another pair. -/
def onPair (pair core : Nat) : Nat := 2 * pair + core % 2

/-- The units of a team stand on another pair. -/
def State.moveTeam (s : State) (team pair : Nat) : State :=
  { s with
    teams := s.teams.map (fun (t : Team) => if t.id = team then { t with pair := pair } else t)
    blocks := s.blocks.map (fun (b : Block) => if b.team = team then { b with core := onPair pair b.core } else b)
    waves := s.waves.map (fun (w : Wave) => if w.team = team then { w with core := onPair pair w.core } else w)
    resvs := s.resvs.map (fun (r : Resv) => if r.team = team then { r with core := onPair pair r.core } else r)
    mmas := s.mmas.map (fun (m : MmaOp) => if m.team = team then { m with core := onPair pair m.core, resv := { m.resv with core := onPair pair m.resv.core } } else m)
    copies := s.copies.map (fun (c : Copy) => if c.team = team then { c with core := onPair pair c.core } else c) }

/-- A wave as it leaves its core: its latches are lost and its monitors released (R33, R237, R260). -/
def Wave.suspend (w : Wave) : Wave :=
  { w with
    age := 0
    latches := w.latches.map fun l => l.map fun _ => 0
    latchLive := [false, false, false, false]
    slow := []
    barred := none
    rowWait := none
    inWait := none
    wait := match w.wait with | .retry => .trial | x => x
    lanes := w.lanes.map fun l => { l with sleep := l.sleep.map fun a => { a with armed := false, hit := false } } }

/-- A commit's barrier does not outlast an eviction: its waves issue the commit again on resumption (R158). -/
def Barrier.kept (b : Option Barrier) : Option Barrier := b.filter fun b => decide (b.fn > 2)

/-- The waves that have arrived at a commit's barrier. -/
def Barrier.committing (b : Option Barrier) : List Nat := ((b.filter fun b => decide (b.fn ≤ 2)).map fun b => b.arrived.map (·.1)).getD []

/-- A team leaves its cores with its image saved (R258): what is in flight is abandoned (R257 step 3, R158). -/
def State.saveTeam (s : State) (team : Nat) : State :=
  let again := Barrier.committing ((s.team? team).bind (·.bar)) ++ (s.blocks.filter fun b => b.team == team).flatMap fun b => Barrier.committing b.bar
  let s := { s with
    poolWait := s.poolWait.filter (fun e => !s.copies.any fun c => c.team == team && c.id == e.1)
    copies := s.copies.map (fun (c : Copy) => if c.team = team then c.suspend else c)
    blocks := s.blocks.map (fun (b : Block) => if b.team = team then { b with bar := Barrier.kept b.bar } else b)
    waves := s.waves.map (fun (w : Wave) => if w.team = team then
      (let w := w.suspend; if again.contains w.wid then { w with wait := .ready } else w) else w) }
  let s := s.updTeam team fun t =>
    { t with phase := .evicted true, bar := Barrier.kept t.bar, gather := t.gather.filter (·.final) }
  (s.forget (pendingErr (s.copies.filter fun c => c.team == team))).moveTeam team evictedPair

/-- The image is written to the save area that the order named (R258): poisoned storage that it would hold is consumed, which kills the team (R317). A notice
is made when the policy asks, with the save area and the length of the images (R295). -/
def execImageWrite (team : Nat) (s : State) : Host.Outcome State Fault Refusal :=
  match s.team? team with
  | none => .next s
  | some t =>
    if t.phase != .draining || !t.pairUp.all s.drained then .next s
    else match s.errors.find? fun e => t.pairUp.any fun i => s.inImage i e with
      | some e => .next (s.poisonKill team (2 * t.pair) t.asid (storeCode e)).wakeRetry
      | none =>
        let u := s.writeImages t
        let u := if s.wantsNotice t.launch Cause.preempt then
            u.makeNotice (teamUnit t) Cause.preempt 0 (BitVec.ofNat 64 t.saveArea) (BitVec.ofNat 64 (s.imagesLen t)) (BitVec.ofNat 32 t.idx)
          else u
        .next ((t.pairUp.foldl State.saveTeam u).queueSaved team).wakeRetry

/-! ### The launch's deadline (R255) -/

/-- A launch's deadline passes before its teams have all ended: every one is killed, and a notice is made when the policy asks (R255, R295). -/
def execLaunchDeadlineExpiry (launch : Nat) (s : State) : Host.Outcome State Fault Refusal :=
  match s.launch? launch with
  | none => .next s
  | some l =>
    match l.deadline with
    | none => .next s
    | some d =>
      if s.qclock l.part l.queue < d || l.left = 0 then .next s
      else
        let s := s.killLaunch launch 6
        let s := s.updLaunch launch fun l => { l with deadline := none }
        let u : UnitAt :=
          { kind := .notice, id := 0, part := l.part, vf := l.vf, asid := l.asid, team := 0, launch := launch, blk := 0, wave := 0, seg := 0 }
        let s := if s.wantsNotice launch Cause.deadline then s.makeNotice u Cause.deadline 0 0 0 0xFFFFFFFF else s
        .next s.wakeRetry

/-! ### The move of a job (R259, R311, R348) -/

/-- A cell's 64-byte entry: the 40 bytes of Table 26, the poison mark, zeros (R259). -/
def ExactCell.entry (c : ExactCell) : List Byte :=
  leBytes 40 (unsignedOf 316 c.sum + (if c.ninf then 2 ^ 317 else 0) + (if c.pinf then 2 ^ 318 else 0) + (if c.nan then 2 ^ 319 else 0)) ++
    leBytes 1 (if c.poison then 1 else 0) ++ zeros 23

/-- A cell from its entry. -/
def cellFrom (b : List Byte) : ExactCell :=
  let n := leAt b 0 40
  { nan := bits n 319 1 = 1, pinf := bits n 318 1 = 1, ninf := bits n 317 1 = 1, sum := signed 316 (bits n 0 316), poison := leAt b 40 1 % 2 = 1 }

/-- A bank context of 12,352 bytes (R348): a header that names the page and the mode, the x registers, the accumulators. -/
def Bank.image (b : Bank) (page : Nat) : List Byte :=
  leBytes 8 (page * 65536) ++ leBytes 1 (if b.allBank then 1 else 0) ++ zeros 55 ++ b.x.flatMap (fun r => r.flatMap fun v => leBytes 2 v.toNat) ++
    b.acc.flatMap fun r => r.flatMap fun v => leBytes 4 v.toNat

/-- A bank context from its image. -/
def bankFrom (pc : Nat) (pages : List Nat) (bs : List Byte) : Bank :=
  { pc := pc, pages := pages, allBank := leAt bs 8 1 % 2 = 1,
    x := (List.range 16).map fun r => (List.range 256).map fun i => BitVec.ofNat 16 (leAt bs (64 + 512 * r + 2 * i) 2),
    acc := (List.range 16).map fun r => (List.range 64).map fun i => BitVec.ofNat 32 (leAt bs (64 + 8192 + 256 * r + 4 * i) 4) }

/-- Poisoned words of a bank context are saved: the event is logged. They belong to no team but to the partition whose work left them there, all of whose
teams are killed (R317; the model's choice, notes/assumptions/44). -/
def State.bankPoisoned (s : State) (page : Nat) : State :=
  let pc := pseudoChannel (page * 65536)
  let mine : StoreLoc → Bool | .bank k _ => k == pc | _ => false
  let s := s.repairAt mine
  match s.errors.find? mine with
  | none => s
  | some e =>
    let s := s.logEvent { s.locEvent e 2 Cause.ecc with part := (s.pageOwner page).getD 0x7F }
    ((s.teams.filter fun t => some t.part == s.pageOwner page).map (·.id)).foldl (fun (s : State) t => s.killOne t true 10 7) s

/-- The monitors copy one item of a moving job (R259, R348). Cells wait until every published reduction has been applied, and each is read as an access
reads it (R322). -/
def execJobMemoryMove (item : MoveItem) (s : State) : Host.Outcome State Fault Refusal :=
  match item with
  | .saveCells page area =>
    if !(s.cellBlocks.any fun b => b.page == page) || s.teams.any (fun t => !t.applyQ.isEmpty) then .next s
    else
      let s := (List.range 1024).foldl (fun (s : State) i => s.findCellError (page * 65536 + 64 * i)) s
      .next (s.replaceRange area ((List.range 1024).flatMap fun i => (s.cell (page * 65536 + 64 * i)).entry)).wakeRetry
  | .restoreCells page area =>
    if !(s.cellBlocks.any fun b => b.page == page) then .next s
    else .next (((List.range 1024).foldl (fun (t : State) i =>
      t.setCell (page * 65536 + 64 * i) (cellFrom (s.readBytes (area + 64 * i) 64))) s).forget fun e => match e with
        | .cell a => a / 65536 == page
        | _ => false).wakeRetry
  | .saveBank page area => .next ((s.bankPoisoned page).replaceRange area ((s.bankOf (pseudoChannel (page * 65536))).image page)).wakeRetry
  | .restoreBank page area =>
    let pc := pseudoChannel (page * 65536)
    let bs := s.readBytes area 12352
    let s := s.noteBankPage (page * 65536)
    .next ((s.setBank (bankFrom pc (s.bankOf pc).pages bs)).forget fun e => match e with
      | .bank k _ => k == pc
      | _ => false).wakeRetry

/-- One record of an evicted team goes to another partition's pool, with a new slot and generation and its remaining deadline counted afresh
(R311); none without room. -/
def State.moveRecord (s : State) (part rid : Nat) : Option State :=
  match s.record? rid with
  | none => some s
  | some r =>
    match (s.placeFor part r.depth (r.kind == .wave)).filter fun place => !s.lostExtent part place with
    | none => none
    | some place =>
      let key := (part, place.1 * 64 + place.2)
      let gen := ((((s.gens.find? fun g => g.1 == key).map (·.2)).getD 0) + 1) % 64
      let s := (s.dropFaultTask rid).updRecord rid fun r =>
        { r with part := part, extent := place.1, slot := place.2, gen := gen, ord := s.ordinal part,
                 deadline := s.qclock part r.clock + (r.deadline - s.qclock r.part r.clock) }
      some (({ s with gens := (s.gens.filter fun g => g.1 != key) ++ [(key, gen)] } : State).postFault rid)

/-- An evicted team with parked records becomes placeable elsewhere, its twin with it, once none of their records is CLAIMED or RESUMING and the destination pool takes
every one (R311); a KILLED record, whose unit is gone, stays with the task that holds it. The destination is a partition of the same function (notes/assumptions/16). -/
def execRecordMove (team part : Nat) (s : State) : Host.Outcome State Fault Refusal :=
  match s.team? team with
  | none => .next s
  | some t =>
    let rs := s.records.filter fun r => t.pairUp.contains r.team && r.kind != .notice && r.state != .killed
    if !(t.phase matches .evicted _) || t.part = part || (s.part part).owner ≠ t.vf || rs.any (fun r => r.state == .claimed || r.state == .resuming) then .next s
    else match (rs.map (·.id)).foldl (fun (o : Option State) rid => o.bind fun s => s.moveRecord part rid) (some s) with
      | none => .next s
      | some u =>
        let ids := t.pairUp
        .next ({ u with
          teams := u.teams.map (fun (x : Team) => if ids.contains x.id then { x with part := part } else x)
          tasks := u.tasks.map (fun (k : Task) => match k.kind with | .saved i => if ids.contains i then { k with part := part } else k | _ => k) } : State).wakeRetry

end Sys2Proof.Machine
end

