-- ==== Sys2Proof/Machine/Placement.lean ====
section
/-! DEFINITION. Dispatch and placement (spec/11 R250-R256, R260, R262, spec/13 R297, R310, spec/19 R364): which task goes to which pair, teams staged
and started, saved teams restored, fault tasks placed as handler launches or on a domestique. -/

namespace Sys2Proof.Machine

/-- Whether a RESUMING wave waits for register space on a core of the pair (R294). -/
def State.resumingOn (s : State) (pair : Nat) : Bool :=
  s.records.any fun r => r.state == .resuming && r.kind == .wave && ((s.wave? r.unit).map fun w => w.core / 2 == pair).getD false

/-- Whether needs fit on a pair now. -/
def State.fitsOn (s : State) (need : Nat → Need5) (pair : Nat) : Bool :=
  !s.resumingOn pair && (need 0).fits (s.coreUse (2 * pair)) && (need 1).fits (s.coreUse (2 * pair + 1))

/-! ### The choice of a pair (R256, R17) -/

/-- The pairs of a partition on which a team, and with grade 2 its twin in another neighbourhood, fits now; `ok` and `ok2` are further conditions of
the two on a pair, `need2` is what the twin takes. -/
def State.candidates (s : State) (part : Nat) (need : Nat → Need5) (two : Bool) (ok ok2 : Nat → Bool := fun _ => true) (need2 : Nat → Need5 := need) :
    List Nat :=
  (pairsOf part).filter fun k => s.fitsOn need k && ok k &&
    (!two || (pairsOf part).any fun j => hoodOfPair j != hoodOfPair k && s.fitsOn need2 j && ok2 j)

/-- The stack neighbourhood of an affinity address, where it translates (R256). -/
def State.affHood (s : State) (vf asid : Nat) (aff : Option Nat) : Option Nat :=
  match aff with
  | none => none
  | some a =>
    if a ≥ 2 ^ 57 then none
    else match s.translate Config.cores vf asid a { rd := true, wr := false, ex := false, kinds := [0, 1, 2] } with
      | .ok (d, _) => some (stackOf d)
      | .error _ => none

/-- The pair a task is placed on, and its twin's (R256). -/
def State.choosePair (s : State) (part : Nat) (need : Nat → Need5) (two : Bool) (hood : Option Nat) (any : Bool)
    (ok ok2 : Nat → Bool := fun _ => true) (need2 : Nat → Need5 := need) : Option (Nat × Option Nat) :=
  let c := s.candidates part need two ok ok2 need2
  let pick : Option Nat := match hood with
    | none => c.head?
    | some h => match c.filter fun k => hoodOfPair k == h with
      | k :: _ => some k
      | [] => if any then c.head? else none
  pick.map fun k => (k, if two then (pairsOf part).find? fun j => hoodOfPair j != hoodOfPair k && s.fitsOn need2 j && ok2 j else none)

/-! ### Placing a team (R14, R250, R252) -/

/-- A team as it is placed. -/
def newTeam (l : Launch) (id idx pair relaunches : Nat) (twin : Option Nat) (secondary : Bool) : Team :=
  { id := id, launch := l.id, idx := idx, part := l.part, pair := pair, vf := l.vf, asid := l.asid, nblocks := l.rcd.blocks, nwaves := l.rcd.waves,
    width := l.rcd.width, view := l.rcd.view, phase := .staging, base := [], ovl := [], reds := [], applyQ := [], foreign := [], bar := none,
    gather := none, committed := false, relaunches := relaunches, budget := if secondary then none else l.rcd.fullBudget, charged := 0, holds := [],
    serving := none, remotes := [], due := [], twin := twin, secondary := secondary, sigOwn := 0, sigTwin := 0, sigCount := 0, sigMiss := 0, sigRun := 0,
    received := [], saveArea := 0, notice := none, placedAt := id }

/-- A block as it is placed: rows and cassette zero (R112), rack timer 256 (R212). -/
def newBlock (l : Launch) (team idx pair : Nat) : Block :=
  { team := team, idx := idx, core := 2 * pair + idx % 2, acc := l.rcd.acc, cassLen := l.rcd.cass, rows := [], cass := [], tags := [], handles := [],
    ovl := [], reds := [], foreign := [], rackT := 256, bar := none, ended := false }

/-- The staging copy of an `in` or `inout` region (R252). -/
def stagingOf (t : Team) (id i : Nat) (r : Region) : Copy :=
  { id := id, kind := .staging i, core := 2 * t.pair, team := t.id, blk := 0, wid := 0, widx := 0xFF, handle := 0xFFFF, scal := [], a := 0, dig := 0,
    start := r.spad, len := r.size, cassette := false, data := [], recs := none, segs := List.replicate ((r.size + 4095) / 4096) .todo,
    level := .team, lines := [], vlines := [], kil := false, rdr := false, digested := true,
    gbase := unsignedOf 64 ((r.gaddr : Int) + (t.idx : Int) * r.ts) }

/-- One team comes onto a pair: its slices zero, its blocks, its staging copies. -/
def State.addTeam (s : State) (l : Launch) (t : Team) : State :=
  let n := s.nextId
  let cs := (l.rcd.regions.mapIdx fun i r => (i, r)).filterMap fun (i, r) =>
    if (r.dir = 1 || r.dir = 3) && r.size > 0 then some (stagingOf t (n + i) i r) else none
  { s with
    teams := s.teams ++ [t]
    blocks := s.blocks ++ (List.range l.rcd.blocks).map fun b => newBlock l t.id b t.pair
    copies := s.copies ++ cs
    nextId := n + 8 }

/-- Place a team of a launch on a pair, and its twin on the second (R17, R252). -/
def State.placeTeam (s : State) (l : Launch) (idx relaunches pair : Nat) (second : Option Nat) : State :=
  let a := s.nextId
  let s := { s with nextId := a + 2 }
  let s := s.addTeam l (newTeam l a idx pair relaunches (second.map fun _ => a + 1) false)
  match second with
  | some k => s.addTeam l (newTeam l (a + 1) idx k relaunches (some a) true)
  | none => s

/-! ### Starting a team's waves (R252, R15) -/

/-- A wave created at launch (R15, R212, R252). -/
def launchWave (l : Launch) (t : Team) (blk idx wid slot : Nat) : Wave :=
  let plan := if l.rcd.grade = 1 then l.rcd.width / 2 else l.rcd.width
  let first := ((t.idx * l.rcd.blocks + blk) * l.rcd.waves + idx) * l.rcd.width
  { wid := wid, team := t.id, blk := blk, idx := idx, core := 2 * t.pair + blk % 2, slot := slot, width := l.rcd.width, nregs := l.rcd.nregs,
    grade := l.rcd.grade, sup := l.sup, asid := l.asid, status := .running, wait := .ready,
    lanes := (List.range l.rcd.width).map fun j =>
      { Lane.empty l.rcd.nregs l.rcd.entry with live := true, tid := BitVec.ofNat 32 (first + j % plan) }
    sregs := match l.handler with
      | some (a, b) => a :: b :: List.replicate 30 0
      | none => l.rcd.arg :: List.replicate 31 0
    fpmode := 0, fpflags := 0, winBase := 0, winLimit := 0, mlatch := none,
    latches := List.replicate 4 (List.replicate l.rcd.width 0), latchLive := [false, false, false, false], hold := 0, pan := [], reds := [],
    abtW := none, abtB := none, abtT := none, foreign := [], epoch := 0, age := 0, prologue := none }

/-- A team's waves start once its staging has ended (R252). Its level opens with them, with no byte of its siblings published in the window: R146 does not
say at which instant a team starts (the model's choice, notes/assumptions/44). -/
def execTeamStart (team : Nat) (s : State) : Host.Outcome State Fault Refusal :=
  match s.team? team with
  | none => .next s
  | some t =>
    match s.launch? t.launch with
    | none => .next s
    | some l =>
      if t.phase != .staging || (s.copies.any fun c => c.team == team && (match c.kind with | .staging _ => true | _ => false)) then .next s
      else
        let s := (List.range l.rcd.blocks).foldl (fun (s : State) b => (List.range l.rcd.waves).foldl (fun (s : State) i =>
          { s with waves := s.waves ++ [launchWave l t b i s.nextId (s.freeSlot (2 * t.pair + b % 2))], nextId := s.nextId + 1 }) s) s
        .next (s.updTeam team fun t => { t with phase := .running, foreign := [] }).wakeRetry

/-! ### Restoring a saved team (R260, R187, R237) -/

/-- A saved team stands on a pair again: its waves take slots, its asleep lanes wake with rs = 1, ages and idle counts are 0. -/
def State.restoreTeam (s : State) (team pair : Nat) : State :=
  match s.team? team with
  | none => s
  | some t =>
    let mine := (s.teamWaves team).map (·.wid)
    let s := mine.foldl (fun (s : State) wid => s.updWave wid fun w => { w with slot := s.freeSlot (onPair pair w.core), core := onPair pair w.core }) s
    let s := s.moveTeam team pair
    let s := mine.foldl (fun (s : State) wid => s.updWave wid fun w => if w.running then s.wakeAll w else w) s
    let phase : TeamPhase := if t.gather.isSome then .ending else if mine.isEmpty then .staging else .running
    let s := s.updTeam team fun t => { t with phase := phase, placedAt := s.nextId }
    { s with nextId := s.nextId + 1, idle := s.idle.filter fun e => e.1 / 2 != pair }

/-! ### Fault tasks (R297, R364) -/

/-- What the fetch of a handler's launch record gives: it waits, no handler can be placed, or the record with its policy. -/
inductive Handler where
  | wait
  | none
  | some (s : State) (r : LaunchRec) (p : Option Policy)

/-- Fetch and check a handler launch record and its policy record, as a launch is checked (R248, R249, R297). -/
def State.fetchHandler (s : State) (vf asid part addr : Nat) : Handler :=
  match s.fetchBytes vf asid addr 320 with
  | (_, .wait) => .wait
  | (_, .fail _) => .none
  | (t, .ok b) =>
    let r := launchRecOf b
    if recordMalformed b || r.grade > t.gradeCap vf || !r.placeable part then .none
    else if r.fpolicy = 0 then .some t r none
    else match t.fetchBytes vf asid r.fpolicy 2112 with
      | (_, .wait) => .wait
      | (_, .fail _) => .none
      | (u, .ok pb) => if policyMalformed r.fpolicy pb then .none else .some u r (some (policyOf pb))

/-- The one-team launch of a handler (R297). -/
def handlerLaunch (id vf asid part queue ring seq : Nat) (r : LaunchRec) (p : Option Policy) (budget : W64) (prio : Nat) (s0 s1 : W64) : Launch :=
  { id := id, vf := vf, ring := ring, seq := seq, asid := asid, part := part, queue := queue, rcd := { r with teams := 1, budget := budget, prio := prio },
    policy := p, deadline := none, left := 1, deadTeams := 0, status := none, flags := 0, ticks := 0, repeats := 0, again := false,
    handler := some (s0, s1), sup := false, cause := 0, area := [] }

/-- Place a handler as a one-team launch: the state and its team, or none when it fits nowhere now. -/
def State.placeHandler (s : State) (l : Launch) (any : Bool) : Option (State × Nat) :=
  match s.choosePair l.part l.rcd.needOn (l.rcd.grade == 2) (s.affHood l.vf l.asid (l.affOf 0)) any with
  | none => none
  | some (k, k2) =>
    let s := { s with launches := s.launches ++ [l], nextId := s.nextId + 1 }
    some (s.placeTeam l 0 0 k k2, s.nextId)

/-- The core whose domestique serves a record (R297): the lowest-numbered of the unit's pair, or of the partition where the unit stands on none. -/
def State.domCore (s : State) (r : Record) : Nat :=
  match s.team? r.team with
  | some t => if t.placed then 2 * t.pair else 12 * r.part
  | none => 12 * r.part

/-! ### Dispatching one task -/

/-- The task leaves its queue. -/
def State.dequeue (s : State) (t : Task) : State := { s with tasks := s.tasks.filter fun x => x.id != t.id }

/-- What the dispatcher does with one task: it stays, having fitted on a pair or not, or it has left its queue. -/
inductive Placed where
  | stays (fits : Bool)
  | left (s : State)

/-- Whether the reservation records that a saved team's blocks hold are free on the cores of a pair (R119): a handle is the index of its record, so
the records return to their own indices. Where another team has taken one, the spec does not say what happens: the team is not placed on that pair until
it is free (the model's choice, notes/assumptions/44). -/
def State.resvsFree (s : State) (team pair : Nat) : Bool :=
  (s.resvs.filter fun r => r.team == team).all fun r => !(s.resvs.any fun q => q.core == onPair pair r.core && q.idx == r.idx)

/-- What a saved team's twin takes, which has run apart from it. -/
def State.twinUse (s : State) (t : Team) (side : Nat) : Need5 := ((t.twin.bind s.team?).map fun u => s.teamUse u side).getD Need5.zero

/-- The pairs on which a saved team may stand, its twin with it. -/
def State.savedFits (s : State) (k : Task) (t : Team) : List Nat :=
  s.candidates k.part (s.teamUse t) t.twin.isSome (s.resvsFree t.id) (fun p => (t.twin.map fun i => s.resvsFree i p).getD true) (s.twinUse t)

/-- A saved team (R260). -/
def State.placeSaved (s : State) (k : Task) (team : Nat) : Placed :=
  match s.team? team with
  | none => .left (s.dequeue k)
  | some t =>
    if !(t.phase matches .evicted _) then .stays true
    else
      match s.choosePair k.part (s.teamUse t) t.twin.isSome (s.affHood t.vf t.asid k.aff) k.anyPair (s.resvsFree team)
          (fun p => (t.twin.map fun i => s.resvsFree i p).getD true) (s.twinUse t) with
      | none => .stays !(s.savedFits k t).isEmpty
      | some (p, p2) =>
        let s := (s.dequeue k).restoreTeam team p
        .left (match t.twin, p2 with | some i, some q => s.restoreTeam i q | _, _ => s)

/-- A fault task (R297): a wave handler, a domestique, or a post over its link (R302, R310). One whose plug-in was stopped takes the default disposition
(R281). -/
def State.placeFault (s : State) (k : Task) (rid : Nat) : Placed :=
  match s.record? rid with
  | none => .left (s.dequeue k)
  | some r =>
    if r.state != .parked then .left (s.dequeue k)
    else if r.stopped then .left (((s.dequeue k).killRecord rid).expire r).reap
    else if r.pkind = 3 then .left ((s.dequeue k).postFault rid)
    else if r.pkind = 2 then
      let core := s.domCore r
      if !Config.pluginRegion r.vf r.handler then .left (((s.dequeue k).killRecord rid).expire r).reap
      else if (s.dom? core).isSome || !domUse.fits (s.coreUse core) then .stays false
      else
        let d : Dom :=
          { core := core, slot := s.freeSlot core, part := k.part, vf := r.vf, asid := r.asid, record := rid, holds := [], serving := r.depth, queue := k.queue,
            budget := if r.budget = 0 then none else some r.budget.toNat }
        let s := s.dequeue k
        .left (({ s with doms := s.doms ++ [d] } : State).claimRec (.dom core) r)
    else match s.fetchHandler r.vf r.asid k.part r.handler with
      | .wait => .stays true
      | .none => .left (((s.dequeue k).killRecord rid).expire r).reap
      | .some t h p =>
        let l := handlerLaunch t.nextId r.vf r.asid k.part k.queue r.ring r.seq.toNat h p r.budget k.prio (r.handle.setWidth 64) r.harg
        match (t.dequeue k).placeHandler l k.anyPair with
        | none => .stays !(t.candidates k.part l.rcd.needOn (l.rcd.grade == 2)).isEmpty
        | some (u, team) => .left (u.claimRec (.team team) r)

/-- A fault task of a peer (R310, R364): its handler runs under the ASID of ring 0 and claims the record at its home; the task's deadline
stays with the handler while it holds the record. -/
def State.placeRemote (s : State) (k : Task) (p : RemotePost) (deadline : Nat) : Placed :=
  let asid := (s.ring p.vf 0).asid.getD 0
  match s.fetchHandler p.vf asid k.part p.handler with
  | .wait => .stays true
  | .none => .left ((s.dequeue k).sendFor p.vf p.link fun _ => .undeliverable p.handle)
  | .some t h pol =>
    let l := handlerLaunch t.nextId p.vf asid k.part k.queue 0 0 h pol (BitVec.ofNat 64 p.budget) k.prio (p.handle.setWidth 64) p.arg
    match (t.dequeue k).placeHandler l k.anyPair with
    | none => .stays !(t.candidates k.part l.rcd.needOn (l.rcd.grade == 2)).isEmpty
    | some (u, team) =>
      let u := u.sendFor p.vf p.link fun n => .ksclaim n p.handle
      .left ((u.updTeam team fun x => { x with remotes := p.handle :: x.remotes, due := (p.handle, k.queue, deadline) :: x.due }).serve team p.depth p.handle)

/-- Dispatch one task if it can be placed now. -/
def State.tryPlace (s : State) (k : Task) : Placed :=
  match k.kind with
  | .saved team => s.placeSaved k team
  | .fault rid => s.placeFault k rid
  | .remote p d => s.placeRemote k p d
  | .team lid idx =>
    match s.launch? lid with
    | none => .left (s.dequeue k)
    | some l =>
      let two := l.rcd.grade == 2
      match s.choosePair k.part l.rcd.needOn two (s.affHood l.vf l.asid k.aff) k.anyPair with
      | none => .stays !(s.candidates k.part l.rcd.needOn two).isEmpty
      | some (p, p2) => .left ((s.dequeue k).placeTeam l idx k.relaunches p p2)

/-! ### The dispatcher (R256, R262) -/

/-- The order in which waiting tasks are taken (R256). -/
def Task.before (a b : Task) : Bool :=
  decide (b.prio < a.prio) || (a.prio == b.prio && (decide (a.queue < b.queue) || (a.queue == b.queue && decide (a.order < b.order))))

def insertTask (t : Task) : List Task → List Task
  | [] => [t]
  | u :: us => if t.before u then t :: u :: us else u :: insertTask t us

/-- The waiting tasks of a partition's enabled queues, in order. A starving task of a disabled queue is not among them, so that it holds back none of another
queue (R256; the model's choice, notes/assumptions/44). -/
def State.waiting (s : State) (part : Nat) : List Task :=
  (s.tasks.filter fun t => t.part == part && (s.part part).qen.getLsbD t.queue).foldl (fun l t => insertTask t l) []

/-- Whether a task would fit somewhere in its partition now (R262). -/
def State.fitsNow (s : State) (k : Task) : Bool :=
  let handler (vf asid addr : Nat) : Bool := match s.fetchHandler vf asid k.part addr with
    | .some t h _ => !(t.candidates k.part h.needOn (h.grade == 2)).isEmpty
    | _ => false
  match k.kind with
  | .team lid _ => ((s.launch? lid).map fun l => !(s.candidates k.part l.rcd.needOn (l.rcd.grade == 2)).isEmpty).getD false
  | .saved i => ((s.team? i).map fun t => !(s.savedFits k t).isEmpty).getD false
  | .fault rid => match s.record? rid with
    | some r => if r.pkind = 2 then (s.dom? (s.domCore r)).isNone && domUse.fits (s.coreUse (s.domCore r)) else handler r.vf r.asid r.handler
    | none => false
  | .remote p _ => handler p.vf ((s.ring p.vf 0).asid.getD 0) p.handler

/-- The running team that R262 evicts for a task: of the lowest priority below the task's, the latest placed among equals, whose absence lets the
task fit. A team that stages, or gathers its final commit, is none, and none is chosen while another team of the partition drains (the model's choice,
notes/assumptions/44). -/
def State.victim (s : State) (k : Task) : Option Nat :=
  if s.teams.any fun t => t.part == k.part && t.phase == .draining then none
  else
    let prio (t : Team) : Nat := ((s.recordOf t).map (·.prio)).getD 0
    let ok (t : Team) : Bool := t.part == k.part && t.phase == .running && !t.secondary && decide (prio t < k.prio) &&
      ({ s with
        teams := s.teams.map (fun (x : Team) => if t.pairUp.contains x.id then { x with phase := .evicted false } else x)
        resvs := s.resvs.filter (fun r => !t.pairUp.contains r.team)
        waves := s.waves.map (fun (w : Wave) => if t.pairUp.contains w.team then { w with core := onPair evictedPair w.core } else w) } : State).fitsNow k
    ((s.teams.filter ok).foldl (fun (b : Option Team) t => match b with
      | none => some t
      | some u => if prio t < prio u || (prio t = prio u && u.placedAt < t.placedAt) then some t else some u) none).map (·.id)

/-- One pass of the dispatcher over a partition (R256): a starving task that stays stops later ones of equal or lower priority. -/
def State.dispatch (s : State) (part : Nat) : State :=
  ((s.waiting part).foldl (fun (acc : State × Option Nat) k =>
    if (acc.2.map fun p => decide (k.prio ≤ p)).getD false then acc
    else match acc.1.tryPlace k with
      | .left t => (t, acc.2)
      | .stays fits =>
        let t := if !fits && (acc.1.part part).pev then
            match acc.1.victim k with | some v => acc.1.orderEviction v 0 false | none => acc.1
          else acc.1
        (t, if k.blocks then some (max k.prio (acc.2.getD 0)) else acc.2)) (s, none)).1

/-- A partition on which a team stands is resident (R253). -/
def State.noteResident (s : State) (part : Nat) : State :=
  if s.teams.any fun t => t.part == part && t.placed then s.setPart part { s.part part with resident := true } else s

/-- The dispatcher of a partition runs (R256); not while the partition as a whole leaves its cores (R261). -/
def execTaskDispatch (part : Nat) (s : State) : Host.Outcome State Fault Refusal :=
  if (s.part part).leaving then .next s
  else
    let t := (s.dispatch part).noteResident part
    if t = s then .next s else .next t.wakeRetry

/-- Change a waiting task that satisfies a test. -/
def State.markTask (s : State) (task : Nat) (p : Task → Bool) (f : Task → Task) : State :=
  { s with tasks := updWhere s.tasks (fun t => t.id == task && p t) f }

/-- A task with an affinity address has waited 4,096 clocks of its queue: any fitting pair will do (R256). -/
def execAffinityWaitExpiry (task : Nat) (s : State) : Host.Outcome State Fault Refusal :=
  .next (s.markTask task (fun t => decide (t.waited ≥ 4096)) fun t => { t with anyPair := true })

/-- A task has waited 65,536 clocks of its queue (R256). -/
def execStarvationBlock (task : Nat) (s : State) : Host.Outcome State Fault Refusal :=
  .next (s.markTask task (fun t => decide (t.waited ≥ 65536)) fun t => { t with blocks := true })

end Sys2Proof.Machine
end

