-- ==== Sys2Proof/Machine/Partition.lean ====
section
/-! DEFINITION. Tenants and partitions (spec/12 R264-R269, R274-R280): owners, scrubs, pages and cell blocks, virtual functions enabled, disabled and
reset. Each is one step (notes/assumptions/17). -/

namespace Sys2Proof.Machine

/-! ### The core scrub (R278) -/

/-- The cores of a partition. -/
def coresOf (p : Nat) : List Nat := (List.range 12).map (12 * p + ·)

/-- The scrub of a partition's cores: no task stands on them, so what is left is their error marks, their cached translations and their previous
owner's L2 lines, written back first after a reset. -/
def State.scrubCores (s : State) (p vf : Nat) (writeBack : Bool) : State :=
  let mine (e : Line) : Bool := e.l2 && (coresOf p).contains e.unit && e.vf == vf
  let gone (d : Nat) : Bool := s.lines.any fun e => mine e && e.dpa / 64 == d / 64
  let lost := if writeBack then [] else s.lines.filter fun e => mine e && e.dirty
  let s := if writeBack then (s.lines.filter fun e => mine e && e.dirty).foldl (fun s e => s.writeBack e 1) s else s
  { s with
    lines := s.lines.filter (fun e => !mine e)
    tlb := s.tlb.filter (fun e => !(coresOf p).contains e.core)
    idle := s.idle.filter (fun e => !(coresOf p).contains e.1)
    ks := s.ks.mapIdx fun c k => if (coresOf p).contains c then KsRegs.reset else k
    mem := if lost.isEmpty then s.mem else Cells.putAll (s.mem.filter fun e => !lost.any fun l => l.dpa / 64 == e.1 / 64) (lost.flatMap (·.below))
    errors := s.errors.filter (fun e => match e with | .icache c => !(coresOf p).contains c | .l2 a => !gone a | _ => true) }

/-- The test of quarantined ways that follows a free (R278): whether a way shows an error is open. -/
def State.testWays (s : State) (p : Nat) : State :=
  let tested := s.ways.filter fun e => e.1 && (coresOf p).contains e.2.1
  tested.foldl (fun (s : State) e =>
    let (v, s) := s.drawFree
    if v.getLsbD 0 then s else { s with ways := s.ways.filter (· != e) }) s

/-! ### Owners (R266) -/

/-- Everything of some launches, teams, tasks and records ends, as at a deadline (R255); handlers on peer parts hold none of the records any more
(R279 step 3). -/
def State.endWork (s : State) (lp : Launch → Bool) (tp : Team → Bool) (dp : Dom → Bool) (kp : Task → Bool) (rp : Record → Bool) : State :=
  let s := s.killTasks lp dp 6
  let s := ((s.teams.filter fun t => tp t && (t.placed || (t.phase matches .evicted _))).map (·.id)).foldl (fun s t => s.killTeam t false 0 6) s
  let s := { s with tasks := s.tasks.filter fun k => !kp k }
  (((s.records.filter rp).map (·.id)).foldl (fun s r => (s.killRecord r).updRecord r fun x => { x with peer := false }) s).reap

/-- Some pages are about to leave their owner: operations of other partitions on their way to them are performed, ownership of their lines goes, and
reductions held or published for them are dropped. -/
def State.flushPages (s : State) (pages : List Nat) : State :=
  let on (d : Nat) : Bool := pages.contains (d / 65536)
  let keep (rs : List Red) : List Red := rs.filter fun r => !on r.dpa
  let s := (s.remotes.filter fun o => on o.dpa && !o.failed && !s.isSecondary o.team).foldl State.performRemote s
  let s := (s.bankOps.filter fun o => on o.dpa && !s.isSecondary o.team).foldl (fun (s : State) o =>
    { s.performBank o with bankOps := s.bankOps.filter fun x => x.id != o.id }) s
  { s with
    copies := s.copies.map fun (c : Copy) => { c with lines := c.lines.filter (fun l => !on (l * 64)), vlines := c.vlines.filter fun e => !on (e.1 * 64) }
    waves := s.waves.map fun (w : Wave) => { w with reds := keep w.reds }
    blocks := s.blocks.map fun (b : Block) => { b with reds := keep b.reds }
    teams := s.teams.map fun (t : Team) => { t with reds := keep t.reds, applyQ := keep t.applyQ } }

/-- A partition becomes free (R266): its owner's tasks are killed, what device commits have published is applied and what else they sent discarded, its
key goes, its pages are cleared, its cell blocks returned, its cores scrubbed; its queues are all enabled again (R254) and its pool setting ends (R306). What other partitions of the owner have sent to its pages is performed first, and
reductions that pin them are dropped: the spec does not say what a pin (R192) does then (the model's choice, notes/assumptions/44). -/
def State.freePartition (s : State) (p : Nat) : State :=
  let v := (s.part p).owner
  let here := fun (c : Nat) => partOfCore c == p
  let s := s.endWork (fun l => l.part == p) (fun t => t.part == p) (fun d => d.part == p) (fun k => k.part == p) (fun r => r.part == p)
  let s := s.applyAll fun t => t.part == p
  let s := { s with
    remotes := s.remotes.filter fun o => !here o.core
    bankOps := s.bankOps.filter fun o => !here o.core
    hostWait := s.hostWait.filter fun h => s.pageOwner (h.dpa / 65536) != some p }
  let pages := (s.pages.filter fun e => e.2 == p).map (·.1)
  let kinds := pages.map s.bankPage
  let s := s.flushPages pages
  let s := (pages.zip kinds).foldl (fun (s : State) e => (s.zeroPageAs e.1 e.2).ungrant e.1) s
  let s := { s with
    pages := s.pages.filter (fun e => e.2 != p)
    cellBlocks := s.cellBlocks.filter (fun b => !pages.contains b.page) }
  let s := (s.scrubCores p v false).testWays p
  s.setPart p { s.part p with owner := 0x7F, busy := false, qen := BitVec.allOnes 64, pool := none, key := none, leaving := false, resident := true }

/-- A free partition is assigned (R266): a new key, a scrub, queue clocks from 0 (R253). -/
def State.assignPartition (s : State) (p vf : Nat) : State :=
  let s := s.scrubCores p 0x7F false
  let s := s.setPart p { s.part p with owner := vf, busy := false, qclk := List.replicate 64 0, pool := none, key := some s.nextId }
  { s with nextId := s.nextId + 1 }

/-- A write to owner (R266): ignored with perr set while busy, for 96-126, or for a function that is resetting. -/
def State.writeOwner (s : State) (p owner : Nat) : State :=
  let x := s.part p
  if p ≥ Config.partitions then s
  else if x.busy || (owner ≠ 0x7F && (decide (owner ≥ 96) || decide ((s.vf owner).st ≥ 2))) then s.setPart p { x with perr := true }
  else if owner = x.owner then s
  else
    let s := if x.owner = 0x7F then s else s.freePartition p
    if owner = 0x7F then s else s.assignPartition p owner

/-- A write of 0x7F to owner (R266). -/
def execPartitionFree (part : Nat) (s : State) : Host.Outcome State Fault Refusal := .next (s.writeOwner part 0x7F).wakeRetry

/-- A write of a function to owner (R266). -/
def execPartitionAssign (part vf : Nat) (s : State) : Host.Outcome State Fault Refusal := .next (s.writeOwner part (vf % 128)).wakeRetry

/-- A write to QEN (R254). -/
def execQenWrite (part : Nat) (value : W64) (s : State) : Host.Outcome State Fault Refusal :=
  .next (s.setPart part { s.part part with qen := value }).wakeRetry

/-! ### Virtual functions (R267-R269, R279, R280) -/

/-- Steps 1 to 6 of a function-level reset (Table 91): tasks killed, commands and accesses discarded, ASIDs unbound, owned partitions scrubbed,
the page's registers and the MSI-X table at their reset values. -/
def State.resetFunction (s : State) (v : Nat) : State :=
  let wids := (s.waves.filter fun w => ((s.team? w.team).map fun t => t.vf == v).getD false).map (·.wid)
  let s := s.endWork (fun l => l.vf == v) (fun t => t.vf == v) (fun d => d.vf == v)
    (fun k => match k.kind with | .remote p _ => p.vf == v | .fault r => ((s.record? r).map fun r => r.vf == v).getD false | _ => false) (fun r => r.vf == v)
  let s := s.applyAll fun t => t.vf == v
  let s := { s with
    assist := s.assist.filter (fun a => match a with
      | .prologue l => ((s.launch? l).map fun (l : Launch) => l.vf != v).getD true
      | .fault r => (s.record? r).isSome
      | _ => true)
    launches := s.launches.filter (fun l => l.vf != v)
    cmds := s.cmds.filter (fun c => c.vf != v)
    remotes := s.remotes.filter (fun o => o.vf != v)
    bankOps := s.bankOps.filter (fun o => (s.part (partOfCore o.core)).owner != v)
    hostWait := s.hostWait.filter (fun h => h.vf != v)
    spokeReqs := s.spokeReqs.filter (fun r => !wids.contains r.wid)
    asids := s.asids.filter (fun e => e.vf != v)
    tlb := s.tlb.filter (fun e => e.vf != v) }
  let s := ((List.range Config.partitions).filter fun p => (s.part p).owner == v).foldl (fun s p => s.scrubCores p v true) s
  s.setVf v { s.vf v with rings := Vf.reset.rings, gtbase := 0, gtcnt := 0, groups := [], gtable := [], msixTable := [] }

/-- Whether a scrub of one of a function's partitions is in progress (R266, R268). -/
def State.scrubbing (s : State) (v : Nat) : Bool := (List.range Config.partitions).any fun p => (s.part p).owner == v && (s.part p).busy

/-- A write to VFCTL.en (R268): enabling makes the function ready with NDROP zero, or scrubbing while a scrub of its partitions is in progress (a scrub of
the model is over in its own step, notes/assumptions/17); disabling runs the reset. -/
def State.writeEn (s : State) (v : Nat) (en : Bool) : State :=
  if v ≥ Config.functions || (s.vf v).en == en then s
  else if en then s.setVf v { s.vf v with en := true, st := if s.scrubbing v then 3 else 1, ndrop := 0 }
  else
    let s := s.resetFunction v
    s.setVf v { s.vf v with en := false, st := 0 }

/-- A write of 1 to VFCTL.en (R268). -/
def execVfEnable (vf : Nat) (s : State) : Host.Outcome State Fault Refusal := .next (s.writeEn vf true).wakeRetry

/-- A write of 0 to VFCTL.en (R268). -/
def execVfDisable (vf : Nat) (s : State) : Host.Outcome State Fault Refusal := .next (s.writeEn vf false).wakeRetry

/-- The writable bits of HPOL (Table 88). -/
def hpolMask : W64 := 0x0FFF02CC

/-- A write to HPOL (R269). -/
def execHpolWrite (vf : Nat) (value : W64) (s : State) : Host.Outcome State Fault Refusal :=
  .next (s.setVf vf { s.vf vf with hpol := value &&& hpolMask }).wakeRetry

/-- A function-level reset (R279); a disabled function stays disabled. -/
def execFunctionLevelReset (vf : Nat) (s : State) : Host.Outcome State Fault Refusal :=
  let s := s.resetFunction vf
  .next (s.setVf vf { s.vf vf with st := if (s.vf vf).en then 1 else 0 }).wakeRetry

/-! ### Pages (R274, R275, R277) -/

/-- A page becomes free: its cells are zeroed and its block returns to the cache (R277); its contents go as R275 lets those of a freed partition go
(notes/assumptions/17). -/
def State.freePage (s : State) (page : Nat) : State :=
  if (s.pageOwner page).isNone then s
  else
    let s := (s.zeroPage page).ungrant page
    { s with pages := s.pages.filter (fun e => e.1 != page), cellBlocks := s.cellBlocks.filter fun b => b.page != page }

/-- Whether work under way still reaches a page by its device physical address: a reduction that pins it (R192), a pending copy that owns a line of it
(R159), an operation on its way to it. -/
def State.pageBusy (s : State) (page : Nat) : Bool :=
  s.pinned page || (s.copies.any fun c => c.lines.any fun l => l / 1024 == page) || (s.remotes.any fun o => o.dpa / 65536 == page) ||
  s.bankOps.any fun o => o.dpa / 65536 == page

/-- The monitor makes a page owned by a partition, or free (R274); a retired page is never allocated again (Table 94), and a page that work under way
still reaches stays as it is (notes/assumptions/17). -/
def execPageOwnershipChange (page : Nat) (owner : Option Nat) (s : State) : Host.Outcome State Fault Refusal :=
  if page * 65536 ≥ Config.deviceBytes || s.pageBusy page then .next s
  else match owner with
    | none => .next (s.freePage page).wakeRetry
    | some p =>
      if p ≥ Config.partitions || s.pageOwner page = some p || s.pageGone page then .next s
      else
        let s := s.freePage page
        .next ({ s with pages := s.pages ++ [(page, p)] } : State).wakeRetry

/-- A background scrub (R275): a cleared page's old bytes become zeros; its bit stays. -/
def execBackgroundScrub (page : Nat) (s : State) : Host.Outcome State Fault Refusal :=
  if s.cleared.contains page then .next { s with mem := s.mem.filter fun e => e.1 / 65536 != page } else .next s

/-- The monitor grants a page as an exact-reduction page, with a zeroed cell block, or refuses (R277). -/
def execCellBlockGrant (vf page : Nat) (s : State) : Host.Outcome State Fault Refusal :=
  if !s.ownPage vf page || (s.cellBlocks.any fun b => b.page == page) ||
      decide ((s.cellBlocks.filter fun b => pageStack b.page == pageStack page).length ≥ Config.cellBlocks) then .next s
  else
    let s : State := { s with cellBlocks := s.cellBlocks ++ [{ page := page, cells := [] }], lines := s.lines.filter fun e => e.dpa / 65536 != page }
    .next (s.putLines fun e => !e.l2 && e.unit == pageStack page && s.wayHoldsCells e.unit e.way).wakeRetry

/-- The fabric manager binds a logical device to a host (R264); a host that has another device is refused. -/
def execLogicalDeviceBind (ld host : Nat) (s : State) : Host.Outcome State Fault Refusal :=
  if ld ≥ Config.logicalDevices || s.hosts.any fun e => e.1 != ld && e.2 == host then .next s
  else .next { s with hosts := assocSet s.hosts ld host }

end Sys2Proof.Machine
end

