-- ==== Sys2Proof/Machine/Registers.lean ====
section
/-! DEFINITION. Writes of the host-interface registers (R5, R6, Tables 77, 78, 86, 87, 109, R273, R333): each field under its access code, reserved
fields ignored. -/

namespace Sys2Proof.Machine

/-- Bits hi down to lo. -/
def maskBits (hi lo : Nat) : W64 := BitVec.ofNat 64 (2 ^ (hi + 1) - 2 ^ lo)

/-- The RW fields of the page-backed registers (Tables 77, 78, R273, R333). -/
def baseMask : W64 := maskBits 56 0
def rcfgMask : W64 := maskBits 20 16 ||| maskBits 13 7 ||| maskBits 4 0
def ccfgMask : W64 := maskBits 26 16 ||| maskBits 4 0
def rootMask : W64 := maskBits 56 12
def s2rootMask : W64 := maskBits 39 12
def elbaseMask : W64 := maskBits 56 12 ||| maskBits 4 0

/-- A write to a register of ring k; the page of a function that is disabled or resetting ignores it (R268, R279), and no host reaches one whose logical
device is not bound (R264). -/
def State.writeRing (s : State) (v k : Nat) (f : Ring → Ring) : State := if s.pageActs v then s.setRing v k (f (s.ring v k)) else s

/-- A write to PCTL (Table 86, R266): fwm and pev at once, perr by W1C, nest if it lies in 1-4, then owner. -/
def State.writePctl (s : State) (p : Nat) (v : W64) : State :=
  let x := s.part p
  let nest := bits v.toNat 0 3
  let bad := nest = 0 || decide (nest ≥ 5)
  let s := s.setPart p
    { x with
      fwm := v.extractLsb' 16 5, pev := v.getLsbD 9, nest := if bad then x.nest else nest
      perr := bad || (x.perr && !v.getLsbD 8) }
  s.writeOwner p (bits v.toNat 24 7)

/-- A write to VFCTL (Table 87): ld, then en. -/
def State.writeVfctl (s : State) (v : Nat) (x : W64) : State := (s.setVf v { s.vf v with ld := bits x.toNat 32 4 }).writeEn v (x.getLsbD 0)

/-- A write to 8 bytes of a function's MSI-X table, whose 2,048 entries take 16 bytes each as PCIe has them (R264; notes/assumptions/22). -/
def State.writeMsix (s : State) (v e : Nat) (upper : Bool) (x : W64) : State :=
  if e < 2048 then s.setVf v { s.vf v with msixTable := assocSet (s.vf v).msixTable (2 * e + (if upper then 1 else 0)) x } else s

/-- A write to a register (R5, R6). -/
def execRegisterWrite (reg : HostReg) (value : W64) (s : State) : Host.Outcome State Fault Refusal :=
  match reg with
  | .rbase v k => .next (s.writeRing v k fun r => { r with rbase := value &&& baseMask })
  | .rcfg v k => .next (s.writeRing v k fun r => { r with rcfg := value &&& rcfgMask })
  | .cbase v k => .next (s.writeRing v k fun r => { r with cbase := value &&& baseMask })
  | .ccfg v k => .next (s.writeRing v k fun r => { r with ccfg := value &&& ccfgMask })
  | .status v k => .next (s.writeRing v k fun r => { r with status := r.status &&& ~~~value })
  | .troot v k => .next (s.writeRing v k fun r => { r with troot := value &&& rootMask })
  | .gtbase v => .next (if s.pageActs v then s.setVf v { s.vf v with gtbase := value &&& rootMask } else s)
  | .gtcnt v => .next (if s.pageActs v then s.setVf v { s.vf v with gtcnt := value &&& 0xFF } else s)
  | .pctl p => .next (s.writePctl p value).wakeRetry
  | .vfctl v => .next (s.writeVfctl v value).wakeRetry
  | .s2root v => .next (s.setVf v { s.vf v with s2root := value &&& s2rootMask })
  | .elbase => .next { s with errlog := { s.errlog with base := value &&& elbaseMask } }
  | .elhead => .next { s with errlog := { s.errlog with head := value.setWidth 32 } }
  | .publish v k => execPublishWrite v k value s
  | .notify v k => execNotifyWrite v ⟨k, value⟩ s
  | .chead v k => execCheadWrite v k value s
  | .hpol v => execHpolWrite v value s
  | .qen p => execQenWrite p value s
  | .msixWord v e u => .next (if s.hosted v then s.writeMsix v e u value else s)
  | .ticket _ _ => .next s
  | .head _ _ => .next s
  | .tail _ _ => .next s
  | .ctail _ _ => .next s
  | .ndrop _ => .next s
  | .eltail => .next s
  | .ellost => .next s
  | .readOnly => .next s

/-! ### Reads, and where the registers stand (R5, R240, R254, R265, R267, R273, R333, Table 109) -/

/-- VFCTL as it reads (Table 87). -/
def Vf.word (v : Vf) : W64 := BitVec.ofNat 64 (v.ld * 2 ^ 32 + v.st * 2 ^ 8 + (if v.en then 1 else 0))

/-- The value that a read of a register gives: a field reads its current value, or the last value written (R5). A read of TICKET takes a ticket
as well (`execTicketRead`); its value here is what R242 answers when none is taken. -/
def State.readRegister (s : State) : HostReg → W64
  | .rbase v k => (s.ring v k).rbase
  | .rcfg v k => (s.ring v k).rcfg
  | .cbase v k => (s.ring v k).cbase
  | .ccfg v k => (s.ring v k).ccfg
  | .status v k => (s.ring v k).status
  | .troot v k => (s.ring v k).troot
  | .gtbase v => (s.vf v).gtbase
  | .gtcnt v => (s.vf v).gtcnt
  | .pctl p => (s.part p).pctl
  | .vfctl v => (s.vf v).word
  | .s2root v => (s.vf v).s2root
  | .elbase => s.errlog.base
  | .elhead => s.errlog.head.setWidth 64
  | .publish v k => (s.ring v k).publish.setWidth 64
  | .notify v k => (s.ring v k).notifyWord
  | .chead v k => (s.ring v k).chead.setWidth 64
  | .hpol v => (s.vf v).hpol
  | .qen p => (s.part p).qen
  | .ticket v k => 0x4000000000000000#64 ||| (s.ring v k).tail.setWidth 64
  | .head v k => (s.ring v k).head.setWidth 64
  | .tail v k => (s.ring v k).tail.setWidth 64
  | .ctail v k => (s.ring v k).ctail.setWidth 64
  | .ndrop v => BitVec.ofNat 64 (s.vf v).ndrop
  | .eltail => s.errlog.tail.setWidth 64
  | .ellost => s.errlog.lost.setWidth 64
  | .msixWord v e u => (assoc (s.vf v).msixTable (2 * e + (if u then 1 else 0))).getD 0
  | .readOnly => 0

/-- The register at an address of the physical function's BAR 0 (R254, R265, R267, Table 109). -/
def bar0Register (a : Nat) : Option HostReg :=
  let p := (a - 0x080000) / 0x100
  let v := (a - 0x100000) / 0x1000
  if a = 0x180000 then some .elbase
  else if a = 0x180008 then some .eltail
  else if a = 0x180010 then some .elhead
  else if a = 0x180018 then some .ellost
  else if 0x080000 ≤ a && p < Config.partitions then
    (if a % 0x100 = 0 then some (.pctl p) else if a % 0x100 = 8 then some (.qen p) else none)
  else if 0x100000 ≤ a && v < Config.functions then
    (if a % 0x1000 = 0 then some (.vfctl v) else if a % 0x1000 = 8 then some (.hpol v) else if a % 0x1000 = 0x10 then some (.s2root v)
     else if a % 0x1000 = 0x18 then some (.ndrop v) else none)
  else none

/-- The register at an offset of a function's virtual command processor page (R240, Table 77, R273, R333). -/
def pageRegister (v off : Nat) : Option HostReg :=
  let k := off / 0x100
  if off < 0x800 then
    match off % 0x100 with
    | 0x00 => some (.rbase v k)
    | 0x08 => some (.rcfg v k)
    | 0x10 => some (.ticket v k)
    | 0x18 => some (.publish v k)
    | 0x20 => some (.head v k)
    | 0x28 => some (.tail v k)
    | 0x30 => some (.cbase v k)
    | 0x38 => some (.ccfg v k)
    | 0x40 => some (.ctail v k)
    | 0x48 => some (.chead v k)
    | 0x50 => some (.status v k)
    | 0x58 => some (.notify v k)
    | _ => none
  else if off < 0x840 && off % 8 = 0 then some (.troot v ((off - 0x800) / 8))
  else if off = 0xC00 then some (.gtbase v)
  else if off = 0xC08 then some (.gtcnt v)
  else none

end Sys2Proof.Machine
end

