-- ==== Sys2Proof/Machine/Errors.lean ====
section
/-! DEFINITION. Soft errors, patrol, spare fills and link timeouts (spec/14 R315, R321-R325, R303). -/

namespace Sys2Proof.Machine

/-- Whether a page is the one its stack is copying to a spare (R323). -/
def State.isFilling (s : State) (page : Nat) : Bool := s.filling (page * 65536)

/-- Storage that a spare replaces takes an entry of its stack's retirement table, logged (Table 94, R323, R325): the page as such goes on being served. -/
def State.retireStorage (s : State) (a page : Nat) : State :=
  if s.retired.contains page || decide ((s.retired.filter fun p => pageStack p == pageStack page).length ≥ Config.retireTable) then s
  else ({ s with retired := s.retired ++ [page] } : State).logEvent (s.hbmEvent a 4 (s.lineCause a))

/-- A second uncorrectable error on the page being filled, or on its spare (R323): page and spare are retired, at once or when the host answers (R283), the
context that the error's owner tag names is terminated, and the fill restarts on the next spare. The page is served again when the fill ends; what its
lines hold in caches stays there, though `pgret` drops it: the fill carries them (the model's choice, notes/assumptions/44). -/
def State.secondError (s : State) (a : Nat) : State :=
  let page := a / 65536
  let st := pageStack page
  let tag := s.hbmTag a
  let gone := [page, sparePage st (s.sparesUsed.getD st 0)]
  let s := { s with
    sparesUsed := s.sparesUsed.set st (s.sparesUsed.getD st 0 + 1)
    fills := page :: s.fills.filter (· != page) }
  let s := if s.retireAsked page then { s with assist := s.assist ++ gone.map (AssistReq.storage page) } else gone.foldl (fun s p => s.retireStorage a p) s
  if tag.2.2 || tag.1 = 0x7F then s else (s.endContext tag.1 tag.2.1).logEvent (s.hbmEvent a 3 (s.lineCause a))

/-- An error that no code corrects stands at a place; on the page being filled, or on its spare, it is a second error, and its line is lost (R323). A spare
that nothing is being copied to holds no data, nor does the pending store for a line that its copy does not hold or whose data it has not kept. -/
def State.strike (s : State) (loc : StoreLoc) (mismatch : List Nat) : State :=
  let stand (loc : StoreLoc) : State := { s with
    errors := s.errors ++ [loc]
    found := s.found.filter (· != loc)
    softs := s.softs.filter (· != loc)
    mismatch := mismatch }
  if s.errors.contains loc then s
  else match loc with
    | .hbm a => if s.isFilling (a / 65536) then (stand loc).secondError a else stand loc
    | .spare a =>
      if s.isFilling (a / 65536) then (if s.errors.contains (.hbm (a / 64 * 64)) then s else stand (.hbm (a / 64 * 64))).secondError a else s
    | .pending c a => if (s.copy? c).any fun x => x.pendingOut && x.stored && x.lines.contains (a / 64) then stand loc else s
    | _ => stand loc

/-- A soft error flips bits (R315): it stays until an access or patrol meets it. Only a line of global data has a check value to mismatch. -/
def execSoftError (loc : StoreLoc) (sort : ErrorSort) (s : State) : Host.Outcome State Fault Refusal :=
  match sort with
  | .correctable => .next { s with softs := if s.softs.contains loc || s.errors.contains loc then s.softs else s.softs ++ [loc] }
  | .uncorrectable => .next (s.strike loc (match lineOf loc with | some l => s.mismatch.filter (· != l) | none => s.mismatch))
  | .checkValue => match lineOf loc with
    | some l => .next (s.strike loc (if s.mismatch.contains l then s.mismatch else s.mismatch ++ [l]))
    | none => .next s

/-- An uncorrectable error is found by patrol (R315, R320, R322, R323): poisoned and logged once; a cell's mark is set, an HBM4 page starts a fill,
a cache array refetches. L2 lines, pending data and memory-side lines are not patrolled. -/
def State.poison (s : State) (loc : StoreLoc) : State :=
  match loc with
  | .l2 _ => s
  | .ms _ => s
  | .pending _ _ => s
  | .cell a => s.findCellError a
  | .icache c => s.parity c
  | .spare _ => s
  | .hbm a =>
    if s.found.contains loc then s
    else (({ s with found := s.found ++ [loc] } : State).logEvent (s.locEvent loc 1 (s.lineCause a))).queueFill (a / 65536)
  | _ => if s.found.contains loc then s else ({ s with found := s.found ++ [loc] } : State).logEvent (s.locEvent loc 1 Cause.ecc)

/-- A patrol read of one place (R315). -/
def execPatrolRead (loc : StoreLoc) (s : State) : Host.Outcome State Fault Refusal :=
  let t := if s.softs.contains loc then s.repair loc else s
  .next (if t.errors.contains loc then t.poison loc else t)

/-- The first page that waits on its stack is copied to the next unused spare and then served by it, its correctable lines corrected, each repair logged
(R315), and its uncorrectable ones still poisoned; with no spare left it is retired, at once or when the host answers (R283), and the failure is logged
(R323). -/
def execSpareFill (page : Nat) (s : State) : Host.Outcome State Fault Refusal :=
  if !s.isFilling page then .next s
  else
    let st := pageStack page
    let s := { s with fills := s.fills.filter (· != page) }
    let ev (a : Nat) : Event := { s.locEvent (.hbm (page * 65536)) a Cause.ecc with }
    if s.sparesUsed.getD st 0 < Config.spares then
      let s := s.repairAt fun e => match e with | .hbm a => a / 65536 == page | .spare a => a / 65536 == page | _ => false
      .next ((({ s with
        spared := if s.spared.contains page then s.spared else s.spared ++ [page]
        sparesUsed := s.sparesUsed.set st (s.sparesUsed.getD st 0 + 1)
        fills := s.fills.filter (· != page)
        softCount := s.softCount.filter (fun e => e.1 != page) } : State).logEvent (ev 6)).wakeRetry)
    else if s.retireAsked page then .next (({ s with assist := s.assist ++ [.retire page] } : State).logEvent (ev 1)).wakeRetry
    else
      let r := s.retire page
      .next (r.1.logEvent (ev (if r.2 then 4 else 1))).wakeRetry

/-- The function of a team, for events. -/
def State.teamVf (s : State) (team : Nat) : Nat := ((s.team? team).map (·.vf)).getD 0x7F

/-- The event of a link timeout. -/
def State.timeoutEvent (s : State) (core vf asid : Nat) : State :=
  s.logEvent { code := 12, action := 7, cause := Cause.linkTimeout, vf := vf, asid := asid, host := false,
               part := partOfCore core, stack := hoodOfCore core, dpa := 0 }

/-- A state-access request has timed out: its wave detaches before its group, no lane changed (R303). -/
def State.timeoutAccess (s : State) (r : SpokeReq) : State :=
  match s.wave? r.wid with
  | none => s
  | some w =>
    let s := ({ s with spokeReqs := s.spokeReqs.filter fun x => x.wid != r.wid } : State).timeoutEvent w.core (s.teamVf w.team) w.asid
    let s := s.updWave r.wid fun w => { w with wait := .ready }
    (s.detach r.wid { cause := Cause.linkTimeout, done := false, faddr := r.first, amask := r.amask, laneFlags := [], codes := [] }).wakeRetry

/-- A returning `.system` atomic has timed out: its wave detaches before its group. Whether the operation has been performed at the remote home is a free
value; the group's others are performed, and answer nobody. -/
def State.timeoutAtomic (s : State) (o : RemoteOp) (w : Wave) : State :=
  match w.wait with
  | .replies _ first =>
    let v := s.drawFree
    let s := ({ v.2 with remotes := v.2.remotes.filterMap fun x =>
        if x.wid ≠ o.wid || x.dst.isNone then some x else if x.failed || (x.id = o.id && v.1.getLsbD 0) then none else some { x with dst := none } } : State)
    let s := (s.timeoutEvent w.core (s.teamVf w.team) w.asid).backBefore o first
    let s := s.updWave o.wid fun w => { w with wait := .ready }
    (s.detach o.wid { cause := Cause.linkTimeout, done := false, faddr := first, amask := maskOf 64 o.act.contains, laneFlags := [], codes := [] }).wakeRetry
  | _ => s

/-- The address of the element at which a segment goes on, its grid coordinates and its image offset: what its record shows (Table 62, R384). -/
def State.segSpot (s : State) (c : Copy) (j elem : Nat) (got : List (Nat × Nat × Byte)) : Nat × List Nat × Nat :=
  match c.kind, c.recs with
  | .staging _, _ => (c.gbase + 4096 * j + elem, [4096 * j + elem], 4096 * j + elem)
  | .writeBack _, _ => (c.gbase + 4096 * j + elem, [4096 * j + elem], 4096 * j + elem)
  | _, none => (0, [], 0)
  | _, some (f, d) =>
    let p := segPlan f d c.scal
    let at_ := p.point (4096 * j / p.sz + elem)
    (match ((Run.start s got).place (s.copyEnv c) p.f p.d p.sz elem at_).2 with | .at a => a | _ => 0, at_.map (unsignedOf 32), 4096 * j + elem * p.sz)

/-- A copy's request has timed out: its first segment that is under way detaches at the element it has come to, its earlier elements kept. -/
def State.timeoutSegment (s : State) (c : Copy) : State :=
  match (List.range c.segs.length).find? fun j => s.inFlight c j && (c.segs.getD j .done).resume.isSome with
  | none => s
  | some j =>
    match (c.segs.getD j .done).resume with
    | some (elem, got, _) =>
      let spot := s.segSpot c j elem got
      ((s.timeoutEvent c.core (s.teamVf c.team) (((s.team? c.team).map (·.asid)).getD 0)).detachSegment c j Cause.linkTimeout spot.1 elem spot.2.1 spot.2.2 got).wakeRetry
    | none => s

/-- A request over a spoke link has had no reply for 12,000 clocks (R303, R324): a wave's state access, a wave's returning `.system` atomic, a
copy's, or a domestique's, which meets Table 105's fault condition (notes/assumptions/44). -/
def execLinkTimeout (request : Nat) (s : State) : Host.Outcome State Fault Refusal :=
  match s.spokeReqs.find? fun r => r.id == request && r.value.isNone with
  | some r => .next (s.timeoutAccess r)
  | none =>
    match s.remotes.find? fun o => o.id == request && o.dst.isSome && decide (o.fn ≤ 4) && bits o.addr.toNat 57 3 == 5 with
    | some o => match s.wave? o.wid with
      | some w => .next (s.timeoutAtomic o w)
      | none => .next s
    | none => match s.copy? request with
      | some c => .next (s.timeoutSegment c)
      | none => match s.ksReqs.find? fun q => q.id == request with
        | some q => .next ((s.failKs q).timeoutEvent q.core ((s.dom? q.core).elim 0x7F (·.vf)) ((s.dom? q.core).elim 0 (·.asid)))
        | none => .next s

end Sys2Proof.Machine
end

