-- ==== Sys2Proof/Machine/Power.lean ====
section
/-! DEFINITION. Power, clocks, firmware and host assistance (spec/21 R381-R383, spec/12 R282, R283). -/

namespace Sys2Proof.Machine

/-- The part with nothing kept (R282, R382, R383): every field at its reset value but for the model's own counters and agenda. -/
def State.fresh (s : State) (p : Power) : State :=
  { State.reset with agenda := s.agenda, turn := s.turn, nextId := s.nextId, free := s.free, power := p }

/-- The 48 V input comes within limits: the sequence of Table 158 begins at its first step (R382, R383). -/
def execPowerUp (s : State) : Host.Outcome State Fault Refusal :=
  if s.power.phase != .off then .next s
  else .next (s.fresh
    { phase := .step 1, hbm := false, clock := 30, ports := [false, false], perst := s.power.perst, thermtrip := false, pwrfail := false, firmware := none,
      downloadFailed := false })

/-- Whether a downloaded image verifies (R282, Table 92): the key's digest is the fuses', svn is not below the fuse counter, and the signature holds
over the digest of bytes 0-1967 and the body. R282 does not give the length of the key's digest; the model takes 64 bytes (notes/assumptions/44). -/
def imageVerifies (b : List Byte) : Bool :=
  let pk := (b.drop 16).take 1952
  let sig := (b.drop 1968).take 3309
  let digest := shake256 64 (b.take 1968 ++ (b.drop 8192).take (leAt b 8 8))
  decide (shake256 64 pk = Config.fuseDigest) && decide (Config.fuseSvn ≤ leAt b 4 4) && Config.mldsaVerify pk sig digest

/-- The boot ROM verifies an image at step 6 (R282): it starts it, and step 7 follows (R383); or the failure is reported, and the part stays at step 6. -/
def Power.verify (p : Power) (image : List Byte) : Power :=
  if imageVerifies image then
    { p with phase := .step 7, image := none, firmware := some (shake256 64 (image.take 1968 ++ (image.drop 8192).take (leAt image 8 8))), downloadFailed := false }
  else { p with image := none, downloadFailed := true }

/-- The next step of Table 158, where it waits for nothing outside the part: at step 4 the links of the ports not under PERST train, step 5 runs beside it,
step 6 follows once both have completed and takes the image that step 4 was given, and after step 7 the part runs, its cores scrubbed and every partition
free. -/
def State.powerStep (s : State) : State :=
  match s.power.phase with
  | .step 1 => { s with power := { s.power with phase := .step 2 } }
  | .step 2 => { s with power := { s.power with phase := .step 3 } }
  | .step 3 => { s with power := { s.power with phase := .step 4 } }
  | .step 4 =>
    if s.power.ports != s.power.perst.map not then { s with power := { s.power with ports := s.power.perst.map not } }
    else if !s.power.hbm then { s with power := { s.power with hbm := true } }
    else if s.power.ports.any id then { s with power := { s.power with phase := .step 6 } }
    else s
  | .step 6 => match s.power.image with
    | some b => { s with power := s.power.verify b }
    | none => s
  | .step 7 => s.fresh { s.power with phase := .running }
  | _ => s

/-- The steps at which PERST ends a port's link: from 4 on, and while the part runs (R383; notes/assumptions/38). -/
def PowerPhase.linked : PowerPhase → Bool | .off => false | .step n => decide (4 ≤ n) | .running => true

/-- PERST on a port (R383): its link ends, and with both down the sequence returns to step 4 without its image. Before step 4 no link is up. -/
def execPerstAssert (port : Nat) (s : State) : Host.Outcome State Fault Refusal :=
  let p := { s.power with ports := s.power.ports.set port false, perst := s.power.perst.set port true }
  if !p.phase.linked || p.phase == .running || p.ports.any id then .next { s with power := p }
  else .next { s with power := { p with phase := .step 4, firmware := none, image := none, downloadFailed := false } }

/-- PERST is released (R383): from step 4 on the port trains its link again. A sequence that waited at step 4 goes on from there: one port is enough for it,
as it is for a sequence that loses one (notes/assumptions/38). -/
def execPerstRelease (port : Nat) (s : State) : Host.Outcome State Fault Refusal :=
  let p := { s.power with perst := s.power.perst.set port false }
  .next { s with power := if p.phase.linked then { p with ports := p.ports.set port true } else p }

/-- Power leaves every die (R382): nothing is kept. -/
def State.loseSupply (s : State) (therm fail : Bool) : State :=
  s.fresh { phase := .off, clock := 30, ports := [false, false], perst := s.power.perst, thermtrip := therm, pwrfail := fail, firmware := none, downloadFailed := false }

/-- A junction at 110 °C (R382). -/
def execThermtrip (s : State) : Host.Outcome State Fault Refusal := if s.power.phase = .off then .next s else .next (s.loseSupply true false)

/-- Input below 38 V for 1 ms (R382). -/
def execPwrfail (s : State) : Host.Outcome State Fault Refusal := if s.power.phase = .off then .next s else .next (s.loseSupply false true)

/-- At 95 °C, or above the sustained limit, the arithmetic clock falls by 0.1 GHz, to 1.5 GHz at least (R381). -/
def execThermalThrottle (s : State) : Host.Outcome State Fault Refusal :=
  .next { s with power := { s.power with clock := max 15 (s.power.clock - 1) } }

/-- Below 90 °C it rises again, to 3.0 GHz at most (R381). -/
def execThermalRecover (s : State) : Host.Outcome State Fault Refusal :=
  .next { s with power := { s.power with clock := min 30 (s.power.clock + 1) } }

/-- The host downloads an image (R282, R383): step 4 takes it, while a port is up, for step 6 to verify; at step 6 the boot ROM verifies it at once. -/
def execFirmwareDownload (image : List Byte) (s : State) : Host.Outcome State Fault Refusal :=
  match s.power.phase with
  | .step 4 => if s.power.ports.any id then .next { s with power := { s.power with image := some image } } else .next s
  | .step 6 => .next { s with power := s.power.verify image }
  | _ => .next s

/-- The host answers a request of the assist ring (R283): the prologue it ran goes on as R246 states, a page is retired, a log record is taken. A
parked record goes on to the handler that its policy names, or is disposed of as the answer says: claimed for that as by a task. -/
def execAssistAnswer (part : Nat) (answer : AssistAnswer) (s : State) : Host.Outcome State Fault Refusal :=
  match answer with
  | .prologue id s31 area =>
    if !(s.assist.contains (.prologue id)) || ((s.launch? id).map (·.part)) != some part || ((s.launch? id).bind (·.status)).isSome then .next s
    else match ({ s with assist := s.assist.filter (· != .prologue id) } : State).prologueOutcome id s31 (area ++ zeros (0x400 - area.length)) with
      | some t => .next t.wakeRetry
      | none => .next s
  | .done =>
    let mine : AssistReq → Bool
      | .retire g => s.pageOwner g == some part
      | .storage g _ => s.pageOwner g == some part
      | .log _ => true
      | .prologue _ => false
      | .fault rid => ((s.record? rid).map (·.part)).getD part == part
    match s.assist.find? mine with
    | some (.fault rid) => .next (({ s with assist := s.assist.erase (.fault rid) } : State).serveRecord rid).wakeRetry
    | some (.retire g) =>
      let r := ({ s with assist := s.assist.erase (.retire g) } : State).retire g
      .next (if r.2 then r.1.logEvent (s.hbmEvent (g * 65536) 4 Cause.ecc) else r.1).wakeRetry
    | some (.storage g x) => .next (({ s with assist := s.assist.erase (.storage g x) } : State).retireStorage (g * 65536) x).wakeRetry
    | some a => .next { s with assist := s.assist.erase a }
    | none => .next s
  | .dispose rid code addr =>
    match s.record? rid with
    | none => .next s
    | some r =>
      if !s.assist.contains (.fault rid) || r.part ≠ part || r.state != .parked || code < 1 || code > 4 then .next s
      else .next ((s.claimRec .peer r).dispose .peer r.vf r.handle code addr).1.wakeRetry

end Sys2Proof.Machine
end

