-- ==== Sys2Proof/Machine/Recovery.lean ====
section
/-! DEFINITION. Records as time passes (spec/13 R294, R301, R308, R309): units that wait for a record, deadlines, waves rebuilt. -/

namespace Sys2Proof.Machine

/-- The queue whose clock counts the deadline a unit's record would have (R308). -/
def State.entryQueue (s : State) (launch cause : Nat) : Nat := ((s.polEntry launch cause).map (·.queue)).getD 0

/-- Whether a team stands on its cores. -/
def State.isPlaced (s : State) (team : Nat) : Bool := ((s.team? team).map Team.placed).getD false

/-! ### Units that wait in place (R308) -/

/-- What a waiting unit waits with: a wave's, an operation's or a segment's cause and deadline. -/
inductive Waiting where
  | wave (w : Wave) (p : Pending) (deadline : Nat)
  | mma (o : MmaOp) (cause deadline : Nat)
  | seg (c : Copy) (j : Nat) (p : Pending) (elem : Nat) (body : List Byte) (got : List (Nat × Nat × Byte)) (deadline : Nat)

/-- The unit an entry of the waiting list names, while it still waits. -/
def State.waitingUnit (s : State) (e : Nat × Nat) : Option Waiting :=
  match s.wave? e.1, s.mma? e.1, s.copy? e.1 with
  | some w, _, _ => match w.status with | .waitsForPool p d => some (.wave w p d) | _ => none
  | none, some o, _ => match o.phase with | .waitsForPool c d => some (.mma o c d) | _ => none
  | none, none, some c => match c.segs.getD e.2 .done with
    | .waitsForPool p el body _ got d => some (.seg c e.2 p el body got d)
    | _ => none
  | none, none, none => none

/-- The unit of a waiting entry. -/
def State.unitOf (s : State) : Waiting → UnitAt
  | .wave w _ _ => s.waveUnit w
  | .mma o _ _ => s.mmaUnit o
  | .seg c j _ _ _ _ _ => s.segUnit c j

/-- Give a waiting unit its record, whose deadline counts from here (R296); none while no extent of its classes is free or its team is off its cores. -/
def State.grant (s : State) (x : Waiting) : Option State :=
  let u := s.unitOf x
  if !s.isPlaced u.team then none
  else match s.recordDepth u.team u.part with
    | none => none
    | some (depth, parent) =>
      (s.freeExtent u.part depth (u.kind == .wave)).map fun place =>
        match x with
        | .wave w p _ => s.parkWave w p depth parent place true (s.faultDeadline u p.cause)
        | .mma o c _ => s.parkMma o c depth parent place true (s.faultDeadline u c)
        | .seg c j p el body got _ => s.parkSegment c j p.cause p.faddr.toNat el body got depth parent place true (s.faultDeadline u p.cause)

/-- A record of its classes is free: the unit that has waited longest takes it (R308). -/
def execRecordGrant (part : Nat) (s : State) : Host.Outcome State Fault Refusal :=
  let try_ (e : Nat × Nat) : Option State :=
    match s.waitingUnit e with
    | none => none
    | some x => if (s.unitOf x).part ≠ part then none else (s.grant x).map fun t => { t with poolWait := t.poolWait.filter (· != e) }
  match s.poolWait.findSome? try_ with
  | none => .next s
  | some t => .next t.wakeRetry

/-- Whether a waiting unit's deadline has passed. -/
def State.waitOver (s : State) (x : Waiting) : Bool :=
  let u := s.unitOf x
  match x with
  | .wave _ p d => decide (d ≤ s.qclock u.part (s.entryQueue u.launch p.cause))
  | .mma _ c d => decide (d ≤ s.qclock u.part (s.entryQueue u.launch c))
  | .seg _ _ p _ _ _ d => decide (d ≤ s.qclock u.part (s.entryQueue u.launch p.cause))

/-- A waiting unit ends as by a kill, and no record is made (R308). -/
def State.killWaiting (s : State) : Waiting → State
  | .wave w _ _ => s.killWave w.wid
  | .mma o _ _ => s.endMma o.id true
  | .seg c j _ _ _ _ _ => s.killSegment c.id j

/-- The deadline that a waiting unit's record would have had expires (R308). -/
def execPoolWaitDeadline (unit : Nat) (s : State) : Host.Outcome State Fault Refusal :=
  let due (e : Nat × Nat) : Option (Nat × Nat × Waiting) :=
    if e.1 ≠ unit then none else match s.waitingUnit e with
      | some x => if s.waitOver x && s.isPlaced (s.unitOf x).team then some (e.1, e.2, x) else none
      | none => none
  match s.poolWait.findSome? due with
  | none => .next s
  | some (a, b, x) => .next ({ (s.killWaiting x) with poolWait := s.poolWait.filter (· != (a, b)) } : State).wakeRetry

/-! ### Deadlines (R309, R310) -/

/-- The task that holds a record on this part is killed: a handler team, or a domestique's task. An ordinary team that holds one is not relaunched: R309 does
not say whether R318 applies to it (the model's choice, notes/assumptions/44). -/
def State.killHere (s : State) (rid : Nat) : State :=
  (((s.teams.filter fun t => t.holds.contains rid).map (·.id)).foldl (fun (s : State) t => s.killTeam t false 0 7) s).endDoms fun d => d.holds.contains rid

/-- The task that holds a record is killed; one on a peer part is told, as is a peer where the record's task waits. -/
def State.killHolder (s : State) (r : Record) : State :=
  let s := s.killHere r.id
  if r.peer || (r.state == .parked && r.flags.getLsbD 3) then s.sendFor r.vf r.link fun _ => .expired r.handle else s

/-- A fault task's deadline is reached (R309): the record is KILLED, its holder is killed, its expiry action runs. -/
def State.expireRecord (s : State) (r : Record) : State := ((((s.killRecord r.id).killHolder r).expire r).reap)

/-- A PARKED record whose task cannot leave over its link expires at once (R310). -/
def State.linkLost (s : State) (r : Record) : Bool :=
  r.state == .parked && r.pkind == 3 && !s.linkOpen r.vf r.link && !s.assist.contains (.fault r.id)

/-- The clock of the queue in the header, or of its entry's for a kind 3 record, reaches a record's deadline, or its link carries nothing; or the clock reaches the deadline of a peer's task
that waits here, or is held here by a team or by a domestique (`record` is then the handle), whose home is told (R310). -/
def execFaultDeadlineExpiry (record : Nat) (s : State) : Host.Outcome State Fault Refusal :=
  match s.record? record with
  | some r =>
    if s.linkLost r || ((r.state == .parked || r.state == .claimed) && decide (r.deadline ≤ s.qclock r.part r.clock)) then .next (s.expireRecord r).wakeRetry
    else .next s
  | none =>
    match s.tasks.find? fun k => k.id == record with
    | none =>
      match s.team? record with
      | some t =>
        match t.due.find? fun e => t.remotes.contains e.1 && decide (e.2.2 ≤ s.qclock t.part e.2.1) with
        | some e =>
          let s := (s.sendFor t.vf (homeLink e.1) fun _ => .expired e.1).updTeam record fun t => { t with remotes := t.remotes.filter (· != e.1) }
          .next (s.killTeam record false 0 7).wakeRetry
        | none => .next s
      | none =>
        match s.doms.find? fun d => d.due.any fun e => e.1.toNat == record && d.remotes.contains e.1 && decide (e.2.2 ≤ s.qclock d.part e.2.1) with
        | some d =>
          let h := BitVec.ofNat 32 record
          let s := (s.sendFor d.vf (homeLink h) fun _ => .expired h).setDom { d with remotes := d.remotes.filter (· != h) }
          .next (s.endDoms fun x => x.core == d.core).wakeRetry
        | none => .next s
    | some k =>
      match k.kind with
      | .remote p d =>
        if d ≤ s.qclock k.part k.queue then .next ((s.dequeue k).sendFor p.vf p.link fun _ => .expired p.handle).wakeRetry else .next s
      | _ => .next s

/-! ### The way back (R294, R301) -/

/-- Whether a wave record's live mask names no lane of its wave (Table 99). -/
def Record.allDead (r : Record) : Bool := (List.range (leAt r.body 312 1)).all fun i => bits (leAt r.body 320 8) i 1 == 0

/-- A RESUMING unit whose team stands on its cores runs again: a wave once it has register space, a segment or a matrix operation at once, unless
its team has been evicted (Table 100); its record becomes FREE. A wave that is to end there, with no live lane, waits for its engine accesses as an `exit`
does (R166). -/
def execWaveRebuild (record : Nat) (s : State) : Host.Outcome State Fault Refusal :=
  match s.record? record with
  | none => .next s
  | some r =>
    if r.state != .resuming then .next s
    else if r.kind != .wave then (if s.isEvicted r.team then .next s else .next (s.finishDisposal r).wakeRetry)
    else if !((s.team? r.team).map Team.active).getD false then .next s
    else if s.recordBad r then .next (s.poolFault r).wakeRetry
    else if s.accessOut r.unit && r.allDead then .next s
    else
      let t := s.rebuildWave record
      if t.records.any fun x => x.id == record then .next s else .next t.wakeRetry

end Sys2Proof.Machine
end

