-- ==== Sys2Proof/Machine/Domestique.lean ====
section
/-! DEFINITION. The domestique's state-access registers (spec/13 R304, Table 105). The handler's own writes of KSH, KSOFF and KSADDR are made in
the step of the access that uses them (notes/assumptions/18). -/

namespace Sys2Proof.Machine

/-- The record of this part that KSH names, where KSOFF lies in it (R300). -/
def State.domRecord (s : State) (d : Dom) (h : W32) (off : Nat) (write : Bool) : Option Record :=
  match s.heldRec (.dom d.core) d.vf h with
  | some r => if s.offsetOk r off && !(write && decide (off < 0x100)) then some r else none
  | none => none

/-- Whether a domestique holds a remote handle (R310). -/
def Dom.away (d : Dom) (h : W32) : Bool := remoteHandle h && d.remotes.contains h

/-- A handler task acts on a record; not while its request over a link has had no reply. A poisoned word of its stack that it meets ends the handler
task alone (R317). -/
def State.domActs (s : State) (core : Nat) (f : State → Dom → State) : State :=
  match s.dom? core with
  | none => s
  | some d =>
    if s.ksReqs.any fun r => r.core == core then s
    else if s.errors.any fun e => match e with | .dom c _ => c == core | _ => false then
      ((s.logCore core 1 1 d.vf d.asid).endDoms fun d => d.core == core).wakeRetry
    else f s d

/-- Send a domestique's request to a record's home (R310). -/
def State.sendKs (s : State) (d : Dom) (h : W32) (reply : KsReply) (m : Nat → SpokeMsg) : State :=
  ({ s with ksReqs := s.ksReqs ++ [{ id := s.nextId, link := homeLink h, core := d.core, handle := h, reply := reply }] } : State).sendFor d.vf (homeLink h) m

/-- A read of KSDATA performs `ksrd` (Table 105). A record found in error is freed, with its unit's task (R312), and the read then meets no record. -/
def execKsdataRead (core : Nat) (ksh : W32) (ksoff : BitVec 17) (s : State) : Host.Outcome State Fault Refusal :=
  .next (s.domActs core fun s d =>
    let off := ksoff.toNat
    let s := s.updKs core fun k => { k with ksh := ksh, ksoff := ksoff }
    let none_ (s : State) : State := s.updKs core fun k => { k with ksdata := 0, ksst := 3 }
    if d.away ksh then (if placeOk off false then s.sendKs d ksh .data fun n => .ksread n ksh off else none_ s)
    else match s.domRecord d ksh off false with
      | some r => match s.readFault r off with
        | some t => (none_ t).wakeRetry
        | none => s.updKs core fun k => { k with ksdata := s.recRead r off }
      | none => none_ s)

/-- A write of KSDATA performs `kswr` (Table 105). -/
def execKsdataWrite (core : Nat) (ksh : W32) (ksoff : BitVec 17) (value : W64) (s : State) : Host.Outcome State Fault Refusal :=
  .next (s.domActs core fun s d =>
    let off := ksoff.toNat
    let s := s.updKs core fun k => { k with ksh := ksh, ksoff := ksoff }
    let none_ (s : State) : State := s.updKs core fun k => { k with ksst := 3 }
    if d.away ksh then (if placeOk off true then s.sendKs d ksh .none fun n => .kswrite n ksh off value else none_ s)
    else match s.domRecord d ksh off true with
      | some r => match s.writeFault r off with
        | some t => (none_ t).wakeRetry
        | none => s.recWrite r off value
      | none => none_ s)

/-- A write of KSCMD. Its bits [14] and [7:3], which Table 105 names neither as fields nor as reserved, are dropped and read 0 (the model's choice,
notes/assumptions/44). `away` is what a record of a peer part is asked, if the command asks one; `act` gives the state and what KSST then holds. -/
def State.kscmd (s : State) (core : Nat) (ksh : W32) (value : W64) (away : Option (KsReply × (Nat → SpokeMsg))) (act : State → Dom → State × W32) : State :=
  s.domActs core fun s d =>
    let s := s.updKs core fun k => { k with ksh := ksh, kscmd := value &&& 0xFBF07 }
    match away, d.away ksh with
    | some m, true => s.sendKs d ksh m.1 m.2
    | _, _ =>
      let r := act s d
      (r.1.updKs core fun k => { k with ksst := r.2 }).wakeRetry

/-- A disposition's command (R301). -/
def State.kscmdDispose (s : State) (core : Nat) (ksh : W32) (value : W64) (code : Nat) (addr : W57) : State :=
  s.kscmd core ksh value (some (.status, fun n => .dispose n ksh code addr)) fun s d => s.dispose (.dom core) d.vf ksh code addr

/-- Code 0: claim by queue, or by KSH (R299). -/
def execKscmdClaim (core : Nat) (ksh : W32) (value : W64) (s : State) : Host.Outcome State Fault Refusal :=
  .next (s.kscmd core ksh value none fun s d => s.claim (.dom core) d.vf d.part (value.getLsbD 15) (bits value.toNat 8 6) ksh)

/-- Code 1: resume (R301). -/
def execKscmdResume (core : Nat) (ksh : W32) (value : W64) (s : State) : Host.Outcome State Fault Refusal := .next (s.kscmdDispose core ksh value 1 0)

/-- Code 2: retry (R301). -/
def execKscmdRetry (core : Nat) (ksh : W32) (value : W64) (s : State) : Host.Outcome State Fault Refusal := .next (s.kscmdDispose core ksh value 2 0)

/-- Code 3: redirect to KSADDR (R301), whatever its alignment: R222 makes a `ksdir` of an address that is no multiple of 4 ILLEGAL, Table 105 says nothing
of one (the model's choice, notes/assumptions/44). -/
def execKscmdRedirect (core : Nat) (ksh : W32) (ksaddr : W57) (value : W64) (s : State) : Host.Outcome State Fault Refusal :=
  .next ((s.domActs core fun s _ => s.updKs core fun k => { k with ksaddr := ksaddr }).kscmdDispose core ksh value 3 ksaddr)

/-- Code 4: kill (R301). -/
def execKscmdKill (core : Nat) (ksh : W32) (value : W64) (s : State) : Host.Outcome State Fault Refusal := .next (s.kscmdDispose core ksh value 4 0)

/-- Code 5: post to a queue with a priority (R302). -/
def execKscmdPost (core : Nat) (ksh : W32) (value : W64) (s : State) : Host.Outcome State Fault Refusal :=
  .next (s.kscmd core ksh value (some (.posted, fun n => .post n ksh (s.ordinal (((s.dom? core).map (·.part)).getD 0)) (bits value.toNat 8 6) (bits value.toNat 16 4)))
    fun s d => s.post (.dom core) d.vf d.part ksh (bits value.toNat 8 6) (bits value.toNat 16 4))

/-- Whether a handler task that ends is stopped: its budget is exhausted, or it met an RV64 exception or left its stack, which the model, holding none of
the handler's code, takes from a free value (R281, R304; notes/assumptions/18). -/
def State.domStops (s : State) (d : Dom) : Bool := d.budget == some 0 || (Config.freeValue s.free).getLsbD 0

/-- A handler task ends (R304): what it holds returns to PARKED and is posted again. The task that a stopped one served then takes the default disposition
of its policy (R281). -/
def execDomestiqueHandlerEnd (core : Nat) (s : State) : Host.Outcome State Fault Refusal :=
  match s.dom? core with
  | none => .next s
  | some d =>
    let t : State := { s with free := s.free + 1 }
    let t := if s.domStops d && d.holds.contains d.record then t.updRecord d.record fun r => { r with stopped := true } else t
    .next (t.endDoms fun x => x.core == core).wakeRetry

end Sys2Proof.Machine
end

