-- ==== Sys2Proof/Machine/Spoke.lean ====
section
/-! DEFINITION. The spoke links (spec/12 R270, spec/13 R293, R300-R303, R310): flits that arrive from peer parts, replies, requests on records of
this part, and fault tasks posted here. A handle travels as its sender holds it: with rem = 1 from the part that serves it, with rem = 0 from
its home. -/

namespace Sys2Proof.Machine

/-- The handle under which this part knows a record of the part behind a link (R293). -/
def remoteForm (link : Nat) (h : W32) : W32 := (h &&& 0x07FFFFFF) ||| 0x80000000 ||| BitVec.ofNat 32 (link % 16 * 2 ^ 27)

/-- The local handle that a request names. -/
def localForm (h : W32) : W32 := h &&& 0x07FFFFFF

/-- An answer to a request about a function, under its communication group (R270). -/
def State.sendAnswer (s : State) (vf link tag : Nat) (v : W64) : State := { s with spokeOut := s.spokeOut ++ [(link, .answer (s.groupOf vf) tag v)] }

/-- The same when the request names no held record or no place in it (R300). -/
def State.sendRefusal (s : State) (vf link tag : Nat) : State := { s with spokeOut := s.spokeOut ++ [(link, .refuse (s.groupOf vf) tag)] }

/-! ### Replies to this part's requests -/

/-- Whether a request still waits. -/
def SpokeReq.open_ (r : SpokeReq) : Bool := r.value.isNone

/-- A disposition that was accepted, met a killed record or named none ends the fault task that was posted here, whose deadline goes (R301). -/
def State.endRemote (s : State) (h : W32) (final : Bool) (v : W64) : State :=
  if final && v != 1 then { s with remoteDue := s.remoteDue.filter fun e => e.1 != h } else s

/-- A disposition or post that succeeded, or was refused for the record's kind, ends a claim on a remote record (R301, R302). -/
def endsClaim (v : W64) : Bool := v == 0 || v == 1
def State.dropRemoteHandle (s : State) (team : Nat) (h : W32) : State :=
  s.updTeam team fun t => { t with remotes := t.remotes.filter (· != h) }

/-- When every reply of a wave is in, its lanes take their values and its group moves on (R300, R303), unless an abort has redirected them since
(R155). The lanes of a `kswr` first write, now that every home has answered. -/
def State.finishReplies (s : State) (wid : Nat) : State :=
  let rs := s.spokeReqs.filter fun r => r.wid == wid
  if rs.any SpokeReq.open_ then s
  else
    let s := { s with spokeReqs := s.spokeReqs.filter fun r => r.wid != wid }
    match rs with
    | [] => s
    | r0 :: _ =>
      let vf := match s.wave? wid with | some w => s.vfOf w | none => 0
      let s := s.updWave wid fun w =>
        { w with
          wait := .ready, now := max w.now ((w.slow.getLast?.map (·.ready)).getD 0)
          lanes := if r0.cut then w.lanes else w.lanes.mapIdx fun i l => if r0.group.contains i then { l with pc := r0.next, yielded := false } else l }
      rs.foldl (fun (s : State) r => match r.dst, r.write with
        | some d, _ => r.lanes.foldl (fun (s : State) i => s.deliverAt wid [i] d r.pair (r.value.getD 0)) s
        | none, some (off, v) =>
          if remoteHandle r.handle then s.sendFor vf (homeLink r.handle) fun n => .kswrite n r.handle off v else s.writeHeld vf r.handle off v
        | none, none => s) s

/-- The reply to a domestique's request (R304). -/
def State.takeKs (s : State) (q : KsReq) (v : W64) : State :=
  let s := { s with ksReqs := s.ksReqs.filter fun x => x.id != q.id }
  match q.reply with
  | .data => s.updKs q.core fun k => { k with ksdata := v }
  | .none => s
  | _ =>
    let s := match s.dom? q.core with
      | some d => if endsClaim v then s.setDom { d with remotes := d.remotes.filter (· != q.handle) } else s
      | none => s
    (s.endRemote q.handle (q.reply == .status) v).updKs q.core fun k => { k with ksst := v.setWidth 32 }

/-- A reply arrives. -/
def State.takeReply (s : State) (link id : Nat) (v : W64) : State :=
  match s.spokeReqs.find? fun r => r.id == id && r.link == link && r.open_ with
  | none => match s.ksReqs.find? fun q => q.id == id && q.link == link with
    | some q => s.takeKs q v
    | none => s
  | some r =>
    let s := { s with spokeReqs := updWhere s.spokeReqs (fun x => x.id == id) fun x => { x with value := some v } }
    let s := match s.wave? r.wid with
      | some w => if r.dst.isSome && !r.pair && endsClaim v then s.dropRemoteHandle w.team r.handle else s
      | none => s
    (s.endRemote r.handle r.final v).finishReplies r.wid

/-- A request was refused (R300): its wave detaches before its group with ILLEGAL, no lane changed; for a domestique, Table 105's fault condition. -/
def State.takeRefusal (s : State) (link id : Nat) : State :=
  match s.spokeReqs.find? fun r => r.id == id && r.link == link && r.open_ with
  | none => match s.ksReqs.find? fun q => q.id == id && q.link == link with
    | some q => s.failKs q
    | none => s
  | some r =>
    let s := { s with spokeReqs := s.spokeReqs.filter fun x => x.wid != r.wid }
    (s.updWave r.wid fun w => { w with wait := .ready }).detach r.wid
      { cause := Cause.illegal, done := false, faddr := r.first, amask := r.amask, laneFlags := [], codes := [] }

/-! ### Requests of a peer on records of this part (R310) -/

/-- A peer posts a record to another queue of the partition that issues it (R302): the claim ends, and the post leaves again. -/
def State.peerPost (s : State) (vf : Nat) (h : W32) (ord queue prio : Nat) : State × W32 :=
  match s.heldRec .peer vf h with
  | none => (s, 3)
  | some r =>
    if r.state = .killed then (s, 2)
    else ((s.updRecord r.id fun x => { x with state := .parked, peer := false, queue := queue, away := some (ord, queue), prio := prio }).postFault r.id, 0)

/-- A peer holds nothing any more: the record is posted again, or becomes FREE when it was killed meanwhile (Table 100). -/
def State.peerEnded (s : State) (vf : Nat) (h : W32) : State :=
  match s.heldRec .peer vf h with
  | some r => ((s.letGo .peer r.id).repost [r.id]).reap
  | none => s

/-- A post of this part could not be delivered: a PARKED record expires at home (Table 100, R310). -/
def State.peerFailed (s : State) (vf : Nat) (h : W32) : State :=
  match s.byHandle vf h with
  | some r => if r.state == .parked && r.flags.getLsbD 3 then ((s.killRecord r.id).expire r).reap else s
  | none => s

/-- The deadline of a post of this part has passed on the peer: the record expires at home as at its own deadline, whoever holds it (R309, R310). -/
def State.peerExpired (s : State) (vf : Nat) (h : W32) : State :=
  match s.byHandle vf h with
  | some r =>
    if (r.state == .parked || r.state == .claimed) && r.flags.getLsbD 3 then ((((s.letGo .peer r.id).killRecord r.id).killHere r.id).expire r).reap else s
  | none => s

/-- A record that handlers here hold, or that waits for one, has expired at home (R309): the handlers are killed. -/
def State.homeExpired (s : State) (h : W32) : State :=
  let s := { s with
    tasks := s.tasks.filter fun k => match k.kind with | .remote p _ => p.handle != h | _ => true
    remoteDue := s.remoteDue.filter fun e => e.1 != h }
  let s := s.endDoms fun d => d.remotes.contains h
  ((s.teams.filter fun t => t.remotes.contains h).map (·.id)).foldl (fun s t => s.killTeam t false 0 7) s

/-- What an accepted flit of a function does. -/
def State.takeMsg (s : State) (link vf : Nat) : SpokeMsg → State
  | .reply id v => s.takeReply link id v
  | .refused id => s.takeRefusal link id
  | .ksread tag h off =>
    match s.heldRec .peer vf (localForm h) with
    | some r =>
      if !s.offsetOk r off then s.sendRefusal vf link tag
      else match s.readFault r off with
        | some t => t.sendRefusal vf link tag
        | none => s.sendAnswer vf link tag (s.recRead r off)
    | none => s.sendRefusal vf link tag
  | .kswrite tag h off v =>
    match s.heldRec .peer vf (localForm h) with
    | some r =>
      if !s.offsetOk r off || decide (off < 0x100) then s.sendRefusal vf link tag
      else match s.writeFault r off with
        | some t => t.sendRefusal vf link tag
        | none => (s.recWrite r off v).sendAnswer vf link tag 0
    | none => s.sendRefusal vf link tag
  | .ksclaim tag h =>
    match s.byHandle vf (localForm h) with
    | some r => if r.state == .parked && r.flags.getLsbD 3 then (s.claimRec .peer r).sendAnswer vf link tag (h.setWidth 64) else s.sendAnswer vf link tag 0xFFFFFFFF
    | none => s.sendAnswer vf link tag 0xFFFFFFFF
  | .dispose tag h code addr =>
    let r := s.dispose .peer vf (localForm h) code addr
    r.1.sendAnswer vf link tag (r.2.setWidth 64)
  | .post tag h ord queue prio =>
    let r := s.peerPost vf (localForm h) ord queue prio
    r.1.sendAnswer vf link tag (r.2.setWidth 64)
  | .undeliverable h => s.peerFailed vf (localForm h)
  | .handlerEnded h => s.peerEnded vf (localForm h)
  | .nestMet h => match s.heldRec .peer vf (localForm h) with | some r => (s.letGo .peer r.id).nestMet r.id | none => s
  | .expired h => if h.getLsbD 31 then s.peerExpired vf (localForm h) else s.homeExpired (remoteForm link h)

/-- The function whose admitted group a flit names, over a link that its policy enables (R270). -/
def State.groupVf (s : State) (link group : Nat) : Option Nat :=
  (List.range Config.functions).find? fun v => (s.vf v).en && (s.vf v).groups.contains group && bits (s.vf v).hpol.toNat (16 + link) 1 == 1

/-- A flit arrives (R270): authenticated and accepted for an admitted group, or dropped. -/
def execSpokeFlitReceive (link group : Nat) (authentic : Bool) (msg : SpokeMsg) (s : State) : Host.Outcome State Fault Refusal :=
  if !authentic || link ≥ 12 then .next s
  else match s.groupVf link group with
    | none => .next s
    | some v => .next (s.takeMsg link v msg).wakeRetry

/-- A kind 3 fault task arrives (R310, R364): it waits in its queue under a deadline of that queue's clock, or it is undeliverable, which its home is told:
the function's `spk` does not enable the link back, its ring 0 has no ASID, or it holds no partition of the ordinal. A flit that fails authentication, or
whose group this part's firmware has not admitted, is dropped (R270). The notice travels although the link carries nothing else of the function's (the
model's choice, notes/assumptions/44). A task that is posted again keeps its deadline (R309). -/
def execRemotePostArrival (post : RemotePost) (s : State) : Host.Outcome State Fault Refusal :=
  let p := { post with handle := remoteForm post.link post.handle }
  let returned := s.sendSpoke post.vf post.link fun _ => .undeliverable p.handle
  if !post.authentic || !(s.vf post.vf).groups.contains post.group then .next s
  else if !s.linkOpen post.vf post.link || !s.ringBound post.vf 0 then .next returned
  else match s.partOfOrd post.vf post.pord with
    | none => .next returned
    | some part =>
      let q := post.queue % 64
      let d := ((s.remoteDue.find? fun e => e.1 == p.handle).map (·.2)).getD (s.qclock part q + (if post.deadline = 0 then 2 ^ 32 else post.deadline))
      let s := { s with remoteDue := (p.handle, d) :: s.remoteDue.filter fun e => e.1 != p.handle }
      .next (s.enqueue (mkTask part q (post.prio % 16) (.remote p d)) false).wakeRetry

end Sys2Proof.Machine
end

