-- ==== Sys2Proof/Machine/Dispatch.lean ====
section
/-! DEFINITION. The one dispatch: one arm for each row of the opcode table, each a call of that row's meaning. -/

namespace Sys2Proof.Machine

/-- What one step of the part does: an instruction issued for the selected bound group, or an event of another agent. -/
def exec (i : Instr) (s : State) : Host.Outcome State Fault Refusal :=
  match i with
  | .addB32 n d a b => Sys2Proof.Machine.execAddB32 n d a b s
  | .subB32 n d a b => Sys2Proof.Machine.execSubB32 n d a b s
  | .addsS32 n d a b => Sys2Proof.Machine.execAddsS32 n d a b s
  | .subsS32 n d a b => Sys2Proof.Machine.execSubsS32 n d a b s
  | .minS32 n d a b => Sys2Proof.Machine.execMinS32 n d a b s
  | .minZ32 n d a b => Sys2Proof.Machine.execMinZ32 n d a b s
  | .maxS32 n d a b => Sys2Proof.Machine.execMaxS32 n d a b s
  | .maxZ32 n d a b => Sys2Proof.Machine.execMaxZ32 n d a b s
  | .mulB32 n d a b => Sys2Proof.Machine.execMulB32 n d a b s
  | .mulhiS32 n d a b => Sys2Proof.Machine.execMulhiS32 n d a b s
  | .mulhiZ32 n d a b => Sys2Proof.Machine.execMulhiZ32 n d a b s
  | .divS32 n d a b => Sys2Proof.Machine.execDivS32 n d a b s
  | .divZ32 n d a b => Sys2Proof.Machine.execDivZ32 n d a b s
  | .remS32 n d a b => Sys2Proof.Machine.execRemS32 n d a b s
  | .remZ32 n d a b => Sys2Proof.Machine.execRemZ32 n d a b s
  | .andB32 n d a b => Sys2Proof.Machine.execAndB32 n d a b s
  | .orB32 n d a b => Sys2Proof.Machine.execOrB32 n d a b s
  | .xorB32 n d a b => Sys2Proof.Machine.execXorB32 n d a b s
  | .shlB32 n d a b => Sys2Proof.Machine.execShlB32 n d a b s
  | .shrZ32 n d a b => Sys2Proof.Machine.execShrZ32 n d a b s
  | .shrS32 n d a b => Sys2Proof.Machine.execShrS32 n d a b s
  | .popcB32 n d a => Sys2Proof.Machine.execPopcB32 n d a s
  | .clzB32 n d a => Sys2Proof.Machine.execClzB32 n d a s
  | .addB32Imm n d a imm => Sys2Proof.Machine.execAddB32Imm n d a imm s
  | .andB32Imm n d a imm => Sys2Proof.Machine.execAndB32Imm n d a imm s
  | .shlB32Imm n d a imm => Sys2Proof.Machine.execShlB32Imm n d a imm s
  | .shrZ32Imm n d a imm => Sys2Proof.Machine.execShrZ32Imm n d a imm s
  | .addB64 n d a b => Sys2Proof.Machine.execAddB64 n d a b s
  | .subB64 n d a b => Sys2Proof.Machine.execSubB64 n d a b s
  | .mulB64 n d a b => Sys2Proof.Machine.execMulB64 n d a b s
  | .shlB64 n d a b => Sys2Proof.Machine.execShlB64 n d a b s
  | .shrZ64 n d a b => Sys2Proof.Machine.execShrZ64 n d a b s
  | .shrS64 n d a b => Sys2Proof.Machine.execShrS64 n d a b s
  | .bfxZ32 n d a b => Sys2Proof.Machine.execBfxZ32 n d a b s
  | .bfxS32 n d a b => Sys2Proof.Machine.execBfxS32 n d a b s
  | .bfiB32 n d a b => Sys2Proof.Machine.execBfiB32 n d a b s
  | .cmpEqB32 n p a b => Sys2Proof.Machine.execCmpEqB32 n p a b s
  | .cmpNeB32 n p a b => Sys2Proof.Machine.execCmpNeB32 n p a b s
  | .cmpLtS32 n p a b => Sys2Proof.Machine.execCmpLtS32 n p a b s
  | .cmpLtZ32 n p a b => Sys2Proof.Machine.execCmpLtZ32 n p a b s
  | .cmpEqB64 n p a b => Sys2Proof.Machine.execCmpEqB64 n p a b s
  | .cmpLtS64 n p a b => Sys2Proof.Machine.execCmpLtS64 n p a b s
  | .cmpLtZ64 n p a b => Sys2Proof.Machine.execCmpLtZ64 n p a b s
  | .saddB64 d a b => Sys2Proof.Machine.execSaddB64 d a b s
  | .saddB64Imm d a imm => Sys2Proof.Machine.execSaddB64Imm d a imm s
  | .ssubB64 d a b => Sys2Proof.Machine.execSsubB64 d a b s
  | .ssubB64Imm d a imm => Sys2Proof.Machine.execSsubB64Imm d a imm s
  | .smulB64 d a b => Sys2Proof.Machine.execSmulB64 d a b s
  | .smulB64Imm d a imm => Sys2Proof.Machine.execSmulB64Imm d a imm s
  | .sandB64 d a b => Sys2Proof.Machine.execSandB64 d a b s
  | .sandB64Imm d a imm => Sys2Proof.Machine.execSandB64Imm d a imm s
  | .sorB64 d a b => Sys2Proof.Machine.execSorB64 d a b s
  | .sorB64Imm d a imm => Sys2Proof.Machine.execSorB64Imm d a imm s
  | .sxorB64 d a b => Sys2Proof.Machine.execSxorB64 d a b s
  | .sxorB64Imm d a imm => Sys2Proof.Machine.execSxorB64Imm d a imm s
  | .sshlB64 d a b => Sys2Proof.Machine.execSshlB64 d a b s
  | .sshlB64Imm d a imm => Sys2Proof.Machine.execSshlB64Imm d a imm s
  | .sshrZ64 d a b => Sys2Proof.Machine.execSshrZ64 d a b s
  | .sshrZ64Imm d a imm => Sys2Proof.Machine.execSshrZ64Imm d a imm s
  | .smovB64 d a => Sys2Proof.Machine.execSmovB64 d a s
  | .smovB64Imm d imm => Sys2Proof.Machine.execSmovB64Imm d imm s
  | .scmpEqB64 d a b => Sys2Proof.Machine.execScmpEqB64 d a b s
  | .scmpEqB64Imm d a imm => Sys2Proof.Machine.execScmpEqB64Imm d a imm s
  | .scmpLtS64 d a b => Sys2Proof.Machine.execScmpLtS64 d a b s
  | .scmpLtS64Imm d a imm => Sys2Proof.Machine.execScmpLtS64Imm d a imm s
  | .scmpLtZ64 d a b => Sys2Proof.Machine.execScmpLtZ64 d a b s
  | .scmpLtZ64Imm d a imm => Sys2Proof.Machine.execScmpLtZ64Imm d a imm s
  | .addF32 n d a b => Sys2Proof.Machine.execAddF32 n d a b s
  | .subF32 n d a b => Sys2Proof.Machine.execSubF32 n d a b s
  | .mulF32 n d a b => Sys2Proof.Machine.execMulF32 n d a b s
  | .fmaF32 n d a b => Sys2Proof.Machine.execFmaF32 n d a b s
  | .divF32 n d a b => Sys2Proof.Machine.execDivF32 n d a b s
  | .minF32 n d a b => Sys2Proof.Machine.execMinF32 n d a b s
  | .maxF32 n d a b => Sys2Proof.Machine.execMaxF32 n d a b s
  | .sqrtF32 n d a => Sys2Proof.Machine.execSqrtF32 n d a s
  | .rcpF32 n d a => Sys2Proof.Machine.execRcpF32 n d a s
  | .rsqF32 n d a => Sys2Proof.Machine.execRsqF32 n d a s
  | .exp2F32 n d a => Sys2Proof.Machine.execExp2F32 n d a s
  | .log2F32 n d a => Sys2Proof.Machine.execLog2F32 n d a s
  | .sinpiF32 n d a => Sys2Proof.Machine.execSinpiF32 n d a s
  | .cospiF32 n d a => Sys2Proof.Machine.execCospiF32 n d a s
  | .addF64 n d a b => Sys2Proof.Machine.execAddF64 n d a b s
  | .subF64 n d a b => Sys2Proof.Machine.execSubF64 n d a b s
  | .mulF64 n d a b => Sys2Proof.Machine.execMulF64 n d a b s
  | .fmaF64 n d a b => Sys2Proof.Machine.execFmaF64 n d a b s
  | .divF64 n d a b => Sys2Proof.Machine.execDivF64 n d a b s
  | .minF64 n d a b => Sys2Proof.Machine.execMinF64 n d a b s
  | .maxF64 n d a b => Sys2Proof.Machine.execMaxF64 n d a b s
  | .sqrtF64 n d a => Sys2Proof.Machine.execSqrtF64 n d a s
  | .addF16 n d a b => Sys2Proof.Machine.execAddF16 n d a b s
  | .subF16 n d a b => Sys2Proof.Machine.execSubF16 n d a b s
  | .mulF16 n d a b => Sys2Proof.Machine.execMulF16 n d a b s
  | .fmaF16 n d a b => Sys2Proof.Machine.execFmaF16 n d a b s
  | .divF16 n d a b => Sys2Proof.Machine.execDivF16 n d a b s
  | .addBf16 n d a b => Sys2Proof.Machine.execAddBf16 n d a b s
  | .subBf16 n d a b => Sys2Proof.Machine.execSubBf16 n d a b s
  | .mulBf16 n d a b => Sys2Proof.Machine.execMulBf16 n d a b s
  | .fmaBf16 n d a b => Sys2Proof.Machine.execFmaBf16 n d a b s
  | .sqrtF16 n d a => Sys2Proof.Machine.execSqrtF16 n d a s
  | .rcpF16 n d a => Sys2Proof.Machine.execRcpF16 n d a s
  | .rsqF16 n d a => Sys2Proof.Machine.execRsqF16 n d a s
  | .exp2F16 n d a => Sys2Proof.Machine.execExp2F16 n d a s
  | .log2F16 n d a => Sys2Proof.Machine.execLog2F16 n d a s
  | .cmpEqF32 n p a b => Sys2Proof.Machine.execCmpEqF32 n p a b s
  | .cmpLtF32 n p a b => Sys2Proof.Machine.execCmpLtF32 n p a b s
  | .cmpLeF32 n p a b => Sys2Proof.Machine.execCmpLeF32 n p a b s
  | .cmpEqF64 n p a b => Sys2Proof.Machine.execCmpEqF64 n p a b s
  | .cmpLtF64 n p a b => Sys2Proof.Machine.execCmpLtF64 n p a b s
  | .cmpLeF64 n p a b => Sys2Proof.Machine.execCmpLeF64 n p a b s
  | .cvtF64F32 n d a => Sys2Proof.Machine.execCvtF64F32 n d a s
  | .cvtF32F64 n d a => Sys2Proof.Machine.execCvtF32F64 n d a s
  | .cvtF32F16 n d a => Sys2Proof.Machine.execCvtF32F16 n d a s
  | .cvtF16F32 n d a => Sys2Proof.Machine.execCvtF16F32 n d a s
  | .cvtF32Bf16 n d a => Sys2Proof.Machine.execCvtF32Bf16 n d a s
  | .cvtBf16F32 n d a => Sys2Proof.Machine.execCvtBf16F32 n d a s
  | .cvtS32F32 n d a => Sys2Proof.Machine.execCvtS32F32 n d a s
  | .cvtZ32F32 n d a => Sys2Proof.Machine.execCvtZ32F32 n d a s
  | .cvtF32S32 n d a => Sys2Proof.Machine.execCvtF32S32 n d a s
  | .cvtF32Z32 n d a => Sys2Proof.Machine.execCvtF32Z32 n d a s
  | .cvtS64F64 n d a => Sys2Proof.Machine.execCvtS64F64 n d a s
  | .cvtF64S64 n d a => Sys2Proof.Machine.execCvtF64S64 n d a s
  | .rdcAddF32 n d a => Sys2Proof.Machine.execRdcAddF32 n d a s
  | .rdcAddF64 n d a => Sys2Proof.Machine.execRdcAddF64 n d a s
  | .rdcMinF32 n d a => Sys2Proof.Machine.execRdcMinF32 n d a s
  | .rdcMaxF32 n d a => Sys2Proof.Machine.execRdcMaxF32 n d a s
  | .rdcAddS32 n d a => Sys2Proof.Machine.execRdcAddS32 n d a s
  | .rdcAddZ64 n d a => Sys2Proof.Machine.execRdcAddZ64 n d a s
  | .rngxB32 n d a b => Sys2Proof.Machine.execRngxB32 n d a b s
  | .rngxB64 n d a b => Sys2Proof.Machine.execRngxB64 n d a b s
  | .mma a => Sys2Proof.Machine.execMma a s
  | .mread d a => Sys2Proof.Machine.execMread d a s
  | .mwrite a b => Sys2Proof.Machine.execMwrite a b s
  | .mzero a => Sys2Proof.Machine.execMzero a s
  | .mstat d a b => Sys2Proof.Machine.execMstat d a b s
  | .mwin d a b => Sys2Proof.Machine.execMwin d a b s
  | .crsv d a => Sys2Proof.Machine.execCrsv d a s
  | .crel d a => Sys2Proof.Machine.execCrel d a s
  | .quantAq8 d a g => Sys2Proof.Machine.execQuantAq8 d a g s
  | .quantAq4 d a g => Sys2Proof.Machine.execQuantAq4 d a g s
  | .dquantAq8 d a g => Sys2Proof.Machine.execDquantAq8 d a g s
  | .dquantAq4 d a g => Sys2Proof.Machine.execDquantAq4 d a g s
  | .ldZ8 d a o => Sys2Proof.Machine.execLdZ8 d a o s
  | .ldS8 d a o => Sys2Proof.Machine.execLdS8 d a o s
  | .ldZ16 d a o => Sys2Proof.Machine.execLdZ16 d a o s
  | .ldS16 d a o => Sys2Proof.Machine.execLdS16 d a o s
  | .ldB32 d a o => Sys2Proof.Machine.execLdB32 d a o s
  | .ldB64 d a o => Sys2Proof.Machine.execLdB64 d a o s
  | .stB8 d a o => Sys2Proof.Machine.execStB8 d a o s
  | .stB16 d a o => Sys2Proof.Machine.execStB16 d a o s
  | .stB32 d a o => Sys2Proof.Machine.execStB32 d a o s
  | .stB64 d a o => Sys2Proof.Machine.execStB64 d a o s
  | .tagq d a => Sys2Proof.Machine.execTagq d a s
  | .tagset d a b => Sys2Proof.Machine.execTagset d a b s
  | .tagclr d a => Sys2Proof.Machine.execTagclr d a s
  | .taginv d => Sys2Proof.Machine.execTaginv d s
  | .copyIn a => Sys2Proof.Machine.execCopyIn a s
  | .copyOut a => Sys2Proof.Machine.execCopyOut a s
  | .copyOutDigest d a => Sys2Proof.Machine.execCopyOutDigest d a s
  | .hget d => Sys2Proof.Machine.execHget d s
  | .hfree d a => Sys2Proof.Machine.execHfree d a s
  | .hwait d a => Sys2Proof.Machine.execHwait d a s
  | .atomAddZ32 n d a b => Sys2Proof.Machine.execAtomAddZ32 n d a b s
  | .atomAddZ64 n d a b => Sys2Proof.Machine.execAtomAddZ64 n d a b s
  | .atomXchgB32 n d a b => Sys2Proof.Machine.execAtomXchgB32 n d a b s
  | .atomCasB32 n d a b => Sys2Proof.Machine.execAtomCasB32 n d a b s
  | .atomCasB64 n d a b => Sys2Proof.Machine.execAtomCasB64 n d a b s
  | .redAddF32 a b => Sys2Proof.Machine.execRedAddF32 a b s
  | .redAddF64 a b => Sys2Proof.Machine.execRedAddF64 a b s
  | .xaddF32 a b => Sys2Proof.Machine.execXaddF32 a b s
  | .xseal d a => Sys2Proof.Machine.execXseal d a s
  | .xzero a => Sys2Proof.Machine.execXzero a s
  | .bkmode a b => Sys2Proof.Machine.execBkmode a b s
  | .bkld a b => Sys2Proof.Machine.execBkld a b s
  | .bkmac a b => Sys2Proof.Machine.execBkmac a b s
  | .bkrd a b => Sys2Proof.Machine.execBkrd a b s
  | .bkzero a b => Sys2Proof.Machine.execBkzero a b s
  | .bkwait => Sys2Proof.Machine.execBkwait s
  | .cmtB n d => Sys2Proof.Machine.execCmtB n d s
  | .cmtT n d => Sys2Proof.Machine.execCmtT n d s
  | .cmtD n d => Sys2Proof.Machine.execCmtD n d s
  | .cmtBLw n d => Sys2Proof.Machine.execCmtBLw n d s
  | .cmtTLw n d => Sys2Proof.Machine.execCmtTLw n d s
  | .cmtDLw n d => Sys2Proof.Machine.execCmtDLw n d s
  | .abtW => Sys2Proof.Machine.execAbtW s
  | .abtB => Sys2Proof.Machine.execAbtB s
  | .abtT => Sys2Proof.Machine.execAbtT s
  | .fence s0 => Sys2Proof.Machine.execFence s0 s
  | .opnW o => Sys2Proof.Machine.execOpnW o s
  | .opnB o => Sys2Proof.Machine.execOpnB o s
  | .opnT o => Sys2Proof.Machine.execOpnT o s
  | .cln a b => Sys2Proof.Machine.execCln a b s
  | .inv a b => Sys2Proof.Machine.execInv a b s
  | .cinv a b => Sys2Proof.Machine.execCinv a b s
  | .brGuarded g e o => Sys2Proof.Machine.execBrGuarded g e o s
  | .bryGuarded g e o => Sys2Proof.Machine.execBryGuarded g e o s
  | .callGuarded g e o => Sys2Proof.Machine.execCallGuarded g e o s
  | .br o => Sys2Proof.Machine.execBr o s
  | .bry o => Sys2Proof.Machine.execBry o s
  | .call o => Sys2Proof.Machine.execCall o s
  | .callr a => Sys2Proof.Machine.execCallr a s
  | .ret => Sys2Proof.Machine.execRet s
  | .jmpr a => Sys2Proof.Machine.execJmpr a s
  | .exit => Sys2Proof.Machine.execExit s
  | .trap a => Sys2Proof.Machine.execTrap a s
  | .bsync => Sys2Proof.Machine.execBsync s
  | .yield => Sys2Proof.Machine.execYield s
  | .nop => Sys2Proof.Machine.execNop s
  | .lany p q => Sys2Proof.Machine.execLany p q s
  | .lall p q => Sys2Proof.Machine.execLall p q s
  | .lbits d q => Sys2Proof.Machine.execLbits d q s
  | .xlIdx d a b => Sys2Proof.Machine.execXlIdx d a b s
  | .xlLo d a b => Sys2Proof.Machine.execXlLo d a b s
  | .xlHi d a b => Sys2Proof.Machine.execXlHi d a b s
  | .xlXor d a b => Sys2Proof.Machine.execXlXor d a b s
  | .sget s0 a => Sys2Proof.Machine.execSget s0 a s
  | .xlRot d a b => Sys2Proof.Machine.execXlRot d a b s
  | .spawn d a b => Sys2Proof.Machine.execSpawn d a b s
  | .regroup a b => Sys2Proof.Machine.execRegroup a b s
  | .racktm a => Sys2Proof.Machine.execRacktm a s
  | .waitc d a b => Sys2Proof.Machine.execWaitc d a b s
  | .spr x c => Sys2Proof.Machine.execSpr x c s
  | .srd x c => Sys2Proof.Machine.execSrd x c s
  | .swr x c => Sys2Proof.Machine.execSwr x c s
  | .ksclaim d a => Sys2Proof.Machine.execKsclaim d a s
  | .ksrd d a => Sys2Proof.Machine.execKsrd d a s
  | .kswr a b => Sys2Proof.Machine.execKswr a b s
  | .ksres d a => Sys2Proof.Machine.execKsres d a s
  | .ksrty d a => Sys2Proof.Machine.execKsrty d a s
  | .ksdir d a b => Sys2Proof.Machine.execKsdir d a b s
  | .kskill d a => Sys2Proof.Machine.execKskill d a s
  | .qpost d a b => Sys2Proof.Machine.execQpost d a b s
  | .qclk d a => Sys2Proof.Machine.execQclk d a s
  | .sigrd d a => Sys2Proof.Machine.execSigrd d a s
  | .sigclr => Sys2Proof.Machine.execSigclr s
  | .chkv d a => Sys2Proof.Machine.execChkv d a s
  | .scrub d a b => Sys2Proof.Machine.execScrub d a b s
  | .asidld d a b => Sys2Proof.Machine.execAsidld d a b s
  | .pgret d a => Sys2Proof.Machine.execPgret d a s
  | .wayq d a b => Sys2Proof.Machine.execWayq d a b s
  | .tlbinv d a b => Sys2Proof.Machine.execTlbinv d a b s
  | .kspool d a => Sys2Proof.Machine.execKspool d a s
  | .wideImmediate p => Sys2Proof.Machine.execWideImmediate p s
  | .modifierHint r t g p e u c s0 => Sys2Proof.Machine.execModifierHint r t g p e u c s0 s
  | .schedulingHint n => Sys2Proof.Machine.execSchedulingHint n s
  | .rackTimerExpiry wid => Sys2Proof.Machine.execRackTimerExpiry wid s
  | .mmaStart op => Sys2Proof.Machine.execMmaStart op s
  | .mmaComplete op => Sys2Proof.Machine.execMmaComplete op s
  | .copySegmentRun copy seg => Sys2Proof.Machine.execCopySegmentRun copy seg s
  | .deviceCommitPublish team => Sys2Proof.Machine.execDeviceCommitPublish team s
  | .deferredReductionApply team => Sys2Proof.Machine.execDeferredReductionApply team s
  | .remoteOpPerform op => Sys2Proof.Machine.execRemoteOpPerform op s
  | .bankOpPerform op => Sys2Proof.Machine.execBankOpPerform op s
  | .monitorArm wid lane => Sys2Proof.Machine.execMonitorArm wid lane s
  | .monitorWake wid lane => Sys2Proof.Machine.execMonitorWake wid lane s
  | .ticketRead vf ring => Sys2Proof.Machine.execTicketRead vf ring s
  | .publishWrite vf ring value => Sys2Proof.Machine.execPublishWrite vf ring value s
  | .notifyWrite vf ring => Sys2Proof.Machine.execNotifyWrite vf ring s
  | .configurationReread vf ring => Sys2Proof.Machine.execConfigurationReread vf ring s
  | .cheadWrite vf ring value => Sys2Proof.Machine.execCheadWrite vf ring value s
  | .registerWrite reg value => Sys2Proof.Machine.execRegisterWrite reg value s
  | .slotConsume vf ring => Sys2Proof.Machine.execSlotConsume vf ring s
  | .nopCommand vf ring seq => Sys2Proof.Machine.execNopCommand vf ring seq s
  | .launch vf ring seq => Sys2Proof.Machine.execLaunch vf ring seq s
  | .barrier vf ring seq => Sys2Proof.Machine.execBarrier vf ring seq s
  | .prologueEnd launch => Sys2Proof.Machine.execPrologueEnd launch s
  | .prologueRepeat launch => Sys2Proof.Machine.execPrologueRepeat launch s
  | .taskDispatch part => Sys2Proof.Machine.execTaskDispatch part s
  | .teamStart team => Sys2Proof.Machine.execTeamStart team s
  | .affinityWaitExpiry task => Sys2Proof.Machine.execAffinityWaitExpiry task s
  | .starvationBlock task => Sys2Proof.Machine.execStarvationBlock task s
  | .commandComplete vf ring seq => Sys2Proof.Machine.execCommandComplete vf ring seq s
  | .budgetExpiry team => Sys2Proof.Machine.execBudgetExpiry team s
  | .launchDeadlineExpiry launch => Sys2Proof.Machine.execLaunchDeadlineExpiry launch s
  | .evictionOrder team saveArea => Sys2Proof.Machine.execEvictionOrder team saveArea s
  | .imageWrite team => Sys2Proof.Machine.execImageWrite team s
  | .jobMemoryMove item => Sys2Proof.Machine.execJobMemoryMove item s
  | .recordMove team part => Sys2Proof.Machine.execRecordMove team part s
  | .partitionFree part => Sys2Proof.Machine.execPartitionFree part s
  | .partitionAssign part vf => Sys2Proof.Machine.execPartitionAssign part vf s
  | .qenWrite part value => Sys2Proof.Machine.execQenWrite part value s
  | .vfEnable vf => Sys2Proof.Machine.execVfEnable vf s
  | .vfDisable vf => Sys2Proof.Machine.execVfDisable vf s
  | .hpolWrite vf value => Sys2Proof.Machine.execHpolWrite vf value s
  | .functionLevelReset vf => Sys2Proof.Machine.execFunctionLevelReset vf s
  | .hostMemRead vf dpa len => Sys2Proof.Machine.execHostMemRead vf dpa len s
  | .hostMemWrite vf dpa data => Sys2Proof.Machine.execHostMemWrite vf dpa data s
  | .backgroundScrub page => Sys2Proof.Machine.execBackgroundScrub page s
  | .cellBlockGrant vf page => Sys2Proof.Machine.execCellBlockGrant vf page s
  | .spokeFlitReceive link group authentic msg => Sys2Proof.Machine.execSpokeFlitReceive link group authentic msg s
  | .remotePostArrival post => Sys2Proof.Machine.execRemotePostArrival post s
  | .assistAnswer part answer => Sys2Proof.Machine.execAssistAnswer part answer s
  | .firmwareDownload image => Sys2Proof.Machine.execFirmwareDownload image s
  | .powerUp => Sys2Proof.Machine.execPowerUp s
  | .perstAssert port => Sys2Proof.Machine.execPerstAssert port s
  | .thermtrip => Sys2Proof.Machine.execThermtrip s
  | .pwrfail => Sys2Proof.Machine.execPwrfail s
  | .thermalThrottle => Sys2Proof.Machine.execThermalThrottle s
  | .thermalRecover => Sys2Proof.Machine.execThermalRecover s
  | .recordGrant part => Sys2Proof.Machine.execRecordGrant part s
  | .poolWaitDeadline unit => Sys2Proof.Machine.execPoolWaitDeadline unit s
  | .faultDeadlineExpiry record => Sys2Proof.Machine.execFaultDeadlineExpiry record s
  | .waveRebuild record => Sys2Proof.Machine.execWaveRebuild record s
  | .linkTimeout request => Sys2Proof.Machine.execLinkTimeout request s
  | .patrolRead loc => Sys2Proof.Machine.execPatrolRead loc s
  | .spareFill page => Sys2Proof.Machine.execSpareFill page s
  | .ksdataRead core ksh ksoff => Sys2Proof.Machine.execKsdataRead core ksh ksoff s
  | .ksdataWrite core ksh ksoff value => Sys2Proof.Machine.execKsdataWrite core ksh ksoff value s
  | .kscmdClaim core ksh value => Sys2Proof.Machine.execKscmdClaim core ksh value s
  | .kscmdResume core ksh value => Sys2Proof.Machine.execKscmdResume core ksh value s
  | .kscmdRetry core ksh value => Sys2Proof.Machine.execKscmdRetry core ksh value s
  | .kscmdRedirect core ksh ksaddr value => Sys2Proof.Machine.execKscmdRedirect core ksh ksaddr value s
  | .kscmdKill core ksh value => Sys2Proof.Machine.execKscmdKill core ksh value s
  | .kscmdPost core ksh value => Sys2Proof.Machine.execKscmdPost core ksh value s
  | .unassignedSlot word => Sys2Proof.Machine.execUnassignedSlot word s
  | .instructionFetch => Sys2Proof.Machine.execInstructionFetch s
  | .softError loc sort => Sys2Proof.Machine.execSoftError loc sort s
  | .pageOwnershipChange page owner => Sys2Proof.Machine.execPageOwnershipChange page owner s
  | .logicalDeviceBind ld host => Sys2Proof.Machine.execLogicalDeviceBind ld host s
  | .domestiqueHandlerEnd core => Sys2Proof.Machine.execDomestiqueHandlerEnd core s
  | .perstRelease port => Sys2Proof.Machine.execPerstRelease port s

end Sys2Proof.Machine
end

