-- ==== Sys2Proof/Machine/Schedule.lean ====
section
/-! DEFINITION. What runs next: the lane group of a wave (spec/09 R204, R205), the derailleur of a core (R216, R217), the words of a bound group
(spec/02 R34), the events of engines, firmware and queues, and the clocks that pass (notes/assumptions/1, 6). -/

namespace Sys2Proof.Machine

/-! ### The group at an address -/

/-- The instruction word of the bound group at an address, behind at most two hints (R34, R35). -/
def State.boundWord (s : State) (w : Wave) (vf : Nat) : Nat → W57 → Option IWord
  | 0, _ => none
  | n + 1, pc =>
    match s.fetch w vf pc with
    | .error _ => none
    | .ok x => if (x.extractLsb' 26 6).toNat = 0x3F then s.boundWord w vf n (pc + 4) else some x

/-- The words of the bound group at an address: its hints and the word that ends it (R34). -/
def State.boundLen (s : State) (w : Wave) (vf : Nat) : Nat → W57 → Nat
  | 0, _ => 1
  | n + 1, pc =>
    match s.fetch w vf pc with
    | .error _ => 1
    | .ok x => if (x.extractLsb' 26 6).toNat = 0x3F then 1 + s.boundLen w vf n (pc + 4) else 1

/-- Whether a word is an instruction that makes its group convergent (R204): commits and aborts, openings, `bsync`, `regroup` (Table 13). -/
def convergent (x : IWord) : Bool :=
  let major := (x.extractLsb' 26 6).toNat
  let fn := (x.extractLsb' 22 4).toNat
  (decodeWord x).isOk && ((major == 0x26 && decide (fn ≤ 8)) || major == 0x27 || (major == 0x32 && fn == 5) || (major == 0x34 && fn == 1))

/-! ### The lane group of a wave (R204, R205) -/

/-- What R204 selects. -/
inductive Choice where
  /-- the wave is not ready -/
  | none
  /-- every live lane is held and they are not all at one PC: the address of the held lane with the lowest key (R205) -/
  | stuck (pc : W57)
  /-- the lanes, and their PC -/
  | lanes (ls : List Nat) (pc : W57)
  deriving DecidableEq, Repr

/-- The lane positions of the program that are live. -/
def Wave.liveLanes (w : Wave) : List Nat := (List.range w.plan).filter fun i => (w.lanes[i]?.map (·.live)).getD false

def Wave.keyOf (w : Wave) (i : Nat) : Nat := (w.lanes[i]?.map keyWord).getD 0
def Wave.pcOf (w : Wave) (i : Nat) : W57 := (w.lanes[i]?.map (·.pc)).getD 0
def Wave.asleepAt (w : Wave) (i : Nat) : Bool := (w.lanes[i]?.map fun l => l.sleep.isSome).getD false

/-- The lane with the lowest key word of some lanes. -/
def Wave.lowestKey (w : Wave) : List Nat → Option Nat
  | [] => none
  | i :: is => some (is.foldl (fun m j => if w.keyOf j < w.keyOf m then j else m) i)

/-- The selection of R204, among the lanes of a wave none of whose groups has issued and waits. -/
def State.pick (s : State) (w : Wave) : Choice :=
  let live := w.liveLanes
  let vf := s.waveVf w
  let pcs := (live.map w.pcOf).eraseDups
  let held := pcs.filter fun pc => ((s.boundWord w vf 3 pc).map convergent).getD false
  match pcs with
  | [] => .none
  | [pc] =>
    if held.contains pc then .lanes live pc
    else
      let e := live.filter fun i => !w.asleepAt i
      match w.lowestKey e with
      | none => .none
      | some i => .lanes (e.filter fun j => w.keyOf j == w.keyOf i) pc
  | _ =>
    let e := live.filter fun i => !held.contains (w.pcOf i) && !w.asleepAt i
    match w.lowestKey e with
    | some i => .lanes (e.filter fun j => w.keyOf j == w.keyOf i) (w.pcOf i)
    | none =>
      if live.any w.asleepAt then .none
      else match w.lowestKey live with
        | some i => .stuck (w.pcOf i)
        | none => .none

/-- Whether a wave may issue at all: launched, not waiting as a wave, its team on its cores and not draining but for a hold (R257, R31), no twin
notice pending (R331). -/
def State.mayIssue (s : State) (w : Wave) : Bool :=
  w.running && (w.wait == .ready || w.wait == .trial) &&
  (match w.prologue with
   | some p => p.ended.isNone
   | none => match s.team? w.team with
     | some t => t.notice.isNone && (t.active || (t.phase == .draining && decide (w.hold > 0)))
     | none => false)

/-- A prologue that has issued 4,096 groups or left its 256 words ends (R245). -/
def Wave.outside (w : Wave) (pc : W57) : Bool :=
  match w.prologue with
  | some p => decide (p.issued ≥ 4096) || decide (pc.toNat < p.code) || decide (p.code + 1024 ≤ pc.toNat)
  | none => false

/-- The group that a wave would issue from its first word on. -/
def State.groupAt (s : State) (w : Wave) (ls : List Nat) (pc : W57) : Group :=
  { wid := w.wid, lanes := ls, first := pc, at_ := pc, wides := [], modifier := none, sched := none, word := (s.boundWord w (s.waveVf w) 3 pc).getD 0 }

/-! ### Issuing the words of the selected group (R34, R39) -/

/-- Issue the next word of the group: fetched (R223), decoded, executed; a word that cannot be fetched or is no instruction has its own step. -/
def State.issueWord (s : State) (g : Group) : Host.Outcome State Fault Refusal :=
  match s.wave? g.wid with
  | none => .next { s with grp := none }
  | some w =>
    if w.outside g.at_ then
      .next (s.detach g.wid { cause := Cause.illegal, done := false, faddr := g.first, amask := 0, laneFlags := [], codes := [] })
    else if s.fetchWaits w (s.waveVf w) g.at_ then .next (({ s with grp := none } : State).updWave g.wid Wave.stall)
    else match s.fetch w (s.waveVf w) g.at_ with
      | .error _ => execInstructionFetch s
      | .ok x => match decodeWord x with
        | .ok i => exec i s
        | .error _ => execUnassignedSlot x s

/-! ### Ready waves and the derailleur (R216, R217) -/

/-- Issue the words of the selected group, at most n. -/
def State.issueGroup : Nat → State → State
  | 0, s => s
  | n + 1, s => match s.grp with
    | none => s
    | some g => match s.issueWord g with
      | .next t => State.issueGroup n t
      | _ => s

/-- Instructions that what they need may keep from issuing: those of the matrix engine (R125, Table 48), the copies (R180), and those that wait on the range
scoreboard (R175, R124, R132, R189). -/
def State.mayStall (s : State) (x : IWord) : Bool :=
  let k := (x.extractLsb' 22 10).toNat
  (decide (0x180 ≤ k) && decide (k ≤ 0x184)) || (decide (0x230 ≤ k) && decide (k ≤ 0x232)) ||
    (!s.guards.isEmpty && (decide (0x200 ≤ k) && decide (k < 0x220) || k == 0x186 || k == 0x251 || k == 0x253 || k == 0x3C2))

/-- Whether a group is tried before it is judged ready: the wave waits in it, or may be kept from issuing it. The first issue of any other instruction is
not tried. -/
def State.tries (s : State) (w : Wave) (pc : W57) : Bool :=
  w.wait == .trial || (s.boundWord w (s.waveVf w) 3 pc).any s.mayStall || s.mmas.any fun m => m.wid == w.wid

/-- What a wave would be after a try of a group on a copy of the state. -/
def State.tried (s : State) (w : Wave) (ls : List Nat) (pc : W57) : Option Wave :=
  ((({ s with grp := some (s.groupAt w ls pc) } : State).updWave w.wid fun x => { x with wait := .ready }).issueGroup 4).wave? w.wid

/-- Whether a wave's group would wait: the instruction that it waits in goes on waiting, or an interlock of R125, a full matrix engine, the range scoreboard
or a fetch keeps the group from issuing (R216, R180). -/
def State.notReady (s : State) (w : Wave) (ls : List Nat) (pc : W57) : Bool :=
  s.tries w pc && (s.tried w ls pc).any fun x => x.wait == .retry && (w.inWait.isSome || x.inWait.isNone)

/-- A wave whose hold ends because it has come to an instruction of the third or fourth case of R32 that does not issue yet: one for which its other lanes
have still to wake (R204: those that its lanes are held at are of the third case), or one that is kept from issuing. -/
def State.holdOver (s : State) (w : Wave) : Wave :=
  if w.hold = 0 || w.inWait.isSome || !s.mayIssue w then w
  else match s.pick w with
    | .none => w.endHold
    | .stuck _ => w
    | .lanes ls pc => match if s.tries w pc then s.tried w ls pc else none with
      | some x => if x.wait == .retry && x.hold == 0 then { w.endHold with barred := x.barred } else w
      | none => w

/-- The holds that end so on every core (R31, R32). -/
def State.endHolds (s : State) : State := (s.waves.filter fun w => decide (w.hold > 0)).foldl (fun (s : State) w => s.updWave w.wid s.holdOver) s

/-- A ready wave, with what it would issue and the engine that takes it. -/
structure Ready where
  wave : Wave
  choice : Choice
  engine : Nat
  deriving DecidableEq, Repr

/-- The waves of a core that hold it (R31). -/
def State.holding (s : State) (core : Nat) : List Nat :=
  (s.waves.filter fun w => w.core == core && w.prologue.isNone && w.running && decide (w.hold > 0)).map (·.wid)

/-- A group of a core that has issued and waited goes on, what it waited for having come (R206, R216): it does not issue a second time, so that neither
ages nor idle counts change (R217). -/
def State.resumable (s : State) (core : Nat) : Option State :=
  (s.waves.filter fun w => w.core == core && w.inWait.isSome && s.mayIssue w).findSome? fun w =>
    w.inWait.bind fun g =>
      if s.notReady w g.1 g.2 then none else some { (s.updWave w.wid fun x => { x with wait := .ready }) with grp := some (s.groupAt w g.1 g.2) }

/-- The ready waves of a core (R216). -/
def State.readyOn (s : State) (core : Nat) : List Ready :=
  (s.waves.filter fun w => w.core == core && w.inWait.isNone && s.mayIssue w).filterMap fun w =>
    match s.pick w with
    | .none => none
    | .stuck pc => some { wave := w, choice := .stuck pc, engine := 5 }
    | .lanes ls pc =>
      if s.notReady w ls pc then none else some { wave := w, choice := .lanes ls pc, engine := ((s.boundWord w (s.waveVf w) 3 pc).map engineOf).getD 5 }

/-- The idle count of an engine of a core. -/
def State.idleOf (s : State) (core engine : Nat) : Nat := ((assoc s.idle core).getD []).getD engine 0

/-- Whether the derailleur prefers one ready wave to another (R217 steps 2 and 3). -/
def State.prefers (s : State) (a b : Ready) : Bool :=
  let forced := a.wave.age ≥ 256 || b.wave.age ≥ 256
  let ia := s.idleOf a.wave.core a.engine
  let ib := s.idleOf b.wave.core b.engine
  if forced || ia = ib then decide (b.wave.age < a.wave.age) || (a.wave.age == b.wave.age && decide (a.wave.slot < b.wave.slot))
  else decide (ib < ia)

/-- The wave the derailleur of a core chooses, with all that are ready there; a hold lets only its own wave issue (R31, R217). -/
def State.chosen (s : State) (core : Nat) : Option (Ready × List Ready) :=
  let ready := s.readyOn core
  let hs := s.holding core
  match ready.filter fun r => r.wave.prologue.isSome || hs.isEmpty || hs.contains r.wave.wid with
  | [] => none
  | r :: rs => some (rs.foldl (fun m x => if s.prefers x m then x else m) r, ready)

/-- The idle counts of a core's engines after n clocks: that of an engine that accepts a group starts again, and a full matrix engine, which can accept none,
does not count (R217). -/
def State.idleAfter (s : State) (core n : Nat) (accepts : Option Nat) : List Nat :=
  (List.range 6).map fun k => if some k = accepts || (k = 0 && decide (s.engineUse core ≥ Config.mmaDepth)) then 0 else s.idleOf core k + n

/-- The clocks of a core on which a wave issues, one for each word of its group: the other ready waves grow older, the engines' idle counts go on (R217). The
waves of a core have one clock: it stands where the latest of them has come to, the clocks included for which an interlock kept it from issuing. -/
def State.coreClock (s : State) (r : Ready) (ready : List Ready) : State :=
  let core := r.wave.core
  let others := (ready.map fun x => x.wave.wid).filter (· != r.wave.wid)
  let n := match r.choice with | .lanes _ pc => s.boundLen r.wave (s.waveVf r.wave) 3 pc | _ => 1
  let now := s.waves.foldl (fun t w => if w.core = core then max t w.now else t) 0
  { s with
    waves := s.waves.map fun w =>
      if w.wid = r.wave.wid then { w with wait := .ready, now := now }
      else if w.core = core then { w with age := if others.contains w.wid then w.age + n else w.age, now := now + n } else w
    idle := assocSet s.idle core (s.idleAfter core n (some r.engine))
    issued := if s.issued.contains core then s.issued else s.issued ++ [core] }

/-- The derailleur of a core selects a group for issue, or detaches a wave none of whose lanes can issue (R205): its record's mask names the held lanes at
the PC reported, since no group was selected whose Active Table 98 could mean (the model's choice, notes/assumptions/44). -/
def State.startGroup (s : State) (r : Ready) (ready : List Ready) : State :=
  let s := ((s.coreClock r ready).sweep r.wave.core).parity r.wave.core
  match r.choice with
  | .none => s
  | .stuck pc =>
    (s.detach r.wave.wid
      { cause := Cause.illegal, done := false, faddr := pc, amask := maskOf 64 fun i => r.wave.liveLanes.contains i && r.wave.pcOf i == pc,
        laneFlags := [], codes := [] }).wakeRetry
  | .lanes ls pc =>
    if r.wave.outside pc then s.detach r.wave.wid { cause := Cause.illegal, done := false, faddr := pc, amask := 0, laneFlags := [], codes := [] }
    else { s with grp := some (s.groupAt r.wave ls pc) }

/-- Of the cores and the front end in cyclic order from one on, the first on which a waiting group can go on, or that can issue, has a group selected: its
number, and the state. -/
def State.derail (s : State) (from_ : Nat) : Option (Nat × State) :=
  let n := Config.cores + 1
  let busy := (s.waves.filter s.mayIssue).map fun w => (w.core + n - from_ % n) % n
  match busy with
  | [] => none
  | _ => ((List.range n).filter busy.contains).findSome? fun k =>
      let core := (from_ + k) % n
      match s.resumable core with
      | some t => some (core, t)
      | none => (s.chosen core).map fun r => (core, s.startGroup r.1 r.2)

/-! ### Events of the part's own engines, firmware and queues -/

/-- The sleeping lanes of the waves. -/
def State.sleepers (s : State) : List (Nat × Nat) :=
  s.waves.flatMap fun w => ((List.range w.plan).filter w.asleepAt).map fun i => (w.wid, i)

/-- The rings of the functions that are ready. -/
def State.liveRings (s : State) : List (Nat × Nat) :=
  ((List.range Config.functions).filter s.vfReady).flatMap fun v => (List.range 8).map fun k => (v, k)

/-- Every event that may be due; each checks its own condition. -/
def State.events (s : State) : List (State → Host.Outcome State Fault Refusal) :=
  s.mmas.flatMap (fun m => [execMmaStart m.id, execMmaComplete m.id]) ++
  s.copies.flatMap (fun c => ((List.range c.segs.length).filter fun j => !(c.segs.getD j .done).over).map fun j => execCopySegmentRun c.id j) ++
  s.remotes.map (fun o => execRemoteOpPerform o.id) ++
  s.bankOps.map (fun o => execBankOpPerform o.id) ++
  s.sleepers.flatMap (fun x => [execMonitorArm x.1 x.2, execMonitorWake x.1 x.2]) ++
  (s.waves.filter Wave.isRack).map (fun w => execRackTimerExpiry w.wid) ++
  s.teams.flatMap (fun t => [execDeviceCommitPublish t.id, execDeferredReductionApply t.id, execTeamStart t.id, execBudgetExpiry t.id, execImageWrite t.id]) ++
  (s.liveRings.filter fun x => (s.ring x.1 x.2).notify).map (fun x => execConfigurationReread x.1 x.2) ++
  (s.liveRings.filter fun x => !(s.ring x.1 x.2).bits.isEmpty).map (fun x => execSlotConsume x.1 x.2) ++
  s.cmds.flatMap (fun c => [execNopCommand c.vf c.ring c.seq, execLaunch c.vf c.ring c.seq, execBarrier c.vf c.ring c.seq, execCommandComplete c.vf c.ring c.seq]) ++
  s.launches.flatMap (fun l => [execPrologueEnd l.id, execPrologueRepeat l.id, execLaunchDeadlineExpiry l.id]) ++
  (((s.tasks.map (·.part)).eraseDups).filter fun p => (s.part p).resident).map (fun p => execTaskDispatch p) ++
  ((List.range Config.partitions).filter fun p => (s.part p).leaving).map (fun p (s : State) => .next (s.settleLeaving p)) ++
  s.tasks.flatMap (fun t => [execAffinityWaitExpiry t.id, execStarvationBlock t.id, execFaultDeadlineExpiry t.id]) ++
  (if s.poolWait.isEmpty then [] else (List.range Config.partitions).map fun p => execRecordGrant p) ++
  s.poolWait.map (fun e => execPoolWaitDeadline e.1) ++
  (s.blocks.filter fun b => b.bar.isSome).map (fun b (s : State) => .next (s.settleBar b.team (some b.idx))) ++
  (s.teams.filter fun t => t.bar.isSome).map (fun t (s : State) => .next (s.settleBar t.id none)) ++
  s.records.flatMap (fun r => [execFaultDeadlineExpiry r.id, execWaveRebuild r.id]) ++
  (s.teams.filter fun t => !t.due.isEmpty).map (fun t => execFaultDeadlineExpiry t.id) ++
  s.doms.flatMap (fun d => d.due.map fun e => execFaultDeadlineExpiry e.1.toNat) ++
  s.fills.map (fun p => execSpareFill p) ++
  s.hostWait.map (fun h (s : State) => .next (s.hostRetry h)) ++
  ((s.lines.map fun e => (e.l2, e.unit)).eraseDups).map (fun u (s : State) => .next (s.putOut u.1 u.2)) ++
  (s.doms.filter fun d => d.budget == some 0).map (fun d => execDomestiqueHandlerEnd d.core)

/-- An event is made when it changes something. -/
def State.tryEvent (s : State) (e : State → Host.Outcome State Fault Refusal) : Option State :=
  match e s with
  | .next t => if t = s then none else some t
  | _ => none

/-- The first event that is due, beginning at another place of the list each time. -/
def State.autoEvent (s : State) : Option State :=
  match s.events with
  | [] => none
  | es => (es.drop (s.free % es.length) ++ es.take (s.free % es.length)).findSome? s.tryEvent

/-! ### Clocks (R253, R255, R256, R212) -/

/-- Whether a queue of a partition runs: it is enabled, and its partition owned and resident (R253). -/
def State.queueRuns (s : State) (p q : Nat) : Bool := (s.part p).owner != 0x7F && (s.part p).resident && (s.part p).qen.getLsbD q

/-- One clock on the cores on which no group has issued meanwhile: their waves' clocks and their engines' idle counts go on, and the ready waves that a hold
keeps from issuing grow older (R217). -/
def State.idleClock (s : State) : State :=
  let quiet (c : Nat) : Bool := decide (c ≤ Config.cores) && !s.issued.contains c
  let cores := ((s.waves.map (·.core)).eraseDups).filter quiet
  let older := (cores.filter fun c => !(s.holding c).isEmpty).flatMap fun c => (s.readyOn c).map fun r => r.wave.wid
  { s with
    waves := s.waves.map fun w => if quiet w.core then { w with now := w.now + 1, age := if older.contains w.wid then w.age + 1 else w.age } else w
    idle := cores.foldl (fun l c => assocSet l c (s.idleAfter c 1 none)) s.idle
    issued := [] }

/-- One clock passes: queue clocks, waiting tasks, budgets and rack timers, which count while their team is on its cores (R212). A team that is still being
staged is charged nothing until its waves start, though their slots are reserved for it: R253 and R16 do not say whether it holds them (the model's
choice, notes/assumptions/44). -/
def State.tick (s : State) : State :=
  let s := s.idleClock
  let runs (t : Team) : Bool :=
    t.placed && (s.waves.any fun w => w.team == t.id) && ((s.launch? t.launch).map fun (l : Launch) => s.queueRuns t.part l.queue).getD false
  { s with
    parts := s.parts.map fun (p : Part) =>
      if p.owner = 0x7F || !p.resident then p else { p with qclk := p.qclk.mapIdx fun q n => if p.qen.getLsbD q then n + 1 else n }
    tasks := s.tasks.map fun (t : Task) => if s.queueRuns t.part t.queue then { t with waited := t.waited + 1 } else t
    teams := s.teams.map fun (t : Team) => if runs t then { t with charged := t.charged + 1, budget := t.budget.map (· - 1) } else t
    doms := s.doms.map fun (d : Dom) => if s.queueRuns d.part d.queue then { d with budget := d.budget.map (· - 1) } else d
    waves := s.waves.map fun (w : Wave) => match w.status with
      | .rack e n => if ((s.team? w.team).map Team.placed).getD false then { w with status := .rack e (n - 1) } else w
      | _ => w }

/-- Nothing is being issued. On an even turn 2k the derailleur of the first core from k on that can issue selects a group, and a clock passes
when the cores begin again, or when none can issue; on an odd turn an event that is due is made (notes/assumptions/1). The free values of each
turn are others (notes/assumptions/3). -/
def State.proceed (s : State) : State :=
  let core := s.turn / 2
  let t := { s.endHolds with free := s.free + 1 }
  if s.turn % 2 = 0 then
    match t.derail core with
    | some (k, u) => if k < core then ({ u with turn := 2 * k + 1 } : State).tick else { u with turn := 2 * k + 1 }
    | none => ({ t with turn := 1 } : State).tick
  else
    let u : State := { t with turn := 2 * (core + 1) }
    u.autoEvent.getD u

/-- Whether an event can happen now: without its supply the part only powers up, and until its firmware runs the power-up sequence alone goes on (R382,
R383). -/
def State.happens (s : State) (e : Instr) : Bool :=
  match s.power.phase with
  | .running => true
  | .off => (match e with | .powerUp => true | _ => false)
  | .step _ => (match e with
    | .perstAssert _ => true | .perstRelease _ => true | .firmwareDownload _ => true | .thermtrip => true | .pwrfail => true
    | _ => false)

/-- One step of the part: an event that another agent makes, where it can happen; before firmware runs, the next step of the power-up sequence (R282,
R382, R383); the next word of the selected group; else what comes in turn. -/
def State.stepOnce (s : State) : Host.Outcome State Fault Refusal :=
  match s.agenda with
  | e :: rest => if s.happens e then exec e { s with agenda := rest } else .next { s with agenda := rest }
  | [] =>
    if s.power.phase != .running then .next s.powerStep
    else match s.grp with
      | some g => s.issueWord g
      | none => .next s.proceed

end Sys2Proof.Machine
end

