-- ==== Sys2Proof/Machine/Step.lean ====
section
/-! DEFINITION. The step of the part, and the placing of one instruction word where the next step fetches. -/

namespace Sys2Proof.Machine

/-- One step (`State.stepOnce`). -/
def step (s : State) : Host.Outcome State Fault Refusal := s.stepOnce

/-- The launch record of the placed wave: one block of one 16-lane wave with 16 registers, entered at 0x2_0000. -/
def placedRecord : LaunchRec :=
  { entry := 0x20000, width := 16, regs := 16, waves := 1, blocks := 1, teams := 1, acc := 64, prio := 0, grade := 0, cass := 4096, view := 65536,
    reent := false, budget := 0, deadline := 0, fpolicy := 0, arg := 0, aff := 0, affs := 0, regions := [] }

/-- The launch of the placed wave. -/
def placedLaunch : Launch :=
  { id := 1, vf := 0, ring := 0, seq := 0, asid := 1, part := 0, queue := 0, rcd := placedRecord, policy := none, deadline := none, left := 1,
    deadTeams := 0, status := none, flags := 0, ticks := 0, repeats := 0, again := false, handler := none, sup := false, cause := 0, area := [] }

/-- Its team, running on pair 0. -/
def placedTeam : Team := { newTeam placedLaunch 2 0 0 0 none false with phase := .running }

/-- The stage-2 tables of the placed wave's function: one gibibyte from address 0, all permissions (Tables 89, 90). -/
def placedTables : List Host.Cell :=
  [(0x10000, 0x01), (0x10001, 0x10), (0x10002, 0x01), (0x11000, 0x01), (0x11001, 0x20), (0x11002, 0x01), (0x12000, 0x3B)]

/-- A state with one instruction stored at 0x2_0000, the lanes of a placed wave there and their group selected, so that the next step fetches and
runs it (notes/assumptions/5). Partition 0 belongs to function 0, whose stage 1 is the identity. -/
def State.withFetchWord (s : State) (nbits w : Nat) : State :=
  let wave := launchWave placedLaunch placedTeam 0 0 3 0
  let code := cellsAt 0x20000 (bytesOfWord (BitVec.ofNat 32 (w % 2 ^ nbits)))
  { s with
    agenda := []
    nextId := max s.nextId 4
    grp := some { wid := 3, lanes := List.range 16, first := 0x20000, at_ := 0x20000, wides := [], modifier := none, sched := none }
    waves := [wave]
    blocks := [newBlock placedLaunch 2 0 0]
    teams := [placedTeam]
    launches := [placedLaunch]
    mem := Cells.putAll (Cells.putAll s.mem placedTables) code
    tlb := []
    pages := []
    errors := []
    cleared := []
    retired := []
    fills := []
    cellBlocks := []
    parts := s.parts.set 0 { Part.reset with owner := 0, key := some 0 }
    vfs := s.vfs.set 0 { Vf.reset with en := true, st := 1, s2root := 0x10000 }
    asids := [{ asid := 1, vf := 0, root := 0, ring := none }]
    power := Power.reset }

end Sys2Proof.Machine
end

