-- ==== Sys2Proof/Safety.lean ====
section
/-! DEFINITION. What counts as a safe run, and the terms the claims use: when a bound group issues with its effect, what a wave that
completes an instruction looks like, and what stays as it was. -/

namespace Sys2Proof.Safety

open Sys2Proof.Machine

/-- The outcome is a next state: the part neither stops nor refuses. -/
def Runs (o : Host.Outcome State Fault Refusal) : Prop := ∃ t, o = .next t

/-- The arithmetic clock lies between 1.5 and 3.0 GHz, in steps of 0.1 GHz (R381). -/
def ClockLawful (s : State) : Prop := 15 ≤ s.power.clock ∧ s.power.clock ≤ 30

/-- The lists that the part's fixed numbers size keep their lengths: 20 partitions, 96 virtual functions (Table 1, R264, R265). -/
def Sized (s : State) : Prop := s.parts.length = 20 ∧ s.vfs.length = 96

/-- Memory is in its canonical form. -/
def MemoryOk (s : State) : Prop := Memory.wf s.mem = true

/-! ### When a group issues -/

/-- What an instruction runs with: its hold opened, counted or ended, its latches live or not (R31-R33, R38), the wave's clock and late results
(R110), its lanes those of Active (R37). -/
def issueCtx (sg : Sig) (g : Group) (w : Wave) : Ctx := mkCtx g (w.cover sg g)

/-- An instruction for which R328 compares nothing. -/
def noCompare : Ctx → Nat → List W64 := fun _ _ => []

/-- A group issues with its instruction's own effect: it is selected, its checks pass (R39), some lane is Active (R37), no operand word is
poisoned (R317), no interlock holds a destination back (R125, R127), the matrix engine can take it if it is one of its instructions (R125, R216), and
twins of a lane agree on what R328 compares. -/
structure IssuesWith (sg : Sig) (cmp : Ctx → Nat → List W64) (g : Group) (w : Wave) (s : State) : Prop where
  selected : s.grp = some g
  wave : s.wave? g.wid = some w
  checks : checkGroup sg g w = none
  active : (activeLanes g w).isEmpty = false
  clean : s.poisonRead (issueCtx sg g w) sg = none
  unlatched : w.protects (sg.flds.flatMap Fld.writes) = false
  unlocked : s.interlocked w.wid (sg.flds.flatMap Fld.writes) = false
  able : s.matrixFull sg w = false
  twins : shadowsDiffer (issueCtx sg g w) cmp = false

/-- The same where R328 compares nothing. -/
abbrev Issues (sg : Sig) (g : Group) (w : Wave) (s : State) : Prop := IssuesWith sg noCompare g w s

/-- The state an instruction's effect starts from: the wave with its hold covered. -/
def covered (sg : Sig) (g : Group) (w : Wave) (s : State) : State := s.updWave w.wid fun _ => w.cover sg g

/-! ### What completing leaves -/

/-- Both are the same wave, but one may have been told to try again (R216). -/
def OnlyWoken (a b : Option Wave) : Prop := a.map (fun w => { w with wait := .ready }) = b.map (fun w => { w with wait := .ready })

/-- The lanes of the group stand at the next group, in the class normal (R34, R207). -/
def pastGroup (c : Ctx) (w : Wave) : Wave :=
  { w with lanes := w.lanes.mapIdx fun i l => if (c.w.physical c.g.lanes).contains i then { l with pc := c.next, yielded := false } else l }

/-- The instruction is over in `t`: the issuing wave is `target`, whatever its age, its hold's count, its readiness, its prologue's count and what the
model noted while it waited;
another wave can only have been told to try again; nothing else differs from `base`, but that a mark of a replaced word, in error or correctable, may
be gone (R315). -/
structure Completes (base t : State) (c : Ctx) (target : Wave) : Prop where
  rest : { t with grp := base.grp, waves := base.waves, errors := base.errors, softs := base.softs } = base
  idle : t.grp = none
  marks : ∀ e ∈ t.errors, e ∈ base.errors
  softMarks : ∀ e ∈ t.softs, e ∈ base.softs
  others : ∀ v, v ≠ c.w.wid → OnlyWoken (base.wave? v) (t.wave? v)
  self : ∃ x, t.wave? c.w.wid = some x ∧
    { x with
      age := target.age, hold := target.hold, wait := target.wait, prologue := target.prologue, barred := target.barred, rowWait := target.rowWait,
      inWait := target.inWait } = target

/-! ### Destinations -/

/-- Lanes of Active changed. -/
def onActive (c : Ctx) (f : Nat → Lane → Lane) (w : Wave) : Wave :=
  { w with lanes := w.lanes.mapIdx fun i l => if c.phys.contains i then f i l else l }

/-- A 32-bit destination (Table 9, R30): a register of each active lane, a latch, or nothing. -/
def gets32 (c : Ctx) (n : BitVec 1) (d : BitVec 7) (v : Nat → W32) (w : Wave) : Wave :=
  if n = 1 then w
  else if d.toNat < 0x78 then onActive c (fun i l => { l with regs := l.regs.set d.toNat (v i) }) w
  else if d.toNat < 0x7C then
    { w with
      latches := w.latches.mapIdx fun j l => if j = d.toNat - 0x78 then l.mapIdx fun i x => if c.phys.contains i then v i else x else l
      latchLive := w.latchLive.mapIdx fun j b => if j = d.toNat - 0x78 then decide (w.hold > 0) else b }
  else w

/-- A 64-bit destination (R28, R30): an even register and the next, or nothing. -/
def gets64 (c : Ctx) (n : BitVec 1) (d : BitVec 7) (v : Nat → W64) (w : Wave) : Wave :=
  if n = 1 then w
  else if d.toNat < 0x78 then
    onActive c (fun i l => { l with regs := (l.regs.set d.toNat ((v i).extractLsb' 0 32)).set (d.toNat + 1) ((v i).extractLsb' 32 32) }) w
  else w

/-- A range of registers, written from d on (R123). -/
def getsRange (c : Ctx) (d : BitVec 7) (v : Nat → List W32) (w : Wave) : Wave :=
  onActive c (fun i l => { l with regs := ((v i).mapIdx fun k x => (k, x)).foldl (fun r e => r.set (d.toNat + e.1) e.2) l.regs }) w

/-- A predicate destination (R96, R30): predicate p of each active lane. -/
def getsPred (c : Ctx) (n : BitVec 1) (p : BitVec 3) (v : Nat → Bool) (w : Wave) : Wave :=
  if n = 1 then w else onActive c (fun i l => { l with preds := setPred l.preds p.toNat (v i) }) w

/-- A scalar destination (R98). -/
def getsScalar (d : BitVec 5) (v : W64) (w : Wave) : Wave := { w with sregs := w.sregs.set d.toNat v }

/-- Sticky flags are raised (R77). -/
def getsFlags (u : BitVec 8) (w : Wave) : Wave := { w with fpflags := w.fpflags ||| u.setWidth 64 }

end Sys2Proof.Safety
end

