-- ==== Sys2Proof/Certificates/Slice0/Obligations.lean ====
section
/-! DEFINITION. The statements for the provers. A statement about an instruction has one form: when the instruction's group issues
(`IssuesWith`: selected, checks of R39 passed, some lane Active, no interlock, no poisoned operand), `exec` answers a next state in which the
issuing wave is the wave given, with the lanes of its group past the group, and everything else is as in the base state given
(`Completes`). -/

namespace Sys2Proof.Slice0

open Sys2Proof.Machine Sys2Proof.Safety

/-- `exec i` answers a next state; there the issuing wave has become `f`'s and its group's lanes are past the group; the rest is `base`. -/
def Does (i : Instr) (sg : Sig) (g : Group) (w : Wave) (s base : State) (f : Ctx → Wave → Wave) : Prop :=
  ∃ t, exec i s = .next t ∧ Completes base t (issueCtx sg g w) (pastGroup (issueCtx sg g w) (f (issueCtx sg g w) (issueCtx sg g w).w))

/-- `exec i` answers a next state, in which the wave has detached before its group with a cause and nothing of the instruction has been done (R40, R288):
the form's checks have turned it away. -/
def Traps (i : Instr) (sg : Sig) (g : Group) (w : Wave) (s : State) (cause : Nat) : Prop :=
  exec i s = .next (((covered sg g w s).faultBefore (issueCtx sg g w) cause []).countHold w.wid)

/-- No enabled exception is raised by the lanes of Active (R76, R78). -/
def NoTrap (c : Ctx) (fl : Nat → BitVec 8) : Prop := trapCause c.w.fpmode (flagUnion c.act fl) = none

/-- The signature of plain arithmetic: the operand fields, the guard and scalar modifiers, lawful in a prologue where R245 says so. -/
def arith (pro rnd sat : Bool) (flds : List Fld) : Sig := { flds := flds, rnd := rnd, sat := sat, scalar := true, pro := pro }

/-- The signature of an instruction that can wait (R32): it ends a hold. -/
def waiting (flds : List Fld) : Sig := { flds := flds, scalar := true, ends := true }

/-! ### Results, written from the rules -/

/-- An integer clamped to the signed 32-bit range, with `sat` when it lies outside (R64). -/
def clampS32 (x : Int) : W32 × BitVec 8 :=
  if x < -2147483648 then (0x80000000#32, 0x80#8) else if x > 2147483647 then (0x7FFFFFFF#32, 0x80#8) else (BitVec.ofInt 32 x, 0)

/-- A bit field named by b (R94): its lowest bit b[4:0], its width b[13:8] cut at bit 31, and its value in a. -/
def fieldBit (b : W32) : Nat := b.toNat % 32
def fieldWidth (b : W32) : Nat := min (b.toNat / 256 % 64) (32 - fieldBit b)
def fieldOf (a b : W32) : Nat := a.toNat / 2 ^ fieldBit b % 2 ^ fieldWidth b

/-- The integer instructions of two 32-bit sources that raise no flag, but for shifts and fields (Table 28). -/
def integer32 : List ((BitVec 1 → BitVec 7 → BitVec 7 → BitVec 7 → Instr) × (W32 → W32 → W32)) :=
  [(.addB32, fun x y => x + y), (.subB32, fun x y => x - y), (.mulB32, fun x y => x * y),
   (.minS32, fun x y => if x.toInt < y.toInt then x else y), (.minZ32, fun x y => if x.toNat < y.toNat then x else y),
   (.maxS32, fun x y => if x.toInt < y.toInt then y else x), (.maxZ32, fun x y => if x.toNat < y.toNat then y else x),
   (.mulhiS32, fun x y => BitVec.ofInt 32 (x.toInt * y.toInt / 2 ^ 32)), (.mulhiZ32, fun x y => BitVec.ofNat 32 (x.toNat * y.toNat / 2 ^ 32)),
   (.andB32, fun x y => x &&& y), (.orB32, fun x y => x ||| y), (.xorB32, fun x y => x ^^^ y)]

/-- Those that raise flags: the saturating sums, division and remainder (R64, R65, Table 20). -/
def flagged32 : List ((BitVec 1 → BitVec 7 → BitVec 7 → BitVec 7 → Instr) × (W32 → W32 → W32 × BitVec 8)) :=
  [(.addsS32, fun x y => clampS32 (x.toInt + y.toInt)), (.subsS32, fun x y => clampS32 (x.toInt - y.toInt)),
   (.divS32, fun x y => if y = 0 then (if x.toInt < 0 then 0x80000000#32 else 0x7FFFFFFF#32, 0x20#8)
     else if x = 0x80000000#32 ∧ y = 0xFFFFFFFF#32 then (0x7FFFFFFF#32, 0x80#8) else (BitVec.ofInt 32 (x.toInt.tdiv y.toInt), 0)),
   (.divZ32, fun x y => if y = 0 then (0xFFFFFFFF#32, 0x20#8) else (BitVec.ofNat 32 (x.toNat / y.toNat), 0)),
   (.remS32, fun x y => if y = 0 then (x, 0x20#8)
     else if x = 0x80000000#32 ∧ y = 0xFFFFFFFF#32 then (0, 0x80#8) else (BitVec.ofInt 32 (x.toInt.tmod y.toInt), 0)),
   (.remZ32, fun x y => if y = 0 then (x, 0x20#8) else (BitVec.ofNat 32 (x.toNat % y.toNat), 0))]

/-- The 64-bit integer instructions but for shifts, and the immediate forms of major 0x04 but for shifts (R91, R92). -/
def integer64 : List ((BitVec 1 → BitVec 7 → BitVec 7 → BitVec 7 → Instr) × (W64 → W64 → W64)) :=
  [(.addB64, fun x y => x + y), (.subB64, fun x y => x - y), (.mulB64, fun x y => x * y)]
def immediates32 : List ((BitVec 1 → BitVec 7 → BitVec 7 → BitVec 7 → Instr) × (W32 → W32 → W32)) :=
  [(.addB32Imm, fun x y => x + y), (.andB32Imm, fun x y => x &&& y)]

/-- The shifts of R93, at the width of their operands. -/
def shiftLeft {w : Nat} (x y : BitVec w) : BitVec w := if y.toNat < w then BitVec.ofNat w (x.toNat * 2 ^ y.toNat) else 0
def shiftRight {w : Nat} (x y : BitVec w) : BitVec w := if y.toNat < w then BitVec.ofNat w (x.toNat / 2 ^ y.toNat) else 0
def shiftSigned {w : Nat} (x y : BitVec w) : BitVec w :=
  if y.toNat < w then BitVec.ofInt w (x.toInt / 2 ^ y.toNat) else if x.msb then BitVec.allOnes w else 0

/-- RngF (R108). -/
def randomOf (k c : W64) : W64 :=
  (List.range 4).foldl (fun x j =>
    let x := x + k.rotateLeft (16 * j) + BitVec.ofNat 64 (j * 0x9E3779B97F4A7C15)
    let x := (x ^^^ BitVec.ofNat 64 (x.toNat / 2 ^ 30)) * 0xBF58476D1CE4E5B9
    let x := (x ^^^ BitVec.ofNat 64 (x.toNat / 2 ^ 27)) * 0x94D049BB133111EB
    x ^^^ BitVec.ofNat 64 (x.toNat / 2 ^ 31)) c

/-- Integer comparisons (R96). -/
def compares32 : List ((BitVec 1 → BitVec 3 → BitVec 7 → BitVec 7 → Instr) × (W32 → W32 → Bool)) :=
  [(.cmpEqB32, fun x y => decide (x = y)), (.cmpNeB32, fun x y => decide (x ≠ y)), (.cmpLtS32, fun x y => decide (x.toInt < y.toInt)),
   (.cmpLtZ32, fun x y => decide (x.toNat < y.toNat))]
def compares64 : List ((BitVec 1 → BitVec 3 → BitVec 7 → BitVec 7 → Instr) × (W64 → W64 → Bool)) :=
  [(.cmpEqB64, fun x y => decide (x = y)), (.cmpLtS64, fun x y => decide (x.toInt < y.toInt)), (.cmpLtZ64, fun x y => decide (x.toNat < y.toNat))]

/-- The scalar instructions (R98, Table 31): the register form, the immediate form, the function. -/
def scalars : List ((BitVec 5 → BitVec 5 → BitVec 5 → Instr) × (BitVec 5 → BitVec 5 → BitVec 11 → Instr) × (W64 → W64 → W64)) :=
  [(.saddB64, .saddB64Imm, fun x y => x + y), (.ssubB64, .ssubB64Imm, fun x y => x - y), (.smulB64, .smulB64Imm, fun x y => x * y),
   (.sandB64, .sandB64Imm, fun x y => x &&& y), (.sorB64, .sorB64Imm, fun x y => x ||| y), (.sxorB64, .sxorB64Imm, fun x y => x ^^^ y),
   (.sshlB64, .sshlB64Imm, fun x y => if y.toNat < 64 then x <<< y.toNat else 0), (.sshrZ64, .sshrZ64Imm, fun x y => if y.toNat < 64 then x >>> y.toNat else 0),
   (.scmpEqB64, .scmpEqB64Imm, fun x y => if x = y then 1 else 0), (.scmpLtS64, .scmpLtS64Imm, fun x y => if x.toInt < y.toInt then 1 else 0),
   (.scmpLtZ64, .scmpLtZ64Imm, fun x y => if x.toNat < y.toNat then 1 else 0)]

/-- Floating point with a 32-bit destination and two sources: whether rnd and sat are accepted (Table 27), and the result with its flags. -/
def float32 : List ((BitVec 1 → BitVec 7 → BitVec 7 → BitVec 7 → Instr) × (Bool × Bool) × (Ctx → W32 → W32 → W32 × BitVec 8)) :=
  [(.addF32, (true, false), two32 Fmt.f32.addV), (.subF32, (true, false), two32 Fmt.f32.subV), (.mulF32, (true, false), two32 Fmt.f32.mulV),
   (.divF32, (true, false), two32 Fmt.f32.divV),
   (.minF32, (false, false), fun c x y => as32 (Fmt.f32.minMax (c.fz .f32) false x.toNat y.toNat)),
   (.maxF32, (false, false), fun c x y => as32 (Fmt.f32.minMax (c.fz .f32) true x.toNat y.toNat)),
   (.addF16, (true, true), two16 .f16 Fmt.f16.addV), (.subF16, (true, true), two16 .f16 Fmt.f16.subV), (.mulF16, (true, true), two16 .f16 Fmt.f16.mulV),
   (.divF16, (true, true), two16 .f16 Fmt.f16.divV), (.addBf16, (true, true), two16 .bf16 Fmt.bf16.addV),
   (.subBf16, (true, true), two16 .bf16 Fmt.bf16.subV), (.mulBf16, (true, true), two16 .bf16 Fmt.bf16.mulV)]

/-- One source, 32-bit destination: arithmetic (R100, R102) and conversions (R104, R105, Table 33). -/
def float32One : List ((BitVec 1 → BitVec 7 → BitVec 7 → Instr) × (Bool × Bool) × (Ctx → W32 → W32 × BitVec 8)) :=
  [(.sqrtF32, (true, false), one32 Fmt.f32.sqrtV), (.rcpF32, (true, false), one32 Fmt.f32.rcpV), (.rsqF32, (true, false), one32 Fmt.f32.rsqV),
   (.exp2F32, (true, false), one32 Fmt.f32.exp2V), (.log2F32, (true, false), one32 Fmt.f32.log2V), (.sinpiF32, (true, false), one32 Fmt.f32.sinpiV),
   (.cospiF32, (true, false), one32 Fmt.f32.cospiV), (.sqrtF16, (true, true), one16 .f16 Fmt.f16.sqrtV), (.rcpF16, (true, true), one16 .f16 Fmt.f16.rcpV),
   (.rsqF16, (true, true), one16 .f16 Fmt.f16.rsqV), (.exp2F16, (true, true), one16 .f16 Fmt.f16.exp2V), (.log2F16, (true, true), one16 .f16 Fmt.f16.log2V),
   (.cvtF32F16, (false, false), fun c x => as32 (cvtFloat .f16 .f32 (c.fz .f16) (c.env .f32) (x.toNat % 65536))),
   (.cvtF16F32, (true, true), fun c x => as32 (cvtFloat .f32 .f16 (c.fz .f32) (c.env .f16) x.toNat)),
   (.cvtF32Bf16, (false, false), fun c x => as32 (cvtFloat .bf16 .f32 (c.fz .bf16) (c.env .f32) (x.toNat % 65536))),
   (.cvtBf16F32, (true, true), fun c x => as32 (cvtFloat .f32 .bf16 (c.fz .f32) (c.env .bf16) x.toNat)),
   (.cvtS32F32, (true, false), fun c x => as32 (cvtToInt .f32 (c.fz .f32) c.rm 32 true x.toNat)),
   (.cvtZ32F32, (true, false), fun c x => as32 (cvtToInt .f32 (c.fz .f32) c.rm 32 false x.toNat)),
   (.cvtF32S32, (true, false), fun c x => as32 (cvtFromInt .f32 (c.env .f32) x.toInt)),
   (.cvtF32Z32, (true, false), fun c x => as32 (cvtFromInt .f32 (c.env .f32) x.toNat))]

/-- The fused multiply-adds with a 32-bit destination, which read d (R101). -/
def fused32 : List ((BitVec 1 → BitVec 7 → BitVec 7 → BitVec 7 → Instr) × Bool × (Ctx → W32 → W32 → W32 → W32 × BitVec 8)) :=
  [(.fmaF32, false, fma32), (.fmaF16, true, three16 .f16), (.fmaBf16, true, three16 .bf16)]

/-- FP64 with two sources (R100), and with one (R100, R104, R105). -/
def float64 : List ((BitVec 1 → BitVec 7 → BitVec 7 → BitVec 7 → Instr) × Bool × (Ctx → W64 → W64 → W64 × BitVec 8)) :=
  [(.addF64, true, two64 Fmt.f64.addV), (.subF64, true, two64 Fmt.f64.subV), (.mulF64, true, two64 Fmt.f64.mulV), (.divF64, true, two64 Fmt.f64.divV),
   (.minF64, false, fun c x y => as64 (Fmt.f64.minMax (c.fz .f64) false x.toNat y.toNat)),
   (.maxF64, false, fun c x y => as64 (Fmt.f64.minMax (c.fz .f64) true x.toNat y.toNat))]
def float64One : List ((BitVec 1 → BitVec 7 → BitVec 7 → Instr) × (Ctx → W64 → W64 × BitVec 8)) :=
  [(.sqrtF64, one64 Fmt.f64.sqrtV), (.cvtS64F64, fun c x => as64 (cvtToInt .f64 (c.fz .f64) c.rm 64 true x.toNat)),
   (.cvtF64S64, fun c x => as64 (cvtFromInt .f64 (c.env .f64) x.toInt))]

/-- Floating-point comparisons (R97): kind 0 equal, 1 less, 2 less or equal. -/
def floatCompares32 : List ((BitVec 1 → BitVec 3 → BitVec 7 → BitVec 7 → Instr) × Nat) := [(.cmpEqF32, 0), (.cmpLtF32, 1), (.cmpLeF32, 2)]
def floatCompares64 : List ((BitVec 1 → BitVec 3 → BitVec 7 → BitVec 7 → Instr) × Nat) := [(.cmpEqF64, 0), (.cmpLtF64, 1), (.cmpLeF64, 2)]

/-- The lane reductions of FP32 and of 64-bit values, each over the pairwise tree of R81 (R106). -/
def reductions32 : List ((BitVec 1 → BitVec 7 → BitVec 7 → Instr) × Bool × (Ctx → W32 → W32 → W32 × BitVec 8)) :=
  [(.rdcAddF32, true, two32 Fmt.f32.addV), (.rdcMinF32, false, fun c x y => as32 (Fmt.f32.minMax (c.fz .f32) false x.toNat y.toNat)),
   (.rdcMaxF32, false, fun c x y => as32 (Fmt.f32.minMax (c.fz .f32) true x.toNat y.toNat))]
def reductions64 : List ((BitVec 1 → BitVec 7 → BitVec 7 → Instr) × Bool × (Ctx → W64 → W64 → W64 × BitVec 8)) :=
  [(.rdcAddF64, true, two64 Fmt.f64.addV), (.rdcAddZ64, false, fun _ x y => (x + y, 0))]

/-- What the operand fields of a word can hold (Table 8). -/
structure Fields where
  n : BitVec 1
  e : BitVec 1
  p : BitVec 3
  q : BitVec 3
  scope : BitVec 3
  d : BitVec 7
  a : BitVec 7
  b : BitVec 7
  x : BitVec 5
  y : BitVec 5
  z : BitVec 5
  v : BitVec 11
  sel : BitVec 14
  o : BitVec 20

/-- The signature of a matrix-engine instruction (R125, R216, Table 48). -/
def onEngine (flds : List Fld) : Sig := { flds := flds, scalar := true, ends := true, matrix := true }

/-- The instructions whose lanes raise flags, each with the signature of its checks and the flags of each lane of Active: the sums, quotients and
remainders of Table 20, floating point, its conversions and comparisons, the lane reductions (whose flags every lane is charged with, R78), and the
quantising instructions. -/
def flagging (f : Fields) : List (Instr × Sig × (Ctx → Nat → BitVec 8)) :=
  let w32 := Fld.w32 f.d (f.n == 0)
  let w64 := Fld.w64 f.d (f.n == 0)
  (flagged32.map fun e => (e.1 f.n f.d f.a f.b, arith true false false [w32, .r32 f.a, .r32 f.b], fun c i => (e.2 (c.src32 i f.a) (c.src32 i f.b)).2)) ++
  (float32.map fun e => (e.1 f.n f.d f.a f.b, arith false e.2.1.1 e.2.1.2 [w32, .r32 f.a, .r32 f.b], fun c i => (e.2.2 c (c.src32 i f.a) (c.src32 i f.b)).2)) ++
  (float32One.map fun e => (e.1 f.n f.d f.a, arith false e.2.1.1 e.2.1.2 [w32, .r32 f.a], fun c i => (e.2.2 c (c.src32 i f.a)).2)) ++
  (fused32.map fun e => (e.1 f.n f.d f.a f.b, arith false true e.2.1 [.rw32 f.d (f.n == 0), .r32 f.a, .r32 f.b],
    fun c i => (e.2.2 c (c.src32 i f.a) (c.src32 i f.b) (c.src32 i f.d)).2)) ++
  (float64.map fun e => (e.1 f.n f.d f.a f.b, arith false e.2.1 false [w64, .r64 f.a, .r64 f.b], fun c i => (e.2.2 c (c.src64 i f.a) (c.src64 i f.b)).2)) ++
  (float64One.map fun e => (e.1 f.n f.d f.a, arith false true false [w64, .r64 f.a], fun c i => (e.2 c (c.src64 i f.a)).2)) ++
  (floatCompares32.map fun e => (e.1 f.n f.p f.a f.b, arith false false false [.r32 f.a, .r32 f.b],
    fun c i => (Fmt.f32.compare (c.fz .f32) e.2 (c.src32 i f.a).toNat (c.src32 i f.b).toNat).2)) ++
  (floatCompares64.map fun e => (e.1 f.n f.p f.a f.b, arith false false false [.r64 f.a, .r64 f.b],
    fun c i => (Fmt.f64.compare (c.fz .f64) e.2 (c.src64 i f.a).toNat (c.src64 i f.b).toNat).2)) ++
  (reductions32.map fun e => (e.1 f.n f.d f.a, arith false e.2.1 false [w32, .r32 f.a],
    fun c _ => (treeReduce (e.2.2 c) 6 (laneTree c 0 fun i => c.src32 i f.a)).2)) ++
  (reductions64.map fun e => (e.1 f.n f.d f.a, arith false e.2.1 false [w64, .r64 f.a],
    fun c _ => (treeReduce (e.2.2 c) 6 (laneTree c 0 fun i => c.src64 i f.a)).2)) ++
  [(.rdcAddS32 f.n f.d f.a, arith false false false [w32, .r32 f.a], fun c _ => (clampS32 (c.act.map fun i => (c.src32 i f.a).toInt).sum).2),
   (.fmaF64 f.n f.d f.a f.b, arith false true false [.rw64 f.d (f.n == 0), .r64 f.a, .r64 f.b],
     fun c i => (fma64 c (c.src64 i f.a) (c.src64 i f.b) (c.src64 i f.d)).2),
   (.cvtF64F32 f.n f.d f.a, arith false false false [w64, .r32 f.a], fun c i => (cvtFloat .f32 .f64 (c.fz .f32) (c.env .f64) (c.src32 i f.a).toNat).2),
   (.cvtF32F64 f.n f.d f.a, arith false true true [w32, .r64 f.a], fun c i => (cvtFloat .f64 .f32 (c.fz .f64) (c.env .f32) (c.src64 i f.a).toNat).2)] ++
  [32, 64].flatMap fun G =>
    ([(Instr.quantAq8, 8), (Instr.quantAq4, 4)].map fun e => (e.1 f.d f.a (BitVec.ofNat 7 G),
      { flds := [.range f.d (1 + G * e.2 / 32) true, .range f.a (G / 2) false], ends := true },
      fun c i => if (quantGroup (c.fz .f16) (2 ^ e.2 - 1) (halves (c.srcRange i f.a (G / 2)))).2.2.2 then 0x40 else 0)) ++
    [(Instr.dquantAq8, 8), (Instr.dquantAq4, 4)].map fun e => (e.1 f.d f.a (BitVec.ofNat 7 G),
      { flds := [.range f.d (G / 2) true, .range f.a (1 + G * e.2 / 32) false], rnd := true, ends := true },
      fun c i => (dquantGroup (c.env .f16) e.2 G (c.srcRange i f.a (1 + G * e.2 / 32))).2)

/-- The integer, scalar and random-number instructions that raise no flag, each with the signature of its checks. -/
def plainForms (f : Fields) : List (Instr × Sig) :=
  let two := arith true false false [.w32 f.d (f.n == 0), .r32 f.a, .r32 f.b]
  let pair := arith true false false [.w64 f.d (f.n == 0), .r64 f.a, .r64 f.b]
  let imm : Sig := { flds := [.w32 f.d (f.n == 0), .r32 f.a], scalar := true, wides := 2, pro := true }
  let one := arith true false false [.w32 f.d (f.n == 0), .r32 f.a]
  let sreg (l : List Fld) : Sig := { flds := l, pro := true }
  let simm (l : List Fld) : Sig := { flds := l, wides := 2, pro := true }
  (integer32.map fun e => (e.1 f.n f.d f.a f.b, two)) ++ (integer64.map fun e => (e.1 f.n f.d f.a f.b, pair)) ++
  (immediates32.map fun e => (e.1 f.n f.d f.a f.b, imm)) ++
  (compares32.map fun e => (e.1 f.n f.p f.a f.b, arith true false false [.r32 f.a, .r32 f.b])) ++
  (compares64.map fun e => (e.1 f.n f.p f.a f.b, arith true false false [.r64 f.a, .r64 f.b])) ++
  (scalars.map fun e => (e.1 f.x f.y f.z, sreg [.sreg f.y, .sreg f.z])) ++ (scalars.map fun e => (e.2.1 f.x f.y f.v, simm [.sreg f.y])) ++
  [(.shlB32 f.n f.d f.a f.b, two), (.shrZ32 f.n f.d f.a f.b, two), (.shrS32 f.n f.d f.a f.b, two), (.shlB64 f.n f.d f.a f.b, pair),
   (.shrZ64 f.n f.d f.a f.b, pair), (.shrS64 f.n f.d f.a f.b, pair), (.shlB32Imm f.n f.d f.a f.b, imm), (.shrZ32Imm f.n f.d f.a f.b, imm),
   (.bfxZ32 f.n f.d f.a f.b, two), (.bfxS32 f.n f.d f.a f.b, two),
   (.bfiB32 f.n f.d f.a f.b, arith true false false [.rw32 f.d (f.n == 0), .r32 f.a, .r32 f.b]), (.popcB32 f.n f.d f.a, one), (.clzB32 f.n f.d f.a, one),
   (.smovB64 f.x f.y, sreg [.sreg f.y]), (.smovB64Imm f.x f.v, simm []),
   (.rngxB32 f.n f.d f.a f.b, arith false false false [.w32 f.d (f.n == 0), .r64 f.a, .r64 f.b]),
   (.rngxB64 f.n f.d f.a f.b, arith false false false [.w64 f.d (f.n == 0), .r64 f.a, .r64 f.b])]

/-- The matrix, scratchpad, tag, copy, remote, bank and commit instructions, each with the signature of its checks. -/
def memoryForms (f : Fields) (g : Group) : List (Instr × Sig) :=
  let ld (x : Fld) : Sig := { flds := [x, .r32 f.a], scalar := true, wides := 2, ends := true, pro := true }
  let copies (x : Fld) (d : BitVec 7) : Sig := { flds := [x, .r32 f.a, .code 0x7E true], scalar := true, ends := true, ok := f.a != 0x7E && d != 0x7E }
  let commit : Sig := { flds := [.w64 f.d (f.n == 0), .unused 0x7C, .unused 0x7C], guard := false, ends := true }
  let quiet (guard : Bool) : Sig := { flds := [.unused 0x7C, .unused 0x7C, .unused 0x7C], guard := guard, ends := true }
  let opens : Sig := { flds := [], guard := false, wides := 1, bfmt := true, ends := true, ok := targetOk g f.o }
  [(.mma f.a, { flds := [.unused 0x7C, .r32 f.a, .unused 0x7C], reuse := true, scalar := true, ends := true, matrix := true }),
   (.mread f.d f.a, onEngine [.range f.d 8 true, .r32 f.a]), (.mwrite f.a f.b, onEngine [.r32 f.a, .range f.b 8 false]), (.mzero f.a, onEngine [.r32 f.a]),
   (.mstat f.d f.a f.b, onEngine [.w32 f.d true, .r32 f.a, .r32 f.b]), (.mwin f.d f.a f.b, waiting [.w32 f.d true, .r32 f.a, .r32 f.b]),
   (.crsv f.d f.a, waiting [.w32 f.d true, .r32 f.a]), (.crel f.d f.a, waiting [.w32 f.d true, .r32 f.a])] ++
  ([Instr.ldZ8, .ldS8, .ldZ16, .ldS16, .ldB32].map fun i => (i f.d f.a f.b, ld (.w32 f.d true))) ++ [(.ldB64 f.d f.a f.b, ld (.w64 f.d true))] ++
  ([Instr.stB8, .stB16, .stB32].map fun i => (i f.d f.a f.b, ld (.st32 f.d))) ++ [(.stB64 f.d f.a f.b, ld (.st64 f.d))] ++
  [(.tagq f.d f.a, waiting [.w32 f.d true, .r64 f.a]), (.tagset f.d f.a f.b, waiting [.w32 f.d true, .r64 f.a, .r32 f.b]),
   (.tagclr f.d f.a, waiting [.w32 f.d true, .r64 f.a]), (.taginv f.d, waiting [.w32 f.d true]),
   (.copyIn f.a, copies (.unused 0x7C) 0x7C), (.copyOut f.a, copies (.unused 0x7C) 0x7C), (.copyOutDigest f.d f.a, copies (.r32 f.d) f.d),
   (.hget f.d, waiting [.w32 f.d true]), (.hfree f.d f.a, waiting [.w32 f.d true, .r32 f.a]), (.hwait f.d f.a, waiting [.w32 f.d true, .r32 f.a]),
   (.atomAddZ32 f.n f.d f.a f.b, waiting [.w32 f.d (f.n == 0), .r64 f.a, .r32 f.b]), (.atomAddZ64 f.n f.d f.a f.b, waiting [.w64 f.d (f.n == 0), .r64 f.a, .r64 f.b]),
   (.atomXchgB32 f.n f.d f.a f.b, waiting [.w32 f.d (f.n == 0), .r64 f.a, .r32 f.b]), (.atomCasB32 f.n f.d f.a f.b, waiting [.rw32 f.d (f.n == 0), .r64 f.a, .r32 f.b]),
   (.atomCasB64 f.n f.d f.a f.b, waiting [.rw64 f.d (f.n == 0), .r64 f.a, .r64 f.b]), (.redAddF32 f.a f.b, waiting [.r64 f.a, .r32 f.b]),
   (.redAddF64 f.a f.b, waiting [.r64 f.a, .r64 f.b]), (.xaddF32 f.a f.b, waiting [.r64 f.a, .r32 f.b]), (.xseal f.d f.a, waiting [.w64 f.d true, .r64 f.a]),
   (.xzero f.a, waiting [.r64 f.a])] ++
  ([Instr.bkmode, .bkld, .bkmac, .bkrd, .bkzero].map fun i => (i f.a f.b, waiting [.unused 0x7C, .r64 f.a, .r32 f.b])) ++ [(.bkwait, quiet true)] ++
  ([Instr.cmtB, .cmtT, .cmtD, .cmtBLw, .cmtTLw, .cmtDLw].map fun i => (i f.n f.d, commit)) ++ ([Instr.abtW, .abtB, .abtT].map fun i => (i, quiet false)) ++
  [(.fence f.scope, { flds := [.unused 0x7C, .code (f.scope.setWidth 7) (decide (f.scope.toNat ≤ 5)), .unused 0x7C], ends := true })] ++
  ([Instr.opnW, .opnB, .opnT].map fun i => (i f.o, opens)) ++ ([Instr.cln, .inv, .cinv].map fun i => (i f.a f.b, waiting [.unused 0x7C, .r64 f.a, .r32 f.b]))

/-- The control, lane, rack, register, record and privileged instructions, each with the signature of its checks. -/
def controlForms (f : Fields) (g : Group) : List (Instr × Sig) :=
  let branch (kind : Nat) : Sig :=
    { flds := [], guard := false, wides := 1, bfmt := true, ends := kind == 1, ok := targetOk g f.o && (kind ≠ 1 || decide (wideValue g 20 f.o.toNat ≤ 0)), pro := kind == 0 }
  let quiet (guard : Bool) : Sig := { flds := [.unused 0x7C, .unused 0x7C, .unused 0x7C], guard := guard, ends := true }
  let answers (x y : Fld) : Sig := waiting [.w32 f.d true, x, y]
  let none7C : Fld := .unused 0x7C
  let sup (l : List Fld) : Sig := { flds := .w32 f.d true :: l, scalar := true, ends := true, sup := true }
  let super : Bool := decide (0x1000 ≤ f.sel.toNat)
  [(.brGuarded f.p f.e f.o, branch 0), (.bryGuarded f.p f.e f.o, branch 1), (.callGuarded f.p f.e f.o, branch 2), (.br f.o, branch 0), (.bry f.o, branch 1),
   (.call f.o, branch 2), (.callr f.a, { flds := [none7C, .r64 f.a, none7C], scalar := true }), (.ret, { flds := [none7C, none7C, none7C] }),
   (.jmpr f.a, { flds := [none7C, .r64 f.a, none7C], scalar := true }), (.exit, { flds := [none7C, none7C, none7C], ends := true, pro := true }),
   (.trap f.a, waiting [none7C, .r32 f.a, none7C]), (.bsync, quiet false), (.yield, quiet true), (.nop, { flds := [none7C, none7C, none7C], pro := true }),
   (.lany f.p f.q, { flds := [none7C] }), (.lall f.p f.q, { flds := [none7C] }), (.lbits f.d f.q, { flds := [.w64 f.d true, none7C] }),
   (.sget f.x f.a, { flds := [.r64 f.a, none7C], scalar := true })] ++
  ([Instr.xlIdx, .xlLo, .xlHi, .xlXor, .xlRot].map fun i => (i f.d f.a f.b, { flds := [.rw32 f.d true, .r32 f.a, .r32 f.b], scalar := true })) ++
  [(.spawn f.d f.a f.b, waiting [.rw32 f.d true, .r64 f.a, .r32 f.b]),
   (.regroup f.a f.b, { flds := [none7C, .r64 f.a, .r32 f.b], guard := false, scalar := true, ends := true }), (.racktm f.a, waiting [none7C, .r32 f.a, none7C]),
   (.waitc f.d f.a f.b, waiting [.w64 f.d true, .r64 f.a, .r32 f.b]), (.spr f.a f.sel, { flds := [.reg f.a], sup := super, ok := decide (f.sel.toNat ≤ 5) }),
   (.srd f.x f.sel, { flds := [.wsreg f.x], sup := super, ok := readableSel f.sel.toNat, ends := true }),
   (.swr f.x f.sel, { flds := [.sreg f.x], sup := super, ok := f.sel == 0x10 || f.sel == 0x11 }),
   (.ksclaim f.d f.a, answers (.r64 f.a) none7C), (.ksrd f.d f.a, waiting [.w64 f.d true, .r64 f.a, none7C]), (.kswr f.a f.b, waiting [none7C, .r64 f.a, .r64 f.b]),
   (.ksres f.d f.a, answers (.r32 f.a) none7C), (.ksrty f.d f.a, answers (.r32 f.a) none7C), (.ksdir f.d f.a f.b, answers (.r32 f.a) (.r64 f.b)),
   (.kskill f.d f.a, answers (.r32 f.a) none7C), (.qpost f.d f.a f.b, answers (.r32 f.a) (.r32 f.b)), (.qclk f.d f.a, waiting [.w64 f.d true, .r32 f.a, none7C]),
   (.sigrd f.d f.a, waiting [.w64 f.d true, .r32 f.a, none7C]), (.sigclr, quiet true), (.chkv f.d f.a, answers (.r32 f.a) none7C),
   (.scrub f.d f.a f.b, sup [.r64 f.a, .r32 f.b]), (.asidld f.d f.a f.b, sup [.r64 f.a, .r32 f.b]), (.pgret f.d f.a, sup [.r64 f.a, none7C]),
   (.wayq f.d f.a f.b, sup [.r32 f.a, .r32 f.b]), (.tlbinv f.d f.a f.b, sup [.r64 f.a, .r32 f.b]), (.kspool f.d f.a, sup [.r64 f.a, none7C])]

/-- Every instruction of a wave with the signature of its checks. -/
def forms (f : Fields) (g : Group) : List (Instr × Sig) :=
  ((flagging f).map fun e => (e.1, e.2.1)) ++ plainForms f ++ memoryForms f g ++ controlForms f g

end Sys2Proof.Slice0

open Sys2Proof Sys2Proof.Machine Sys2Proof.Safety Sys2Proof.Slice0

/-! ## Arithmetic -/

/-- R91, R92, Table 28, with R30, R28, R36: the integer instructions that raise no flag write their result to d in each active lane, and nothing else:
32-bit and 64-bit sums, products, minima and maxima, logic, the immediate forms with the widened field, the counts of one bits and of leading zeros
(32 for 0). -/
def Obligations.IntegerResults : Prop :=
  ∀ (n : BitVec 1) (d a b : BitVec 7) (g : Group) (w : Wave) (s : State),
    let two := arith true false false [.w32 d (n == 0), .r32 a, .r32 b]
    let pair := arith true false false [.w64 d (n == 0), .r64 a, .r64 b]
    let imm : Sig := { flds := [.w32 d (n == 0), .r32 a], scalar := true, wides := 2, pro := true }
    let one := arith true false false [.w32 d (n == 0), .r32 a]
    (Issues two g w s → ∀ e ∈ integer32, Does (e.1 n d a b) two g w s s fun c => gets32 c n d fun i => e.2 (c.src32 i a) (c.src32 i b)) ∧
    (Issues pair g w s → ∀ e ∈ integer64, Does (e.1 n d a b) pair g w s s fun c => gets64 c n d fun i => e.2 (c.src64 i a) (c.src64 i b)) ∧
    (Issues imm g w s → ∀ e ∈ immediates32,
      Does (e.1 n d a b) imm g w s s fun c => gets32 c n d fun i => e.2 (c.src32 i a) (BitVec.ofInt 32 (wideValue g 7 b.toNat))) ∧
    (Issues one g w s →
      Does (.popcB32 n d a) one g w s s (fun c => gets32 c n d fun i => BitVec.ofNat 32 ((List.range 32).countP fun k => (c.src32 i a).getLsbD k)) ∧
      Does (.clzB32 n d a) one g w s s fun c => gets32 c n d fun i =>
        BitVec.ofNat 32 ((List.range 32).countP fun k => decide ((c.src32 i a).toNat < 2 ^ k)))

/-- R93: a shift reads its whole amount as an unsigned value of the operand width; at or above the width the left and the unsigned right shift give
0, the signed one all copies of the sign; below it they multiply by 2^n modulo 2^w, or divide by 2^n rounding down. -/
def Sys2Proof.Slice0.ShiftResults : Prop :=
  ∀ (n : BitVec 1) (d a b : BitVec 7) (g : Group) (w : Wave) (s : State),
    let two := arith true false false [.w32 d (n == 0), .r32 a, .r32 b]
    let pair := arith true false false [.w64 d (n == 0), .r64 a, .r64 b]
    let imm : Sig := { flds := [.w32 d (n == 0), .r32 a], scalar := true, wides := 2, pro := true }
    (Issues two g w s → ∀ e ∈ [(Instr.shlB32, shiftLeft), (Instr.shrZ32, shiftRight), (Instr.shrS32, shiftSigned)],
      Does (e.1 n d a b) two g w s s fun c => gets32 c n d fun i => e.2 (c.src32 i a) (c.src32 i b)) ∧
    (Issues pair g w s → ∀ e ∈ [(Instr.shlB64, shiftLeft), (Instr.shrZ64, shiftRight), (Instr.shrS64, shiftSigned)],
      Does (e.1 n d a b) pair g w s s fun c => gets64 c n d fun i => e.2 (c.src64 i a) (c.src64 i b)) ∧
    (Issues imm g w s → ∀ e ∈ [(Instr.shlB32Imm, shiftLeft), (Instr.shrZ32Imm, shiftRight)],
      Does (e.1 n d a b) imm g w s s fun c => gets32 c n d fun i => e.2 (c.src32 i a) (BitVec.ofInt 32 (wideValue g 7 b.toNat)))

/-- R94: `bfx` and `bfi` act on the field of lowest bit b[4:0] and width b[13:8], clamped to end at bit 31: `bfx.z32` reads it, `bfx.s32` reads it
with its sign (0 for an empty field), and `bfi`, which reads d too, replaces it in d with the low bits of a. -/
def Sys2Proof.Slice0.BitFieldResults : Prop :=
  ∀ (n : BitVec 1) (d a b : BitVec 7) (g : Group) (w : Wave) (s : State),
    let two := arith true false false [.w32 d (n == 0), .r32 a, .r32 b]
    let three := arith true false false [.rw32 d (n == 0), .r32 a, .r32 b]
    (Issues two g w s →
      Does (.bfxZ32 n d a b) two g w s s (fun c => gets32 c n d fun i => BitVec.ofNat 32 (fieldOf (c.src32 i a) (c.src32 i b))) ∧
      Does (.bfxS32 n d a b) two g w s s fun c => gets32 c n d fun i =>
        let f := fieldOf (c.src32 i a) (c.src32 i b)
        let k := fieldWidth (c.src32 i b)
        if k = 0 then 0 else if f < 2 ^ (k - 1) then BitVec.ofNat 32 f else BitVec.ofInt 32 ((f : Int) - 2 ^ k)) ∧
    (Issues three g w s →
      Does (.bfiB32 n d a b) three g w s s fun c => gets32 c n d fun i =>
        let o := fieldBit (c.src32 i b)
        let m : W32 := BitVec.ofNat 32 ((2 ^ fieldWidth (c.src32 i b) - 1) * 2 ^ o)
        (c.src32 i d &&& ~~~m) ||| (BitVec.ofNat 32 ((c.src32 i a).toNat * 2 ^ o) &&& m))

/-- R93: a shift reads its whole amount as an unsigned value of the operand width; at or above the width the left and the unsigned right shift give
0, the signed one all copies of the sign; below it they multiply by 2^n modulo 2^w, or divide by 2^n rounding down. And: R94: `bfx` and `bfi` act on the
field of lowest bit b[4:0] and width b[13:8], clamped to end at bit 31: `bfx.z32` reads it, `bfx.s32` reads it with its sign (0 for an empty field), and
`bfi`, which reads d too, replaces it in d with the low bits of a. -/
def Obligations.ShiftAndFieldResults : Prop := Slice0.ShiftResults ∧ Slice0.BitFieldResults

/-- The value of a finite operand. -/
def Sys2Proof.Slice0.value : FVal → ℚ
  | .fin neg m e => (if neg then -1 else 1) * (m : ℚ) * 2 ^ e
  | _ => 0

/-- `r` is the exact nonzero value v rounded once to the format in mode rm, subnormal results in full (R68, R69, R73, Table 21). Without overflow: a finite
pattern, of the finite ones the nearest to v with ties to even, the nearest on the side of zero, the least above or the greatest below; inexact exactly
when it differs from v; underflow when it is inexact and v, rounded as though the exponent had no lower bound, lies below the least normal number. Overflow,
when v so rounded reaches 2^(emax+1), sets inexact too and gives the infinity or the largest finite number. -/
def Sys2Proof.Slice0.Rounds (f : Fmt) (rm : Nat) (v : ℝ) (r : FRes) : Prop :=
  let finite (x : Nat) : Prop := bits x f.fb f.eb ≠ 2 ^ f.eb - 1
  let real (x : Nat) : ℝ := (value (f.read false x) : ℚ)
  let top : ℝ := 2 ^ (2 ^ (f.eb - 1))
  let least : ℝ := 2 ^ f.emin
  let ulp : ℝ := top / 2 ^ (f.fb + 1)
  let away : Prop := (rm = 2 ∧ 0 < v) ∨ (rm = 3 ∧ v < 0)
  let overflows : Prop := (rm = 0 ∧ top - ulp / 2 ≤ |v|) ∨ (rm ≠ 0 ∧ away ∧ top - ulp < |v|) ∨ (rm ≠ 0 ∧ ¬away ∧ top ≤ |v|)
  let tiny : Prop := (rm = 0 ∧ |v| < least - least / 2 ^ (f.fb + 2)) ∨ (rm ≠ 0 ∧ away ∧ |v| ≤ least - least / 2 ^ (f.fb + 1)) ∨ (rm ≠ 0 ∧ ¬away ∧ |v| < least)
  let sign (x : Nat) : Nat := if v < 0 then f.signBit + x else x
  (overflows → r.2 = flOf ||| flNx ∧ (rm = 0 ∨ away → r.1 = sign f.infBits) ∧ (rm ≠ 0 → ¬away → r.1 = sign (f.infBits - 1))) ∧
  (¬overflows → finite r.1 ∧ r.2 &&& ~~~(flNx ||| flUf) = 0 ∧ (r.2.getLsbD 4 = true ↔ real r.1 ≠ v) ∧ (r.2.getLsbD 3 = true ↔ tiny ∧ real r.1 ≠ v) ∧
    ∀ x, finite x →
      (rm = 0 → |real r.1 - v| ≤ |real x - v| ∧ (|real r.1 - v| = |real x - v| → real x ≠ real r.1 → r.1 % 2 = 0)) ∧
      (rm = 1 → |real r.1| ≤ |v| ∧ 0 ≤ real r.1 * v ∧ (|real x| ≤ |v| → |real x| ≤ |real r.1|)) ∧
      (rm = 2 → v ≤ real r.1 ∧ (v ≤ real x → real r.1 ≤ real x)) ∧ (rm = 3 → real r.1 ≤ v ∧ (real x ≤ v → real x ≤ real r.1)))

/-- R69, R68, R73, Table 21: in each format and each of the four modes, sums, differences, products, fused multiply-adds, quotients, square roots,
reciprocals, reciprocal square roots and the conversions to a floating-point format give their exact value rounded once, when that is not zero. A
transcendental function's result is the same rounding of a value found as notes/assumptions/11 says, and has no clause here. -/
def Obligations.RoundedOnce : Prop :=
  ∀ f ∈ [Fmt.f64, Fmt.f32, Fmt.f16, Fmt.bf16], ∀ rm < 4, ∀ x y z : Nat,
    let env : FEnv := { rm := rm, fz := false }
    let val (x : Nat) : FVal := f.read false x
    let real (x : Nat) : ℝ := (value (val x) : ℚ)
    let finite (f : Fmt) (x : Nat) : Prop := bits x f.fb f.eb ≠ 2 ^ f.eb - 1
    finite f x → finite f y → finite f z →
    (real x + real y ≠ 0 → Rounds f rm (real x + real y) (f.addV env (val x) (val y))) ∧
    (real x - real y ≠ 0 → Rounds f rm (real x - real y) (f.subV env (val x) (val y))) ∧
    (real x * real y ≠ 0 → Rounds f rm (real x * real y) (f.mulV env (val x) (val y))) ∧
    (real x * real y + real z ≠ 0 → Rounds f rm (real x * real y + real z) (f.fmaV env (val x) (val y) (val z))) ∧
    (real x ≠ 0 → real y ≠ 0 → Rounds f rm (real x / real y) (f.divV env (val x) (val y))) ∧
    (real x ≠ 0 → Rounds f rm (1 / real x) (f.rcpV env (val x))) ∧
    (0 < real x → Rounds f rm (Real.sqrt (real x)) (f.sqrtV env (val x)) ∧ Rounds f rm (1 / Real.sqrt (real x)) (f.rsqV env (val x))) ∧
    (∀ g ∈ [Fmt.f64, Fmt.f32, Fmt.f16, Fmt.bf16], real x ≠ 0 → Rounds g rm (real x) (cvtFloat f g false env x)) ∧
    (∀ i : Int, i ≠ 0 → Rounds f rm (i : ℝ) (cvtFromInt f env i))

/-- R64, R65, Table 20: the saturating sums, division and remainder write their result to d in each active lane and raise the union of the
lanes' flags, unless an enabled exception traps. -/
def Obligations.IntegerResultsWithFlags : Prop :=
  ∀ e ∈ flagged32, ∀ (n : BitVec 1) (d a b : BitVec 7) (g : Group) (w : Wave) (s : State),
    let sg := arith true false false [.w32 d (n == 0), .r32 a, .r32 b]
    let r (c : Ctx) (i : Nat) := e.2 (c.src32 i a) (c.src32 i b)
    Issues sg g w s → NoTrap (issueCtx sg g w) (fun i => (r (issueCtx sg g w) i).2) →
      Does (e.1 n d a b) sg g w s s fun c => getsFlags (flagUnion c.act fun i => (r c i).2) ∘ gets32 c n d fun i => (r c i).1

/-- R96, R30: the integer comparisons write predicate p of each active lane, and nothing else. -/
def Sys2Proof.Slice0.IntegerComparisons : Prop :=
  ∀ (n : BitVec 1) (p : BitVec 3) (a b : BitVec 7) (g : Group) (w : Wave) (s : State),
    (Issues (arith true false false [.r32 a, .r32 b]) g w s → ∀ e ∈ compares32,
      Does (e.1 n p a b) (arith true false false [.r32 a, .r32 b]) g w s s fun c => getsPred c n p fun i => e.2 (c.src32 i a) (c.src32 i b)) ∧
    (Issues (arith true false false [.r64 a, .r64 b]) g w s → ∀ e ∈ compares64,
      Does (e.1 n p a b) (arith true false false [.r64 a, .r64 b]) g w s s fun c => getsPred c n p fun i => e.2 (c.src64 i a) (c.src64 i b))

/-- R98, R99, R36: the scalar instructions write scalar d once per issue, from scalar registers or from the widened immediate. -/
def Obligations.ScalarResults : Prop :=
  ∀ (d a b : BitVec 5) (v : BitVec 11) (g : Group) (w : Wave) (s : State),
    let reg (l : List Fld) : Sig := { flds := l, pro := true }
    let imm (l : List Fld) : Sig := { flds := l, wides := 2, pro := true }
    let x (w : Wave) (k : BitVec 5) : W64 := w.sregs.getD k.toNat 0
    let y : W64 := BitVec.ofInt 64 (wideValue g 11 v.toNat)
    (Issues (reg [.sreg a, .sreg b]) g w s → ∀ e ∈ scalars,
      Does (e.1 d a b) (reg [.sreg a, .sreg b]) g w s s fun _ w => getsScalar d (e.2.2 (x w a) (x w b)) w) ∧
    (Issues (imm [.sreg a]) g w s → ∀ e ∈ scalars, Does (e.2.1 d a v) (imm [.sreg a]) g w s s fun _ w => getsScalar d (e.2.2 (x w a) y) w) ∧
    (Issues (reg [.sreg a]) g w s → Does (.smovB64 d a) (reg [.sreg a]) g w s s fun _ w => getsScalar d (x w a) w) ∧
    (Issues (imm []) g w s → Does (.smovB64Imm d v) (imm []) g w s s fun _ w => getsScalar d y w)

/-- R100-R105, R77: 32-bit floating-point results and conversions, two sources, one source and fused, with the union of the lanes' flags. How `exp2`,
`log2`, `sinpi` and `cospi` come to their value is the model's reading (notes/assumptions/11); `RoundedOnce` holds the rounding of the others against
their exact values. -/
def Obligations.FloatResults32 : Prop :=
  ∀ (n : BitVec 1) (d a b : BitVec 7) (g : Group) (w : Wave) (s : State),
    (∀ e ∈ float32,
      let sg := arith false e.2.1.1 e.2.1.2 [.w32 d (n == 0), .r32 a, .r32 b]
      let r (c : Ctx) (i : Nat) := e.2.2 c (c.src32 i a) (c.src32 i b)
      Issues sg g w s → NoTrap (issueCtx sg g w) (fun i => (r (issueCtx sg g w) i).2) →
        Does (e.1 n d a b) sg g w s s fun c => getsFlags (flagUnion c.act fun i => (r c i).2) ∘ gets32 c n d fun i => (r c i).1) ∧
    (∀ e ∈ float32One,
      let sg := arith false e.2.1.1 e.2.1.2 [.w32 d (n == 0), .r32 a]
      let r (c : Ctx) (i : Nat) := e.2.2 c (c.src32 i a)
      Issues sg g w s → NoTrap (issueCtx sg g w) (fun i => (r (issueCtx sg g w) i).2) →
        Does (e.1 n d a) sg g w s s fun c => getsFlags (flagUnion c.act fun i => (r c i).2) ∘ gets32 c n d fun i => (r c i).1) ∧
    (∀ e ∈ fused32,
      let sg := arith false true e.2.1 [.rw32 d (n == 0), .r32 a, .r32 b]
      let r (c : Ctx) (i : Nat) := e.2.2 c (c.src32 i a) (c.src32 i b) (c.src32 i d)
      Issues sg g w s → NoTrap (issueCtx sg g w) (fun i => (r (issueCtx sg g w) i).2) →
        Does (e.1 n d a b) sg g w s s fun c => getsFlags (flagUnion c.act fun i => (r c i).2) ∘ gets32 c n d fun i => (r c i).1)

/-- R100, R101, R104, R105: FP64 results, and the two conversions that change the width. -/
def Obligations.FloatResults64 : Prop :=
  ∀ (n : BitVec 1) (d a b : BitVec 7) (g : Group) (w : Wave) (s : State),
    (∀ e ∈ float64,
      let sg := arith false e.2.1 false [.w64 d (n == 0), .r64 a, .r64 b]
      let r (c : Ctx) (i : Nat) := e.2.2 c (c.src64 i a) (c.src64 i b)
      Issues sg g w s → NoTrap (issueCtx sg g w) (fun i => (r (issueCtx sg g w) i).2) →
        Does (e.1 n d a b) sg g w s s fun c => getsFlags (flagUnion c.act fun i => (r c i).2) ∘ gets64 c n d fun i => (r c i).1) ∧
    (∀ e ∈ float64One,
      let sg := arith false true false [.w64 d (n == 0), .r64 a]
      let r (c : Ctx) (i : Nat) := e.2 c (c.src64 i a)
      Issues sg g w s → NoTrap (issueCtx sg g w) (fun i => (r (issueCtx sg g w) i).2) →
        Does (e.1 n d a) sg g w s s fun c => getsFlags (flagUnion c.act fun i => (r c i).2) ∘ gets64 c n d fun i => (r c i).1) ∧
    (let sg := arith false true false [.rw64 d (n == 0), .r64 a, .r64 b]
      let r (c : Ctx) (i : Nat) := fma64 c (c.src64 i a) (c.src64 i b) (c.src64 i d)
      Issues sg g w s → NoTrap (issueCtx sg g w) (fun i => (r (issueCtx sg g w) i).2) →
        Does (.fmaF64 n d a b) sg g w s s fun c => getsFlags (flagUnion c.act fun i => (r c i).2) ∘ gets64 c n d fun i => (r c i).1) ∧
    (let sg := arith false false false [.w64 d (n == 0), .r32 a]
      let r (c : Ctx) (i : Nat) := as64 (cvtFloat .f32 .f64 (c.fz .f32) (c.env .f64) (c.src32 i a).toNat)
      Issues sg g w s → NoTrap (issueCtx sg g w) (fun i => (r (issueCtx sg g w) i).2) →
        Does (.cvtF64F32 n d a) sg g w s s fun c => getsFlags (flagUnion c.act fun i => (r c i).2) ∘ gets64 c n d fun i => (r c i).1) ∧
    (let sg := arith false true true [.w32 d (n == 0), .r64 a]
      let r (c : Ctx) (i : Nat) := as32 (cvtFloat .f64 .f32 (c.fz .f64) (c.env .f32) (c.src64 i a).toNat)
      Issues sg g w s → NoTrap (issueCtx sg g w) (fun i => (r (issueCtx sg g w) i).2) →
        Does (.cvtF32F64 n d a) sg g w s s fun c => getsFlags (flagUnion c.act fun i => (r c i).2) ∘ gets32 c n d fun i => (r c i).1)

/-- R97: the floating-point comparisons write predicate p and raise their flags. -/
def Sys2Proof.Slice0.FloatComparisons : Prop :=
  ∀ (n : BitVec 1) (p : BitVec 3) (a b : BitVec 7) (g : Group) (w : Wave) (s : State),
    (∀ e ∈ floatCompares32,
      let sg := arith false false false [.r32 a, .r32 b]
      let r (c : Ctx) (i : Nat) := Fmt.f32.compare (c.fz .f32) e.2 (c.src32 i a).toNat (c.src32 i b).toNat
      Issues sg g w s → NoTrap (issueCtx sg g w) (fun i => (r (issueCtx sg g w) i).2) →
        Does (e.1 n p a b) sg g w s s fun c => getsFlags (flagUnion c.act fun i => (r c i).2) ∘ getsPred c n p fun i => (r c i).1) ∧
    (∀ e ∈ floatCompares64,
      let sg := arith false false false [.r64 a, .r64 b]
      let r (c : Ctx) (i : Nat) := Fmt.f64.compare (c.fz .f64) e.2 (c.src64 i a).toNat (c.src64 i b).toNat
      Issues sg g w s → NoTrap (issueCtx sg g w) (fun i => (r (issueCtx sg g w) i).2) →
        Does (e.1 n p a b) sg g w s s fun c => getsFlags (flagUnion c.act fun i => (r c i).2) ∘ getsPred c n p fun i => (r c i).1)

/-- R96, R30: the integer comparisons write predicate p of each active lane, and nothing else. And: R97: the floating-point comparisons write
predicate p and raise their flags. -/
def Obligations.ComparisonResults : Prop := Slice0.IntegerComparisons ∧ Slice0.FloatComparisons

/-- R81, R106, R107: a lane reduction writes the value of its tree, or the exact sum clamped once, to every active lane; each half of a
wave of redundancy grade 1 reduces its own values (R328). -/
def Obligations.ReductionResults : Prop :=
  ∀ (n : BitVec 1) (d a : BitVec 7) (g : Group) (w : Wave) (s : State),
    (∀ e ∈ reductions32,
      let sg := arith false e.2.1 false [.w32 d (n == 0), .r32 a]
      let r (c : Ctx) (half : Nat) := treeReduce (e.2.2 c) 6 (laneTree c half fun i => c.src32 i a)
      Issues sg g w s → NoTrap (issueCtx sg g w) (fun _ => (r (issueCtx sg g w) 0).2) →
        Does (e.1 n d a) sg g w s s fun c =>
          getsFlags (flagUnion c.act fun _ => (r c 0).2) ∘ gets32 c n d fun i => (r c (i / c.w.plan)).1.getD 0) ∧
    (∀ e ∈ reductions64,
      let sg := arith false e.2.1 false [.w64 d (n == 0), .r64 a]
      let r (c : Ctx) (half : Nat) := treeReduce (e.2.2 c) 6 (laneTree c half fun i => c.src64 i a)
      Issues sg g w s → NoTrap (issueCtx sg g w) (fun _ => (r (issueCtx sg g w) 0).2) →
        Does (e.1 n d a) sg g w s s fun c =>
          getsFlags (flagUnion c.act fun _ => (r c 0).2) ∘ gets64 c n d fun i => (r c (i / c.w.plan)).1.getD 0) ∧
    (let sg := arith false false false [.w32 d (n == 0), .r32 a]
      let r (c : Ctx) (half : Nat) := clampS32 (c.act.map fun i => (c.src32 (i + half * c.w.plan) a).toInt).sum
      Issues sg g w s → NoTrap (issueCtx sg g w) (fun _ => (r (issueCtx sg g w) 0).2) →
        Does (.rdcAddS32 n d a) sg g w s s fun c =>
          getsFlags (flagUnion c.act fun _ => (r c 0).2) ∘ gets32 c n d fun i => (r c (i / c.w.plan)).1)

/-- R108: `rngx` writes the value of the counter-based function of key a and counter b. -/
def Obligations.RandomResults : Prop :=
  ∀ (n : BitVec 1) (d a b : BitVec 7) (g : Group) (w : Wave) (s : State),
    (Issues (arith false false false [.w32 d (n == 0), .r64 a, .r64 b]) g w s →
      Does (.rngxB32 n d a b) (arith false false false [.w32 d (n == 0), .r64 a, .r64 b]) g w s s fun c =>
        gets32 c n d fun i => (randomOf (c.src64 i a) (c.src64 i b)).setWidth 32) ∧
    (Issues (arith false false false [.w64 d (n == 0), .r64 a, .r64 b]) g w s →
      Does (.rngxB64 n d a b) (arith false false false [.w64 d (n == 0), .r64 a, .r64 b]) g w s s fun c =>
        gets64 c n d fun i => randomOf (c.src64 i a) (c.src64 i b))

/-! ## Matrix engine and quantisation -/

/-- R124, R125, R127: with its checks met and room in the engine, `mma` enters one operation with its parameter block snapshotted, takes,
keeps or releases the held latch as `reuse` says, issues no earlier than the producers of its A and scale registers allow (R111), and changes nothing
else. With a held latch, the field `snap` is the operation's A operand as every A
and scale register of this block stands at issue: R127 does not say which registers a latched operation reads, and this is the model's choice
(notes/assumptions/44). A parameter block that is misaligned or outside the wave's own window of the view detaches the wave before the group with ILLEGAL, and
one that fails a check of R125 with that check's cause. -/
def Obligations.MmaEntersEngine : Prop :=
  ∀ (a : BitVec 7) (g : Group) (w : Wave) (s : State) (r : Resv),
    let sg : Sig := { flds := [.unused 0x7C, .r32 a, .unused 0x7C], reuse := true, scalar := true, ends := true, matrix := true }
    let c := issueCtx sg g w
    let va := (c.src32 c.elected a).toNat
    let p := s.viewBytes c.w va 32
    let scales := groupsIn r.fmt r.grp (leAt p 2 1)
    let latch : MLatch := { areg := leAt p 0 1, ameta := leAt p 1 1, chunks := leAt p 2 1, scales := scales }
    let op : MmaOp :=
      { id := s.nextId, core := c.w.core, team := c.w.team, blk := c.w.blk, wid := c.w.wid, widx := c.w.idx, width := c.w.width, grade := c.w.grade,
        asid := c.w.asid, param := p, resv := r, fpmode := c.w.fpmode, phase := .issued, flags := 0, launch := s.launchOf c.w.team,
        snap := c.w.mlatch.map fun _ => c.w.lanes.map fun l => aRegs l (leAt p 0 1) (leAt p 1 1) (leAt p 2 1) scales }
    (Issues sg g w s → va % 32 ≠ 0 ∨ 0x200000 < va + 32 ∨ s.viewSize c.w < va + 32 → Traps (.mma a) sg g w s Cause.illegal) ∧
    (Issues sg g w s → va % 32 = 0 → va + 32 ≤ 0x200000 → va + 32 ≤ s.viewSize c.w →
    s.guarded c.w.team (toTeam c.w.core va) 32 false = false → s.viewPoison c.w va 32 = none →
    s.tablePoison c.w (isResvNo (leAt p 4 2)) = false →
    (∀ cause, mmaCheck c.w p (s.liveResv c.w (leAt p 4 2)) = some cause → Traps (.mma a) sg g w s cause) ∧
    (s.liveResv c.w (leAt p 4 2) = some r → mmaCheck c.w p (some r) = none → s.engineUse c.w.core < 16 →
      Does (.mma a) sg g w s
        { s with
          mmas := s.mmas ++ [op]
          nextId := s.nextId + 1 }
        fun c w => ({ w with mlatch := if c.reuse then some (w.mlatch.getD latch) else none } : Wave).awaits latch.regs))

/-- R128, R129, R130, R117: with the rows named inside the wave's window, owned by no operation issued before and readable, `mread` moves 8 entries into 8
registers of each active lane, `mwrite` moves 8 registers into 8 entries in ascending lane order, `mzero` zeroes rows with their status, and
`mstat` reads status words, with the bit `own` of an operation issued since, before it clears the bits named. A row outside the window, in a group that
has not waited for its rows, detaches the wave before the group with ACC_WINDOW (R113, R131). -/
def Obligations.RowAccessResults : Prop :=
  ∀ (d a b : BitVec 7) (g : Group) (w : Wave) (s : State) (k : Block),
    let free (c : Ctx) (r : Nat) : Prop := c.w.winBase ≤ r ∧ r < c.w.winLimit ∧ s.rowBusy c.w c.g.first r = false
    let row (c : Ctx) (i : Nat) := (c.src32 i a).toNat % 8192
    let col (c : Ctx) (i : Nat) := (c.src32 i a).toNat / 65536 % 8
    let inBlock (c : Ctx) (f : Block → Block) : State := s.updBlock c.w.team c.w.blk f
    let outside (i : Instr) (sg : Sig) (rows : Ctx → List Nat) : Prop :=
      Issues sg g w s → w.rowWait = none → (∃ r ∈ rows (issueCtx sg g w), r < w.winBase ∨ w.winLimit ≤ r) → Traps i sg g w s Cause.accWindow
    let named (c : Ctx) : List Nat := c.act.map (row c)
    outside (.mread d a) (onEngine [.range d 8 true, .r32 a]) named ∧
    outside (.mwrite a b) (onEngine [.r32 a, .range b 8 false]) named ∧
    outside (.mzero a) (onEngine [.r32 a]) (fun c => (List.range ((c.src32 c.elected a).toNat / 65536 % 8192)).map (row c c.elected + ·)) ∧
    outside (.mstat d a b) (onEngine [.w32 d true, .r32 a, .r32 b]) named ∧
    (s.block? w.team w.blk = some k →
    (let sg := onEngine [.range d 8 true, .r32 a]
     let c := issueCtx sg g w
     Issues sg g w s → (∀ i ∈ c.act, free c (row c i) ∧ s.rowPoison c.w (row c i) (8 * col c i) 8 = false) →
       Does (.mread d a) sg g w s s fun c => getsRange c d fun i => ((k.row (row c i)).entries.drop (8 * col c i)).take 8) ∧
    (let sg := onEngine [.r32 a, .range b 8 false]
     let c := issueCtx sg g w
     Issues sg g w s → (∀ i ∈ c.act, free c (row c i)) →
       Does (.mwrite a b) sg g w s (inBlock c fun k => c.act.foldl (fun k i => k.setRow (row c i)
         { k.row (row c i) with entries := (k.row (row c i)).entries.mapIdx fun j x => if j / 8 = col c i then (c.srcRange i b 8).getD (j % 8) 0 else x }) k)
         fun _ => id) ∧
    (let sg := onEngine [.r32 a]
     let c := issueCtx sg g w
     let rows := (List.range ((c.src32 c.elected a).toNat / 65536 % 8192)).map (row c c.elected + ·)
     Issues sg g w s → (∀ r ∈ rows, free c r) →
       Does (.mzero a) sg g w s (inBlock c fun k => rows.foldl (fun k r => k.setRow r { entries := List.replicate 64 0, status := 0 }) k) fun _ => id) ∧
    (let sg := onEngine [.w32 d true, .r32 a, .r32 b]
     let c := issueCtx sg g w
     Issues sg g w s → (∀ i ∈ c.act, free c (row c i) ∧ s.rowPoison c.w (row c i) 64 1 = false) →
       Does (.mstat d a b) sg g w s (inBlock c fun k => c.act.foldl (fun k i => k.setRow (row c i)
         { k.row (row c i) with status := (k.row (row c i)).status &&& ~~~(c.src32 i b &&& 0x4000009D) }) k)
         fun c => gets32 c 0 d fun i => (k.row (row c i)).status ||| if s.owned c.w.team c.w.blk (row c i) then 0x80000000 else 0))

/-- R131, R113, Table 44: each lane of `mwin` receives 3 when its wave does not lead its block, being not the resident wave of lowest `%wave`; else 2 when
base > limit, limit > A or no resident wave has `%wave` = t; else 1 when an operation of that wave is in flight or parked; else 0. A window changes exactly
for the lanes with 0, in ascending order, so that the highest lane's remains. A wave parked in a record counts as not resident: R131 does not say, and it is
the model's choice (notes/assumptions/44). -/
def Sys2Proof.Slice0.WindowResults : Prop :=
  ∀ (d a b : BitVec 7) (g : Group) (w : Wave) (s : State),
    let sg := waiting [.w32 d true, .r32 a, .r32 b]
    let c := issueCtx sg g w
    let cs := covered sg g w s
    let t (i : Nat) := (c.src32 i a).toNat % 16
    let lo (i : Nat) := (c.src32 i b).toNat % 8192
    let hi (i : Nat) := (c.src32 i b).toNat / 65536 % 8192
    let resident (x : Wave) : Bool := x.team == w.team && x.blk == w.blk && !x.isRack && x.parkedIn?.isNone
    let rows : Nat := ((s.block? w.team w.blk).map (·.acc)).getD 0
    let st (i : Nat) : W32 :=
      if ∃ x ∈ cs.waves, resident x = true ∧ x.idx < w.idx then 3
      else match cs.waves.find? fun x => resident x && x.idx == t i with
        | none => 2
        | some x => if hi i < lo i ∨ rows < hi i then 2 else if ∃ m ∈ s.mmas, m.wid = x.wid then 1 else 0
    let windows (x : Wave) : Wave := c.act.foldl (fun x i =>
      if st i = 0 ∧ x.team = w.team ∧ x.blk = w.blk ∧ x.idx = t i ∧ x.isRack = false then { x with winBase := lo i, winLimit := hi i } else x) x
    Issues sg g w s → Does (.mwin d a b) sg g w s { s with waves := s.waves.map windows } fun c x => gets32 c 0 d st (windows x)

/-- R132, R133, Table 41: `crsv` gives a descriptor that stands the lowest free handle of the core and answers it, and otherwise answers the first reason:
1 a limit of Table 41, 2 a range outside the allotment, 3 one that meets a reservation of the block, 4 no free record; `crel` ends a live handle of the
block and answers 0, and answers 1 otherwise. -/
def Sys2Proof.Slice0.ReservationResults : Prop :=
  ∀ (d a : BitVec 7) (g : Group) (w : Wave) (s : State),
    let sg := waiting [.w32 d true, .r32 a]
    let c := issueCtx sg g w
    let va := (c.src32 c.elected a).toNat
    let p := s.viewBytes c.w va 16
    let h := va % 65536
    let off := leAt p 0 4
    let len := leAt p 4 4
    let fmt := leAt p 8 1
    let grp := leAt p 9 1
    let allot : Nat := ((s.block? w.team w.blk).map (·.cassLen)).getD 0
    let reason : Nat :=
      if off % 256 ≠ 0 ∨ len % 256 ≠ 0 ∨ len < 256 ∨ 3 < fmt ∨ (fmt ≤ 1 ∧ grp ≠ 0) ∨ (2 ≤ fmt ∧ (grp = 0 ∨ 3 < grp)) ∨ leAt p 10 2 ≠ 0 ∨
        (fmt ≤ 1 ∧ (leAt p 12 2 ≠ 0 ∨ leAt p 14 2 ≠ 0)) then 1
      else if allot ≤ off ∨ allot < off + len then 2
      else if ∃ r ∈ s.resvs, r.team = w.team ∧ r.blk = w.blk ∧ r.off < off + len ∧ off < r.off + r.len then 3
      else if 64 ≤ (s.resvs.filter fun r => r.core == w.core).length then 4
      else 0
    let resv (i : Nat) : Resv :=
      { core := c.w.core, idx := i, team := c.w.team, blk := c.w.blk, off := leAt p 0 4, len := leAt p 4 4, fmt := leAt p 8 1, grp := leAt p 9 1,
        sclo := leAt p 12 2, zpo := leAt p 14 2, live := true }
    Issues sg g w s → s.tablePoison c.w isResv = false →
    (va % 16 = 0 → va + 16 ≤ 0x200000 → va + 16 ≤ s.viewSize c.w → s.guarded c.w.team (toTeam c.w.core va) 16 false = false →
      s.viewPoison c.w va 16 = none →
      (reason ≠ 0 → Does (.crsv d a) sg g w s s fun c => gets32 c 0 d fun _ => BitVec.ofNat 32 (reason * 65536 + 0xFFFF)) ∧
      (∀ i, reason = 0 → i < 64 → (∀ j < i, ∃ r ∈ s.resvs, r.core = c.w.core ∧ r.idx = j) → (∀ r ∈ s.resvs, ¬(r.core = c.w.core ∧ r.idx = i)) →
        Does (.crsv d a) sg g w s { s with resvs := s.resvs ++ [resv i] } fun c => gets32 c 0 d fun _ => BitVec.ofNat 32 i)) ∧
    (s.liveResv c.w h = none → Does (.crel d a) sg g w s s fun c => gets32 c 0 d fun _ => 1) ∧
    (∀ r, s.liveResv c.w h = some r →
      Does (.crel d a) sg g w s
        ({ s with resvs := s.resvs.map fun x => if x.core = r.core ∧ x.idx = r.idx ∧ x.team = r.team ∧ x.blk = r.blk then { x with live := false } else x } : State).freeResvs
        fun c => gets32 c 0 d fun _ => 0)

/-- R131, R113, Table 44: each lane of `mwin` receives 3 when its wave does not lead its block, being not the resident wave of lowest `%wave`; else 2 when
base > limit, limit > A or no resident wave has `%wave` = t; else 1 when an operation of that wave is in flight or parked; else 0. A window changes exactly
for the lanes with 0, in ascending order. A wave parked in a record counts as not resident, which is the model's choice (notes/assumptions/44). And: R132,
R133, Table 41: `crsv` gives a descriptor that stands the lowest free handle of the core and answers it, and otherwise answers the first reason of R132;
`crel` ends a live handle of the block and answers 0, and answers 1 otherwise. -/
def Obligations.WindowAndReservationResults : Prop := Slice0.WindowResults ∧ Slice0.ReservationResults

/-- R138-R140: the quantising instructions write a group image of 1 + G w / 32 registers and raise `qnf` where a lane's scale is not finite;
the dequantising ones write G / 2 registers. The group length G is 32 or 64: 128, which R138 names too, has no code that the field can hold
(notes/assumptions/23). -/
def Obligations.QuantiseResults : Prop :=
  ∀ (d a v : BitVec 7) (g : Group) (w : Wave) (s : State), ∀ G ∈ [32, 64], v.toNat = G →
    (∀ e ∈ [(Instr.quantAq8, 8), (Instr.quantAq4, 4)],
      let sg : Sig := { flds := [.range d (1 + G * e.2 / 32) true, .range a (G / 2) false], ends := true }
      let r (c : Ctx) (i : Nat) := quantGroup (c.fz .f16) (2 ^ e.2 - 1) (halves (c.srcRange i a (G / 2)))
      let fl (c : Ctx) (i : Nat) : BitVec 8 := if (r c i).2.2.2 then 0x40 else 0
      Issues sg g w s → NoTrap (issueCtx sg g w) (fl (issueCtx sg g w)) →
        Does (e.1 d a v) sg g w s s fun c => getsFlags (flagUnion c.act (fl c)) ∘
          getsRange c d fun i => BitVec.ofNat 32 ((r c i).1 + 65536 * (r c i).2.1) :: packCodes e.2 (r c i).2.2.1) ∧
    (∀ e ∈ [(Instr.dquantAq8, 8), (Instr.dquantAq4, 4)],
      let sg : Sig := { flds := [.range d (G / 2) true, .range a (1 + G * e.2 / 32) false], rnd := true, ends := true }
      let r (c : Ctx) (i : Nat) := dquantGroup (c.env .f16) e.2 G (c.srcRange i a (1 + G * e.2 / 32))
      Issues sg g w s → NoTrap (issueCtx sg g w) (fun i => (r (issueCtx sg g w) i).2) →
        Does (e.1 d a v) sg g w s s fun c => getsFlags (flagUnion c.act fun i => (r c i).2) ∘ getsRange c d fun i => (r c i).1)

/-! ## Scratchpad, tags, copies -/

/-- The loads: size in bytes, sign extension. -/
def Sys2Proof.Slice0.loads : List ((BitVec 7 → BitVec 7 → BitVec 7 → Instr) × Nat × Bool) :=
  [(.ldZ8, 1, false), (.ldS8, 1, true), (.ldZ16, 2, false), (.ldS16, 2, true), (.ldB32, 4, false)]
/-- The stores of 32-bit data: size in bytes. -/
def Sys2Proof.Slice0.stores : List ((BitVec 7 → BitVec 7 → BitVec 7 → Instr) × Nat) := [(.stB8, 1), (.stB16, 2), (.stB32, 4)]

/-- Whether a lane's access breaks R174, or in a prologue leaves the prologue area (R245): misaligned, outside both windows, or outside the team's view of
its window. -/
def Sys2Proof.Slice0.broken (w : Wave) (view ea n : Nat) : Prop :=
  ea % n ≠ 0 ∨ (w.prologue = none ∧ (0x400000 ≤ ea ∨ view < ea % 0x200000 + n)) ∨ (w.prologue.isSome = true ∧ 4096 < ea + n)

/-- R173-R175, R142: with every lane's address aligned and inside the view and no engine access in the way, a load writes the bytes of the wave's
view, the lowest-addressed byte least significant, extended as its name says, and changes no memory. An address that breaks R174 in any lane detaches the wave
before the group with ILLEGAL, and no lane reads. -/
def Obligations.LoadResults : Prop :=
  ∀ (d a o : BitVec 7) (g : Group) (w : Wave) (s : State),
    let sg (f : Fld) : Sig := { flds := [f, .r32 a], scalar := true, wides := 2, ends := true, pro := true }
    let reads (c : Ctx) (n : Nat) : Prop := (∀ i ∈ c.act, s.badAccess c.w (c.ea i a o n) n = false ∧ s.viewPoison c.w (c.ea i a o n) n = none) ∧
      s.anyGuarded c (fun i => c.ea i a o n) n false = false
    let breaks (i : Instr) (f : Fld) (n : Nat) : Prop :=
      let c := issueCtx (sg f) g w
      Issues (sg f) g w s → (∃ j ∈ c.act, broken w (s.viewSize w) (c.ea j a o n) n) → Traps i (sg f) g w s Cause.illegal
    (∀ e ∈ loads, breaks (e.1 d a o) (.w32 d true) e.2.1) ∧ breaks (.ldB64 d a o) (.w64 d true) 8 ∧
    (∀ e ∈ loads, Issues (sg (.w32 d true)) g w s → reads (issueCtx (sg (.w32 d true)) g w) e.2.1 →
      Does (e.1 d a o) (sg (.w32 d true)) g w s s fun c => gets32 c 0 d fun i =>
        if e.2.2 then BitVec.ofInt 32 (signed (8 * e.2.1) (leNat (s.loadBytes c.w (c.ea i a o e.2.1) e.2.1)))
        else BitVec.ofNat 32 (leNat (s.loadBytes c.w (c.ea i a o e.2.1) e.2.1))) ∧
    (Issues (sg (.w64 d true)) g w s → reads (issueCtx (sg (.w64 d true)) g w) 8 →
      Does (.ldB64 d a o) (sg (.w64 d true)) g w s s fun c => gets64 c 0 d fun i => BitVec.ofNat 64 (leNat (s.loadBytes c.w (c.ea i a o 8) 8)))

/-- The bytes a store writes, by lane. -/
def Sys2Proof.Slice0.storeData (n : Nat) (d : BitVec 7) (c : Ctx) (i : Nat) : List Byte :=
  leBytes n (if n = 8 then (c.src64 i d).toNat else (c.src32 i d).toNat)

/-- R173-R175, R143, R245: with its lanes' addresses lawful, a store writes each active lane's data, the highest lane's bytes remaining where ranges
meet, every other byte as before: outside a prologue, with nothing in the way and room in the pannier, into the wave's pannier alone, at the
addresses of its team; in a prologue, into the prologue area. No memory changes. An address that breaks R174 in any lane detaches the wave before the group with
ILLEGAL, and a store that needs a 257th sector with PANNIER_FULL; no lane writes. -/
def Obligations.StoreResults : Prop :=
  ∀ (d a o : BitVec 7) (g : Group) (w : Wave) (s : State),
    let sg (f : Fld) : Sig := { flds := [f, .r32 a], scalar := true, wides := 2, ends := true, pro := true }
    let done (mk : BitVec 7 → BitVec 7 → BitVec 7 → Instr) (n : Nat) (f : Fld) : Prop :=
      let c := issueCtx (sg f) g w
      let pan := storePan c (fun i => c.ea i a o n) (storeData n d c)
      let at_ (c : Ctx) (i : Nat) : Nat := toTeam c.w.core (c.ea i a o n)
      let covers (c : Ctx) (i ta : Nat) : Prop := at_ c i ≤ ta ∧ ta < at_ c i + n
      IssuesWith (sg f) (fun c i => [BitVec.ofNat 64 (c.ea i a o n), BitVec.ofNat 64 (leNat (storeData n d c i))]) g w s →
      ((∃ i ∈ c.act, broken w (s.viewSize w) (c.ea i a o n) n) → Traps (mk d a o) (sg f) g w s Cause.illegal) ∧
      ((∀ i ∈ c.act, s.badAccess c.w (c.ea i a o n) n = false) → s.anyGuarded c (fun i => c.ea i a o n) n true = false →
      (w.prologue = none → s.tablePoison c.w isScore = false → 256 < (sectorsOf pan).length + w.reds.length →
        Traps (mk d a o) (sg f) g w s Cause.pannierFull) ∧
      (w.prologue = none → s.tablePoison c.w isScore = false → (sectorsOf pan).length + w.reds.length ≤ 256 →
        Does (mk d a o) (sg f) g w s s (fun _ x => { x with pan := pan }) ∧
        (∀ ta, (∀ i ∈ c.act, ¬covers c i ta) → Held.get? pan ta = Held.get? w.pan ta) ∧
        (∀ i ∈ c.act, ∀ k < n, (∀ j ∈ c.act, i < j → ¬covers c j (at_ c i + k)) → Held.get? pan (at_ c i + k) = (storeData n d c i)[k]?)) ∧
      (∀ p, w.prologue = some p → p.area.length = 4096 →
        let area := c.act.foldl (fun m i => patchBytes m (c.ea i a o n) (storeData n d c i)) p.area
        Does (mk d a o) (sg f) g w s s (fun _ => id) ∧
        (∃ t x q, exec (mk d a o) s = .next t ∧ t.wave? w.wid = some x ∧ x.prologue = some q ∧ q.area = area) ∧
        (∀ m, (∀ i ∈ c.act, ¬(c.ea i a o n ≤ m ∧ m < c.ea i a o n + n)) → area[m]? = p.area[m]?) ∧
        (∀ i ∈ c.act, ∀ k < n, (∀ j ∈ c.act, i < j → ¬(c.ea j a o n ≤ c.ea i a o n + k ∧ c.ea i a o n + k < c.ea j a o n + n)) →
          area[c.ea i a o n + k]? = (storeData n d c i)[k]?)))
    (∀ e ∈ stores, done e.1 e.2 (.st32 d)) ∧ done .stB64 8 (.st64 d)

/-- R176, R177, Table 57: the tag instructions act for the active lanes in ascending order on the block's table, whose entries a block may hold up to
128 for each of its waves; each lane receives its status or slot, and `taginv` the number removed. -/
def Sys2Proof.Slice0.TagResults : Prop :=
  ∀ (d a b : BitVec 7) (g : Group) (w : Wave) (s : State) (k : Block) (t : Team),
    let does (i : Instr) (sg : Sig) (f : Ctx → List (W64 × W16) → Nat → List (W64 × W16) × W32) : Prop :=
      let c := issueCtx sg g w
      let r := tagFold c.act (f c) k.tags
      Does i sg g w s (s.updBlock c.w.team c.w.blk fun x => { x with tags := r.1 }) fun c => gets32 c 0 d fun i => (assoc r.2 (c.index i)).getD 0
    let two := waiting [.w32 d true, .r64 a]
    let three := waiting [.w32 d true, .r64 a, .r32 b]
    let one := waiting [.w32 d true]
    s.block? w.team w.blk = some k → s.team? w.team = some t → s.tablePoison w isTag = false →
    (Issues two g w s → does (.tagq d a) two fun c tags i => (tags, match tagOf tags (c.src64 i a) with | some v => v.setWidth 32 | none => 0xFFFF)) ∧
    (Issues three g w s → does (.tagset d a b) three fun c tags i => tagSetOne (128 * t.nwaves) tags (c.src64 i a) ((c.src32 i b).setWidth 16)) ∧
    (Issues two g w s → does (.tagclr d a) two fun c tags i =>
      (tags.filter fun e => e.1 != c.src64 i a, if (tagOf tags (c.src64 i a)).isSome then 0 else 1)) ∧
    (Issues one g w s →
      Does (.taginv d) one g w s (s.updBlock w.team w.blk fun x => { x with tags := [] }) fun c => gets32 c 0 d fun _ => BitVec.ofNat 32 k.tags.length)

/-- The state with the issue over: the issuing wave's age is 0, no group is selected, waves that waited may try again, and the hold that
covered the issue has one instruction less. -/
def Sys2Proof.Slice0.ended (u : State) (wid : Nat) : State := (u.over wid).countHold wid

/-- `exec i` answers a next state, and it is `u` with the issue over: for an instruction that moves its lanes itself, or acts on other waves. -/
def Sys2Proof.Slice0.Leaves (i : Instr) (sg : Sig) (g : Group) (w : Wave) (s : State) (u : Ctx → State) : Prop :=
  exec i s = .next (ended (u (issueCtx sg g w)) w.wid)

/-- `exec i` answers a next state in which the lanes of the group are past it and then changed by `f`. -/
def Sys2Proof.Slice0.Moves (i : Instr) (sg : Sig) (g : Group) (w : Wave) (s base : State) (f : Ctx → Wave → Wave) : Prop :=
  ∃ t, exec i s = .next t ∧ Completes base t (issueCtx sg g w) (f (issueCtx sg g w) (pastGroup (issueCtx sg g w) (issueCtx sg g w).w))

/-- What makes a copy ILLEGAL at issue beyond its fields (R180 step 1): the scalar block from s[n] on, the image address, the digest address, the handle of the
wave's block. -/
def Sys2Proof.Slice0.copyBroken (s : State) (w : Wave) (k : CopyKind) (n : Nat) (sc : List W64) (av dig : W32) : Prop :=
  let word (j : Nat) : Nat := (sc.getD j 0).toNat
  let sz := scalSize sc
  let img := av.toNat % 2 ^ 22
  let size := scalBytes sc
  let outside (at_ len : Nat) : Prop := 0x400000 ≤ at_ ∨ s.viewSize w < at_ % 0x200000 + len
  let cassette : Prop := word 0 / 2 ^ 59 % 2 = 1
  27 < n ∨ word 0 / 2 ^ 60 ≠ 0 ∨ word 3 / 2 ^ 48 ≠ 0 ∨ word 0 % 2 ^ 57 % 64 ≠ 0 ∨ (cassette ∧ k ≠ .inward) ∨ img % sz ≠ 0 ∨ (¬cassette ∧ outside img size) ∨
    (k = .digest ∧ (dig.toNat % 32 ≠ 0 ∨ outside dig.toNat (32 * ((size + 65535) / 65536)))) ∨
    ∀ h, s.handleOf? w (av.toNat / 2 ^ 22 % 256) = some h → h.state ≠ .free ∧ h.state ≠ .full

/-- R178-R180, R189, R159: with the checks met, no entry of Table 64 in the way and room in the scoreboard, a copy enters the engine with its five
scalars, its operands and (outward) its source bytes through the wave's view, and its handle moves from FREE or FULL to FILLING or
DRAINING; the wave goes on and no memory changes. A copy that fails step 1 of R180 detaches the wave before the group with ILLEGAL, and one to a cassette
range that no live reservation covers with CASSETTE_RANGE. That the part keeps the data of an outward copy which fits its 512 KiB whole when it issues, and
else reads it again later, is the model's choice (notes/assumptions/44). -/
def Obligations.CopyIssue : Prop :=
  ∀ (d a : BitVec 7) (g : Group) (w : Wave) (s : State),
    let does (i : Instr) (k : CopyKind) (f : Fld) (d : BitVec 7) : Prop :=
      let sg : Sig := { flds := [f, .r32 a, .code 0x7E true], scalar := true, ends := true, ok := a != 0x7E && d != 0x7E }
      let c := issueCtx sg g w
      let n := match g.modifier with | some m => modSreg m | none => 0
      let sc := (List.range 5).map fun j => c.w.sregs.getD (n + j) 0
      let av := c.src32 c.elected a
      let img := copyImage av
      let cp : Copy :=
        { id := s.nextId, kind := k, core := w.core, team := w.team, blk := w.blk, wid := w.wid, widx := w.idx, handle := copyHandle av, scal := sc, a := av,
          dig := c.src32 c.elected d, start := if scalCassette sc then img else toTeam w.core img, len := scalBytes sc, cassette := scalCassette sc,
          data := if k = .inward then [] else s.viewBytes c.w img (scalBytes sc), recs := none,
          segs := List.replicate ((scalBytes sc + 4095) / 4096) .todo, level := .wave, lines := [], vlines := [], kil := false, rdr := false,
          digested := false, gbase := 0, stored := decide (s.pendingKept w.core + scalBytes sc ≤ 524288) }
      let reserved : Prop := ∃ r ∈ s.resvs, r.team = w.team ∧ r.blk = w.blk ∧ r.live = true ∧ r.off ≤ img ∧ img + scalBytes sc ≤ r.off + r.len
      let base : State := { s with copies := s.copies ++ [cp], nextId := s.nextId + 1 }
      IssuesWith sg (fun c i => [(c.src32 i a).setWidth 64, (c.src32 i d).setWidth 64]) g w s →
      (∀ j < 5, StoreLoc.sreg w.wid (n + j) ∉ s.errors) → s.tablePoison c.w (isHandleNo (copyHandle av)) = false → s.tablePoison c.w isScore = false →
      (copyBroken s w k n sc av (c.src32 c.elected d) → Traps i sg g w s Cause.illegal) ∧
      (¬copyBroken s w k n sc av (c.src32 c.elected d) → scalCassette sc = true → ¬reserved → Traps i sg g w s Cause.cassRange) ∧
      (¬copyBroken s w k n sc av (c.src32 c.elected d) → (scalCassette sc = true → reserved) →
      s.copyHeld c.w k av sc (c.src32 c.elected d) = false → s.scoreUse w.core + (if k = .digest then 2 else 1) ≤ 64 →
      (k ≠ .inward → s.viewPoison c.w img (scalBytes sc) = none) →
        Does i sg g w s (base.setHandle w.team w.blk (copyHandle av) fun h =>
          { h with state := if k = .inward then .filling else .draining, kil := false, rdr := false }) fun _ => id)
    does (.copyIn a) .inward (.unused 0x7C) 0x7C ∧ does (.copyOut a) .outward (.unused 0x7C) 0x7C ∧ does (.copyOutDigest d a) .digest (.r32 d) d

/-- R186, Table 63: `hget` answers the block's lowest handle not allocated, of 8 for each wave, or 0xFFFF; `hfree` answers 0 and frees a handle in
state FREE or FULL, 1 for one in use, 2 for one not allocated; `hwait`, when every lane's allocated handle is in its named state, answers each
status. -/
def Sys2Proof.Slice0.HandleResults : Prop :=
  ∀ (d a : BitVec 7) (g : Group) (w : Wave) (s : State) (k : Block) (t : Team),
    let one := waiting [.w32 d true]
    let two := waiting [.w32 d true, .r32 a]
    let c := issueCtx two g w
    let n := (c.src32 c.elected a).toNat % 256
    let at_ (f : List Handle → List Handle) : State := s.updBlock w.team w.blk fun b => { b with handles := f b.handles }
    let named (c : Ctx) (i : Nat) : Option Handle := k.handles.find? fun h => h.num == (c.src32 i a).toNat % 256
    s.block? w.team w.blk = some k → s.team? w.team = some t → s.tablePoison w isHandle = false →
    (Issues one g w s → (∀ m < 8 * t.nwaves, ∃ h ∈ k.handles, h.num = m) → Does (.hget d) one g w s s fun c => gets32 c 0 d fun _ => 0xFFFF) ∧
    (∀ m < 8 * t.nwaves, Issues one g w s → (∀ j < m, ∃ h ∈ k.handles, h.num = j) → (∀ h ∈ k.handles, h.num ≠ m) →
      Does (.hget d) one g w s (at_ (· ++ [{ num := m, state := .free, kil := false, rdr := false }])) fun c => gets32 c 0 d fun _ => BitVec.ofNat 32 m) ∧
    (Issues two g w s →
      (named c c.elected = none → Does (.hfree d a) two g w s s fun c => gets32 c 0 d fun _ => 2) ∧
      (∀ h, named c c.elected = some h →
        (h.state = .free ∨ h.state = .full → Does (.hfree d a) two g w s (at_ fun l => l.filter fun x => x.num != n) fun c => gets32 c 0 d fun _ => 0) ∧
        (h.state = .filling ∨ h.state = .draining → Does (.hfree d a) two g w s s fun c => gets32 c 0 d fun _ => 1)) ∧
      ((∀ i ∈ c.act, ∀ h, named c i = some h → h.state.code = (c.src32 i a).toNat / 256 % 4) →
        Does (.hwait d a) two g w s s fun c => gets32 c 0 d fun i => handleStatus (named c i)))

/-- R176, R177, Table 57: the tag instructions act for the active lanes in ascending order on the block's table, whose entries a block may hold up to
128 for each of its waves; each lane receives its status or slot, and `taginv` the number removed. And: R186, Table 63: `hget` answers the
block's lowest handle not allocated, of 8 for each wave, or 0xFFFF; `hfree` answers 0 and frees a handle in state FREE or FULL, 1 for one in use,
2 for one not allocated; `hwait`, when every lane's allocated handle is in its named state, answers each status. -/
def Obligations.TagAndHandleResults : Prop := Slice0.TagResults ∧ Slice0.HandleResults

/-! ## Remote operations and bank operations -/

/-- The remote operations of a group's lanes, in ascending order of lane, numbered from the next number on (R190, R191). -/
def Sys2Proof.Slice0.requests (s : State) (c : Ctx) (fn : Nat) (at_ : Nat → Nat) (addr val cmp : Nat → W64) (dst : Option Nat) : List RemoteOp :=
  c.act.mapIdx fun k i =>
    { id := s.nextId + k, wid := c.w.wid, lane := i, fn := fn, addr := addr i, dpa := at_ i, val := val i, cmp := cmp i, dst := dst, vf := s.vfOf c.w,
      asid := c.w.asid, team := c.w.team, epoch := c.w.epoch, failed := false, core := c.w.core, launch := s.launchOf c.w.team,
      group := c.w.physical c.g.lanes, act := c.act, yielded := (c.lane (c.g.lanes.headD 0)).yielded }

/-- The five returning atomics of Table 65: the function code, whether b and d are pairs, whether d is compared. -/
def Sys2Proof.Slice0.atomics : List ((BitVec 1 → BitVec 7 → BitVec 7 → BitVec 7 → Instr) × Nat × Bool × Bool) :=
  [(.atomAddZ32, 0, false, false), (.atomAddZ64, 1, true, false), (.atomXchgB32, 2, false, false), (.atomCasB32, 3, false, true),
   (.atomCasB64, 4, true, true)]

/-- What turns the address of an operation of Table 65 away, and with which cause: a reserved or unaccepted bit or a misalignment (R171, R190), a scope
that the policy denies (R165), a translation that fails (R172). -/
def Sys2Proof.Slice0.addressFails (s : State) (w : Wave) (fn : Nat) (a : W64) (cause : Nat) : Prop :=
  let x := a.toNat
  let scope := x / 2 ^ 57 % 8
  let align := if fn = 0 ∨ fn = 2 ∨ fn = 3 ∨ fn = 5 then 4 else if fn ≤ 6 then 8 else 64
  let illegal : Prop := x / 2 ^ 62 ≠ 0 ∨ 6 ≤ scope ∨ (x / 2 ^ 60 % 4 ≠ 0 ∧ (fn ≤ 4 ∨ fn = 9)) ∨ x % align ≠ 0
  (illegal ∧ cause = Cause.illegal) ∨ (¬illegal ∧ s.scopeAllowed (s.vfOf w) scope = false ∧ cause = Cause.scope) ∨
    (¬illegal ∧ s.scopeAllowed (s.vfOf w) scope = true ∧ s.translate w.core (s.vfOf w) w.asid (x % 2 ^ 57) (remoteNeed fn) = .error cause)

/-- An operation of Table 65 with an unlawful address in some lane of Active (R171, R165, R172): ILLEGAL where any lane's layout or alignment is, else
SCOPE_DENIED where any lane's scope is denied, else the cause of the lowest lane whose translation fails. That order among lanes is the model's choice
(notes/assumptions/44). -/
def Sys2Proof.Slice0.RefusesAddresses (i : Instr) (sg : Sig) (cmp : Ctx → Nat → List W64) (fn : Nat) (a : BitVec 7) (g : Group) (w : Wave) (s : State) : Prop :=
  let c := issueCtx sg g w
  let fails (i cause : Nat) : Prop := addressFails s w fn (c.src64 i a) cause
  IssuesWith sg cmp g w s →
    ((∃ i ∈ c.act, fails i Cause.illegal) → Traps i sg g w s Cause.illegal) ∧
    ((∀ i ∈ c.act, ¬fails i Cause.illegal) → (∃ i ∈ c.act, fails i Cause.scope) → Traps i sg g w s Cause.scope) ∧
    ((∀ i ∈ c.act, ¬fails i Cause.illegal ∧ ¬fails i Cause.scope) → ∀ before j after cause, c.act = before ++ j :: after →
      (∀ i ∈ before, ∀ x, ¬fails i x) → fails j cause → Traps i sg g w s cause)

/-- R190, R191, R171, R172: when every lane's address passes its checks, an immediate operation sends one request for each lane of Active, in
ascending order, and changes no register and no memory itself. With a destination the wave waits for as many replies; without one it goes
on, ready for its next group. An address that fails a check detaches the wave before the group with the cause of the check (`RefusesAddresses`). -/
def Sys2Proof.Slice0.RemoteRequests : Prop :=
  ∀ (n : BitVec 1) (d a b : BitVec 7) (g : Group) (w : Wave) (s : State) (at_ : Nat → Nat),
    let does (i : Instr) (fn : Nat) (sg : Sig) (dst : Option Nat) (val cmp : Ctx → Nat → W64) : Prop :=
      let c := issueCtx sg g w
      let folded := c.act.foldl (fun (u : State) i => u.foldAccess w.team (c.src64 i a) (val c i) (cmp c i) fn) s
      let base : State :=
        { s with
          remotes := s.remotes ++ requests s c fn at_ (fun i => c.src64 i a) (val c) (cmp c) dst
          nextId := s.nextId + c.act.length
          teams := folded.teams
          tlb := (s.noteAll w (c.act.map fun i => (c.src64 i a).toNat)).tlb }
      RefusesAddresses i sg (fun c i => [c.src64 i a, val c i, cmp c i]) fn a g w s ∧
      (IssuesWith sg (fun c i => [c.src64 i a, val c i, cmp c i]) g w s →
      (∀ i ∈ c.act, s.remoteAddr w.core (s.vfOf w) w.asid fn (c.src64 i a) = .ok (at_ i)) →
        ∃ t q, exec i s = .next t ∧ Completes base t c { pastGroup c c.w with slow := q } ∧
          ∀ x, t.wave? w.wid = some x → (dst.isSome = true → x.wait = .replies c.act.length g.first) ∧ (dst = none → w.wait = .ready → x.wait = .ready))
    (∀ e ∈ atomics,
      let fd : Fld := match e.2.2.1, e.2.2.2 with
        | false, false => .w32 d (n == 0) | true, false => .w64 d (n == 0) | false, true => .rw32 d (n == 0) | true, true => .rw64 d (n == 0)
      does (e.1 n d a b) e.2.1 { flds := [fd, .r64 a, if e.2.2.1 then .r64 b else .r32 b], scalar := true, ends := true } (if n = 1 then none else some d.toNat)
        (fun c i => if e.2.2.1 then c.src64 i b else (c.src32 i b).setWidth 64)
        (fun c i => if e.2.2.2 then (if e.2.2.1 then c.src64 i d else (c.src32 i d).setWidth 64) else 0)) ∧
    does (.xseal d a) 8 (waiting [.w64 d true, .r64 a]) (some d.toNat) (fun _ _ => 0) (fun _ _ => 0) ∧
    does (.xzero a) 9 (waiting [.r64 a]) none (fun _ _ => 0) (fun _ _ => 0)

/-- R192, R143: when every lane's address passes its checks and the sectors fit, a deferred reduction takes one sector of the wave's pannier for
each lane, in ascending order, with its operand, the translated address, its place in the team's issue order (R152) and the core it was issued on (R144);
nothing is performed. An address that fails a check detaches the wave before the group with the cause of the check, and a pannier without room with
PANNIER_FULL, no lane's operation held. -/
def Sys2Proof.Slice0.DeferredReductions : Prop :=
  ∀ (a b : BitVec 7) (g : Group) (w : Wave) (s : State) (at_ : Nat → Nat),
    ∀ e ∈ [(Instr.redAddF32, 5, false), (Instr.redAddF64, 6, true), (Instr.xaddF32, 7, false)],
      let sg := waiting [.r64 a, if e.2.2 then .r64 b else .r32 b]
      let c := issueCtx sg g w
      let val (c : Ctx) (i : Nat) : W64 := if e.2.2 then c.src64 i b else (c.src32 i b).setWidth 64
      RefusesAddresses (e.1 a b) sg (fun c i => [c.src64 i a, val c i]) e.2.1 a g w s ∧
      (IssuesWith sg (fun c i => [c.src64 i a, val c i]) g w s →
      (∀ i ∈ c.act, s.remoteAddr w.core (s.vfOf w) w.asid e.2.1 (c.src64 i a) = .ok (at_ i)) →
      (256 < w.sectors + c.act.length → Traps (e.1 a b) sg g w s Cause.pannierFull) ∧
      (w.sectors + c.act.length ≤ 256 →
        Does (e.1 a b) sg g w s { s with tlb := (s.noteAll w (c.act.map fun i => (c.src64 i a).toNat)).tlb, nextId := s.nextId + 1 } fun c w =>
          { w with reds := w.reds ++ c.act.map fun i =>
              { fn := e.2.1, addr := c.src64 i a, value := val c i, dpa := at_ i, ord := s.nextId, odd := decide (w.core % 2 = 1) } }))

/-- R190, R191, R171, R172: when every lane's address passes its checks, an immediate operation sends one request for each lane of Active, in
ascending order, and changes no register and no memory itself. With a destination the wave waits for as many replies; without one it goes on, ready for
its next group. And: R192, R143: when every lane's address passes its checks and the sectors fit, a deferred reduction takes one sector of the wave's pannier
for each lane, in ascending order, with its operand, the translated address, its place in the team's issue order (R152) and the core it was issued on (R144);
nothing is performed. An address that fails a check detaches the wave before the group with the check's cause, ILLEGAL first, then SCOPE_DENIED, then the
lowest lane's failed translation (that order among lanes is the model's choice, notes/assumptions/44), and a pannier without room with PANNIER_FULL. -/
def Obligations.RemoteRequestsAndReductions : Prop := Slice0.RemoteRequests ∧ Slice0.DeferredReductions

/-- R194, R189: a bank operation acts once, for the elected lane: with its checks met and nothing in the way it enters the engine with b and, for
`bkld`, the bytes it reads; `bkwait` completes once no bank operation of its wave is left. One that fails the first set of checks detaches the wave before
the group with ILLEGAL, and one whose page is missing, lacks the permission or is no bank-engine page with the cause of the failed translation. -/
def Obligations.BankIssue : Prop :=
  ∀ (a b : BitVec 7) (g : Group) (w : Wave) (s : State) (dpa kind : Nat),
    (let sg : Sig := { flds := [.unused 0x7C, .r64 a, .r32 b], scalar := true, ends := true }
     let c := issueCtx sg g w
     let x := c.src64 c.elected a
     let y := c.src32 c.elected b
     ∀ e ∈ [(Instr.bkmode, 0), (Instr.bkld, 1), (Instr.bkmac, 2), (Instr.bkrd, 3), (Instr.bkzero, 4)],
      let op : BankOp :=
        { id := s.nextId, core := w.core, wid := w.wid, team := w.team, fn := e.2, dpa := dpa, b := y,
          data := if e.2 = 1 then s.viewBytes c.w (y.toNat % 2 ^ 22) (bkldBytes y.toNat) else [], dst := toTeam w.core (y.toNat % 2 ^ 22), epoch := w.epoch,
          launch := s.launchOf w.team }
      let place := s.translate w.core (s.vfOf w) w.asid (x.toNat % 2 ^ 57) (bankNeed e.2)
      IssuesWith sg (fun c i => [c.src64 i a, (c.src32 i b).setWidth 64]) g w s →
      (s.bankIllegal w e.2 x.toNat y.toNat = true → Traps (e.1 a b) sg g w s Cause.illegal) ∧
      (s.bankIllegal w e.2 x.toNat y.toNat = false → (∀ cause, place = .error cause → Traps (e.1 a b) sg g w s cause) ∧ (place = .ok (dpa, kind) → s.bankHeld w e.2 y.toNat = false →
      (e.2 = 1 → s.viewPoison c.w (y.toNat % 2 ^ 22) (bkldBytes y.toNat) = none) →
        Does (e.1 a b) sg g w s
          { s with
            bankOps := s.bankOps ++ [op]
            nextId := s.nextId + 1
            teams := (s.foldAccess w.team x (y.setWidth 64) 0 e.2).teams
            tlb := (s.noteAll w [x.toNat]).tlb } fun _ => id))) ∧
    (let sg : Sig := { flds := [.unused 0x7C, .unused 0x7C, .unused 0x7C], ends := true }
     Issues sg g w s → (∀ o ∈ s.bankOps, o.wid ≠ w.wid) → Does .bkwait sg g w s s fun _ => id)

/-! ## Levels, barriers, aborts, maintenance -/

/-- R150, R149, Table 51: `cmt.b` with a conflict publishes nothing and writes its report; without one, and `cmt.b.lw` always, it publishes the
pannier into the block overlay (the newer byte wins), hands the deferred reductions on, empties the pannier and reports 0; siblings of the
block note the bytes. -/
def Obligations.WaveCommit : Prop :=
  ∀ (n : BitVec 1) (d : BitVec 7) (g : Group) (w : Wave) (s : State),
    let sg : Sig := { flds := [.w64 d (n == 0), .unused 0x7C, .unused 0x7C], guard := false, ends := true }
    let report := conflictReport (conflicting w.core w.pan w.foreign)
    let base : State :=
      { s with
        blocks := updWhere s.blocks (fun b => b.team == w.team && b.idx == w.blk) fun b => { b with ovl := Held.over w.pan b.ovl, reds := b.reds ++ w.reds }
        copies := s.copies.map fun c => if c.wid = w.wid ∧ c.level = .wave then { c with level := .block } else c
        waves := s.waves.map fun x =>
          if x.wid = w.wid then x
          else if x.team = w.team ∧ x.blk = w.blk ∧ x.isRack = false then { x with foreign := addForeign x.foreign w.pan } else x }
    Issues sg g w s → s.accessOut w.wid = false → s.pannierPoison w.wid = false →
    (report ≠ 0 → s.overlaysFit (w.core / 2) = true → Does (.cmtB n d) sg g w s s fun c => gets64 c n d fun _ => report) ∧
    (∀ i, i = Instr.cmtBLw n d ∨ (report = 0 ∧ i = Instr.cmtB n d) → base.overlaysFit (w.core / 2) = true →
      Does i sg g w s base fun c w => gets64 c n d (fun _ => 0) { w with pan := [], reds := [], foreign := [] })

/-- The signature of an instruction without operands that ends a hold, and of a barrier commit. -/
def Sys2Proof.Slice0.bare (guard : Bool) : Sig := { flds := [.unused 0x7C, .unused 0x7C, .unused 0x7C], guard := guard, ends := true }
def Sys2Proof.Slice0.commitForm (n : BitVec 1) (d : BitVec 7) : Sig := { flds := [.w64 d (n == 0), .unused 0x7C, .unused 0x7C], guard := false, ends := true }
/-- The signature of `opn.w`, `opn.b` and `opn.t` in a group whose target lies in the code space. -/
def Sys2Proof.Slice0.openForm (g : Group) (o : BitVec 20) : Sig :=
  { flds := [], guard := false, wides := 1, bfmt := true, ends := true, ok := targetOk g o }
/-- The barrier a wave meets: the one that has begun, or a new one of the waves that have not ended (R229). -/
def Sys2Proof.Slice0.meets (s : State) (w : Wave) (fn : Nat) : Barrier :=
  (s.bar w fn).getD { fn := barKind fn, members := s.barMembers w.team (if barKind fn = 2 ∨ fn = 0x12 then none else some w.blk), arrived := [] }

/-- R229, R147, R150, Table 50: a wave that meets its barrier is noted as arrived; while a member is missing it waits, and when it is the last one
the barrier completes: `bsync` releases every wave; `opn.b` and `opn.t` record each wave's address and depths first; `cmt.t` publishes the block
in order and gives every wave the report; `cmt.d` performs the lower commits and the team begins to gather. -/
def Obligations.BarrierArrivals : Prop :=
  ∀ (n : BitVec 1) (d : BitVec 7) (o : BitVec 20) (g : Group) (w : Wave) (s : State),
    let does (i : Instr) (fn : Nat) (sg : Sig) (arr : Arrival) (finish : Ctx → Barrier → State → State) : Prop :=
      let cs := covered sg g w s
      let b := meets cs w fn
      let b' : Barrier := { b with arrived := b.arrived.filter (fun x => x.1 != w.wid) ++ [(w.wid, arr)] }
      let noted : State := (cs.setBar w fn (some b')).updWave w.wid fun x => { x with wait := .barrier, slow := x.slow.dropLast }
      Issues sg g w s → b.fn = barKind fn → w.wid ∈ b.members →
      ((∀ m ∈ cs.stillMembers b', ∃ x ∈ b'.arrived, x.1 = m) → Leaves i sg g w s fun c => finish c b' noted) ∧
      ((∃ m ∈ cs.stillMembers b', ∀ x ∈ b'.arrived, x.1 ≠ m) → Leaves i sg g w s fun _ => noted)
    let here (fn : Nat) : Arrival := { fn := fn, dst := 0x7C, nw := true, target := 0, next := g.at_ + 4, first := g.first }
    let quiet : Prop := s.accessOut w.wid = false ∧ s.pannierPoison w.wid = false
    let fits (u : State) : Bool := u.overlaysFit (w.core / 2)
    does .bsync 0x10 (bare false) (here 0x10) (fun _ b u => (u.setBar w 0x10 none).releaseAll b 0) ∧
    (∀ e ∈ [(Instr.opnB, 0x11), (Instr.opnT, 0x12)], does (e.1 o) e.2 (openForm g o) { here e.2 with target := BitVec.ofInt 57 (targetOf g o) } fun _ b u =>
      ((b.arrived.foldl (fun u x => (u.forget (· == .waveReg x.1 (e.2 - 0x10 + 4))).updWave x.1 fun v => v.openAt (e.2 - 0x10) x.2.target) u).setBar w e.2
        none).releaseAll b 0) ∧
    (quiet → ∀ e ∈ [(Instr.cmtT, 1), (Instr.cmtTLw, 4)], does (e.1 n d) e.2 (commitForm n d) { here e.2 with dst := d.toNat, nw := n == 1 } fun _ b u =>
      let r := u.commitT w.team w.blk (b.arrived.map (·.1)) (b.arrived.all fun x => decide (3 ≤ x.2.fn))
      if fits r.1 then (r.1.setBar w 1 none).releaseAll b r.2 else u.overlayFull w 1 b) ∧
    (quiet → (∀ t, s.team? w.team = some t → t.gather = none) → ∀ e ∈ [(Instr.cmtD, 2), (Instr.cmtDLw, 5)],
      does (e.1 n d) e.2 (commitForm n d) { here e.2 with dst := d.toNat, nw := n == 1 } fun _ b u =>
        let r := u.commitLower w.team (b.arrived.map (·.1))
        if fits r then
          let gathers : Gather := { checked := !(b.arrived.all fun x => decide (3 ≤ x.2.fn)), final := false, lowered := true }
          r.updTeam w.team fun t => { t with gather := some gathers }
        else u.overlayFull w 2 b)

/-- R147, R166: `opn.w` records the abort address and every live lane's depth; a `fence` whose scope the function may name begins a new epoch
of its wave's accesses. R166 orders those of the lanes in Active of the fence; that the new epoch takes in every lane of the wave is the model's
choice (notes/assumptions/39). -/
def Sys2Proof.Slice0.OpenAndFence : Prop :=
  ∀ (o : BitVec 20) (scope : BitVec 3) (g : Group) (w : Wave) (s : State),
    (Issues (openForm g o) g w s → Does (.opnW o) (openForm g o) g w s s fun _ w =>
      { w with
        abtW := some (BitVec.ofInt 57 ((g.at_.toNat : Int) + 4 * wideValue g 20 o.toNat))
        lanes := w.lanes.map fun l => if l.live then { l with abtW := l.depth } else l }) ∧
    (let sg : Sig := { flds := [.unused 0x7C, .code (scope.setWidth 7) (decide (scope.toNat ≤ 5)), .unused 0x7C], ends := true }
     Issues sg g w s → s.scopeAllowed (s.vfOf w) scope.toNat = true →
       Does (.fence scope) sg g w s s fun _ w => { w with epoch := w.epoch + 1 })

/-- R155, R148: an abort whose own address for its level is not set detaches its wave before the group with ILLEGAL. One whose address is set discards the
holders of its level and below in its unit: panniers and deferred reductions of the unit's waves, the overlays of its blocks, with `abt.t` the team's too,
and the copies pending there. Every wave of the unit that runs and whose address is set goes there: its live lanes stand at the address, as normal, with the
recorded depth and the registers they had, no lane sleeps, and its held latch is released. One whose address is not set ends, but for one that the rack
of a spawned thread launched (R233). Memory does not change. -/
def Obligations.AbortResults : Prop :=
  ∀ (g : Group) (w : Wave) (s : State), ∀ e ∈ [(Instr.abtW, 6), (Instr.abtB, 7), (Instr.abtT, 8)],
    let hit (x : Wave) : Prop := x.team = w.team ∧ x.isRack = false ∧ (if e.2 = 6 then x.wid = w.wid else e.2 = 8 ∨ x.blk = w.blk)
    let parked (x : Wave) : Prop := ∃ r, x.status = .parked r
    Issues (bare false) g w s →
    ((w.abortAddr e.2) = none → exec e.1 s = .next (((covered (bare false) g w s).faultBefore (issueCtx (bare false) g w) Cause.illegal []).countHold w.wid)) ∧
    ((w.abortAddr e.2).isSome = true → w.status = .running → ∃ t, exec e.1 s = .next t ∧ t.mem = s.mem ∧
      (∀ x, s.wave? x.wid = some x → hit x → ¬parked x →
        (∀ a, x.abortAddr e.2 = some a → ∃ y, t.wave? x.wid = some y ∧ y.pan = [] ∧ y.reds = [] ∧ y.mlatch = none ∧
          ∀ (i : Nat) (l l' : Lane), x.lanes[i]? = some l → y.lanes[i]? = some l' →
            (l.live = true → l'.pc = a ∧ l'.yielded = false ∧ l'.depth = min (l.abortDepth e.2) l.depth ∧ l'.regs = l.regs) ∧ l'.live = l.live ∧ l'.sleep = none) ∧
        (x.abortAddr e.2 = none → ∀ y, t.wave? x.wid = some y → y.pan = [] ∧ y.reds = [] ∧ (x.spawned = false → ∀ l ∈ y.lanes, l.live = false))) ∧
      (e.2 ≠ 6 → ∀ b ∈ t.blocks, b.team = w.team → (e.2 = 8 ∨ b.idx = w.blk) → b.ovl = [] ∧ b.reds = []) ∧
      (e.2 = 8 → ∀ y, t.team? w.team = some y → y.ovl = [] ∧ y.reds = []) ∧
      (∀ c ∈ t.copies, c.pendingOut = true → c.team = w.team →
        (if e.2 = 6 then ¬(c.wid = w.wid ∧ c.level = .wave) else if e.2 = 7 then ¬(c.blk = w.blk ∧ c.level ≠ .team) else False)))

/-- R200, R319, R329: with every lane's range lawful and translated and no access of an earlier epoch outstanding, a maintenance instruction acts
page by page on each lane's range, and the wave goes on; `cln` and `cinv` that meet a dirty line of another context, or of a host, in error act too and
detach their wave before the group, with CHECK_VALUE where such a line's error shows as a mismatch of its check value (R313) and with ECC_UNCORR
otherwise; a secondary twin's is not performed. Memory keeps its bytes when no word is in error. -/
def Obligations.MaintenanceResults : Prop :=
  ∀ (a b : BitVec 7) (g : Group) (w : Wave) (s : State) (dpa : Nat → Nat),
    let sg : Sig := { flds := [.unused 0x7C, .r64 a, .r32 b], scalar := true, ends := true }
    let c := issueCtx sg g w
    let x (i : Nat) : Nat := (c.src64 i a).toNat
    let y (i : Nat) : Nat := (c.src32 i b).toNat
    let pieces (i : Nat) : List (Nat × Nat) := pagePieces (x i) (y i % 2 ^ 27)
    let secondary : Prop := ∃ t, s.team? w.team = some t ∧ t.secondary = true
    Issues sg g w s →
    (∀ i ∈ c.act, plainAddr (x i) = true ∧ x i % 64 = 0 ∧ rangeOk (y i) = true ∧
      ∀ p ∈ pieces i, p.1 < 2 ^ 57 ∧ ∃ k, s.translate w.core (s.vfOf w) w.asid p.1 Need.maintain = .ok (dpa p.1, k)) →
    (∀ o ∈ s.remotes, o.wid = w.wid → w.epoch ≤ o.epoch) → (∀ o ∈ s.bankOps, o.wid = w.wid → w.epoch ≤ o.epoch) →
    ∀ e ∈ [(Instr.cln, 0), (Instr.inv, 1), (Instr.cinv, 2)],
      let u : State := c.act.foldl (fun u i => u.foldAccess w.team (c.src64 i a) (BitVec.ofNat 64 (y i)) 0 e.2) ((covered sg g w s).noteAll w (c.act.map x))
      let done : State := c.act.foldl (fun u i => (pieces i).foldl (fun u p => u.maintain e.2 (y i / 2 ^ 31 % 2) (dpa p.1) p.2) u) u
      let other (l : Line) : Prop := (∃ i ∈ c.act, ∃ p ∈ pieces i, dpa p.1 ≤ l.dpa ∧ l.dpa < dpa p.1 + p.2) ∧ l.dirty = true ∧ s.recalled l.dpa = false ∧
        s.lineBad l = true ∧ (l.host = true ∨ l.vf ≠ s.vfOf w ∨ l.asid ≠ w.asid)
      let foreign : Prop := ∃ l ∈ s.lines, other l
      let mismatched : Prop := ∃ l ∈ s.lines, other l ∧ l.dpa / 64 ∈ s.mismatch
      (secondary → Leaves (e.1 a b) sg g w s fun c => u.advance c) ∧
      (¬secondary → e.2 = 1 ∨ ¬foreign → Leaves (e.1 a b) sg g w s fun c => done.advance c) ∧
      (¬secondary → e.2 ≠ 1 → foreign → mismatched → Leaves (e.1 a b) sg g w s fun c => done.faultBefore c Cause.checkValue []) ∧
      (¬secondary → e.2 ≠ 1 → foreign → ¬mismatched → Leaves (e.1 a b) sg g w s fun c => done.faultBefore c Cause.ecc []) ∧
      (s.errors = [] → ∃ t, exec (e.1 a b) s = .next t ∧ t.mem = s.mem ∧ t.remotes = s.remotes ∧ t.copies = s.copies)

/-! ## Control, lanes, racks -/

/-- R224, R43, R207: a branch sends the lanes of Active for which it is taken to the target, as normal, or as yielded for `bry`; a `call` pushes the
address of the next word in each of them, when none of them stands at depth 32, and detaches the wave before the group with STACK_OVF when one does
(R208). The other lanes go on. -/
def Obligations.BranchResults : Prop :=
  ∀ (p : BitVec 3) (e : BitVec 1) (o : BitVec 20) (g : Group) (w : Wave) (s : State),
    let target : Int := (g.at_.toNat : Int) + 4 * wideValue g 20 o.toNat
    let sg (kind : Nat) : Sig :=
      { flds := [], guard := false, wides := 1, bfmt := true, ends := kind == 1,
        ok := targetOk g o && (kind ≠ 1 || decide (wideValue g 20 o.toNat ≤ 0)), pro := kind == 0 }
    let does (i : Instr) (kind : Nat) (taken : Ctx → Nat → Bool) : Prop :=
      IssuesWith (sg kind) (fun c i => [if taken c i then 1 else 0]) g w s →
      (kind = 2 → ∀ j ∈ (issueCtx (sg kind) g w).act, taken (issueCtx (sg kind) g w) j = true → ((issueCtx (sg kind) g w).lane j).depth < 32) →
        Moves i (sg kind) g w s s fun c => onActive c fun j l =>
          if taken c j then { (if kind = 2 then l.push (g.at_ + 4) else l) with pc := BitVec.ofInt 57 target, yielded := kind == 1 } else l
    let full (i : Instr) (taken : Ctx → Nat → Bool) : Prop :=
      IssuesWith (sg 2) (fun c i => [if taken c i then 1 else 0]) g w s →
      (∃ j ∈ (issueCtx (sg 2) g w).act, taken (issueCtx (sg 2) g w) j = true ∧ 32 ≤ ((issueCtx (sg 2) g w).lane j).depth) →
        exec i s = .next (((covered (sg 2) g w s).faultBefore (issueCtx (sg 2) g w) Cause.stackOvf []).countHold w.wid)
    let guarded (c : Ctx) (j : Nat) : Bool := (c.lane j).preds.getLsbD p.toNat != (e == 1)
    (∀ x ∈ [(Instr.br, 0), (Instr.bry, 1), (Instr.call, 2)], does (x.1 o) x.2 fun _ _ => true) ∧
    (∀ x ∈ [(Instr.brGuarded, 0), (Instr.bryGuarded, 1), (Instr.callGuarded, 2)], does (x.1 p e o) x.2 guarded) ∧
    full (.call o) (fun _ _ => true) ∧ full (.callGuarded p e o) guarded

/-- R225, R208, R222: `callr` and `jmpr` go to each lane's own address when all are lawful, and detach the wave before the group with ILLEGAL when one is not;
`ret` goes to each lane's top entry and pops it; a full or empty stack detaches the wave before the group. -/
def Obligations.IndirectTransfers : Prop :=
  ∀ (a : BitVec 7) (g : Group) (w : Wave) (s : State),
    let sg : Sig := { flds := [.unused 0x7C, .r64 a, .unused 0x7C], scalar := true }
    let ra : Sig := { flds := [.unused 0x7C, .unused 0x7C, .unused 0x7C] }
    let c := issueCtx sg g w
    let lawful : Prop := ∀ i ∈ c.act, (c.src64 i a).toNat % 4 = 0 ∧ (c.src64 i a).toNat < 2 ^ 57
    (IssuesWith sg (fun c i => [c.src64 i a]) g w s → ¬lawful → Traps (.jmpr a) sg g w s Cause.illegal ∧ Traps (.callr a) sg g w s Cause.illegal) ∧
    (IssuesWith sg (fun c i => [c.src64 i a]) g w s → lawful →
      (Moves (.jmpr a) sg g w s s fun c => onActive c fun i l => { l with pc := (c.src64 i a).setWidth 57, yielded := false }) ∧
      ((∀ i ∈ c.act, (c.lane i).depth < 32) →
        Moves (.callr a) sg g w s s fun c => onActive c fun i l => { l.push (g.at_ + 4) with pc := (c.src64 i a).setWidth 57, yielded := false }) ∧
      ((∃ i ∈ c.act, 32 ≤ (c.lane i).depth) → exec (.callr a) s = .next (((covered sg g w s).faultBefore c Cause.stackOvf []).countHold w.wid))) ∧
    (IssuesWith ra (fun c i => [(c.lane i).top.setWidth 64]) g w s →
      ((∀ i ∈ (issueCtx ra g w).act, (((issueCtx ra g w).lane i).depth ≠ 0)) →
        Moves .ret ra g w s s fun c => onActive c fun _ l => { l.pop with pc := l.top, yielded := false }) ∧
      ((∃ i ∈ (issueCtx ra g w).act, ((issueCtx ra g w).lane i).depth = 0) →
        exec .ret s = .next (((covered ra g w s).faultBefore (issueCtx ra g w) Cause.illegal []).countHold w.wid)))

/-- R208, R209: a push of a return address and the pop after it give the lane back, for every depth up to 32 whose on-chip entries are the last
four and whose spill area stands; the entry popped is the one pushed. -/
def Obligations.ReturnStackRoundTrip : Prop :=
  ∀ (l : Lane) (ra : W57), l.depth < 32 → l.chip.length = min l.depth 4 → l.spill.length = 28 →
    (l.push ra).top = ra ∧ (l.push ra).depth = l.depth + 1 ∧ (l.push ra).pop.depth = l.depth ∧ (l.push ra).pop.chip = l.chip ∧
      ∀ e, 1 ≤ e → e ≤ l.depth → (l.push ra).pop.entry e = l.entry e

/-- R226, R153, R154, R246: `exit` ends the lanes of Active; while other lanes live the wave goes on; the last ones commit as `cmt.b.lw`, and where no lane
of their block is left, in a wave or a rack, as `cmt.t.lw` too, and the wave ends; where the overlay store cannot hold what they publish the wave detaches
before the group with OVERLAY_FULL; in a prologue `exit` ends the run. -/
def Sys2Proof.Slice0.ExitResults : Prop :=
  ∀ (g : Group) (w : Wave) (s : State),
    let sg : Sig := { flds := [.unused 0x7C, .unused 0x7C, .unused 0x7C], ends := true, pro := true }
    let c := issueCtx sg g w
    let off : Ctx → Wave → Wave := fun c => onActive c fun _ l => { l with live := false, sleep := none }
    let u : State := (covered sg g w s).steer c fun _ l => { l with live := false, sleep := none }
    let alone : Prop := ∀ x ∈ s.waves, x.team = w.team → x.blk = w.blk → x.wid ≠ w.wid → ∀ l ∈ x.lanes, l.live = false
    let wave : State := (u.commitWave w.wid true).1
    let commits (v : State) : Prop := (v.overlaysFit (w.core / 2) = true → Leaves .exit sg g w s fun _ => v.tryFinish w.wid) ∧
      (v.overlaysFit (w.core / 2) = false → exec .exit s = .next (((covered sg g w s).faultBefore c Cause.overlayFull []).countHold w.wid))
    Issues sg g w s →
    (w.prologue = none → (∃ i l, w.lanes[i]? = some l ∧ l.live = true ∧ i ∉ c.phys) → Moves .exit sg g w s s off) ∧
    (w.prologue = none → (∀ i l, w.lanes[i]? = some l → l.live = true → i ∈ c.phys) → s.accessOut w.wid = false → s.pannierPoison w.wid = false →
      (¬alone → commits wave) ∧ (alone → commits (wave.commitBlock w.team w.blk true).1)) ∧
    (∀ p, w.prologue = some p → Leaves .exit sg g w s fun _ => u.updWave w.wid fun x => { x with prologue := some { p with ended := some 0 } })

/-- R227, R288: `trap` detaches the wave after its group, with cause TRAP, the lanes of Active and each one's code. -/
def Sys2Proof.Slice0.TrapDetaches : Prop :=
  ∀ (a : BitVec 7) (g : Group) (w : Wave) (s : State),
    let sg : Sig := { flds := [.unused 0x7C, .r32 a, .unused 0x7C], scalar := true, ends := true }
    IssuesWith sg (fun c i => [(c.src32 i a).setWidth 64]) g w s →
      Leaves (.trap a) sg g w s fun c => ((covered sg g w s).advance c).detach w.wid
        { cause := Cause.trap, done := true, faddr := g.first, amask := c.amask, laneFlags := [],
          codes := (List.range w.width).map fun i => if c.phys.contains i then c.src32 i a else 0 }

/-- R226, R153, R154, R246: `exit` ends the lanes of Active; while other lanes live the wave goes on; the last ones commit as `cmt.b.lw`, and where no lane
of their block is left, in a wave or a rack, as `cmt.t.lw` too, and the wave ends; where the overlay store cannot hold what they publish the wave detaches
before the group with OVERLAY_FULL; in a prologue `exit` ends the run. And: R227, R288: `trap` detaches the wave after its group, with cause TRAP, the
lanes of Active and each one's code. -/
def Obligations.ExitAndTrap : Prop := Slice0.ExitResults ∧ Slice0.TrapDetaches

/-- R228: `yield` puts the lanes of Active into the class yielded past the group; `nop` only moves on. -/
def Sys2Proof.Slice0.YieldAndNop : Prop :=
  ∀ (g : Group) (w : Wave) (s : State),
    let quiet : Sig := { flds := [.unused 0x7C, .unused 0x7C, .unused 0x7C], pro := true }
    (Issues (bare true) g w s → Moves .yield (bare true) g w s s fun c => onActive c fun _ l => { l with yielded := true }) ∧
    (Issues quiet g w s → Does .nop quiet g w s s fun _ => id)

/-- R147, R166: `opn.w` records the abort address and every live lane's depth; a `fence` whose scope the function may name begins a new epoch of its
wave's accesses, of every lane of the wave, which is the model's choice (notes/assumptions/39): R166 orders those of the lanes in Active of the fence.
And: R228: `yield` puts the lanes of Active into the class yielded past the group; `nop` only moves on. -/
def Obligations.OpenFenceYieldNop : Prop := Slice0.OpenAndFence ∧ Slice0.YieldAndNop

/-- The source lane of each shuffle for L lane positions, lane i and operand b (R231). -/
def Sys2Proof.Slice0.shuffles : List ((BitVec 7 → BitVec 7 → BitVec 7 → Instr) × (Nat → Nat → Nat → Option Nat)) :=
  [(.xlIdx, fun l _ b => some (b % l)), (.xlLo, fun _ i b => if i < b then none else some (i - b)),
   (.xlHi, fun l i b => if l ≤ i + b then none else some (i + b)), (.xlXor, fun l i b => some (i ^^^ (b % l))), (.xlRot, fun l i b => some ((i + b) % l))]

/-- R230-R232: votes and ballots over Active, shuffles (a lane whose source is out of range or not Active keeps its d), and `sget` of the lowest
active lane. -/
def Obligations.LaneExchange : Prop :=
  ∀ (p q : BitVec 3) (n : BitVec 5) (d a b : BitVec 7) (g : Group) (w : Wave) (s : State),
    let vote : Sig := { flds := [.unused 0x7C] }
    let ballot : Sig := { flds := [.w64 d true, .unused 0x7C] }
    let three : Sig := { flds := [.rw32 d true, .r32 a, .r32 b], scalar := true }
    let get : Sig := { flds := [.r64 a, .unused 0x7C], scalar := true }
    let holds (c : Ctx) (i : Nat) : Bool := (c.lane i).preds.getLsbD q.toNat
    (Issues vote g w s →
      Does (.lany p q) vote g w s s (fun c => getsPred c 0 p fun _ => c.act.any (holds c)) ∧
      Does (.lall p q) vote g w s s (fun c => getsPred c 0 p fun _ => c.act.all (holds c))) ∧
    (Issues ballot g w s → Does (.lbits d q) ballot g w s s fun c => gets64 c 0 d fun _ => maskOf 64 fun i => c.act.contains i && holds c i) ∧
    (Issues three g w s → ∀ e ∈ shuffles, Does (e.1 d a b) three g w s s fun c => gets32 c 0 d fun i =>
      match (e.2 c.w.plan (i % c.w.plan) (c.src32 i b).toNat).filter (c.act.contains ·) with
      | some j => c.src32 (j + (i - i % c.w.plan)) a
      | none => c.src32 i d) ∧
    (IssuesWith get (fun c i => [c.src64 i a]) g w s → Does (.sget n a) get g w s s fun c => getsScalar n (c.src64 (c.act.headD 0) a))

/-- R233, R235: `spawn` with lawful operands places one thread for each lane of Active in ascending order and writes 0 to the lanes whose thread was
placed and 1 to the others; `racktm` sets the block's rack timer, 16 to 4096. -/
def Sys2Proof.Slice0.SpawnResults : Prop :=
  ∀ (d a b : BitVec 7) (g : Group) (w : Wave) (s : State),
    (let sg : Sig := { flds := [.rw32 d true, .r64 a, .r32 b], scalar := true, ends := true }
     let c := issueCtx sg g w
     let y (i : Nat) : Nat := (c.src32 i b).toNat
     let vals (i j : Nat) : List W32 := (List.range (y i % 128)).map fun k => (c.lane j).regs.getD (y i / 256 % 128 + k) 0
     let thread (i : Nat) : Thread := { spawned := true, tid := c.src32 i d, vals := vals i i, shadow := vals i (c.shadow i) }
     let placed : State × List (Nat × W32) := c.act.foldl (fun acc i =>
       let r := acc.1.placeInRack c.w false ((c.src64 i a).setWidth 57) (thread i)
       (r.1, acc.2 ++ [(i, if r.2 then 0 else 1)])) (covered sg g w s, [])
     IssuesWith sg (fun c i => [c.src64 i a, (c.src32 i b).setWidth 64, (c.src32 i d).setWidth 64]) g w s →
     (∀ i ∈ c.act, (c.src64 i a).toNat % 4 = 0 ∧ (c.src64 i a).toNat < 2 ^ 57 ∧ y i % 128 ≤ w.nregs ∧ (0 < y i % 128 → y i / 256 % 128 + y i % 128 ≤ w.nregs)) →
       Leaves (.spawn d a b) sg g w s fun c => (placed.1.put32 c d fun i => (assoc placed.2 (i % c.w.plan)).getD 0).advance c) ∧
    (let sg : Sig := { flds := [.unused 0x7C, .r32 a, .unused 0x7C], scalar := true, ends := true }
     let t := ((issueCtx sg g w).src32 (issueCtx sg g w).elected a).toNat
     Issues sg g w s → 16 ≤ t → t ≤ 4096 → Does (.racktm a) sg g w s (s.updBlock w.team w.blk fun b => { b with rackT := t }) fun _ => id)

/-- R213, R214: `regroup` with lawful operands, no access and no unstarted operation outstanding, commits as `cmt.b.lw`, places its lanes in
racks with their own `%tid` and carried registers, and the wave ends; the lanes that found no place stay and go to their target as normal. The wave's own
slot counts as free when all its lanes find a place with it, and as taken otherwise: R213 and R214 leave that open, and it is the model's choice
(notes/assumptions/13). -/
def Obligations.RegroupResults : Prop :=
  ∀ (a b : BitVec 7) (g : Group) (w : Wave) (s : State),
    let sg : Sig := { flds := [.unused 0x7C, .r64 a, .r32 b], guard := false, scalar := true, ends := true }
    let c := issueCtx sg g w
    let s1 := ((covered sg g w s).commitWave w.wid true).1
    let s2 := s1.updWave w.wid fun w => { w with mlatch := none }
    let r := if (s2.placeAll c true a b).2 = [] then s2.placeAll c true a b else s2.placeAll c false a b
    IssuesWith sg (fun c i => [c.src64 i a, (c.src32 i b).setWidth 64]) g w s →
    (∀ i ∈ c.act, (c.src64 i a).toNat % 4 = 0 ∧ (c.src64 i a).toNat < 2 ^ 57 ∧ (c.src32 i b).toNat % 128 ≤ w.nregs ∧ (c.lane i).depth = 0) →
    s.accessOut w.wid = false → s.pannierPoison w.wid = false → s1.overlaysFit (w.core / 2) = true →
    (∀ m ∈ s.mmas, m.wid = w.wid → m.phase ≠ .issued) →
    (r.2 = [] → Leaves (.regroup a b) sg g w s fun _ =>
      (r.1.updWave w.wid fun x => { x with lanes := x.lanes.map fun l => { l with live := false, sleep := none } }).finishWave w.wid) ∧
    (r.2 ≠ [] → Leaves (.regroup a b) sg g w s fun c => r.1.updWave w.wid fun x =>
      { x with
        lanes := x.lanes.mapIdx fun i l =>
          if (c.w.physical r.2).contains i then { l with pc := (c.src64 i a).setWidth 57, yielded := false } else { l with live := false, sleep := none } })

/-- R236 steps 1 and 2: with every lane's address plain, aligned and translated, the lanes of Active fall asleep at their group, each with its address,
compared word and destination; nothing is written. -/
def Sys2Proof.Slice0.WaitSleeps : Prop :=
  ∀ (d a b : BitVec 7) (g : Group) (w : Wave) (s : State) (dpa kind : Nat → Nat),
    let sg := waiting [.w64 d true, .r64 a, .r32 b]
    let c := issueCtx sg g w
    let folded := c.act.foldl (fun (u : State) i => u.foldAccess w.team (c.src64 i a) ((c.src32 i b).setWidth 64) 0 0) s
    IssuesWith sg (fun c i => [c.src64 i a, (c.src32 i b).setWidth 64]) g w s →
    (∀ i ∈ c.act, plainAddr (c.src64 i a).toNat = true ∧ (c.src64 i a).toNat % 4 = 0 ∧
      s.translate w.core (s.vfOf w) w.asid (c.src64 i a).toNat Need.monitor = .ok (dpa i, kind i)) → (∀ i ∈ c.phys, i % c.w.plan ∈ c.act) →
      Moves (.waitc d a b) sg g w s { s with teams := folded.teams, tlb := (s.noteAll w (c.act.map fun i => (c.src64 i a).toNat)).tlb } fun c =>
        onActive c fun i l =>
          { l with
            pc := g.first
            yielded := false
            sleep := some { addr := c.src64 i a, dpa := dpa (i % c.w.plan), cmp := c.src32 i b, dst := d.toNat, next := g.at_ + 4, epoch := w.epoch,
                            armed := false, hit := false, ready := (c.w.slow.getLast?.map (·.ready)).getD 0 } }

/-- R233, R235: `spawn` with lawful operands places one thread for each lane of Active in ascending order and writes 0 to the lanes whose thread was
placed and 1 to the others; `racktm` sets the block's rack timer, 16 to 4096. And: R236 steps 1 and 2: with every lane's address plain, aligned
and translated, the lanes of Active fall asleep at their group, each with its address, compared word and destination; nothing is written. -/
def Obligations.SpawnAndWaitResults : Prop := Slice0.SpawnResults ∧ Slice0.WaitSleeps

/-! ## Registers, records, privileged instructions -/

/-- R41, R238, R77: `spr` reads the special registers, `srd` the wave and supervisor registers into a scalar, `swr` sets the writable bits of
`fpmode`, or clears the bits of `fpflags` written 1. -/
def Obligations.RegisterAccess : Prop :=
  ∀ (x : BitVec 7) (k : BitVec 5) (sel : BitVec 14) (g : Group) (w : Wave) (s : State),
    let special : Sig := { flds := [.reg x], sup := decide (0x1000 ≤ sel.toNat), ok := decide (sel.toNat ≤ 5) }
    let rd : Sig := { flds := [.wsreg k], sup := decide (0x1000 ≤ sel.toNat), ok := readableSel sel.toNat, ends := true }
    let wr : Sig := { flds := [.sreg k], sup := decide (0x1000 ≤ sel.toNat), ok := sel == 0x10 || sel == 0x11 }
    (Issues special g w s → Does (.spr x sel) special g w s s fun c => gets32 c 0 x fun i =>
      if sel = 0 then (c.lane i).tid
      else if sel = 1 then BitVec.ofNat 32 w.idx
      else if sel = 2 then BitVec.ofNat 32 w.blk
      else if sel = 3 then BitVec.ofNat 32 (((s.team? w.team).map (·.idx)).getD 0)
      else if sel = 4 then BitVec.ofNat 32 (c.lane i).depth
      else BitVec.ofNat 32 (i % c.w.plan)) ∧
    (∀ v, Issues rd g w s → s.waveReg w sel.toNat = some v → (sel = 0x11 → s.mmaBusy w.wid = false ∧ StoreLoc.waveReg w.wid 1 ∉ s.errors) →
      Does (.srd k sel) rd g w s s fun _ => getsScalar k v) ∧
    (Issues wr g w s → Does (.swr k sel) wr g w s s fun _ w =>
      if sel = 0x10 then { w with fpmode := w.sregs.getD k.toNat 0 &&& 0x7F000F }
      else { w with fpflags := w.fpflags &&& ~~~(w.sregs.getD k.toNat 0 &&& 0xFF) })

/-- R299-R302: on handles that no peer part holds, `ksclaim`, `ksrd`, `kswr`, the four dispositions and `qpost` act on the named record and answer;
`ksrd` and `kswr` act for each lane whose handle is held and whose offset exists, `ksrd` when no word it reads is in error (R312). -/
def Sys2Proof.Slice0.RecordAccesses : Prop :=
  ∀ (d a b : BitVec 7) (g : Group) (w : Wave) (s : State),
    let task : Holder := .team w.team
    let vf := s.vfOf w
    let part := partOfCore w.core
    let claim : Sig := { flds := [.w32 d true, .r64 a, .unused 0x7C], scalar := true, ends := true }
    let rd : Sig := { flds := [.w64 d true, .r64 a, .unused 0x7C], scalar := true, ends := true }
    let wr : Sig := { flds := [.unused 0x7C, .r64 a, .r64 b], scalar := true, ends := true }
    let off (x : W64) : Nat := x.toNat / 2 ^ 32
    let here (x : W64) : Bool := !remoteHandle (x.setWidth 32)
    (Issues claim g w s →
      let x := ((issueCtx claim g w).src64 (issueCtx claim g w).elected a).toNat
      let r := s.claim task vf part (x / 2 ^ 32 % 2 == 1) (x % 64) (BitVec.ofNat 32 x)
      Does (.ksclaim d a) claim g w s r.1 fun c => gets32 c 0 d fun _ => r.2) ∧
    (Issues rd g w s →
      let c := issueCtx rd g w
      (∀ i ∈ c.act, here (c.src64 i a) = true ∧ ∃ r, s.heldRec task vf ((c.src64 i a).setWidth 32) = some r ∧ s.offsetOk r (off (c.src64 i a)) = true ∧
          s.badRead r (off (c.src64 i a)) = false ∧ s.errors.any (s.localWord r (off (c.src64 i a))) = false) →
        Does (.ksrd d a) rd g w s s fun c => gets64 c 0 d fun i =>
          match s.byHandle vf ((c.src64 (c.index i) a).setWidth 32) with | some r => s.recRead r (off (c.src64 (c.index i) a)) | none => 0) ∧
    (IssuesWith wr (fun c i => [c.src64 i a, c.src64 i b]) g w s →
      let c := issueCtx wr g w
      (∀ i ∈ c.act, here (c.src64 i a) = true ∧ 0x100 ≤ off (c.src64 i a) ∧
        ∃ r, s.heldRec task vf ((c.src64 i a).setWidth 32) = some r ∧ s.offsetOk r (off (c.src64 i a)) = true ∧ s.writeFault r (off (c.src64 i a)) = none) →
        Leaves (.kswr a b) wr g w s fun c => (c.act.foldl (fun (u : State) i =>
          match u.byHandle vf ((c.src64 i a).setWidth 32) with | some r => u.recWrite r (off (c.src64 i a)) (c.src64 i b) | none => u)
          (covered wr g w s)).advance c) ∧
    (∀ e ∈ [(Instr.ksres d a, 1, false), (Instr.ksrty d a, 2, false), (Instr.ksdir d a b, 3, true), (Instr.kskill d a, 4, false)],
      let sg : Sig := { flds := [.w32 d true, .r32 a, if e.2.2 then .r64 b else .unused 0x7C], scalar := true, ends := true }
      let c := issueCtx sg g w
      let addr (c : Ctx) (i : Nat) : W64 := if e.2.2 then c.src64 i b else 0
      let x := c.src32 c.elected a
      let r := (covered sg g w s).dispose task vf x e.2.1 ((addr c c.elected).setWidth 57)
      IssuesWith sg (fun c i => [(c.src32 i a).setWidth 64, addr c i]) g w s → (e.2.2 = true → codeAddr (addr c c.elected) = true) →
      s.holdsRemote w x = false → Leaves e.1 sg g w s fun c => (r.1.put32 c d fun _ => r.2).advance c) ∧
    (let sg : Sig := { flds := [.w32 d true, .r32 a, .r32 b], scalar := true, ends := true }
     let c := issueCtx sg g w
     let x := c.src32 c.elected a
     let q := (c.src32 c.elected b).toNat
     let r := (covered sg g w s).post task vf part x (q % 64) (q / 256 % 16)
     Issues sg g w s → s.holdsRemote w x = false →
       Leaves (.qpost d a b) sg g w s fun c => (r.1.put32 c d fun _ => r.2).advance c)

/-- R299, R301, R302, Tables 100, 103: what a claim, a disposition and a post leave, for whichever task makes them. A claim by queue takes the oldest fault
task there that names a PARKED record of the function, one by handle the PARKED record: the record is CLAIMED, its waiting task gone, its handle the answer,
and null where there is none. A disposition of a record not held answers 3 and of a KILLED one 2, changing nothing; a retry or redirect of a matrix
operation's or a notice's record answers 1 and returns it to PARKED, its claim released; an accepted one answers 0: resume, retry and redirect leave a
wave's record RESUMING with its disposition, and its body as it was, or with the pc of each lane of amask at faddr, or at the address given and its class
normal; other records become FREE once their unit has gone on (that of an evicted team waits, Table 100); a kill leaves the record KILLED or FREE, and a
wave without a live lane. A post answers as a disposition does, but never 1: the record is PARKED with its new queue and priority, its deadline as it was,
and a fault task for it waits at the queue's tail. That the holding task has let go of the record (`released`) once a disposition is accepted with status 0 is
the model's reading (notes/assumptions/27). -/
def Sys2Proof.Slice0.RecordEffects : Prop :=
  ∀ (s : State) (task : Holder) (vf part : Nat) (x : W32) (r : Record) (code q prio : Nat) (addr : W57),
    let held (y : Option Record) : Prop := s.heldRec task vf x = y
    let out := s.dispose task vf x code addr
    let posted := s.post task vf part x q prio
    let becomes (t : State) (p : Record → Prop) : Prop := ∃ z ∈ t.records, z.id = r.id ∧ p z
    let released (t : State) : Prop := match task with
      | .team i => ∀ y ∈ t.teams, y.id = i ∨ y.twin = some i → r.id ∉ y.holds
      | .dom c => ∀ d, t.dom? c = some d → r.id ∉ d.holds
      | .peer => ∀ z ∈ t.records, z.id = r.id → z.peer = false
    let waits (k : Task) : Prop := k.part = part ∧ k.queue = q % 64 ∧
      ((∃ i y, k.kind = .fault i ∧ s.record? i = some y ∧ y.state = .parked ∧ y.vf = vf) ∨ ∃ p d, k.kind = .remote p d ∧ p.vf = vf)
    let claims (c : State × W32) : Prop := c.2 = r.handle ∧ becomes c.1 (fun z => z.state = .claimed) ∧ ∀ k ∈ c.1.tasks, k.kind ≠ .fault r.id
    let lane (z : Record) (i : Nat) : Nat := leAt z.body (512 + 64 * i) 8
    (s.byHandle vf x = some r → r.state = .parked → claims (s.claim task vf part true (q % 64) x)) ∧
    (s.byHandle vf x = some r → r.state ≠ .parked → s.claim task vf part true (q % 64) x = (s, 0xFFFFFFFF)) ∧
    (∀ k ∈ s.tasks, k.kind = .fault r.id → waits k → s.record? r.id = some r → (∀ y ∈ s.tasks, waits y → y ≠ k → k.order < y.order) →
      claims (s.claim task vf part false (q % 64) x)) ∧
    ((∀ k ∈ s.tasks, ¬waits k) → s.claim task vf part false (q % 64) x = (s, 0xFFFFFFFF)) ∧
    (held none → out = (s, 3) ∧ posted = (s, 3)) ∧
    (held (some r) → r.state = .killed → out = (s, 2) ∧ posted = (s, 2)) ∧
    (held (some r) → r.state = .claimed →
      (posted.2 = 0 ∧ released posted.1 ∧ becomes posted.1 (fun z => z.state = .parked ∧ z.queue = q ∧ z.prio = prio ∧ z.deadline = r.deadline) ∧
        ∃ k ∈ posted.1.tasks, k.kind = .fault r.id ∧ k.part = part ∧ k.queue = q ∧ k.prio = prio ∧ k.order = s.nextId) ∧
      (s.recordBad r = false → (code = 2 ∨ code = 3) → (r.kind = .matrix ∨ r.kind = .notice) →
        out.2 = 1 ∧ released out.1 ∧ becomes out.1 fun z => z.state = .parked) ∧
      (s.recordBad r = false → 1 ≤ code → code ≤ 3 → r.kind = .wave → out.2 = 0 ∧ released out.1 ∧ becomes out.1 fun z =>
        z.state = .resuming ∧ z.disp = code ∧ (code = 3 → z.raddr = addr.setWidth 64) ∧ (code = 1 → z.body = r.body) ∧
        ∀ w, s.wave? r.unit = some w → 512 + 64 * w.width ≤ r.body.length → code ≠ 1 → ∀ i < w.width,
          (r.amask.getLsbD (i % w.plan) = true → lane z i % 2 ^ 57 = (if code = 2 then r.faddr.toNat % 2 ^ 57 else addr.toNat) ∧
            (code = 3 → lane z i / 2 ^ 63 = 0)) ∧
          (r.amask.getLsbD (i % w.plan) = false → lane z i = lane r i)) ∧
      (s.recordBad r = false → (code = 1 ∧ r.kind ≠ .wave) ∨ ((code = 2 ∨ code = 3) ∧ r.kind = .segment) → out.2 = 0 ∧
        (r.kind = .notice ∨ s.isEvicted r.team = false → ∀ z ∈ out.1.records, z.id ≠ r.id) ∧
        (r.kind ≠ .notice → s.isEvicted r.team = true → becomes out.1 fun z => z.state = .resuming ∧ z.disp = code)) ∧
      (code = 4 → (∀ z ∈ s.records, z.id < s.nextId) → out.2 = 0 ∧ (∀ z ∈ out.1.records, z.id = r.id → z.state = .killed) ∧
        (r.kind = .wave → ∀ w, out.1.wave? r.unit = some w → ∀ l ∈ w.lanes, l.live = false)))

/-- R299-R302: on handles that no peer part holds, `ksclaim`, `ksrd`, `kswr`, the four dispositions and `qpost` act on the named record and answer;
`ksrd` and `kswr` act for each lane whose handle is held and whose offset exists, `ksrd` when no word it reads is in error (R312). And what a claim, a
disposition and a post leave, in the record, in the queue and in the unit, with each status (Tables 100, 103); that an accepted disposition ends the claim is
the model's reading (notes/assumptions/27). -/
def Obligations.RecordInstructions : Prop := Slice0.RecordAccesses ∧ Slice0.RecordEffects

/-- R302, R332, R313: `qclk` answers a queue clock of the wave's partition; `sigrd` the team's signature or counts; `sigclr` clears the counts;
`chkv` the check value of the 64 bytes each lane reads through the wave's view. -/
def Obligations.ClockAndSignatures : Prop :=
  ∀ (d a : BitVec 7) (g : Group) (w : Wave) (s : State) (t : Team),
    let pair : Sig := { flds := [.w64 d true, .r32 a, .unused 0x7C], scalar := true, ends := true }
    let word : Sig := { flds := [.w32 d true, .r32 a, .unused 0x7C], scalar := true, ends := true }
    let y := ((issueCtx pair g w).src32 (issueCtx pair g w).elected a).toNat
    s.team? w.team = some t →
    (Issues pair g w s → Does (.qclk d a) pair g w s s fun c => gets64 c 0 d fun _ => BitVec.ofNat 64 ((s.part (partOfCore w.core)).qclk.getD (y % 64) 0)) ∧
    (Issues pair g w s → y % 4 ≠ 3 → Does (.sigrd d a) pair g w s s fun c => gets64 c 0 d fun _ =>
      if t.twin = none then 0
      else if y % 4 = 0 then t.sigOwn
      else if y % 4 = 1 then t.sigTwin
      else BitVec.ofNat 64 (t.sigCount.toNat * 2 ^ 32 + t.sigMiss.toNat * 2 ^ 16 + 1)) ∧
    (Issues (bare true) g w s →
      Does .sigclr (bare true) g w s (s.updTeam w.team fun t => { t with sigCount := 0, sigMiss := 0 }) fun _ => id) ∧
    (let c := issueCtx word g w
     let ea (i : Nat) : Nat := (c.src32 i a).toNat
     Issues word g w s → (∀ i ∈ c.act, ea i % 64 = 0 ∧ inView t.view (ea i) 64 = true ∧ s.viewPoison c.w (ea i) 64 = none) → s.anyGuarded c ea 64 false = false →
       Does (.chkv d a) word g w s s fun c => gets32 c 0 d fun i => (crc16 (s.viewBytes c.w (c.src32 i a).toNat 64)).setWidth 32)

/-- The privileged instructions of Table 94 in supervisor privilege: with lawful operands and no access of an earlier epoch outstanding, each has
its effect once and writes its status. Four points rest on Table 94 by inference and are the model's choice (notes/assumptions/28): `tlbinv` of
stage 2 drops every entry of the function; `kspool` reads pinned as owned and not retired; the root of `asidld` lies below 2^57; `wayq` tests
status 3 before 1, 2 and 4. -/
def Obligations.PrivilegedResults : Prop :=
  ∀ (d a b : BitVec 7) (g : Group) (w : Wave) (s : State),
    let does (i : Instr) (f : List Fld) (wide : Bool) (b : BitVec 7) (lawful : Nat → Nat → Prop) (act : State → Nat → Nat → State × W32) : Prop :=
      let sg : Sig := { flds := .w32 d true :: f, scalar := true, ends := true, sup := true }
      let c := issueCtx sg g w
      let x := if wide then (c.src64 c.elected a).toNat else (c.src32 c.elected a).toNat
      let y := (c.src32 c.elected b).toNat
      let r := act (covered sg g w s) x y
      Issues sg g w s → lawful x y → (∀ o ∈ s.remotes, o.wid = w.wid → w.epoch ≤ o.epoch) → (∀ o ∈ s.bankOps, o.wid = w.wid → w.epoch ≤ o.epoch) →
        Leaves i sg g w s fun c => (r.1.put32 c d fun _ => r.2).advance c
    let vf := s.vfOf w
    let page (x n : Nat) : Prop := x < 2 ^ 40 ∧ x % 65536 = 0 ∧ x + 65536 * n ≤ Config.deviceBytes
    let unbound (y : Nat) (l : List AsidBind) : List AsidBind := l.filter fun e => e.asid != y
    let ring (u : State) (y : Nat) : Option Nat := (u.asids.find? fun e => e.asid == y).bind (·.ring)
    let cold (u : State) (y : Nat) : State := u.dropTlb fun e => e.vf == vf && e.asid == y
    does (.scrub d a b) [.r64 a, .r32 b] true b (fun x y => y < 2 ^ 13 ∧ 0 < y ∧ y ≤ 4096 ∧ page x y)
      (fun u x y =>
        let pages := (List.range y).map (x / 65536 + ·)
        if ∀ p ∈ pages, u.ownPage vf p = true then (pages.foldl (fun v p => v.zeroPageAs p (u.bankPage p)) u, 0) else (u, 1)) ∧
    does (.asidld d a b) [.r64 a, .r32 b] true b (fun x y => y < 2 ^ 13 ∧ x % 4096 = 0 ∧ x < 2 ^ 57)
      (fun u x y =>
        if ∃ e ∈ u.asids, e.asid = y ∧ e.vf ≠ vf then (u, 1)
        else if x = 0 then (cold { u with asids := unbound y u.asids } y, 0)
        else if u.walk2 vf x = none then (u, 2)
        else (cold { u with asids := unbound y u.asids ++ [{ asid := y, vf := vf, root := x, ring := ring u y }] } y, 0)) ∧
    does (.pgret d a) [.r64 a, .unused 0x7C] true 0x7C (fun x _ => page x 1)
      (fun u x _ =>
        if u.pageGone (x / 65536) = true then (u, 1) else if u.ownPage vf (x / 65536) = false then (u, 2)
        else if (u.retire (x / 65536)).2 = true then ((u.retire (x / 65536)).1, 0) else (u, 3)) ∧
    does (.wayq d a b) [.r32 a, .r32 b] false b (fun x y => x < 512 ∧ y < 16 ∧ (x < 256 → x < 240) ∧ (256 ≤ x → x - 256 < 12))
      (fun u x y =>
        let l2 := decide (x < 256)
        let unit := x % 256
        if l2 = true ∧ unit / 12 ≠ w.core / 12 then (u, 3)
        else if y ∈ u.waysOf l2 unit then (u, 1)
        else if 4 ≤ (u.waysOf l2 unit).length then (u, 2)
        else if l2 = false ∧ u.wayHoldsCells unit y = true then (u, 4)
        else (u.quarantine l2 unit y, 0)) ∧
    does (.tlbinv d a b) [.r64 a, .r32 b] true b (fun x y => x / 2 ^ 57 % 64 = 0 ∧ y / 2 ^ 13 % 2 ^ 18 = 0)
      (fun u x y =>
        if ¬∃ e ∈ u.asids, e.asid = y % 2 ^ 13 ∧ e.vf = vf then (u, 1)
        else if y / 2 ^ 31 % 2 = 1 then (u.dropTlb fun e => e.vf == vf, 0)
        else (u.dropTlb fun e => e.vf == vf && e.asid == y % 2 ^ 13 &&
          (x / 2 ^ 63 % 2 == 1 || (decide (x / 65536 % 2 ^ 41 ≤ e.vpage) && decide (e.vpage ≤ x / 65536 % 2 ^ 41 + x % 65536))), 0)) ∧
    does (.kspool d a) [.r64 a, .unused 0x7C] true 0x7C (fun x _ => page x 1)
      (fun u x _ =>
        let p := w.core / 12
        let nest := (u.part p).nest
        let v := u.updWave w.wid fun y => y.later (64 * (256 + 32 * nest))
        if ∃ r ∈ u.records, r.part = p then (v, 1)
        else if ∀ k < 256 + 32 * nest, u.ownPage vf (x / 65536 + k) = true ∧ u.pageGone (x / 65536 + k) = false then
          (v.setPart p { u.part p with pool := some (x, nest) }, 0)
        else (v, 2))

/-- R39, R285, R41: a privileged instruction, or an access to a supervisor selector, issued at user privilege with lawful hints, detaches its wave
before the group with cause PRIV and has no effect; so does any instruction that fails another check, with that check's cause. -/
def Sys2Proof.Slice0.FailedChecksDetach : Prop :=
  ∀ (f : Fields) (g : Group) (w : Wave) (s : State),
    s.grp = some g → s.wave? g.wid = some w →
    (w.sup = false → w.prologue = none → ∀ sg : Sig, sg.sup = true → hintsOk sg g = true → checkGroup sg g w = some Cause.priv) ∧
    ∀ e ∈ forms f g, ∀ cause, checkGroup e.2 g w = some cause → exec e.1 s = .next (s.faultBefore (mkCtx g w) cause [])

/-- R37: an instruction whose guard leaves no lane of the group Active moves the group's lanes on and does nothing else. -/
def Sys2Proof.Slice0.EmptyGuardMovesOn : Prop :=
  ∀ (f : Fields) (g : Group) (w : Wave) (s : State), ∀ e ∈ forms f g,
    s.grp = some g → s.wave? g.wid = some w → checkGroup e.2 g w = none → activeLanes g w = [] → s.poisonRead (issueCtx e.2 g w) e.2 = none →
    s.matrixFull e.2 w = false → Does e.1 e.2 g w s s fun _ => id

/-- R39, R285, R41: a privileged instruction, or an access to a supervisor selector, issued at user privilege with lawful hints, detaches its wave
before the group with cause PRIV and has no effect; so does an instruction that fails another check, with that check's cause. And: R37: an
instruction whose guard leaves no lane of the group Active moves the group's lanes on and does nothing else. -/
def Obligations.IssueChecks : Prop := Slice0.FailedChecksDetach ∧ Slice0.EmptyGuardMovesOn

/-- R78, R76: when the lanes of any instruction that raises flags raise an enabled exception, every flag raised is set, no destination is written, and the
wave detaches before the group with the exception's cause and each lane's flags. -/
def Obligations.EnabledExceptionTraps : Prop :=
  ∀ (f : Fields) (g : Group) (w : Wave) (s : State) (cause : Nat), ∀ e ∈ flagging f,
    let c := issueCtx e.2.1 g w
    let fl (i : Nat) : BitVec 8 := e.2.2 c i
    Issues e.2.1 g w s → trapCause c.w.fpmode (flagUnion c.act fl) = some cause →
      exec e.1 s = .next ((((covered e.2.1 g w s).raise w.wid (flagUnion c.act fl)).faultBefore c cause
        ((List.range w.width).map fun i => if c.phys.contains i then fl i else 0)).countHold w.wid)

/-- R288, R289, R291, R296: TAKING A FAULT. A wave outside a prologue, with room in its partition's pool on a page that is not retired and a
policy entry of kind 1 or 2 for the cause, parks in a record that names the cause, the first word of the group and the lanes of Active; its fault task
joins the entry's queue with the entry's priority; where bit 2 of the partition's `fwm` is set a request of the host for the record is made (R283), and that a
record of any cause is one is the model's reading (notes/assumptions/37). Entries of kinds 0 and 3 have no clause here. The wave keeps its registers, and
no byte of memory changes. A word of its own that is poisoned is consumed by the parking instead, and its team is killed (R317): that parking reads the words of
the wave is the model's reading (notes/assumptions/25). -/
def Sys2Proof.Slice0.FaultParksWave : Prop :=
  ∀ (s : State) (wid : Nat) (w : Wave) (p : Pending) (depth : Nat) (parent : W32) (place : Nat × Nat) (e : PolEntry),
    let u := s.waveUnit w
    s.wave? wid = some w → w.prologue = none → s.recordDepth w.team u.part = some (depth, parent) → s.placeFor u.part depth true = some place →
    s.polEntry u.launch p.cause = some e → (e.kind = 1 ∨ e.kind = 2) → (∀ r ∈ s.records, r.id < s.nextId) →
    s.lostExtent u.part place = false →
    ((∀ e ∈ s.errors, parkErr wid e = false) →
      (s.detach wid p).mem = s.mem ∧
      (∃ x, (s.detach wid p).wave? wid = some x ∧ x.status = .parked s.nextId ∧ x.sregs = w.sregs ∧ x.lanes.map (·.regs) = w.lanes.map (·.regs)) ∧
      (∃ r ∈ (s.detach wid p).records, r.id = s.nextId ∧ r.kind = .wave ∧ r.state = .parked ∧ r.cause = p.cause ∧ r.faddr = p.faddr.setWidth 64 ∧
        r.amask = p.amask ∧ r.unit = wid ∧ r.depth = depth ∧ r.queue = e.queue ∧ r.prio = e.prio ∧ (r.extent, r.slot) = place) ∧
      ((s.part u.part).fwm = 0 → ∃ t ∈ (s.detach wid p).tasks, t.kind = .fault s.nextId ∧ t.queue = e.queue ∧ t.prio = e.prio ∧ t.part = u.part) ∧
      ((s.part u.part).fwm.getLsbD 2 = true → AssistReq.fault s.nextId ∈ (s.detach wid p).assist)) ∧
    ((∃ e ∈ s.errors, parkErr wid e = true) → ∀ t, (s.detach wid p).team? w.team = some t → t.phase = .dead)

/-- R245, R308, R307: a fault of a prologue ends the prologue and makes no record; with no extent free, or none that an earlier unit does not wait for, the
wave waits in place, with the deadline its record would have had. -/
def Sys2Proof.Slice0.FaultWithoutRecord : Prop :=
  ∀ (s : State) (wid : Nat) (w : Wave) (p : Pending),
    s.wave? wid = some w →
    (∀ pr, w.prologue = some pr → (s.detach wid p).records = s.records ∧ (s.detach wid p).mem = s.mem ∧
      ∃ x, (s.detach wid p).wave? wid = some x ∧ x.prologue = some { pr with ended := some p.cause }) ∧
    (∀ depth parent, w.prologue = none → s.recordDepth w.team (s.waveUnit w).part = some (depth, parent) →
      s.placeFor (s.waveUnit w).part depth true = none → (s.detach wid p).records = s.records ∧ (s.detach wid p).mem = s.mem ∧
        (wid, 0) ∈ (s.detach wid p).poolWait ∧
        ∃ x, (s.detach wid p).wave? wid = some x ∧ x.status = .waitsForPool p (s.faultDeadline (s.waveUnit w) p.cause))

/-- R288, R289, R291, R296: TAKING A FAULT. A wave outside a prologue, with room in its partition's pool on a page that is not retired and a
policy entry of kind 1 or 2 for the cause, parks in a record that names the cause, the first word of the group and the lanes of Active; its fault task
joins the entry's queue with the entry's priority; where bit 2 of the partition's `fwm` is set a request of the host for the record is made (R283), and that a
record of any cause is one is the model's reading (notes/assumptions/37). Entries of kinds 0 and 3 have no clause here. The wave keeps its registers, and
no byte of memory changes. A word of its own that is poisoned is consumed by the parking instead, and its team is killed (R317): that parking reads the words of
the wave is the model's reading (notes/assumptions/25). And: R245, R308, R307: a fault of a prologue ends the prologue and makes no record; with no
extent free, or none that an earlier unit does not wait for, the wave waits in place, with the deadline its record would have had. -/
def Obligations.TakingAFault : Prop := Slice0.FaultParksWave ∧ Slice0.FaultWithoutRecord

/-! ## Hints and what other agents do

The events of the part check their own condition; each statement says in which states one happens and what it leaves. -/

/-- R34-R38: a hint binds to the group that follows: a wide immediate, the first modifier hint, the first scheduling hint, when the group has fewer than
two hints; a third hint, or a second of its kind, detaches the wave before the group. -/
def Obligations.HintsBind : Prop :=
  ∀ (p : BitVec 24) (r : BitVec 3) (t ge : BitVec 1) (gp : BitVec 3) (e u c : BitVec 1) (k : BitVec 5) (n : BitVec 4) (g : Group) (w : Wave) (s : State),
    let hints := g.wides.length + g.modifier.toList.length + g.sched.toList.length
    let binds (i : Instr) (taken : Bool) (f : Group → Group) : Prop :=
      (hints < 2 → taken = false → exec i s = .next { s with grp := some { f g with at_ := g.at_ + 4 } }) ∧
      (2 ≤ hints ∨ taken = true → exec i s = .next (s.faultBefore (mkCtx g w) Cause.illegal []))
    s.grp = some g → s.wave? g.wid = some w →
    binds (.wideImmediate p) false (fun g => { g with wides := g.wides ++ [p] }) ∧
    binds (.modifierHint r t ge gp e u c k) g.modifier.isSome (fun g => { g with modifier := some (r ++ t ++ ge ++ gp ++ e ++ u ++ c ++ k ++ (0 : BitVec 8)) }) ∧
    binds (.schedulingHint n) g.sched.isSome (fun g => { g with sched := some n.toNat })

/-- R117, R121, R125-R127, R134, R135: an issued operation whose rows and cassette bytes are free starts by reading its A operand (the registers as they
stood when its wave parked, R289). A started one writes its rows and ORs its flags into the rows' status and the wave's flags; then it leaves the engine,
unless its flags enable an exception, or under redundancy grade 1 the shadow lanes' rows differ: it then parks, with that exception's cause or with
REDUNDANCY_LANE, in a record of its own where its partition's pool has room. -/
def Obligations.MatrixEngineRuns : Prop :=
  ∀ (s : State) (o : MmaOp) (t : Team) (b : Block) (w : Wave) (a : List (List W32)),
    s.mma? o.id = some o → s.team? o.team = some t → s.block? o.team o.blk = some b → s.wave? o.wid = some w → s.errors = [] →
    (o.phase = .issued → s.rowsFree o = true → s.cassFilling o = false → (t.phase = .running ∨ t.phase = .ending) →
      let read := o.snap.getD (o.kept.getD (w.lanes.map fun l => aRegs l o.areg o.ameta o.chunks (groupsIn o.resv.fmt o.resv.grp o.chunks)))
      exec (.mmaStart o.id) s = .next (s.setMma { o with phase := .started read }).wakeRetry) ∧
    (let from_ (first : Nat) : List (List W32 × BitVec 8) := (List.range o.m).map fun i => mmaRow o b (a.getD (first + i) []) (b.row (o.row + i))
     let rows := from_ 0
     let fl := rows.foldl (fun f r => f ||| r.2) (0 : BitVec 8)
     let b1 := (rows.mapIdx fun i r => (i, r)).foldl (fun (b : Block) e =>
       b.setRow (o.row + e.1) { entries := e.2.1, status := (b.row (o.row + e.1)).status ||| e.2.2.setWidth 32 }) b
     let op : MmaOp := { o with flags := fl }
     let done : State := ((s.setBlock b1).orWaveFlags o.wid fl).setMma op
     let part := partOfCore o.core
     let parks (cause : Nat) : Prop :=
       exec (.mmaComplete o.id) s = .next ((done.detachMma op cause).tryFinish o.wid).wakeRetry ∧
       ∀ (depth : Nat) (parent : W32) (place : Nat × Nat) (e : PolEntry), done.recordDepth o.team part = some (depth, parent) →
         done.placeFor part depth false = some place → done.lostExtent part place = false → done.polEntry o.launch cause = some e →
         (e.kind = 1 ∨ e.kind = 2) → (∀ r ∈ s.records, r.id < s.nextId) →
         ∃ r ∈ (done.detachMma op cause).records, r.id = s.nextId ∧ r.kind = .matrix ∧ r.state = .parked ∧ r.cause = cause ∧ r.unit = o.id ∧
           r.depth = depth ∧ r.queue = e.queue ∧ (r.extent, r.slot) = place
     o.phase = .started a → s.softs = [] →
       (trapCause o.fpmode (fl &&& 0x7F) = none → o.grade ≠ 1 ∨ rows = from_ o.m →
         exec (.mmaComplete o.id) s = .next (done.endMma o.id false).wakeRetry) ∧
       (∀ cause, trapCause o.fpmode (fl &&& 0x7F) = some cause → parks cause) ∧
       (trapCause o.fpmode (fl &&& 0x7F) = none → o.grade = 1 → rows ≠ from_ o.m → parks Cause.lane))

/-- R183, R156, R159, R182: a segment of a started copy, one of its core's 64 in flight, whose elements all move completes; one that meets an owned line
waits with nothing changed; one that faults at an element detaches with the elements before it kept. -/
def Sys2Proof.Slice0.SegmentEnds : Prop :=
  ∀ (s : State) (c : Copy) (t : Team) (j : Nat) (f d : List Byte),
    let r := runSeg c (segPlan f d c.scal) (s.copyEnv c) j 0 (Run.start s [])
    let p := segPlan f d c.scal
    s.copy? c.id = some c → s.team? c.team = some t → (c.kind = .inward ∨ c.kind = .outward ∨ c.kind = .digest) → t.phase = .running →
    (c.kind = .inward → t.secondary = false) → s.cassBusy c = false → s.inFlight c j = true → c.recs = some (f, d) → c.segs[j]? = some .todo →
    (r.stop = none → exec (.copySegmentRun c.id j) s = .next (settleSeg s c j c (fun k => (p.point (4096 * j / p.sz + k)).map fun x => unsignedOf 32 x)
      (fun k => 4096 * j + k * p.sz) r)) ∧
    (r.stop = some .wait → exec (.copySegmentRun c.id j) s = .next s) ∧
    (∀ cause elem ga, r.stop = some (.fault cause elem ga) → (r.s.copy? c.id).isSome = true →
      exec (.copySegmentRun c.id j) s = .next ((r.s.detachSegment c j cause ga elem ((p.point (4096 * j / p.sz + elem)).map fun x => unsignedOf 32 x)
        (4096 * j + elem * p.sz) r.got).wakeRetry))

/-- R121, R156, R159, R182: what a segment of an unlinked copy leaves when every element lies outside its record's extents or at an address whose pages
translate and whose lines nobody owns. An inward one has put each element's bytes, or the record's fill for an element outside, at its place in the
image, in the scratchpad base or in the cassette, and no other byte there has changed; an outward one owns the lines of its elements. Memory does not change. -/
def Sys2Proof.Slice0.SegmentEffects : Prop :=
  ∀ (s : State) (c : Copy) (t : Team) (j : Nat) (f d : List Byte),
    let p := segPlan f d c.scal
    let env := s.copyEnv c
    let first := 4096 * j / p.sz
    let n := min (segBytes c j / p.sz) (p.count - first)
    let spot (k : Nat) : Spot := locate f p.sz (p.point (first + k))
    let reaches (need : Need) (writer : Bool) (at_ : Nat → Nat) : Prop := ∀ k < n, match spot k with
      | .over _ => False
      | .outside => True
      | .at a => ∀ i < p.sz, s.translate env.core env.vf env.asid ((a + i) / 65536 * 65536) need = .ok (at_ ((a + i) / 65536), 0) ∧
          s.copyWaits env writer (at_ ((a + i) / 65536) + (a + i) % 65536) = false
    let image (u : State) : Option Cells := if c.cassette then (u.block? c.team c.blk).map (·.cass) else (u.team? c.team).map (·.base)
    s.copy? c.id = some c → s.team? c.team = some t → t.phase = .running → s.cassBusy c = false → s.inFlight c j = true → c.recs = some (f, d) →
    c.segs[j]? = some .todo → layLink f = 0 → s.errors = [] → s.softs = [] →
    (c.kind = .inward → t.secondary = false → ∀ at_, reaches Need.copyIn false at_ → ∀ m, image s = some m → Memory.wf m = true →
      ∃ u m', exec (.copySegmentRun c.id j) s = .next u ∧ u.mem = s.mem ∧ image u = some m' ∧
        (∀ k < n, ∀ i < p.sz, Cells.get m' (c.start + (first + k) * p.sz + i) = match spot k with
          | .at a => s.readByte (at_ ((a + i) / 65536) + (a + i) % 65536)
          | _ => (layFill f).getD i 0) ∧
        ∀ x, x < c.start + first * p.sz ∨ c.start + (first + n) * p.sz ≤ x → Cells.get m' x = Cells.get m x) ∧
    ((c.kind = .outward ∨ c.kind = .digest) → ∀ at_, reaches Need.copyOut true at_ →
      ∃ u y, exec (.copySegmentRun c.id j) s = .next u ∧ u.mem = s.mem ∧ u.copy? c.id = some y ∧
        ∀ k < n, ∀ a, spot k = .at a → ∀ i < p.sz, (at_ ((a + i) / 65536) + (a + i) % 65536) / 64 ∈ y.lines)

/-- R183, R156, R159, R182, R121: a segment of a started copy, one of its core's 64 in flight, whose elements all move completes: an inward one leaves each
element's bytes, or its record's fill, at its place in the scratchpad base or the cassette, an outward one owns its lines; one that meets an owned line
waits with nothing changed; one that faults at an element detaches with the elements before it kept. -/
def Obligations.CopySegmentsRun : Prop := Slice0.SegmentEnds ∧ Slice0.SegmentEffects

/-- R150, R152, R154, R320, R330-R332: a gathered device commit is published at one instant, or reports its conflict when checked; that of twins is compared
first, each side counting the comparison, and is published when the signatures agree; when they differ neither is, and the team is killed, or a notice is
made where the policy asks for one and an abort address is set. A team whose final commit is published ends once its published reductions have been applied
(R152). Pending data whose source is lost kills its team, as poisoned storage does that is consumed (R317, R318). Which errors of pending data count as a
lost source, and which conflict of several the report names, are the model's choices (notes/assumptions/44: `State.sourceLost`, `deviceReport`). -/
def Obligations.DeviceCommitPublishes : Prop :=
  ∀ (s : State) (t t2 : Team) (x : Gather),
    let cs := s.carried t.id
    let report := deviceReport cs t.foreign
    let h := pendingBytes cs
    let shared (u : State) : State :=
      { u with teams := u.teams.map fun (y : Team) =>
          if y.launch = t.launch ∧ y.id ≠ t.id ∧ some y.id ≠ t.twin then { y with foreign := addForeign y.foreign h } else y }
    let publishes (u : State) : State := (shared (u.publishBytes t h)).clearWriteSet t.id true
    s.team? t.id = some t → t.gather = some x → s.gathered t = true → t.secondary = false →
    (t.twin = none → s.errors = [] → s.softs = [] →
      (x.checked = true → report ≠ 0 → exec (.deviceCommitPublish t.id) s = .next (s.endGather t.id report).wakeRetry) ∧
      (x.checked = false ∨ report = 0 → exec (.deviceCommitPublish t.id) s = .next (((publishes s).endGather t.id 0).applied t.id).wakeRetry)) ∧
    (t.twin = none → cs.any s.sourceLost = true →
      exec (.deviceCommitPublish t.id) s = .next ((s.logCore (2 * t.pair) 1 2 t.vf t.asid).killTeam t.id true 1 7).wakeRetry) ∧
    (t.twin = some t2.id → s.team? t2.id = some t2 → s.gathered t2 = true → s.errors = [] → s.softs = [] →
      let own := s.signature t
      let other := s.signature t2
      let compared (a b : W64) (y : Team) : Team :=
        { y with
          sigOwn := a, sigTwin := b, sigRun := 0, sigCount := if y.sigCount = 0xFFFFFFFF then y.sigCount else y.sigCount + 1
          sigMiss := if a = b ∨ y.sigMiss = 0xFFFF then y.sigMiss else y.sigMiss + 1 }
      let u := (s.updTeam t.id (compared own other)).updTeam t2.id (compared other own)
      (own = other → x.checked = true → report ≠ 0 →
        exec (.deviceCommitPublish t.id) s = .next ((u.endGather t.id report).endGather t2.id report).wakeRetry) ∧
      (own = other → x.checked = false ∨ report = 0 →
        exec (.deviceCommitPublish t.id) s = .next (((((publishes u).clearWriteSet t2.id false).endGather t.id 0).endGather t2.id 0).applied t.id).wakeRetry) ∧
      (own ≠ other → (∀ w ∈ u.teamWaves t.id, w.abtT = none) ∨ u.wantsNotice t.launch Cause.twin = false →
        exec (.deviceCommitPublish t.id) s = .next (u.killTeam t.id true 0 7).wakeRetry) ∧
      (own ≠ other → (∃ w ∈ u.teamWaves t.id, w.abtT ≠ none) → u.wantsNotice t.launch Cause.twin = true →
        exec (.deviceCommitPublish t.id) s = .next (u.twinsDiffer t t2 own other).wakeRetry))

/-- R191, R83, R192, R86: an atomic that is ready on a readable line writes its new value, if it writes, and answers the old one to its lane; a
deferred reduction adds its operand with one rounding, on a page that is not retired; a cell takes its addend, and a seal answers the cell's value rounded
once, with its status, the canonical NaN for a poisoned cell (R322) or one that holds a NaN or both infinities, and some value where R85 leaves it open. -/
def Obligations.RemotePerforms : Prop :=
  ∀ (s : State) (o : RemoteOp) (t : Team) (r : Red) (rest : List Red),
    let size (fn : Nat) : Nat := if fn = 1 ∨ fn = 4 ∨ fn = 6 then 8 else 4
    let home (vf asid dpa : Nat) (v n : Nat) (u : State) : State := u.writeMem { vf := vf, asid := asid, host := false, l2 := none } (cellsAt dpa (leBytes n v))
    let old := s.readNat o.dpa (size o.fn)
    let new : Nat := if o.fn = 0 then (old + o.val.toNat) % 2 ^ 32 else if o.fn = 1 then (old + o.val.toNat) % 2 ^ 64
      else if o.fn = 2 then o.val.toNat % 2 ^ 32 else o.val.toNat
    (s.remotes.find? (fun x => x.id == o.id) = some o → s.team? o.team = some t → t.secondary = false → s.remoteReady o = true → s.consumeLine o.dpa = (s, false) →
      (o.fn ≤ 2 ∨ (o.fn ≤ 4 ∧ old = o.cmp.toNat) →
        exec (.remoteOpPerform o.id) s = .next ((home o.vf o.asid o.dpa new (size o.fn) s).answer o (BitVec.ofNat 64 old)).wakeRetry) ∧
      (o.fn = 3 ∨ o.fn = 4 → old ≠ o.cmp.toNat → exec (.remoteOpPerform o.id) s = .next (s.answer o (BitVec.ofNat 64 old)).wakeRetry) ∧
      (o.fn = 8 → s.errors = [] → s.softs = [] →
        let cell := s.cell o.dpa
        let env : FEnv := { rm := 0, fz := o.addr.getLsbD 60, sat := o.addr.getLsbD 61 }
        let sum := Fmt.f32.roundInt env cell.sum (-149)
        let status := (if sum.2.getLsbD 0 then 1 else 0) + (if sum.2.getLsbD 2 then 2 else 0) + (if sum.2.getLsbD 3 then 4 else 0) + (if sum.2.getLsbD 4 then 8 else 0)
        ∃ v : W64, exec (.remoteOpPerform o.id) s = .next (({ s with free := s.free + 1 } : State).answer o v).wakeRetry ∧
          (cell.poison = true ∨ cell.nan = true ∨ (cell.pinf = true ∧ cell.ninf = true) → v = 0x17FC00000) ∧
          (cell.poison = false → cell.nan = false → cell.pinf = true → cell.ninf = false → v = 0x7F800000) ∧
          (cell.poison = false → cell.nan = false → cell.pinf = false → cell.ninf = true → v = 0xFF800000) ∧
          (cell.poison = false → cell.nan = false → cell.pinf = false → cell.ninf = false → -(2 ^ 314 : Int) ≤ cell.sum → cell.sum < 2 ^ 314 →
            v = BitVec.ofNat 64 (sum.1 + status * 2 ^ 32))) ∧
      (o.fn = 9 → s.errors = [] → s.softs = [] → exec (.remoteOpPerform o.id) s = .next ((s.setCell o.dpa ExactCell.zero).answer o 0).wakeRetry)) ∧
    (s.team? t.id = some t → t.applyQ = r :: rest → s.pageGone (r.dpa / 65536) = false →
      let pop (u : State) : State := ((u.updTeam t.id fun x => { x with applyQ := rest }).applied t.id).wakeRetry
      ((r.fn = 5 ∨ r.fn = 6) → s.lineHeld r.dpa = false → s.consumeLine r.dpa = (s, false) →
        exec (.deferredReductionApply t.id) s = .next (pop (home t.vf t.asid r.dpa
          (redNew r.fn r.addr (s.readNat r.dpa (size r.fn)) (r.value.toNat % 2 ^ (8 * size r.fn))) (size r.fn) s))) ∧
      (r.fn = 7 → s.errors = [] → s.softs = [] →
        exec (.deferredReductionApply t.id) s = .next (pop (s.setCell r.dpa ((s.cell r.dpa).add (r.addr.getLsbD 60) (r.value.toNat % 2 ^ 32))))))

/-- R193-R197: a bank operation that is ready is performed at the base die, in the mode then in force: the one that is set aside by a check of the second
set leaves everything; `bkmode` leaves the mode; `bkld` leaves its entries of the x registers of the banks it reaches; `bkmac` leaves each of their
accumulators with its steps of one rounding each; `bkrd` leaves their accumulators in the scratchpad base; `bkzero` leaves zeros in the accumulators and in
the page's units. Nothing else of the engines, of memory or of a base changes, and the operation is out of the engine. -/
def Sys2Proof.Slice0.BankEffects : Prop :=
  ∀ (s : State) (o : BankOp),
    let pc := pseudoChannel o.dpa
    let old := s.bankOf pc
    let all := old.allBank
    let bank := o.dpa / 32 % 16
    let hit (k : Nat) : Prop := all = true ∨ k = bank
    let x (e : Bank) (k i : Nat) : W16 := (e.x.getD k []).getD i 0
    let acc (e : Bank) (k i : Nat) : W32 := (e.acc.getD k []).getD i 0
    let b := o.b.toNat
    let n := b % 256 + 1
    let m := 2 ^ (b / 256 % 4)
    let entry (k i : Nat) : Nat := b / 2 ^ 10 % 256 + b / 2 ^ 18 % 256 * k + i / m
    let weight (k i l : Nat) : Nat := s.readNat (o.dpa / 512 * 512 + 512 * i + 32 * k + 2 * l) 2
    let aside : Prop := (all = true ∧ o.fn ∈ [1, 2, 3] ∧ o.dpa % 512 ≠ 0) ∨
      (o.fn = 2 ∧ (255 < entry (if all then 15 else bank) (n - 1) ∨ 65536 < o.dpa % 65536 / 512 * 512 + 512 * n))
    s.bankOps.find? (fun y => y.id == o.id) = some o → s.isSecondary o.team = false → s.bankReady o = true → s.errors = [] → s.softs = [] → MemoryOk s →
    old.x.length = 16 → (∀ k < 16, (old.x.getD k []).length = 256) → old.acc.length = 16 → (∀ k < 16, (old.acc.getD k []).length = 64) →
    ∃ t, exec (.bankOpPerform o.id) s = .next t ∧ t.bankOps = s.bankOps.filter (fun y => y.id != o.id) ∧ (∀ q, q ≠ pc → t.bankOf q = s.bankOf q) ∧
      let new := t.bankOf pc
      (aside ∨ o.fn ≠ 0 → new.allBank = all) ∧
      (o.fn = 0 → new.allBank = o.b.getLsbD 0) ∧
      (aside ∨ o.fn ≠ 1 → ∀ k i, x new k i = x old k i) ∧
      (o.fn = 1 → ¬aside → ∀ nl < 17, nl = b / 2 ^ 22 % 16 + 1 → o.data.length = 32 * nl → ∀ k < 16, ∀ i < 256,
        let at_ := 16 * (b / 2 ^ 26 % 16)
        (hit k → at_ ≤ i → i < at_ + 16 * nl → x new k i = BitVec.ofNat 16 (leAt o.data (2 * (i - at_)) 2)) ∧
        (¬hit k ∨ i < at_ ∨ at_ + 16 * nl ≤ i → x new k i = x old k i)) ∧
      (aside ∨ (o.fn ≠ 2 ∧ (o.fn = 4 → b % 2 = 0)) → o.fn < 5 → ∀ k i, acc new k i = acc old k i) ∧
      (o.fn = 2 → ¬aside → ∀ k < 16, ∀ i < 64,
        (¬hit k → acc new k i = acc old k i) ∧
        (hit k → acc new k i = (List.range n).foldl (fun (v : W32) st =>
          if st % m = i / 16 then
            BitVec.ofNat 32 (Fmt.f32.fmaV { rm := 0, fz := false } (Fmt.f16.read false (weight k st (i % 16))) (Fmt.f16.read false (x old k (entry k st)).toNat)
              (Fmt.f32.read false v.toNat)).1
          else v) (acc old k i))) ∧
      (∀ y v, (aside ∨ o.fn ≠ 3 ∨ y ≠ o.team) → s.team? y = some v → ∃ z, t.team? y = some z ∧ z.base = v.base) ∧
      (o.fn = 3 → ¬aside → ∀ v, s.team? o.team = some v → Memory.wf v.base = true → ∃ z, t.team? o.team = some z ∧
        (∀ k < 16, hit k → ∀ i < 64, ∀ c < 4, Cells.get z.base (o.dst + (if all then 256 * k else 0) + 4 * i + c) = BitVec.ofNat 8 ((acc old k i).toNat / 256 ^ c)) ∧
        (∀ a, a < o.dst ∨ o.dst + (if all then 4096 else 256) ≤ a → Cells.get z.base a = Cells.get v.base a)) ∧
      (o.fn = 4 → b % 2 = 1 → ∀ k < 16, ∀ i < 64, (hit k → acc new k i = 0) ∧ (¬hit k → acc new k i = acc old k i)) ∧
      (∀ a, o.fn = 4 → b / 2 % 2 = 1 → a / 65536 = o.dpa / 65536 → hit (a / 32 % 16) → t.readByte a = 0) ∧
      (∀ a, aside ∨ o.fn < 4 ∨ (o.fn = 4 ∧ (b / 2 % 2 = 0 ∨ a / 65536 ≠ o.dpa / 65536 ∨ ¬hit (a / 32 % 16))) → t.readByte a = s.readByte a)

/-- R236, R237, R212: a monitor is taken, for the lane and its shadow, when the word read equals the one compared; the lane wakes with the word when it does not, with nm too when no monitor of its core is free, and
with ne when the word cannot be read; a written line wakes its lane; a lane whose monitor was released wakes with rs and its address translated anew; a
rack whose timer has run out launches. -/
def Sys2Proof.Slice0.MonitorAndRackEvents : Prop :=
  ∀ (s u : State) (w : Wave) (lane d k : Nat) (l : Lane) (a : Asleep) (m : W32) (e : W57),
    (let wakes (i : Instr) (v : W64) : Prop := exec i s = .next (u.wakeLane w lane a v).wakeRetry
     let arm := Instr.monitorArm w.wid lane
     let wake := Instr.monitorWake w.wid lane
     s.wave? w.wid = some w → u.wave? w.wid = some w → w.status = .running → w.lanes[lane]? = some l → l.sleep = some a → s.isEvicted w.team = false →
      (a.rs = false → a.armed = false → lane < w.plan → s.isSecondary w.team = false → s.lineHeld a.dpa = false → s.earlierOut w.wid a.epoch = false →
        w.armsLater lane a = false →
        (s.monitorRead (s.vfOf w) a.dpa = (u, some m) →
          (m = a.cmp → s.monitorsUsed w.core < Config.monitors → exec arm s = .next (u.updWave w.wid fun x =>
            { x with lanes := x.lanes.mapIdx fun i y =>
                if (w.both lane).contains i then { y with sleep := y.sleep.map fun b => { b with armed := true, hit := false } } else y }).wakeRetry) ∧
          (m ≠ a.cmp → s.monitorsUsed w.core < Config.monitors → wakes arm (m.setWidth 64)) ∧
          (Config.monitors ≤ s.monitorsUsed w.core → wakes arm (m.setWidth 64 ||| 0x100000000))) ∧
        (s.monitorRead (s.vfOf w) a.dpa = (u, none) →
          (s.monitorsUsed w.core < Config.monitors → wakes arm 0x400000000) ∧ (Config.monitors ≤ s.monitorsUsed w.core → wakes arm 0x500000000))) ∧
      (a.rs = false → a.armed = true → a.hit = true → s.lineHeld a.dpa = false →
        (s.monitorRead (s.vfOf w) a.dpa = (u, some m) → wakes wake (m.setWidth 64)) ∧ (s.monitorRead (s.vfOf w) a.dpa = (u, none) → wakes wake 0x400000000)) ∧
      (a.rs = true → s.translate w.core (s.vfOf w) w.asid (a.addr.toNat % 2 ^ 57) Need.monitor = .ok (d, k) → s.lineHeld d = false →
        (s.monitorRead (s.vfOf w) d = (u, some m) → wakes wake (m.setWidth 64 ||| 0x200000000)) ∧ (s.monitorRead (s.vfOf w) d = (u, none) → wakes wake 0x600000000)) ∧
      (a.rs = true → ∀ cause, s.translate w.core (s.vfOf w) w.asid (a.addr.toNat % 2 ^ 57) Need.monitor = .error cause → u = s → wakes wake 0x600000000)) ∧
    (s.wave? w.wid = some w → w.status = .rack e 0 → s.isEvicted w.team = false →
      exec (.rackTimerExpiry w.wid) s = .next (s.updWave w.wid fun x => { x with status := .running, wait := .ready }).wakeRetry)

/-- R193-R197, R236, R237, R212: the bank operations' effects, the monitors and the rack timer. -/
def Obligations.BanksMonitorsRacks : Prop := Slice0.BankEffects ∧ Slice0.MonitorAndRackEvents

/-- R240-R243, Table 79, R268: a ring of an enabled function that a host reaches hands out tickets while a slot is free, and answers `full` or `dis` with
the tail otherwise; notes a published slot whose number lies in the window, and flags any other and a slot that is published already; notes a
notification, takes its configuration when firmware observes it, stores CHEAD, and consumes its next published slot. Three points are the model's choice: the
group table is read through the ASID of the ring whose NOTIFY is observed (notes/assumptions/34); bits [11:0] of RBASE and CBASE are dropped, and PUBLISH
reads a value whose publication was flagged (notes/assumptions/44). -/
def Obligations.RingEvents : Prop :=
  ∀ (s : State) (v k : Nat) (x : W64) (c : RingCfg) (u : State) (bs : List Byte),
    let r := s.ring v k
    let q : W32 := x.setWidth 32
    let slot := r.head.toNat % 2 ^ c.lgs
    (s.vf v).en = true → (s.vf v).st = 1 → s.hosted v = true →
    ((r.malformed = true ∨ r.cfg = none ∨ (∃ y, r.cfg = some y ∧ y.en = false)) →
      exec (.ticketRead v k) s = .next (s.reply (.value (0x4000000000000000 ||| r.tail.setWidth 64)))) ∧
    (r.malformed = false → r.cfg = some c → c.en = true →
      ((r.tail - r.head).toNat = 2 ^ c.lgs → exec (.ticketRead v k) s = .next (s.reply (.value (0x8000000000000000 ||| r.tail.setWidth 64)))) ∧
      ((q - r.head).toNat < (r.tail - r.head).toNat → q.toNat % 2 ^ c.lgs ∈ r.bits →
        exec (.publishWrite v k x) s = .next (s.setRing v k { r with publish := q, status := r.status ||| 1 })) ∧
      ((r.tail - r.head).toNat ≠ 2 ^ c.lgs → exec (.ticketRead v k) s = .next ((s.setRing v k { r with tail := r.tail + 1 }).reply (.value (r.tail.setWidth 64)))) ∧
      ((q - r.head).toNat < (r.tail - r.head).toNat → q.toNat % 2 ^ c.lgs ∉ r.bits →
        exec (.publishWrite v k x) s = .next (s.setRing v k { r with publish := q, bits := r.bits ++ [q.toNat % 2 ^ c.lgs] })) ∧
      (r.head ≠ r.tail → slot ∈ r.bits → s.fetchBytes v (r.asid.getD 0) (c.rbase + 64 * slot) 64 = (u, .ok bs) → u.vfs = s.vfs →
        ∃ t, exec (.slotConsume v k) s = .next t ∧ t.vfs = (s.setRing v k { r with bits := r.bits.filter (· != slot), head := r.head + 1 }).vfs ∧
          ∃ cmd ∈ t.cmds, cmd.vf = v ∧ cmd.ring = k ∧ cmd.seq = r.head.toNat ∧ cmd.bytes = bs ∧ cmd.phase = .waiting)) ∧
    ((r.tail - r.head).toNat ≤ (q - r.head).toNat → exec (.publishWrite v k x) s = .next (s.setRing v k { r with publish := q, status := r.status ||| 1 })) ∧
    exec (.notifyWrite v ⟨k, x⟩) s = .next (s.setRing v k { r with notify := true, notifyWord := x }) ∧
    exec (.cheadWrite v k x) s = .next (s.setRing v k { r with chead := x.setWidth 32 }).wakeRetry ∧
    (r.notify = true →
      let b := (s.setRing v k { r with notify := false }).bindRing v k
      ∀ y, b.readGroups v ((b.ring v k).asid.getD 0) = some y →
        exec (.configurationReread v k) s = .next (y.setRing v k (if y.cfgMalformed v (y.ring v k) then { y.ring v k with malformed := true, status := (y.ring v k).status ||| 2 }
          else { y.ring v k with malformed := false, cfg := some (ringCfgOf (y.ring v k)) })))

/-- R5, R6, Tables 77, 86, 87, 109: a register write changes the fields its access code lets the host write and nothing else; a field that software
writes reads the last value written. A write to PCTL sets fwm and pev, clears perr where it writes 1, sets nest to 1 to 4 and leaves it, with perr set, for 0
and 5 to 7, and then acts as the write to owner of `OwnerWrites` (R265, R266); one to VFCTL sets ld and then acts as the write to en of `FunctionWrites` (R267,
R268). That PUBLISH reads the value written also where R242 calls the publish bad is the model's choice (notes/assumptions/44),
and how the words of the MSI-X table are kept is its reading (notes/assumptions/22). -/
def Obligations.RegisterWrites : Prop :=
  ∀ (s : State) (v k p : Nat) (x : W64),
    let ring (f : Ring → Ring) : State := s.setRing v k (f (s.ring v k))
    exec (.registerWrite .readOnly x) s = .next s ∧
    exec (.registerWrite (.publish v k) x) s = exec (.publishWrite v k x) s ∧ exec (.registerWrite (.notify v k) x) s = exec (.notifyWrite v ⟨k, x⟩) s ∧
    exec (.registerWrite (.chead v k) x) s = exec (.cheadWrite v k x) s ∧ exec (.registerWrite (.hpol v) x) s = exec (.hpolWrite v x) s ∧
    exec (.registerWrite (.qen p) x) s = exec (.qenWrite p x) s ∧
    (∀ t, v < s.vfs.length → k < (s.vf v).rings.length → (s.vf v).en = true → (s.vf v).st = 1 → s.hosted v = true →
      (exec (.publishWrite v k x) s = .next t → t.readRegister (.publish v k) = x &&& 0xFFFFFFFF) ∧
      (exec (.notifyWrite v ⟨k, x⟩) s = .next t → t.readRegister (.notify v k) = x)) ∧
    exec (.registerWrite .elhead x) s = .next { s with errlog := { s.errlog with head := x.setWidth 32 } } ∧
    exec (.registerWrite .elbase x) s = .next { s with errlog := { s.errlog with base := x &&& 0x01FFFFFFFFFFF01F } } ∧
    exec (.registerWrite (.s2root v) x) s = .next (s.setVf v { s.vf v with s2root := x &&& 0xFFFFFFF000 }) ∧
    (let n := x.toNat % 8
     let o := x.toNat / 2 ^ 24 % 128
     let fields : State := s.setPart p
       { s.part p with
         fwm := x.extractLsb' 16 5
         pev := x.getLsbD 9
         nest := if 1 ≤ n ∧ n ≤ 4 then n else (s.part p).nest
         perr := decide (n = 0 ∨ 4 < n) || ((s.part p).perr && !x.getLsbD 8) }
     (o = 127 → exec (.registerWrite (.pctl p) x) s = exec (.partitionFree p) fields) ∧
     (o ≠ 127 → exec (.registerWrite (.pctl p) x) s = exec (.partitionAssign p o) fields)) ∧
    (let fields : State := s.setVf v { s.vf v with ld := x.toNat / 2 ^ 32 % 16 }
     (x.getLsbD 0 = true → exec (.registerWrite (.vfctl v) x) s = exec (.vfEnable v) fields) ∧
     (x.getLsbD 0 = false → exec (.registerWrite (.vfctl v) x) s = exec (.vfDisable v) fields)) ∧
    ((s.vf v).en = true → (s.vf v).st = 1 → s.hosted v = true →
      exec (.registerWrite (.rbase v k) x) s = .next (ring fun r => { r with rbase := x &&& 0x01FFFFFFFFFFFFFF }) ∧
      exec (.registerWrite (.rcfg v k) x) s = .next (ring fun r => { r with rcfg := x &&& 0x1F3F9F }) ∧
      exec (.registerWrite (.cbase v k) x) s = .next (ring fun r => { r with cbase := x &&& 0x01FFFFFFFFFFFFFF }) ∧
      exec (.registerWrite (.ccfg v k) x) s = .next (ring fun r => { r with ccfg := x &&& 0x07FF001F }) ∧
      exec (.registerWrite (.status v k) x) s = .next (ring fun r => { r with status := r.status &&& ~~~x }) ∧
      exec (.registerWrite (.troot v k) x) s = .next (ring fun r => { r with troot := x &&& 0x01FFFFFFFFFFF000 }) ∧
      exec (.registerWrite (.gtbase v) x) s = .next (s.setVf v { s.vf v with gtbase := x &&& 0x01FFFFFFFFFFF000 }) ∧
      exec (.registerWrite (.gtcnt v) x) s = .next (s.setVf v { s.vf v with gtcnt := x &&& 0xFF })) ∧
    ((s.vf v).en = false ∨ s.hosted v = false → exec (.registerWrite (.rbase v k) x) s = .next s ∧ exec (.registerWrite (.rcfg v k) x) s = .next s) ∧
    (∀ e < 2048, ∀ u, s.hosted v = true → exec (.registerWrite (.msixWord v e u) x) s = .next (s.setVf v
      { s.vf v with msixTable := assocSet (s.vf v).msixTable (2 * e + if u then 1 else 0) x })) ∧
    (∀ r ∈ [HostReg.ticket v k, .head v k, .tail v k, .ctail v k, .ndrop v, .eltail, .ellost], exec (.registerWrite r x) s = .next s)

/-- What makes a launch record malformed (R248): a field outside Table 83, a used region that breaks R57, two used regions that overlap, a used region that ends
above V, the V that a record with V = 0 takes among them, or above 0x1C_0000 (R144). -/
def Sys2Proof.Slice0.recordBroken (b : List Byte) : Prop :=
  let f (at_ n : Nat) : Nat := leAt b at_ n
  let spad (i : Nat) : Nat := f (128 + 24 * i + 16) 3
  let dir (i : Nat) : Nat := f (128 + 24 * i + 19) 1
  let size (i : Nat) : Nat := f (128 + 24 * i + 20) 4
  let used (i : Nat) : Prop := i < 8 ∧ dir i ≠ 0
  2 ^ 57 ≤ f 0 8 ∨ f 0 8 % 4 ≠ 0 ∨ f 8 1 ∉ [16, 32, 64] ∨ f 9 1 = 0 ∨ 120 < f 9 1 ∨ f 10 1 = 0 ∨ 16 < f 10 1 ∨ f 11 1 = 0 ∨ 8 < f 11 1 ∨ 6144 < f 16 2 ∨
    15 < f 18 1 ∨ 2 < f 19 1 ∨ 262144 < f 20 4 ∨ f 20 4 % 256 ≠ 0 ∨ 1835008 < f 24 4 ∨ f 24 4 % 65536 ≠ 0 ∨ 1 < f 28 1 ∨ f 29 3 ≠ 0 ∨
    (∃ k, 80 ≤ k ∧ k < 128 ∧ f k 1 ≠ 0) ∨ (∃ i < 8, 3 < dir i ∨ spad i % 64 ≠ 0 ∨ 2 ^ 22 ≤ spad i) ∨
    (∃ i, used i ∧ (size i % 64 ≠ 0 ∨ size i < 64 ∨ 0x200000 < spad i + size i)) ∨
    (∃ i j, used i ∧ used j ∧ i ≠ j ∧ spad i < spad j + size j ∧ spad j < spad i + size i) ∨
    ∃ i, used i ∧ (0x1C0000 < spad i + size i ∨ (f 24 4 ≠ 0 ∧ f 24 4 < spad i + size i))

/-- The launch that a command ends with: its status where it has none yet, no team, no repeat (R248). -/
def Sys2Proof.Slice0.concluded (status cause : Nat) (l : Launch) : Launch :=
  { l with status := some (l.status.getD status), cause := cause, left := 0, again := false }

/-- What follows when a record is launched in `x` (R247, R248): the first of the conditions that holds ends the command with its status; with none, the launch
holds the record and its policy, its deadline counts from the tick at which its command was consumed, and its teams wait in their queue in ascending order, each
with its affinity address. -/
def Sys2Proof.Slice0.Enters (i : Instr) (s x : State) (l : Launch) (consumed : Nat) (b : List Byte) : Prop :=
  let r := launchRecOf b
  let ends (u : State) (status cause : Nat) : Prop := exec i s = .next (u.updLaunch l.id (concluded status cause)).wakeRetry
  let runs (u : State) (p : Option Policy) : Prop :=
    (r.placeable l.part = false → ends u 4 0) ∧
    (r.placeable l.part = true → ∃ t, exec i s = .next t ∧ t.mem = u.mem ∧ t.cmds = u.cmds ∧
      t.launch? l.id = some { l with rcd := r, policy := p, left := r.teams, deadline := if r.deadline = 0 then none else some (consumed + r.deadline.toNat) } ∧
      ∀ k < r.teams, ∃ y ∈ t.tasks, y.kind = .team l.id k ∧ y.part = l.part ∧ y.queue = l.queue ∧ y.prio = r.prio ∧ y.order = (u.nextId + k : Nat) ∧
        y.aff = if r.aff = 0 then none else some (unsignedOf 64 ((r.aff : Int) + (k : Int) * r.affs)))
  x.launch? l.id = some l →
    (recordBroken b → ends x 3 0) ∧
    (¬recordBroken b → min 2 (((x.vf l.vf).hpol.toNat / 64) % 4) < r.grade → ends x 5 0) ∧
    (¬recordBroken b → r.grade ≤ min 2 (((x.vf l.vf).hpol.toNat / 64) % 4) →
      (r.fpolicy = 0 → runs x none) ∧
      (r.fpolicy ≠ 0 → ∀ u, (∀ cause, x.fetchBytes l.vf l.asid r.fpolicy 2112 = (u, .fail cause) → ends u 8 cause) ∧
        ∀ pb, x.fetchBytes l.vf l.asid r.fpolicy 2112 = (u, .ok pb) → u.launch? l.id = some l →
          (policyMalformed r.fpolicy pb = true → ends u 3 0) ∧ (policyMalformed r.fpolicy pb = false → runs u (some (policyOf pb)))))

/-- What follows when a prologue starts in `x` over the first 0x400 bytes of its area (R245): a staging range that cannot be fetched ends the command with 0x08;
else it runs as a single lane at plg with every register 0 over an area that the ranges follow in order, or the host is asked to run it (R283). -/
def Sys2Proof.Slice0.StartsPrologue (i : Instr) (s x : State) (l : Launch) (c : Cmd) (head : List Byte) : Prop :=
  ∀ u, x.launch? l.id = some l →
    (∀ cause, x.stageRanges l.vf l.asid c.bytes = (u, .fail cause) → exec i s = .next (u.updLaunch l.id (concluded 8 cause)).wakeRetry) ∧
    ∀ rs, x.stageRanges l.vf l.asid c.bytes = (u, .ok rs) →
      ((u.part l.part).fwm.getLsbD 1 = true → ∃ t, exec i s = .next t ∧ AssistReq.prologue l.id ∈ t.assist ∧ t.waves.length = u.waves.length) ∧
      ((u.part l.part).fwm.getLsbD 1 = false → ∃ t, exec i s = .next t ∧ ∃ w ∈ t.waves, w.wid = u.nextId ∧ w.width = 1 ∧ w.nregs = 32 ∧ w.asid = l.asid ∧
        w.sregs = List.replicate 32 0 ∧ w.fpmode = 0 ∧ w.fpflags = 0 ∧
        (∃ y, w.lanes = [y] ∧ y.live = true ∧ y.pc = BitVec.ofNat 57 (leAt c.bytes 16 8) ∧ y.regs = List.replicate 32 0 ∧ y.preds = 0) ∧
        ∃ p, w.prologue = some p ∧ p.launch = l.id ∧ p.issued = 0 ∧ p.ended = none ∧ p.area = head ++ rs ++ List.replicate (4096 - 1024 - rs.length) 0)

/-- What follows when a command completes in `x` (R244, Table 81): its record of 32 bytes stands at CBASE + 32 × (CTAIL mod entries), every other byte as it
was; CTAIL advances, the ring's vector is signalled while the function is enabled, and the command is gone. Where the record cannot be written it is lost,
and bit 2 of STATUS is set. -/
def Sys2Proof.Slice0.Reports (i : Instr) (s : State) (c : Cmd) (status cause repeats : Nat) (flags : BitVec 8) (ticks : Nat) (also : State → Prop) : Prop :=
  let r := s.ring c.vf c.ring
  let cfg := r.cfg.getD (ringCfgOf r)
  let va := cfg.cbase + 32 * (r.ctail.toNat % r.entries)
  let place := s.translate Config.cores c.vf (r.asid.getD 0) va Need.completion
  let rec_ : List Byte := leBytes 4 c.seq ++ [BitVec.ofNat 8 status, flags, BitVec.ofNat 8 (if status = 2 ∨ status = 8 then cause else 0), BitVec.ofNat 8 repeats] ++
    leBytes 8 ticks ++ List.replicate 16 0
  let done (t : State) (bit : W64) : Prop := also t ∧
    t.vfs = (s.setRing c.vf c.ring { r with ctail := r.ctail + 1, status := r.status ||| bit }).vfs ∧
    t.msix = (if (s.vf c.vf).en = true then s.msix ++ [(c.vf, cfg.vector)] else s.msix) ∧ ∀ y ∈ t.cmds, ¬(y.vf = c.vf ∧ y.ring = c.ring ∧ y.seq = c.seq)
  s.errors = [] → s.softs = [] → MemoryOk s →
    (2 ^ 57 < va + 32 ∨ (∃ x, place = .error x) → ∃ t, exec i s = .next t ∧ done t 4 ∧ t.mem = s.mem) ∧
    (∀ d k, va + 32 ≤ 2 ^ 57 → place = .ok (d, k) → s.lineHeld d = false → d % 32 = 0 → (s.pageOwner (d / 65536)).isSome = true →
      ∃ t, exec i s = .next t ∧ done t 0 ∧ (∀ j < 32, t.readByte (d + j) = rec_.getD j 0) ∧
        ∀ a, a < d ∨ d + 32 ≤ a → t.readByte a = s.readByte a)

/-- R243-R249, Tables 81-83: a command that may start does its kind. NOP and a BARRIER behind no earlier command finish with status 0. A LAUNCH whose record cannot
be fetched finishes with 0x08; without a prologue it launches the record fetched, with one it starts it. A prologue that exits launches the record of its area
for s31 = 0 or 2, asks for a repeat by 2 while there have been fewer than 255, is cancelled by 1, status 0x01, and has faulted with ILLEGAL by any other
value, 0x02; one that faulted ends with 0x02 and its cause, one whose code could not be fetched with 0x08. A launch that repeats starts its prologue again over
the area it left once its teams have ended; that this counts as a repeat before its staging and its code have been fetched is the model's choice
(notes/assumptions/44, `execPrologueRepeat`). A finished command, one whose slot could not be read, and one whose launch has ended complete with their status,
flags, cause, repeats and ticks, the last with its dirty lines written back (R168). A launch's deadline has its clause in `EvictionEvents`. -/
def Obligations.CommandEvents : Prop :=
  ∀ (s t : State) (c : Cmd) (l : Launch) (w : Wave) (pr : Prologue) (b : List Byte) (p q e st x n : Nat),
    let run (k : Nat) : Prop := s.cmd? c.vf c.ring c.seq = some c ∧ c.phase = .waiting ∧ s.mayStart c = true ∧ slotMalformed c.bytes = false ∧ leAt c.bytes 0 1 = k
    let asid := (s.ring c.vf c.ring).asid.getD 0
    let fresh : Launch :=
      { id := t.nextId, vf := c.vf, ring := c.ring, seq := c.seq, asid := asid, part := p, queue := q, rcd := launchRecOf b, policy := none, deadline := none,
        left := 0, deadTeams := 0, status := none, flags := 0, ticks := 0, repeats := 0, again := false, handler := none, sup := false, cause := 0, area := [] }
    let opened := ({ t with launches := t.launches ++ [fresh], nextId := t.nextId + 1 } : State).setCmd { c with phase := .running t.nextId }
    let finished (u : State) (status cause : Nat) : State := (u.setCmd { c with phase := .finished status cause 0 }).wakeRetry
    let launches := Instr.launch c.vf c.ring c.seq
    let ends := Instr.prologueEnd l.id
    let completes := Instr.commandComplete c.vf c.ring c.seq
    (run 0 → exec (.nopCommand c.vf c.ring c.seq) s = .next (finished s 0 0)) ∧
    (run 2 → s.earlierCmds c = [] → exec (.barrier c.vf c.ring c.seq) s = .next (finished s 0 0)) ∧
    (run 1 → s.ringQueue c.vf c.ring = some (p, q) →
      (∀ cause, s.fetchBytes c.vf asid (leAt c.bytes 8 8) 320 = (t, .fail cause) → exec launches s = .next (finished t 8 cause)) ∧
      (s.fetchBytes c.vf asid (leAt c.bytes 8 8) 320 = (t, .ok b) → t.launch? t.nextId = none →
        (leAt c.bytes 16 8 = 0 → Enters launches s opened fresh c.consumed b) ∧
        (leAt c.bytes 16 8 ≠ 0 → StartsPrologue launches s opened fresh c (b ++ List.replicate 704 0)))) ∧
    (let rest : State := { s with waves := s.waves.filter fun y => y.wid != w.wid }
     let kept (f : Launch → Launch) : State := rest.updLaunch l.id fun y => f { y with area := pr.area.take 1024 }
     let s31 := w.sregs.getD 31 0
     let again (y : Launch) : Bool := s31 == 2 && decide (y.repeats < 255)
     s.grp = none → s.waves.find? (fun y => match y.prologue with | some z => z.launch == l.id && z.ended.isSome | none => false) = some w →
       w.prologue = some pr → pr.ended = some e → s.launch? l.id = some l →
       (256 ≤ e → exec ends s = .next (rest.updLaunch l.id (concluded 8 (e - 256))).wakeRetry) ∧
       (0 < e → e < 256 → exec ends s = .next (rest.updLaunch l.id (concluded 2 e)).wakeRetry) ∧
       (e = 0 →
         (s31 = 0 ∨ s31 = 2 → ∀ y, s.cmdOf l = some y → Enters ends s (kept fun y => { y with again := again y })
           { l with area := pr.area.take 1024, again := again l } y.consumed (pr.area.take 320)) ∧
         (s31 = 1 → exec ends s = .next (kept (concluded 1 0)).wakeRetry) ∧
         (s31 ≠ 0 → s31 ≠ 1 → s31 ≠ 2 → exec ends s = .next (kept (concluded 2 Cause.illegal)).wakeRetry))) ∧
    (s.launch? l.id = some l → l.again = true → l.status = none → s.launchBusy l = false → s.cmdOf l = some c →
      StartsPrologue (.prologueRepeat l.id) s (s.updLaunch l.id fun l => { l with again := false, repeats := l.repeats + 1 })
        { l with again := false, repeats := l.repeats + 1 } c l.area) ∧
    (s.cmd? c.vf c.ring c.seq = some c → s.inTurn c = true →
      (c.phase = .finished st x n → Reports completes s c st x n c.flags c.ticks fun _ => True) ∧
      (c.phase = .unreadable x → s.mayStart c = true → Reports completes s c 8 x 0 0 0 fun _ => True) ∧
      (c.phase = .running l.id → s.launch? l.id = some l → s.launchBusy l = false → (l.again = false ∨ l.status.isSome = true) →
        (∀ o ∈ s.remotes, o.launch ≠ l.id) → (∀ o ∈ s.bankOps, o.launch ≠ l.id) → l.vf < 96 →
          Reports completes s c (l.status.getD 0) l.cause l.repeats l.flags l.ticks fun t => (∀ y ∈ t.launches, y.id ≠ l.id) ∧
            ∀ y ∈ t.lines, y.dirty = true → ¬(y.vf = l.vf ∧ y.asid = l.asid ∧ y.host = false)))

/-- R253, R256, R260, R252: while the partition does not leave its cores as a whole (notes/assumptions/15), the dispatcher makes its pass over the queues;
where one task alone waits, of a team without a twin and without affinity, and some pair of the partition has room, its team is staged on the lowest such pair
and the task leaves its queue. A staged team's waves take their slots, each the lowest that is free on its core (the model's choice, notes/assumptions/9), and the conflict set of
the team starts empty there, which is its choice too (notes/assumptions/44, `execTeamStart`); a task that has waited long enough loses its affinity or blocks
later ones. -/
def Sys2Proof.Slice0.DispatchEvents : Prop :=
  ∀ (s : State) (t : Team) (l : Launch) (k : Task) (part p idx n : Nat),
    ((s.part part).leaving = false → (s.dispatch part).noteResident part ≠ s →
      exec (.taskDispatch part) s = .next ((s.dispatch part).noteResident part).wakeRetry) ∧
    ((s.part part).leaving = true → exec (.taskDispatch part) s = .next s) ∧
    ((s.part part).leaving = false → s.waiting part = [k] → k.part = part → k.kind = .team l.id idx → s.launch? l.id = some l → l.rcd.grade ≠ 2 → k.aff = none →
      p ∈ pairsOf part → s.fitsOn l.rcd.needOn p = true → (∀ q ∈ pairsOf part, q < p → s.fitsOn l.rcd.needOn q = false) →
      ∃ u x, exec (.taskDispatch part) s = .next u ∧ (∀ y ∈ u.tasks, y.id ≠ k.id) ∧ x ∈ u.teams ∧ x.launch = l.id ∧ x.idx = idx ∧ x.pair = p ∧
        x.phase = .staging ∧ x.twin = none) ∧
    (s.team? t.id = some t → s.launch? t.launch = some l → t.phase = .staging → (∀ c ∈ s.copies, c.team = t.id → ∀ i, c.kind ≠ .staging i) →
      exec (.teamStart t.id) s = .next (((List.range l.rcd.blocks).foldl (fun (u : State) b => (List.range l.rcd.waves).foldl (fun (u : State) i =>
        { u with waves := u.waves ++ [launchWave l t b i u.nextId (u.freeSlot (2 * t.pair + b % 2))], nextId := u.nextId + 1 }) u) s).updTeam t.id fun t =>
          { t with phase := .running, foreign := [] }).wakeRetry) ∧
    exec (.affinityWaitExpiry n) s = .next { s with tasks := s.tasks.map fun k => if k.id = n ∧ 4096 ≤ k.waited then { k with anyPair := true } else k } ∧
    exec (.starvationBlock n) s = .next { s with tasks := s.tasks.map fun k => if k.id = n ∧ 65536 ≤ k.waited then { k with blocks := true } else k }

/-- R255, R257, R258, R260, R261: a spent budget and an order of the scheduler set a team with its twin draining, towards no save area or the one ordered,
its budget renewed after the first; an order for a partition sets every team of it draining, and nothing is placed there until they have left. A drained team is
saved: its images are written, its notice made where the policy asks, and it is a task of its queue again. A launch's deadline kills its teams. That a
partition's order marks it as leaving and nothing is placed there meanwhile, the layout of an image's sections, and that the team's state stays in its own
fields besides, are the model's choice (notes/assumptions/15). -/
def Sys2Proof.Slice0.EvictionEvents : Prop :=
  ∀ (s : State) (t : Team) (l : Launch) (part area n : Nat),
    let ordered (area : Nat) (renew : Bool) : State :=
      { s with teams := s.teams.map fun (x : Team) => if x.id ∈ t.pairUp then { x with phase := .draining, saveArea := area, renew := renew } else x }
    (s.team? t.id = some t → (t.phase = .running ∨ t.phase = .ending ∨ t.phase = .staging) →
      (t.budget = some 0 → t.secondary = false → exec (.budgetExpiry t.id) s = .next (ordered 0 true).wakeRetry) ∧
      exec (.evictionOrder (.team t.id) area) s = .next (ordered area false).wakeRetry) ∧
    (part < s.parts.length → ∃ u, exec (.evictionOrder (.partition part) area) s = .next u ∧ (u.part part).leaving = true ∧
      (s.team? t.id = some t → t.part = part → t.secondary = false → (t.phase = .running ∨ t.phase = .ending ∨ t.phase = .staging) →
        ∀ x ∈ u.teams, x.id = t.id → x.phase = .draining)) ∧
    (s.team? t.id = some t → t.phase = .draining → (∀ i ∈ t.pairUp, s.drained i = true) → s.errors = [] →
      (let u := s.writeImages t
       let v := if s.wantsNotice t.launch Cause.preempt = true then
           u.makeNotice (teamUnit t) Cause.preempt 0 (BitVec.ofNat 64 t.saveArea) (BitVec.ofNat 64 (s.imagesLen t)) (BitVec.ofNat 32 t.idx)
         else u
       exec (.imageWrite t.id) s = .next ((t.pairUp.foldl State.saveTeam v).queueSaved t.id).wakeRetry) ∧
      (s.launch? t.launch = some l → s.wantsNotice t.launch Cause.preempt = false →
        ∃ v, exec (.imageWrite t.id) s = .next v ∧ v.mem = (s.writeImages t).mem ∧ (∀ x ∈ v.teams, x.id ∈ t.pairUp → x.phase = .evicted true) ∧
          ∃ k ∈ v.tasks, k.kind = .saved t.primary ∧ k.part = t.part ∧ k.queue = l.queue)) ∧
    (s.launch? l.id = some l → l.deadline = some n → n ≤ s.qclock l.part l.queue → l.left ≠ 0 → l.handler = none →
      ((s.killLaunch l.id 6).updLaunch l.id fun l => { l with deadline := none }).wantsNotice l.id Cause.deadline = false →
      exec (.launchDeadlineExpiry l.id) s = .next ((s.killLaunch l.id 6).updLaunch l.id fun l => { l with deadline := none }).wakeRetry)

/-- R259, R311, R348: the items of a moving job. A page's cells go out as 1,024 entries of 64 bytes once every published reduction has been applied, and come
back as cells from entries; a bank's context goes out as its image, whose layout is the model's choice (notes/assumptions/36), and comes back from one,
every register at its place; poisoned words of it are consumed and kill the teams of its partition (notes/assumptions/44). An error in a cell that is saved is
found, and the cell poisoned (R322). The records of an evicted team go to another partition of the same function on this part (the model's choice,
notes/assumptions/16): every one of them that is no notice and not KILLED takes a place of that pool that no other record has, with the next generation of
that place; its deadline counts there what remained of it, and its fault task is posted again, in the new partition alone. -/
def Sys2Proof.Slice0.MoveEvents : Prop :=
  ∀ (s u : State) (t : Team) (part area page : Nat),
    let pc := pseudoChannel (page * 65536)
    let at_ (off n : Nat) : Nat := leAt (s.readBytes area 12352) off n
    let sound (p : StoreLoc → Prop) : Prop := (∀ e ∈ s.errors, ¬p e) ∧ ∀ e ∈ s.softs, ¬p e
    (sound (fun e => ∃ k, e = .bank pc k) →
      exec (.jobMemoryMove (.saveBank page area)) s = .next (s.replaceRange area ((s.bankOf pc).image page)).wakeRetry) ∧
    ((∃ k, StoreLoc.bank pc k ∈ s.errors) → ∃ v, exec (.jobMemoryMove (.saveBank page area)) s = .next v ∧
      ∀ x ∈ s.teams, some x.part = s.pageOwner page → ∀ y, v.team? x.id = some y → y.phase = .dead) ∧
    (∃ v, exec (.jobMemoryMove (.restoreBank page area)) s = .next v ∧
      (page ∉ s.cleared → (∀ e ∈ s.lines, e.dpa / 65536 ≠ page) → v.mem = s.mem) ∧ (v.bankOf pc).allBank = decide (at_ 8 1 % 2 = 1) ∧
      (∀ r < 16, ∀ i < 256, ((v.bankOf pc).x.getD r []).getD i 0 = BitVec.ofNat 16 (at_ (64 + 512 * r + 2 * i) 2)) ∧
      ∀ r < 16, ∀ i < 64, ((v.bankOf pc).acc.getD r []).getD i 0 = BitVec.ofNat 32 (at_ (64 + 8192 + 256 * r + 4 * i) 4)) ∧
    ((∃ b ∈ s.cellBlocks, b.page = page) →
      ((∀ t ∈ s.teams, t.applyQ = []) →
        (sound (fun e => ∃ a, e = .cell a ∧ a / 65536 = page) → exec (.jobMemoryMove (.saveCells page area)) s =
          .next (s.replaceRange area ((List.range 1024).flatMap fun i => (s.cell (page * 65536 + 64 * i)).entry)).wakeRetry) ∧
        ∀ i < 1024, StoreLoc.cell (page * 65536 + 64 * i) ∈ s.errors →
          ∃ v, exec (.jobMemoryMove (.saveCells page area)) s = .next v ∧ (v.cell (page * 65536 + 64 * i)).poison = true) ∧
      ∃ v, exec (.jobMemoryMove (.restoreCells page area)) s = .next v ∧ v.mem = s.mem ∧
        ∀ i < 1024, v.cell (page * 65536 + 64 * i) = cellFrom (s.readBytes (area + 64 * i) 64)) ∧
    (s.team? t.id = some t → (∃ x, t.phase = .evicted x) → t.part ≠ part → (s.part part).owner = t.vf →
      (∀ r ∈ s.records, r.team ∈ t.pairUp → r.kind ≠ .notice → r.state ≠ .claimed ∧ r.state ≠ .resuming) →
      ((s.records.filter fun r => t.pairUp.contains r.team && r.kind != .notice && r.state != .killed).map (·.id)).foldl (fun (o : Option State) rid => o.bind fun s => s.moveRecord part rid) (some s) = some u →
        ∃ v, exec (.recordMove t.id part) s = .next v ∧ (∀ x ∈ v.teams, x.id ∈ t.pairUp → x.part = part) ∧ v.mem = s.mem ∧
          ((s.records.map (·.id)).Nodup →
            (∀ y ∈ s.records, y.team ∈ t.pairUp → y.kind ≠ .notice → y.state ≠ .killed → y.part ≠ part) →
            ∀ r ∈ s.records, r.team ∈ t.pairUp → r.kind ≠ .notice → r.state ≠ .killed →
              ∃ z ∈ v.records, z.id = r.id ∧ z.part = part ∧ z.state = r.state ∧ z.body = r.body ∧ z.ord = s.ordinal part ∧
                (∀ y ∈ v.records, y.id ≠ r.id → y.part = part → (y.extent, y.slot) ≠ (z.extent, z.slot)) ∧
                z.gen = ((((s.gens.find? fun g => g.1 == (part, z.extent * 64 + z.slot)).map (·.2)).getD 0) + 1) % 64 ∧
                z.deadline = s.qclock part r.clock + (r.deadline - s.qclock r.part r.clock) ∧
                (∀ k ∈ v.tasks, k.kind = .fault r.id → k.part = part) ∧
                (r.pkind = 1 ∨ r.pkind = 2 → ∃ k ∈ v.tasks, k.kind = .fault r.id ∧ k.part = part ∧ k.queue = r.queue ∧ k.prio = r.prio)))

/-- R252-R261, R311, R348: dispatch starts what the queues of a partition allow; a staged team's waves take their slots; a task that has waited long enough
loses its affinity or blocks later ones; budget, order and deadline take a team or a partition off its cores, and a drained team is saved; a job's cells,
banks and records move. That a partition which leaves its cores is given nothing meanwhile, the form of the images and of the bank contexts, and the reach of
a move are the model's choice (notes/assumptions/15, 16, 36), as are the slots that waves take (notes/assumptions/9) and that a team's conflict set is empty
when its waves start (notes/assumptions/44). -/
def Obligations.SchedulingEvents : Prop := Slice0.DispatchEvents ∧ Slice0.EvictionEvents ∧ Slice0.MoveEvents

/-- R253, R254, R266, R275: a partition that is freed has no owner, key, pool or page, its queues are all enabled again, and with nothing of its owner
under way its pages read zero; one that is assigned has its function for owner, queue clocks from 0 and a new key; a busy partition, owners 96 to 126 and
a function that is resetting leave it as it was, its error bit set, and the owner it has already leaves it alone. That a free and an assignment are one
step each, busy clear again at its end, is the model's choice (notes/assumptions/17). -/
def Sys2Proof.Slice0.OwnerWrites : Prop :=
  ∀ (s : State) (p v : Nat) (x : W64),
    let bad : State := (s.setPart p { s.part p with perr := true }).wakeRetry
    exec (.qenWrite p x) s = .next (s.setPart p { s.part p with qen := x }).wakeRetry ∧
    (p < 20 → Sized s →
      ((s.part p).busy = true → exec (.partitionFree p) s = .next bad ∧ exec (.partitionAssign p v) s = .next bad) ∧
      ((s.part p).busy = false →
        ((s.part p).owner = 0x7F → exec (.partitionFree p) s = .next s.wakeRetry) ∧
        ((s.part p).owner ≠ 0x7F → ∃ t, exec (.partitionFree p) s = .next t ∧ (t.part p).owner = 0x7F ∧ (t.part p).busy = false ∧ (t.part p).pool = none ∧
          (t.part p).key = none ∧ (t.part p).qen = BitVec.allOnes 64 ∧ (∀ e ∈ t.pages, e.2 ≠ p) ∧
          (s.launches = [] → s.teams = [] → s.doms = [] → s.records = [] → s.remotes = [] → s.bankOps = [] →
            ∀ page, (page, p) ∈ s.pages → s.bankPage page = false → ∀ k < 65536, t.readByte (page * 65536 + k) = 0)) ∧
        (v < 127 →
          (96 ≤ v ∨ 2 ≤ (s.vf v).st → exec (.partitionAssign p v) s = .next bad) ∧
          (v < 96 → (s.vf v).st < 2 →
            ((s.part p).owner = v → exec (.partitionAssign p v) s = .next s.wakeRetry) ∧
            ((s.part p).owner ≠ v → ∃ t, exec (.partitionAssign p v) s = .next t ∧ (t.part p).owner = v ∧ (t.part p).busy = false ∧
              (t.part p).pool = none ∧ (t.part p).key ≠ none ∧ (t.part p).qclk = List.replicate 64 0)))))

/-- R264, R268, R269, R279: an enabled function is ready, or scrubbing while a partition of its is busy, with NDROP at 0; a function that is disabled or
reset keeps no launch, command, ASID or translation, its rings and group table at their reset values, and is off, or ready again; a write of the value that
en has changes nothing; HPOL keeps its writable bits; a logical device goes to a host that has no other. That a reset is one step is the model's choice
(notes/assumptions/17). -/
def Sys2Proof.Slice0.FunctionWrites : Prop :=
  ∀ (s : State) (v ld n : Nat) (x : W64),
    let emptied (t : State) : Prop := (t.vf v).rings = Vf.reset.rings ∧ (t.vf v).gtbase = 0 ∧ (∀ c ∈ t.cmds, c.vf ≠ v) ∧ (∀ l ∈ t.launches, l.vf ≠ v) ∧
      (∀ a ∈ t.asids, a.vf ≠ v) ∧ ∀ e ∈ t.tlb, e.vf ≠ v
    let enabled (st : Nat) : State := (s.setVf v { s.vf v with en := true, st := st, ndrop := 0 }).wakeRetry
    exec (.hpolWrite v x) s = .next (s.setVf v { s.vf v with hpol := x &&& 0x0FFF02CC }).wakeRetry ∧
    (v < 96 → Sized s →
      ((s.vf v).en = false → exec (.vfDisable v) s = .next s.wakeRetry ∧
        ((∀ p < 20, (s.part p).owner = v → (s.part p).busy = false) → exec (.vfEnable v) s = .next (enabled 1)) ∧
        ((∃ p < 20, (s.part p).owner = v ∧ (s.part p).busy = true) → exec (.vfEnable v) s = .next (enabled 3))) ∧
      ((s.vf v).en = true → exec (.vfEnable v) s = .next s.wakeRetry ∧
        ∃ t, exec (.vfDisable v) s = .next t ∧ (t.vf v).en = false ∧ (t.vf v).st = 0 ∧ emptied t) ∧
      ∃ t, exec (.functionLevelReset v) s = .next t ∧ (t.vf v).st = (if (t.vf v).en = true then 1 else 0) ∧ emptied t) ∧
    (ld < Config.logicalDevices →
      ((∀ e ∈ s.hosts, e.2 = n → e.1 = ld) → exec (.logicalDeviceBind ld n) s = .next { s with hosts := assocSet s.hosts ld n }) ∧
      ((∃ e ∈ s.hosts, e.2 = n ∧ e.1 ≠ ld) → exec (.logicalDeviceBind ld n) s = .next s))

/-- R274, R275, R277: a page that nothing under way reaches becomes free or goes to a partition; a scrub puts zeros below a cleared page's bit; a page becomes
an exact-reduction page while its stack has a cell block left. That a page is freed in one step, that one freed singly reads zero then as those of a freed
partition do, and that a page which is still reached stays as it is, are the model's choices (notes/assumptions/17). -/
def Sys2Proof.Slice0.PageEvents : Prop :=
  ∀ (s : State) (p v page : Nat),
    let zero (t : State) : Prop := s.pageOwner page ≠ none → ∀ k < 65536, t.readByte (page * 65536 + k) = 0
    (page * 65536 < Config.deviceBytes → s.pageBusy page = false →
      (∃ t, exec (.pageOwnershipChange page none) s = .next t ∧ t.pageOwner page = none ∧ zero t ∧
        ∀ e ∈ s.pages, e.1 ≠ page → e ∈ t.pages) ∧
      (p < 20 → s.pageOwner page ≠ some p → s.pageGone page = false →
        ∃ t, exec (.pageOwnershipChange page (some p)) s = .next t ∧ t.pageOwner page = some p ∧ zero t ∧
          ∀ e ∈ s.pages, e.1 ≠ page → e ∈ t.pages) ∧
      (s.pageOwner page = some p ∨ s.pageGone page = true → exec (.pageOwnershipChange page (some p)) s = .next s)) ∧
    (s.pageBusy page = true → ∀ o, exec (.pageOwnershipChange page o) s = .next s) ∧
    (page ∈ s.cleared → exec (.backgroundScrub page) s = .next { s with mem := s.mem.filter fun e => e.1 / 65536 != page }) ∧
    (s.ownPage v page = true → (∀ b ∈ s.cellBlocks, b.page ≠ page) →
      ((s.cellBlocks.filter fun b => pageStack b.page == pageStack page).length < Config.cellBlocks →
        ∃ t, exec (.cellBlockGrant v page) s = .next t ∧ t.cellBlocks = s.cellBlocks ++ [{ page := page, cells := [] }]) ∧
      (Config.cellBlocks ≤ (s.cellBlocks.filter fun b => pageStack b.page == pageStack page).length → exec (.cellBlockGrant v page) s = .next s))

/-- R160, R162, R168, R264, R323: a host reads and writes the pages of the functions that it reaches: a read waits for an owned line or a spare fill, and else
gives the bytes, or poison where the function owns no such page; a write stores, its bytes in a bank-engine region uncached. -/
def Sys2Proof.Slice0.HostAccesses : Prop :=
  ∀ (s : State) (v dpa n : Nat) (data : List Byte),
    (s.hosted v = false → exec (.hostMemRead v dpa n) s = .next s ∧ exec (.hostMemWrite v dpa data) s = .next s) ∧
    (s.hosted v = true →
      ((∀ k < n, s.hostPage v (dpa + k) = true) →
        ((∀ k < n, s.lineHeld (dpa + k) = false) → s.errors = [] → s.softs = [] →
          exec (.hostMemRead v dpa n) s = .next (s.reply (.bytes (s.readBytes dpa n))).wakeRetry) ∧
        ((∃ k < n, s.lineHeld (dpa + k) = true) →
          exec (.hostMemRead v dpa n) s = .next { s with hostWait := s.hostWait ++ [{ vf := v, dpa := dpa, len := n, data := none }] })) ∧
      ((∃ k < n, s.hostPage v (dpa + k) = false) → exec (.hostMemRead v dpa n) s = .next (s.reply .poison)) ∧
      (let wr : Writer := { vf := v, asid := 0, host := true, l2 := none }
       (∀ k < data.length, s.hostPage v (dpa + k) = true) →
         ((∃ k < data.length, s.filling (dpa + k) = true) → exec (.hostMemWrite v dpa data) s =
           .next { s with hostWait := s.hostWait ++ [{ vf := v, dpa := dpa, len := data.length, data := some data }] }) ∧
         ((∀ k < data.length, s.filling (dpa + k) = false) →
           ((∀ k < data.length, s.memSide ((dpa + k) / 65536) = false) →
             exec (.hostMemWrite v dpa data) s = .next (s.writeMem wr (cellsAt dpa data)).wakeRetry) ∧
           ((∃ k < data.length, s.memSide ((dpa + k) / 65536) = true) →
             exec (.hostMemWrite v dpa data) s = .next ((s.writeMem wr ((cellsAt dpa data).filter fun e => !s.memSide (e.1 / 65536))).writeUncached wr
               ((cellsAt dpa data).filter fun e => s.memSide (e.1 / 65536))).wakeRetry))) ∧
      ((∃ k < data.length, s.hostPage v (dpa + k) = false) → exec (.hostMemWrite v dpa data) s = .next s))

/-- R254, R264-R269, R274-R279, R168: the host's partition and function commands, page ownership and scrubbing, exact-reduction pages, and the
host's reads and writes, of the functions that it reaches: of pages that its function owns, waiting for an owned line or a spare fill, else of poison or
of nothing. That each of the frees, assignments and resets is one step, that a page freed singly reads zero and that one which work under way still reaches
stays as it is, are the model's choices (notes/assumptions/17). -/
def Obligations.PartitionAndHostEvents : Prop := Slice0.OwnerWrites ∧ Slice0.FunctionWrites ∧ Slice0.PageEvents ∧ Slice0.HostAccesses

/-- R308, R309, R301, R294: the unit that has waited longest takes a record that is free; a waiting unit whose deadline has passed ends as by a kill; a
record whose deadline has come expires; a resumed wave is rebuilt, and another resumed unit goes on, its record free. -/
def Sys2Proof.Slice0.RecordEvents : Prop :=
  ∀ (s u : State) (r : Record) (e : Nat × Nat) (y : Waiting) (rest : List (Nat × Nat)),
    (s.poolWait = e :: rest → s.waitingUnit e = some y →
      (s.grant y = some u → exec (.recordGrant (s.unitOf y).part) s = .next ({ u with poolWait := u.poolWait.filter (· != e) } : State).wakeRetry) ∧
      (s.waitOver y = true → s.isPlaced (s.unitOf y).team = true →
        exec (.poolWaitDeadline e.1) s = .next ({ (s.killWaiting y) with poolWait := s.poolWait.filter (· != e) } : State).wakeRetry)) ∧
    (s.record? r.id = some r →
      ((r.state = .parked ∨ r.state = .claimed) → r.deadline ≤ s.qclock r.part r.clock →
        exec (.faultDeadlineExpiry r.id) s = .next (s.expireRecord r).wakeRetry) ∧
      (r.state = .resuming →
        (r.kind = .wave → (∃ t, s.team? r.team = some t ∧ (t.phase = .running ∨ t.phase = .ending)) → s.recordBad r = false →
          (s.accessOut r.unit = false ∨ r.allDead = false) → (∀ z ∈ (s.rebuildWave r.id).records, z.id ≠ r.id) → exec (.waveRebuild r.id) s = .next (s.rebuildWave r.id).wakeRetry) ∧
        (r.kind ≠ .wave → s.isPlaced r.team = true → exec (.waveRebuild r.id) s = .next (s.finishDisposal r).wakeRetry)))

/-- R308, R291, R296: the unit that has waited longest takes the place that has come free: a wave parks in a record of its own, with its fault's cause, first
word, lanes and flags, bit 4 of its flags set, the deadline of its policy entry counted from now, and its fault task posted; an operation and a copy segment
likewise. A waiting unit whose deadline comes ends as by a kill, and no record is made: no lane of the wave is live, the operation is out of the engine, the
segment is over with its copy's `kil` set. Memory is unchanged. -/
def Sys2Proof.Slice0.PoolWaits : Prop :=
  ∀ (s : State) (e : Nat × Nat) (rest : List (Nat × Nat)) (w : Wave) (o : MmaOp) (c : Copy) (p : Pending) (d cause elem depth : Nat) (parent : W32) (place : Nat × Nat)
    (x : PolEntry) (body : List Byte) (hd : Option (List Byte)) (got : List (Nat × Nat × Byte)),
    let out (t : State) : Prop := t.poolWait = rest.filter (· != e) ∧ t.mem = s.mem
    let room (u : UnitAt) (cause : Nat) : Prop :=
      s.isPlaced u.team = true ∧ s.recordDepth u.team u.part = some (depth, parent) ∧ s.freeExtent u.part depth (u.kind == .wave) = some place ∧
        s.lostExtent u.part place = false ∧ s.polEntry u.launch cause = some x ∧ (x.kind = 1 ∨ x.kind = 2) ∧ (s.part u.part).fwm = 0
    let recorded (t : State) (u : UnitAt) (cause : Nat) (flags : Nat) (faddr amask : W64) : Prop :=
      (∃ r, t.record? s.nextId = some r ∧ r.kind = u.kind ∧ r.state = .parked ∧ r.unit = u.id ∧ r.seg = u.seg ∧ r.part = u.part ∧ r.cause = cause ∧ r.depth = depth ∧
        r.parent = parent ∧ (r.extent, r.slot) = place ∧ r.faddr = faddr ∧ r.amask = amask ∧ r.flags = BitVec.ofNat 8 flags ∧ r.queue = x.queue ∧ r.prio = x.prio ∧
        r.expiry = x.expiry ∧ r.deadline = s.qclock u.part x.queue + if x.deadline = 0 then 2 ^ 32 else x.deadline.toNat) ∧
      ∃ k ∈ t.tasks, k.kind = .fault s.nextId ∧ k.queue = x.queue ∧ k.prio = x.prio ∧ k.part = u.part
    s.poolWait = e :: rest → (∀ r ∈ s.records, r.id < s.nextId) →
    (s.wave? e.1 = some w → w.status = .waitsForPool p d →
      let u := s.waveUnit w
      (room u p.cause → (∀ b ∈ s.errors, parkErr w.wid b = false) →
        ∃ t v, exec (.recordGrant u.part) s = .next t ∧ out t ∧ recorded t u p.cause (if p.done then 17 else 16) (p.faddr.setWidth 64) p.amask ∧
          t.wave? w.wid = some v ∧ v.status = .parked s.nextId ∧ v.sregs = w.sregs ∧ v.lanes.map (·.regs) = w.lanes.map (·.regs)) ∧
      (s.isPlaced w.team = true → d ≤ s.qclock u.part (s.entryQueue u.launch p.cause) →
        ∃ t, exec (.poolWaitDeadline e.1) s = .next t ∧ out t ∧ t.records = s.records ∧ ∀ v, t.wave? w.wid = some v → ∀ l ∈ v.lanes, l.live = false)) ∧
    (s.wave? e.1 = none → s.mma? e.1 = some o → o.phase = .waitsForPool cause d →
      let u := s.mmaUnit o
      (room u cause → ∃ t v, exec (.recordGrant u.part) s = .next t ∧ out t ∧ recorded t u cause 17 0 0 ∧ t.mma? o.id = some v ∧ v.phase = .parked s.nextId) ∧
      (s.isPlaced o.team = true → d ≤ s.qclock u.part (s.entryQueue u.launch cause) →
        ∃ t, exec (.poolWaitDeadline e.1) s = .next t ∧ out t ∧ t.records = s.records ∧ t.mma? o.id = none)) ∧
    (s.wave? e.1 = none → s.mma? e.1 = none → s.copy? e.1 = some c → c.segs[e.2]? = some (.waitsForPool p elem body hd got d) →
      let u := s.segUnit c e.2
      (room u p.cause → ∃ t v, exec (.recordGrant u.part) s = .next t ∧ out t ∧ recorded t u p.cause 16 (BitVec.ofNat 64 p.faddr.toNat) 0 ∧ t.copy? c.id = some v ∧
        v.segs[e.2]? = some (.parked s.nextId elem got)) ∧
      (s.isPlaced c.team = true → d ≤ s.qclock u.part (s.entryQueue u.launch p.cause) →
        ∃ t, exec (.poolWaitDeadline e.1) s = .next t ∧ out t ∧ t.records = s.records ∧ ∀ v, t.copy? c.id = some v → v.segs[e.2]? = some .done ∧ v.kil = true))

/-- R309, R294, Table 100, Table 103: at its deadline a record that is PARKED or CLAIMED becomes KILLED, and FREE where no task holds it; the task that holds
it is killed, a team or a domestique's; expiry 0 kills the unit: no lane of a wave is live, an operation is out of the engine, a segment is over with its
copy's `kil` set; expiry 1 kills the unit's team. -/
def Sys2Proof.Slice0.RecordExpiry : Prop :=
  ∀ (s : State) (r : Record),
    s.record? r.id = some r → (r.state = .parked ∨ r.state = .claimed) → r.deadline ≤ s.qclock r.part r.clock → r.id < s.nextId →
    ∃ t, exec (.faultDeadlineExpiry r.id) s = .next t ∧
      (∀ z ∈ t.records, z.id = r.id → z.state = .killed) ∧
      ((∀ z ∈ s.records, z.id = r.id → z.peer = false) → (∀ x ∈ s.teams, r.id ∉ x.holds) → (∀ d ∈ s.doms, r.id ∉ d.holds) → ∀ z ∈ t.records, z.id ≠ r.id) ∧
      (∀ x ∈ s.teams, r.id ∈ x.holds → ∀ v, t.team? x.id = some v → v.phase = .dead) ∧
      (∀ d ∈ t.doms, r.id ∉ d.holds) ∧
      (r.expiry = 0 →
        (r.kind = .wave → ∀ v, t.wave? r.unit = some v → ∀ l ∈ v.lanes, l.live = false) ∧
        (r.kind = .matrix → t.mma? r.unit = none) ∧
        (r.kind = .segment → ∀ v, t.copy? r.unit = some v → v.segs.getD r.seg .done = .done ∧ v.kil = true)) ∧
      (r.expiry ≠ 0 → r.kind ≠ .notice → ∀ v, t.team? r.team = some v → v.phase = .dead)

/-- R294, R301, R292, R33, R237, Table 99, Table 103, R184, R135: a resumed wave whose team runs, whose record is sound and for which its core has register space
is rebuilt from the record, which becomes FREE: its scalars, `fpmode`, `fpflags`, window and abort addresses; each lane's liveness, key word, depths and
predicates, its registers, and its sleep, out of which it is to wake with rs = 1; the byte sectors and the deferred sectors of its pannier part, each of whose
operands must translate; latches and late results are gone. A wave left with no live lane ends (R202). Resume, retry and redirect of a copy segment let it go on
from its element, from its first, or with its elements outside; a resumed operation is out of the engine. Memory is unchanged by the rebuild. That a window is taken as a
handler left it, and what becomes of an asleep bit set for a lane that was not asleep, are the model's choices (notes/assumptions/44, `waveFrom`). -/
def Sys2Proof.Slice0.WaveRebuilds : Prop :=
  ∀ (s : State) (r : Record) (m : Team) (w : Wave) (c : Copy) (z elem : Nat) (got : List (Nat × Nat × Byte)),
    let at_ (off n : Nat) : Nat := leAt r.body off n
    let live (i : Nat) : Prop := at_ 320 8 / 2 ^ i % 2 = 1
    let keyWord (k : Nat) : Nat := leAt r.pan (8192 + 8 * k) 8
    let held (k i : Nat) : Prop := keyWord k / 2 ^ 63 % 2 = 1 ∧ keyWord k / 2 ^ 62 % 2 = 0 ∧ keyWord k / 2 ^ i % 2 = 1
    let place (k i : Nat) : Nat := toTeam w.core (keyWord k / 2 ^ 32 % 2 ^ 17 * 32 + i)
    let deferred : List (W64 × W64 × Nat) := (List.range 256).filterMap fun k =>
      if keyWord k / 2 ^ 63 % 2 = 1 ∧ keyWord k / 2 ^ 62 % 2 = 1 then
        some (BitVec.ofNat 64 (leAt r.pan (32 * k) 8), BitVec.ofNat 64 (leAt r.pan (32 * k + 8) 8), leAt r.pan (32 * k + 16) 1)
      else none
    let abort (off : Nat) : Option W57 := if at_ off 8 / 2 ^ 63 % 2 = 1 then some (BitVec.ofNat 57 (at_ off 8)) else none
    s.record? r.id = some r → r.state = .resuming → s.team? r.team = some m → (m.phase = .running ∨ m.phase = .ending) →
    (r.kind = .wave → s.wave? r.unit = some w → w.team = r.team → m.secondary = false → w.lanes.length = w.width → w.width ≤ 64 → at_ 312 1 = w.width →
      (s.coreUse w.core).regs + 4 * w.width * w.nregs ≤ Config.regFileBytes → s.recordBad r = false → s.errors = [] → s.softs = [] → r.id < s.nextId →
      (∀ k ∈ deferred, ∃ dpa, s.remoteAddr w.core r.vf w.asid k.2.2 k.1 = .ok dpa) →
      ((∃ i < w.width, live i) →
        ∃ t v, exec (.waveRebuild r.id) s = .next t ∧ (∀ y ∈ t.records, y.id ≠ r.id) ∧ t.mem = s.mem ∧ t.wave? r.unit = some v ∧ v.status = .running ∧ v.wait = .ready ∧
          v.sregs = (List.range 32).map (fun i => BitVec.ofNat 64 (at_ (8 * i) 8)) ∧
          v.fpmode = BitVec.ofNat 64 (at_ 256 8) &&& 0x7F000F ∧ v.fpflags = BitVec.ofNat 64 (at_ 264 8) &&& 0xFF ∧
          v.winBase = at_ 272 8 % 2 ^ 13 ∧ v.winLimit = at_ 272 8 / 2 ^ 16 % 2 ^ 13 ∧
          v.abtW = abort 288 ∧ v.abtB = abort 296 ∧ v.abtT = abort 304 ∧ v.latchLive = [false, false, false, false] ∧ v.slow = [] ∧
          (∀ i < w.width, ∃ old l, w.lanes[i]? = some old ∧ v.lanes[i]? = some l ∧
            let b := 512 + 64 * i
            let key := at_ b 8
            (l.live = true ↔ live i) ∧ l.pc = BitVec.ofNat 57 key ∧ (l.yielded = true ↔ key / 2 ^ 63 % 2 = 1) ∧ l.depth = 32 - key / 2 ^ 57 % 64 ∧
            l.preds = BitVec.ofNat 8 (at_ (b + 40) 1) ∧ l.abtW = at_ (b + 41) 1 ∧ l.abtB = at_ (b + 42) 1 ∧ l.abtT = at_ (b + 43) 1 ∧ l.spill = old.spill ∧
            l.regs = (List.range w.nregs).map (fun k => BitVec.ofNat 32 (at_ (512 + 64 * w.width + 4 * (k * w.width + i)) 4)) ∧
            l.sleep = if at_ 328 8 / 2 ^ i % 2 = 1 then old.sleep.map (fun a => { a with rs := true }) else none) ∧
          (∀ k < 256, ∀ i < 32, held k i → (∀ k2 < 256, ∀ i2 < 32, held k2 i2 → place k2 i2 = place k i → k2 = k ∧ i2 = i) →
            Held.get? v.pan (place k i) = some (r.pan.getD (32 * k + i) 0)) ∧
          (∀ a, (∀ k < 256, ∀ i < 32, held k i → place k i ≠ a) → Held.get? v.pan a = none) ∧
          v.reds.map (fun x => (x.addr, x.value, x.fn)) = deferred) ∧
      ((∀ i < w.width, ¬live i) → s.accessOut w.wid = false →
        ∃ t, exec (.waveRebuild r.id) s = .next t ∧ (∀ y ∈ t.records, y.id ≠ r.id) ∧ ∀ v, t.wave? r.unit = some v → ∀ l ∈ v.lanes, l.live = false)) ∧
    (r.kind = .segment → s.copy? r.unit = some c → c.recs ≠ none → c.segs[r.seg]? = some (.parked z elem got) →
      (let goes (g : SegState) : Prop := ∃ t v, exec (.waveRebuild r.id) s = .next t ∧ (∀ y ∈ t.records, y.id ≠ r.id) ∧ t.mem = s.mem ∧
         t.copy? r.unit = some v ∧ v.segs[r.seg]? = some g ∧ (r.disp = 3 → v.rdr = true)
       (r.disp = 1 → goes (.from elem got (r.body.take 168))) ∧ (r.disp = 2 → goes (.from 0 [] (r.body.take 168))) ∧
       (r.disp = 3 → goes (.outsideFrom elem got (r.body.take 168))))) ∧
    (r.kind = .matrix → ∃ t, exec (.waveRebuild r.id) s = .next t ∧ (∀ y ∈ t.records, y.id ≠ r.id) ∧ t.mma? r.unit = none)

/-- R304, Table 105: with no request over a link out and no word of its stack in error, a domestique's accesses set the registers they name and perform
`ksrd`, `kswr`, a claim, a disposition or a post on a record of this part, whose status KSST takes; a record of a peer part is asked over its
link; the handler's end releases what it holds. A register access is one event with its operands' KSH, KSOFF and KSADDR, and whether an ending
handler was stopped, so that its task takes the default disposition (R281), is its budget or a free value: the model's choices, notes/assumptions/18. That
KSCMD drops bits [14] and [7:3] is its choice too (notes/assumptions/44). -/
def Sys2Proof.Slice0.DomestiqueRegisters : Prop :=
  ∀ (s : State) (d : Dom) (ksh : W32) (off : BitVec 17) (addr : W57) (x : W64),
    let at_ : State := s.updKs d.core fun k => { k with ksh := ksh, ksoff := off }
    let set (u : State) : State := u.updKs d.core fun k => { k with ksh := ksh, kscmd := x &&& 0xFBF07 }
    let held (r : Record) (w : Bool) : Prop := s.heldRec (.dom d.core) d.vf ksh = some r ∧ s.offsetOk r off.toNat = true ∧ (w = true → 0x100 ≤ off.toNat)
    let cmd (i : Instr) (u : State) (act : State → State × W32) : Prop :=
      exec i s = .next ((act (set u)).1.updKs d.core fun k => { k with ksst := (act (set u)).2 }).wakeRetry
    let asks (i : Instr) (u : State) (reply : KsReply) (m : Nat → SpokeMsg) : Prop := exec i s = .next (u.sendKs d ksh reply m)
    let redirected : State := s.updKs d.core fun k => { k with ksaddr := addr }
    let queue := x.toNat / 256 % 64
    let prio := x.toNat / 65536 % 16
    s.dom? d.core = some d → (∀ q ∈ s.ksReqs, q.core ≠ d.core) → (∀ k, StoreLoc.dom d.core k ∉ s.errors) →
    cmd (.kscmdClaim d.core ksh x) s (fun u => u.claim (.dom d.core) d.vf d.part (x.getLsbD 15) queue ksh) ∧
    (d.away ksh = false →
      (∀ r, held r false → s.badRead r off.toNat = false → s.errors.any (s.localWord r off.toNat) = false →
        exec (.ksdataRead d.core ksh off) s = .next (at_.updKs d.core fun k => { k with ksdata := s.recRead r off.toNat })) ∧
      ((∀ r, ¬held r false) → exec (.ksdataRead d.core ksh off) s = .next (at_.updKs d.core fun k => { k with ksdata := 0, ksst := 3 })) ∧
      (∀ r, held r true → s.writeFault r off.toNat = none → exec (.ksdataWrite d.core ksh off x) s = .next (at_.recWrite r off.toNat x)) ∧
      ((∀ r, ¬held r true) → exec (.ksdataWrite d.core ksh off x) s = .next (at_.updKs d.core fun k => { k with ksst := 3 })) ∧
      cmd (.kscmdResume d.core ksh x) s (fun u => u.dispose (.dom d.core) d.vf ksh 1 0) ∧
      cmd (.kscmdRetry d.core ksh x) s (fun u => u.dispose (.dom d.core) d.vf ksh 2 0) ∧
      cmd (.kscmdRedirect d.core ksh addr x) redirected (fun u => u.dispose (.dom d.core) d.vf ksh 3 addr) ∧
      cmd (.kscmdKill d.core ksh x) s (fun u => u.dispose (.dom d.core) d.vf ksh 4 0) ∧
      cmd (.kscmdPost d.core ksh x) s (fun u => u.post (.dom d.core) d.vf d.part ksh queue prio)) ∧
    (d.away ksh = true →
      (placeOk off.toNat false = true → asks (.ksdataRead d.core ksh off) at_ .data fun n => .ksread n ksh off.toNat) ∧
      (placeOk off.toNat true = true → asks (.ksdataWrite d.core ksh off x) at_ .none fun n => .kswrite n ksh off.toNat x) ∧
      asks (.kscmdResume d.core ksh x) (set s) .status (fun n => .dispose n ksh 1 0) ∧
      asks (.kscmdRetry d.core ksh x) (set s) .status (fun n => .dispose n ksh 2 0) ∧
      asks (.kscmdRedirect d.core ksh addr x) (set redirected) .status (fun n => .dispose n ksh 3 addr) ∧
      asks (.kscmdKill d.core ksh x) (set s) .status (fun n => .dispose n ksh 4 0) ∧
      asks (.kscmdPost d.core ksh x) (set s) .posted fun n => .post n ksh (s.ordinal d.part) queue prio) ∧
    (let ended (t : State) : State := (t.endDoms fun z => z.core == d.core).wakeRetry
     let u : State := { s with free := s.free + 1 }
     (s.domStops d = false ∨ d.record ∉ d.holds → exec (.domestiqueHandlerEnd d.core) s = .next (ended u)) ∧
     (s.domStops d = true → d.record ∈ d.holds →
       exec (.domestiqueHandlerEnd d.core) s = .next (ended (u.updRecord d.record fun r => { r with stopped := true }))))

/-- R270, R310, R309, R324: a flit is taken when it is authentic and its group is admitted for a function whose policy enables the link, and dropped
otherwise; a kind 3 post that is authentic and of an admitted group joins its queue under its deadline, which a task posted again keeps, or is undeliverable,
over a link that the function's policy does not enable among the reasons (R310); one that is not authentic or whose group is not admitted is dropped. A
request that no reply has answered in time detaches its wave before the group with LINK_TIMEOUT: a state access, or a returning `.system` atomic, of which it is
open whether the remote home performed it; a copy's detaches the segment under way at the element it has come to. Messages as structures, one group to a flit
and the lowest function that admits it are the model's choice (notes/assumptions/20), as are the deadline kept, that the notice of an undeliverable post goes
back over a link that is not enabled, the copy's first segment (notes/assumptions/44), requests as events (notes/assumptions/18), and that the other remote
atomics of the wave, siblings of the one timed out, are performed and answer nobody (notes/assumptions/44). -/
def Sys2Proof.Slice0.LinkEvents : Prop :=
  ∀ (s : State) (w : Wave) (q : SpokeReq) (m : SpokeMsg) (post : RemotePost) (part link group v : Nat),
    let named (v : Nat) : Prop := (s.vf v).en = true ∧ group ∈ (s.vf v).groups ∧ s.linkOpen v link = true
    let p : RemotePost := { post with handle := remoteForm post.link post.handle }
    let admitted : Prop := post.authentic = true ∧ post.group ∈ (s.vf post.vf).groups
    let served : Prop := s.linkOpen post.vf post.link = true ∧ s.ringBound post.vf 0 = true
    let arrives (d : Nat) : Prop := exec (.remotePostArrival post) s = .next
      (({ s with remoteDue := (p.handle, d) :: s.remoteDue.filter fun e => e.1 != p.handle } : State).enqueue
        (mkTask part (post.queue % 64) (post.prio % 16) (.remote p d)) false).wakeRetry
    let returned : Prop := exec (.remotePostArrival post) s = .next (s.sendSpoke post.vf post.link fun _ => SpokeMsg.undeliverable p.handle)
    let before (u : State) (wid : Nat) (first : W57) (amask : W64) : Host.Outcome State Fault Refusal :=
      .next ((u.updWave wid fun x => { x with wait := .ready }).detach wid
        { cause := Cause.linkTimeout, done := false, faddr := first, amask := amask, laneFlags := [], codes := [] }).wakeRetry
    (link < 12 → v < 96 → named v → (∀ x < v, ¬named x) → exec (.spokeFlitReceive link group true m) s = .next (s.takeMsg link v m).wakeRetry) ∧
    (link < 12 → (∀ x < 96, ¬named x) → exec (.spokeFlitReceive link group true m) s = .next s) ∧
    (12 ≤ link → exec (.spokeFlitReceive link group true m) s = .next s) ∧
    exec (.spokeFlitReceive link group false m) s = .next s ∧
    (admitted → served → s.partOfOrd post.vf post.pord = some part →
      ((∀ e ∈ s.remoteDue, e.1 ≠ p.handle) → arrives (s.qclock part (post.queue % 64) + if post.deadline = 0 then 2 ^ 32 else post.deadline)) ∧
      (∀ d, s.remoteDue.find? (fun e => e.1 == p.handle) = some (p.handle, d) → arrives d)) ∧
    (admitted → ¬served ∨ s.partOfOrd post.vf post.pord = none → returned) ∧ (¬admitted → exec (.remotePostArrival post) s = .next s) ∧
    (s.spokeReqs.find? (fun z => z.id == q.id && z.value.isNone) = some q → s.wave? q.wid = some w →
      exec (.linkTimeout q.id) s = before
        (({ s with spokeReqs := s.spokeReqs.filter fun z => z.wid != q.wid } : State).timeoutEvent w.core (s.teamVf w.team) w.asid) q.wid q.first q.amask) ∧
    (∀ (o : RemoteOp) (k : Nat) (first : W57), (∀ z ∈ s.spokeReqs, z.id ≠ o.id) →
      s.remotes.find? (fun z => z.id == o.id && z.dst.isSome && decide (z.fn ≤ 4) && bits z.addr.toNat 57 3 == 5) = some o →
      s.wave? o.wid = some w → w.wait = .replies k first →
      let done := (Config.freeValue s.free).getLsbD 0
      exec (.linkTimeout o.id) s = before
        ((({ s with
            free := s.free + 1
            remotes := s.remotes.filterMap fun x =>
              if x.wid ≠ o.wid || x.dst.isNone then some x else if x.failed || (x.id = o.id && done) then none else some { x with dst := none } } : State).timeoutEvent
          w.core (s.teamVf w.team) w.asid).backBefore o first) o.wid first (maskOf 64 o.act.contains)) ∧
    (∀ (c : Copy) (j elem : Nat) (x : Option (List Byte)) (got : List (Nat × Nat × Byte)), (∀ z ∈ s.spokeReqs, z.id ≠ c.id) → (∀ o ∈ s.remotes, o.id ≠ c.id) → s.copy? c.id = some c →
      (List.range c.segs.length).find? (fun j => s.inFlight c j && (c.segs.getD j .done).resume.isSome) = some j →
      (c.segs.getD j .done).resume = some (elem, got, x) →
      let spot := s.segSpot c j elem got
      exec (.linkTimeout c.id) s = .next ((s.timeoutEvent c.core (s.teamVf c.team) (((s.team? c.team).map (·.asid)).getD 0)).detachSegment c j
        Cause.linkTimeout spot.1 elem spot.2.1 spot.2.2 got).wakeRetry)

/-- R308, R309, R301, R294, R292: the unit that has waited longest takes a record that is free, with its cause, deadline and fault task; a waiting unit whose
deadline has passed ends as by a kill, and no record is made; a record whose deadline has come is KILLED, its holder killed, and its unit or its team killed by its
expiry; a resumed wave is rebuilt from its record's bytes, and another resumed unit goes on, its record free. And: R304, Table 105: a domestique's
accesses set the registers they name and perform `ksrd`, `kswr`, a claim, a disposition or a post on a record of this part, whose status KSST takes; a record of
a peer part is asked over its link; the handler's end releases what it holds. And: R270, R310: a flit is taken when it is authentic and its group is admitted for
a function whose policy enables the link, and dropped otherwise; an authentic kind 3 post of an admitted group joins its queue under its deadline, which a task
posted again keeps, or is undeliverable, over a link that the function's policy does not enable among the reasons; any other is dropped. A request that no reply
has answered in time detaches its wave, or its copy's segment, with LINK_TIMEOUT.
The model's choices: how a window and an asleep bit of a record are taken, that KSCMD drops bits [14] and [7:3], the deadline kept, the notice of an undeliverable
post over a link that is not enabled, a timed-out copy's first segment, and what the other remote atomics of a timed-out wave do
(notes/assumptions/44); register accesses and requests as events, and whether an ending handler was stopped (notes/assumptions/18); messages as structures, one
group to a flit and the lowest function that admits it (notes/assumptions/20). -/
def Obligations.RecordAndLinkEvents : Prop :=
  Slice0.RecordEvents ∧ Slice0.PoolWaits ∧ Slice0.RecordExpiry ∧ Slice0.WaveRebuilds ∧ Slice0.DomestiqueRegisters ∧ Slice0.LinkEvents

/-- R282, R382, R383, Table 158: power brings the part to the first step of its sequence, no link up, and it goes through the steps one after another. At
step 4 the links of the ports not under PERST train, step 5 goes beside it, and an image is taken while a port is up; both done, step 6 verifies the image it
holds or waits for one; one that verifies is started and the part runs, every partition free, another is reported; a loss of supply leaves nothing. PERST
ends a port's link, and with both links down before the part runs the sequence is at step 4 again, its image gone; the port trains again when PERST is
released. The sequence as steps of the machine, a download as one event and when a held image is verified are the model's choice (notes/assumptions/2); that
one port is enough, that a part that runs keeps running without one, and that a PERST before step 4 counts from step 4 on, is its reading
(notes/assumptions/38). -/
def Sys2Proof.Slice0.PowerEvents : Prop :=
  ∀ (s : State) (port n : Nat) (image : List Byte),
    let p := s.power
    let at_ (q : Power) : State := { s with power := q }
    let verified (q : Power) : Power :=
      { q with phase := .step 7, image := none, firmware := some (shake256 64 (image.take 1968 ++ (image.drop 8192).take (leAt image 8 8))), downloadFailed := false }
    (p.phase = .off → ∃ t, exec .powerUp s = .next t ∧ t.power.phase = .step 1 ∧ t.power.ports = [false, false] ∧ t.power.perst = p.perst ∧ t.mem = [] ∧ t.waves = []) ∧
    (p.phase ≠ .off → exec .powerUp s = .next s ∧
      (∃ t, exec .thermtrip s = .next t ∧ t.power.phase = .off ∧ t.power.thermtrip = true ∧ t.mem = [] ∧ t.waves = [] ∧ ∀ x ∈ t.parts, x.owner = 0x7F) ∧
      (∃ t, exec .pwrfail s = .next t ∧ t.power.phase = .off ∧ t.power.pwrfail = true ∧ t.mem = [] ∧ t.waves = [] ∧ ∀ x ∈ t.parts, x.owner = 0x7F)) ∧
    (s.agenda = [] →
      (p.phase = .off → Machine.step s = .next s) ∧
      (p.phase = .step n → 1 ≤ n → n ≤ 3 → Machine.step s = .next (at_ { p with phase := .step (n + 1) })) ∧
      (p.phase = .step 4 →
        (p.ports ≠ p.perst.map not → Machine.step s = .next (at_ { p with ports := p.perst.map not })) ∧
        (p.ports = p.perst.map not →
          (p.hbm = false → Machine.step s = .next (at_ { p with hbm := true })) ∧
          (p.hbm = true → (true ∈ p.ports) → Machine.step s = .next (at_ { p with phase := .step 6 })) ∧
          (p.hbm = true → (true ∉ p.ports) → Machine.step s = .next s))) ∧
      (p.phase = .step 6 →
        (p.image = none → Machine.step s = .next s) ∧
        (p.image = some image → imageVerifies image = true → Machine.step s = .next (at_ (verified p))) ∧
        (p.image = some image → imageVerifies image = false → Machine.step s = .next (at_ { p with image := none, downloadFailed := true }))) ∧
      (p.phase = .step 7 → ∃ t, Machine.step s = .next t ∧ t.power = { p with phase := .running } ∧ t.waves = [] ∧ t.mem = [] ∧ ∀ x ∈ t.parts, x.owner = 0x7F)) ∧
    (let held : Power := { p with ports := p.ports.set port false, perst := p.perst.set port true }
     (p.phase = .step n → 4 ≤ n →
       ((true ∉ p.ports.set port false) →
         exec (.perstAssert port) s = .next (at_ { held with phase := .step 4, firmware := none, image := none, downloadFailed := false })) ∧
       ((true ∈ p.ports.set port false) → exec (.perstAssert port) s = .next (at_ held))) ∧
     ((p.phase = .running ∨ p.phase = .off ∨ ∃ n < 4, p.phase = .step n) → exec (.perstAssert port) s = .next (at_ held))) ∧
    (let free : Power := { p with perst := p.perst.set port false }
     ((p.phase = .running ∨ (p.phase = .step n ∧ 4 ≤ n)) → exec (.perstRelease port) s = .next (at_ { free with ports := p.ports.set port true })) ∧
     ((p.phase = .off ∨ ∃ n < 4, p.phase = .step n) → exec (.perstRelease port) s = .next (at_ free))) ∧
    (p.phase = .step 4 →
      ((true ∈ p.ports) → exec (.firmwareDownload image) s = .next (at_ { p with image := some image })) ∧
      ((true ∉ p.ports) → exec (.firmwareDownload image) s = .next s)) ∧
    (p.phase = .step 6 →
      (imageVerifies image = true → exec (.firmwareDownload image) s = .next (at_ (verified p))) ∧
      (imageVerifies image = false → exec (.firmwareDownload image) s = .next (at_ { p with image := none, downloadFailed := true }))) ∧
    (p.phase ≠ .step 4 → p.phase ≠ .step 6 → exec (.firmwareDownload image) s = .next s) ∧
    (ClockLawful s →
      (p.clock ≠ 15 → exec .thermalThrottle s = .next (at_ { p with clock := p.clock - 1 })) ∧ (p.clock = 15 → exec .thermalThrottle s = .next s) ∧
      (p.clock ≠ 30 → exec .thermalRecover s = .next (at_ { p with clock := p.clock + 1 })) ∧ (p.clock = 30 → exec .thermalRecover s = .next s))

/-- R283, R315, R323: soft errors arise, stand until they are met, and patrol finds them; a page is served by a spare; the host answers a request of the assist
ring. The sorts of errors and their places are notes/assumptions/25, that a correctable error stands until it is met notes/assumptions/26, and that the
host's disposition claims the record first notes/assumptions/37: the model's readings. -/
def Sys2Proof.Slice0.ErrorEvents : Prop :=
  ∀ (s : State) (loc : StoreLoc) (page part c a : Nat),
    let stands (loc : StoreLoc) (m : List Nat) : State := { s with
      errors := s.errors ++ [loc], found := s.found.filter (· != loc), softs := s.softs.filter (· != loc), mismatch := m }
    let plain : Prop := (∀ a, loc ≠ .spare a) ∧ (∀ c a, loc ≠ .pending c a) ∧ ∀ a, loc = .hbm a → s.isFilling (a / 65536) = false
    (loc ∉ s.softs → loc ∉ s.errors → exec (.softError loc .correctable) s = .next { s with softs := s.softs ++ [loc] }) ∧
    (loc ∈ s.errors → lineOf loc = none → exec (.softError loc .uncorrectable) s = .next s) ∧
    (loc ∉ s.errors → lineOf loc = none → plain → exec (.softError loc .uncorrectable) s = .next (stands loc s.mismatch)) ∧
    (∀ l, loc ∉ s.errors → plain → lineOf loc = some l → l ∉ s.mismatch →
      exec (.softError loc .uncorrectable) s = .next (stands loc s.mismatch) ∧
      exec (.softError loc .checkValue) s = .next (stands loc (s.mismatch ++ [l]))) ∧
    (s.isFilling (a / 65536) = false → s.mismatch = [] → exec (.softError (.spare a) .uncorrectable) s = .next s) ∧
    (StoreLoc.pending c a ∉ s.errors → s.mismatch = [] →
      ((s.copy? c).any (fun x => x.pendingOut && x.stored && x.lines.contains (a / 64)) = true →
        exec (.softError (.pending c a) .uncorrectable) s = .next (stands (.pending c a) [])) ∧
      ((s.copy? c).any (fun x => x.pendingOut && x.stored && x.lines.contains (a / 64)) = false → exec (.softError (.pending c a) .uncorrectable) s = .next s)) ∧
    (loc ∈ s.softs → loc ∉ s.errors → (s.repair loc).errors = s.errors → exec (.patrolRead loc) s = .next (s.repair loc)) ∧
    (loc ∉ s.softs → loc ∈ s.errors → exec (.patrolRead loc) s = .next (s.poison loc)) ∧
    (s.isFilling page = true → s.sparesUsed.getD (pageStack page) 0 < Config.spares → page ∉ s.spared → pageStack page < s.sparesUsed.length →
      ∃ t, exec (.spareFill page) s = .next t ∧ page ∈ t.spared ∧ t.mem = s.mem ∧ t.sparesUsed.getD (pageStack page) 0 = s.sparesUsed.getD (pageStack page) 0 + 1) ∧
    (∀ bs, s.assist = [.log bs] → exec (.assistAnswer part .done) s = .next { s with assist := [] }) ∧
    (∀ (r : Record) (code : Nat) (addr : W57), s.record? r.id = some r → AssistReq.fault r.id ∈ s.assist → r.part = part → r.state = .parked → 1 ≤ code → code ≤ 4 →
      exec (.assistAnswer part (.dispose r.id code addr)) s = .next ((s.claimRec .peer r).dispose .peer r.vf r.handle code addr).1.wakeRetry)

/-- R282, R283, R315, R323, R379-R383: soft errors arise and patrol finds them; a page is served by a spare; the part powers up, loses its supply,
loses and regains a port, verifies its firmware; the clock moves by one step within its range. The sequence as steps of the machine (notes/assumptions/2),
the sorts of errors (notes/assumptions/25), correctable errors that stand until they are met (notes/assumptions/26), the host's disposition by a claim
(notes/assumptions/37) and what one port of two means (notes/assumptions/38) are the model's choices. -/
def Obligations.PowerAndErrorEvents : Prop := Slice0.PowerEvents ∧ Slice0.ErrorEvents

/-- R39, R42: a word that is no instruction detaches its wave before its group, without effect: with PRIV where it lies in a slot whose instruction needs
supervisor privilege, its hints are lawful and the wave, outside a prologue, has user privilege; with ILLEGAL otherwise, so at supervisor privilege, with hints
that the slot does not accept, and in a prologue (R245). R223, R319, R321, Table 107: a group whose word cannot be fetched detaches its wave before the group
with the cause of the failed fetch, whichever it is: a missing page or permission, an uncorrectable error, or a mismatch of the check value, whose line then
takes its own path first; when that path has ended the wave itself, its owner, no group is selected any more. Prologue code that cannot be fetched ends its
prologue (R249). A word that can be fetched changes nothing but that correctable errors on its way are repaired (R315). -/
def Obligations.BadWordsDetach : Prop :=
  ∀ (x : IWord) (g : Group) (w : Wave) (s : State),
    let major := x.toNat / 2 ^ 26
    let fn := x.toNat / 2 ^ 22 % 16
    let privileged : Prop := (major = 0x3D ∧ fn ≤ 5) ∨ (major = 0x38 ∧ fn ≤ 2 ∧ 0x1000 ≤ x.toNat % 2 ^ 14)
    let user : Prop := hintsOk (slotSig x) g = true ∧ w.sup = false ∧ w.prologue = none
    let stops (u : State) (w : Wave) (cause : Nat) : Host.Outcome State Fault Refusal := .next (u.faultBefore (mkCtx g w) cause [])
    let place := s.translate w.core (s.waveVf w) w.asid g.at_.toNat w.fetchNeed
    s.grp = some g → s.wave? g.wid = some w →
    (privileged → user → exec (.unassignedSlot x) s = stops s w Cause.priv) ∧
    (¬privileged ∨ ¬user → exec (.unassignedSlot x) s = stops s w Cause.illegal) ∧
    (∀ cause, s.fetch w (s.waveVf w) g.at_ = .error cause →
      (place = .error cause →
        (w.prologue = none → exec .instructionFetch s = stops s w cause) ∧
        (∀ p, w.prologue = some p → exec .instructionFetch s =
          .next (({ s with grp := none } : State).updWave w.wid fun x => { x with prologue := some { p with ended := some (256 + cause) } }))) ∧
      (∀ d k, place = .ok (d, k) →
        let u := (s.consumeLine d).1
        (s.consumeLine d).2 = true ∧ cause = (if d / 64 ∈ s.mismatch then Cause.checkValue else Cause.ecc) ∧
        (∀ y, u.wave? g.wid = some y → y.prologue = none → exec .instructionFetch s = stops { u with grp := some g } y cause) ∧
        (∀ y p, u.wave? g.wid = some y → y.prologue = some p → exec .instructionFetch s =
          .next (({ u with grp := none } : State).updWave y.wid fun x => { x with prologue := some { p with ended := some (256 + cause) } })) ∧
        (u.wave? g.wid = none → exec .instructionFetch s = .next { u with grp := none }))) ∧
    (∀ v, s.fetch w (s.waveVf w) g.at_ = .ok v → ∃ t, exec .instructionFetch s = .next t ∧ t.grp = s.grp ∧ t.waves = s.waves ∧ t.mem = s.mem ∧
      (s.errors = [] → s.softs = [] → t = s))

/-! ## The machine -/

/-- R24, Tables 8 and 13: decoding the word of an instruction gives the instruction back, every operand at every value its fields hold. -/
def Obligations.DecodeOfEncode : Prop := ∀ (i : Instr) (x : IWord), encode i = some x → decodeWord x = .ok i

/-- R24, R42: a word that decodes is the word of its instruction: no bit of it is dropped. -/
def Obligations.EncodeOfDecode : Prop := ∀ (x : IWord) (i : Instr), decodeWord x = .ok i → encode i = some x

/-- Words written out from Tables 8 and 13 decode to the instructions they stand for. -/
def Obligations.WordsDecode : Prop :=
  decodeWord 0b000001_0000_0_0000001_0000010_0000011#32 = .ok (.addB32 0 1 2 3) ∧
  decodeWord 0b000010_0011_1_0000100_0000101_0000110#32 = .ok (.divS32 1 4 5 6) ∧
  decodeWord 0b110010_0111_0_1111100_1111100_1111100#32 = .ok .nop ∧
  decodeWord 0b111111_00_101010101010101010101010#32 = .ok (.wideImmediate 0xAAAAAA)

/-- R34, R223: with nothing pending and the part running, a step fetches the next word of the selected group, and runs the instruction it decodes to;
a word that does not decode takes its own exception. That an event pending in the agenda is made first, where the part's state lets it happen, and
is else gone, is the model's choice (notes/assumptions/1), and no rule's. -/
def Obligations.StepRunsDecoded : Prop :=
  ∀ (s : State) (g : Group) (w : Wave) (x : IWord),
    (s.agenda = [] → s.power.phase = .running → s.grp = some g → s.wave? g.wid = some w → w.outside g.at_ = false →
      s.fetchWaits w (s.waveVf w) g.at_ = false → s.fetch w (s.waveVf w) g.at_ = .ok x →
      (∀ i, decodeWord x = .ok i → Machine.step s = exec i s) ∧ (∀ e, decodeWord x = .error e → Machine.step s = exec (.unassignedSlot x) s)) ∧
    (∀ e rest, s.agenda = e :: rest →
      (s.happens e = true → Machine.step s = exec e { s with agenda := rest }) ∧
      (s.happens e = false → Machine.step s = .next { s with agenda := rest }))

/-- R266, R268, R278, R383, Tables 86, 87: after power-up every partition is free with its registers at their reset values, every function disabled,
nothing placed and no command in flight; there the invariants hold. -/
def Obligations.ResetState : Prop :=
  State.reset.parts.length = 20 ∧ (∀ p ∈ State.reset.parts, p.owner = 0x7F ∧ p.busy = false ∧ p.fwm = 0 ∧ p.perr = false ∧ p.nest = 2 ∧ p.pool = none) ∧
  State.reset.vfs.length = 96 ∧ (∀ v ∈ State.reset.vfs, v.en = false ∧ v.rings.length = 8) ∧ State.reset.waves = [] ∧ State.reset.teams = [] ∧
  State.reset.tasks = [] ∧ State.reset.cmds = [] ∧ State.reset.records = [] ∧ State.reset.copies = [] ∧ State.reset.mmas = [] ∧ State.reset.errors = [] ∧
  ClockLawful State.reset ∧ Sized State.reset ∧ MemoryOk State.reset

/-- R381: the arithmetic clock stays between 1.5 and 3.0 GHz. -/
def Sys2Proof.Slice0.KeepsClock : Prop := ∀ s t : State, ClockLawful s → Machine.step s = .next t → ClockLawful t

/-- R10, R264, R265, Table 3: the part keeps its 20 partitions and 96 functions. -/
def Sys2Proof.Slice0.KeepsSizes : Prop := ∀ s t : State, Sized s → Machine.step s = .next t → Sized t

/-- R381: whatever step is made, the arithmetic clock stays between 1.5 and 3.0 GHz. R10, R264, R265, Table 3: and the part keeps its 20 partitions and its 96
functions. -/
def Obligations.StepKeepsClock : Prop := Slice0.KeepsClock ∧ Slice0.KeepsSizes

/-- Whatever step is made, memory stays in its canonical form, so that equal memories are equal data: a property of the model's own form of global memory
(notes/assumptions/4), of which Table 6 and R19 say what it holds. -/
def Obligations.StepKeepsMemoryForm : Prop := ∀ s t : State, MemoryOk s → Machine.step s = .next t → MemoryOk t
end

