-- ==== Sys2Proof/Laws/Dispatch.lean ====
section
/-! SUPPORT. Each arm of the dispatch as an equation, so that no later proof unfolds `exec`. -/

namespace Sys2Proof.Laws

open Sys2Proof.Machine

@[simp] theorem exec_addB32 (n : BitVec 1) (d : BitVec 7) (a : BitVec 7) (b : BitVec 7) (s : State) : exec (.addB32 n d a b) s = execAddB32 n d a b s := rfl
@[simp] theorem exec_subB32 (n : BitVec 1) (d : BitVec 7) (a : BitVec 7) (b : BitVec 7) (s : State) : exec (.subB32 n d a b) s = execSubB32 n d a b s := rfl
@[simp] theorem exec_addsS32 (n : BitVec 1) (d : BitVec 7) (a : BitVec 7) (b : BitVec 7) (s : State) : exec (.addsS32 n d a b) s = execAddsS32 n d a b s := rfl
@[simp] theorem exec_subsS32 (n : BitVec 1) (d : BitVec 7) (a : BitVec 7) (b : BitVec 7) (s : State) : exec (.subsS32 n d a b) s = execSubsS32 n d a b s := rfl
@[simp] theorem exec_minS32 (n : BitVec 1) (d : BitVec 7) (a : BitVec 7) (b : BitVec 7) (s : State) : exec (.minS32 n d a b) s = execMinS32 n d a b s := rfl
@[simp] theorem exec_minZ32 (n : BitVec 1) (d : BitVec 7) (a : BitVec 7) (b : BitVec 7) (s : State) : exec (.minZ32 n d a b) s = execMinZ32 n d a b s := rfl
@[simp] theorem exec_maxS32 (n : BitVec 1) (d : BitVec 7) (a : BitVec 7) (b : BitVec 7) (s : State) : exec (.maxS32 n d a b) s = execMaxS32 n d a b s := rfl
@[simp] theorem exec_maxZ32 (n : BitVec 1) (d : BitVec 7) (a : BitVec 7) (b : BitVec 7) (s : State) : exec (.maxZ32 n d a b) s = execMaxZ32 n d a b s := rfl
@[simp] theorem exec_mulB32 (n : BitVec 1) (d : BitVec 7) (a : BitVec 7) (b : BitVec 7) (s : State) : exec (.mulB32 n d a b) s = execMulB32 n d a b s := rfl
@[simp] theorem exec_mulhiS32 (n : BitVec 1) (d : BitVec 7) (a : BitVec 7) (b : BitVec 7) (s : State) : exec (.mulhiS32 n d a b) s = execMulhiS32 n d a b s := rfl
@[simp] theorem exec_mulhiZ32 (n : BitVec 1) (d : BitVec 7) (a : BitVec 7) (b : BitVec 7) (s : State) : exec (.mulhiZ32 n d a b) s = execMulhiZ32 n d a b s := rfl
@[simp] theorem exec_divS32 (n : BitVec 1) (d : BitVec 7) (a : BitVec 7) (b : BitVec 7) (s : State) : exec (.divS32 n d a b) s = execDivS32 n d a b s := rfl
@[simp] theorem exec_divZ32 (n : BitVec 1) (d : BitVec 7) (a : BitVec 7) (b : BitVec 7) (s : State) : exec (.divZ32 n d a b) s = execDivZ32 n d a b s := rfl
@[simp] theorem exec_remS32 (n : BitVec 1) (d : BitVec 7) (a : BitVec 7) (b : BitVec 7) (s : State) : exec (.remS32 n d a b) s = execRemS32 n d a b s := rfl
@[simp] theorem exec_remZ32 (n : BitVec 1) (d : BitVec 7) (a : BitVec 7) (b : BitVec 7) (s : State) : exec (.remZ32 n d a b) s = execRemZ32 n d a b s := rfl
@[simp] theorem exec_andB32 (n : BitVec 1) (d : BitVec 7) (a : BitVec 7) (b : BitVec 7) (s : State) : exec (.andB32 n d a b) s = execAndB32 n d a b s := rfl
@[simp] theorem exec_orB32 (n : BitVec 1) (d : BitVec 7) (a : BitVec 7) (b : BitVec 7) (s : State) : exec (.orB32 n d a b) s = execOrB32 n d a b s := rfl
@[simp] theorem exec_xorB32 (n : BitVec 1) (d : BitVec 7) (a : BitVec 7) (b : BitVec 7) (s : State) : exec (.xorB32 n d a b) s = execXorB32 n d a b s := rfl
@[simp] theorem exec_shlB32 (n : BitVec 1) (d : BitVec 7) (a : BitVec 7) (b : BitVec 7) (s : State) : exec (.shlB32 n d a b) s = execShlB32 n d a b s := rfl
@[simp] theorem exec_shrZ32 (n : BitVec 1) (d : BitVec 7) (a : BitVec 7) (b : BitVec 7) (s : State) : exec (.shrZ32 n d a b) s = execShrZ32 n d a b s := rfl
@[simp] theorem exec_shrS32 (n : BitVec 1) (d : BitVec 7) (a : BitVec 7) (b : BitVec 7) (s : State) : exec (.shrS32 n d a b) s = execShrS32 n d a b s := rfl
@[simp] theorem exec_popcB32 (n : BitVec 1) (d : BitVec 7) (a : BitVec 7) (s : State) : exec (.popcB32 n d a) s = execPopcB32 n d a s := rfl
@[simp] theorem exec_clzB32 (n : BitVec 1) (d : BitVec 7) (a : BitVec 7) (s : State) : exec (.clzB32 n d a) s = execClzB32 n d a s := rfl
@[simp] theorem exec_addB32Imm (n : BitVec 1) (d : BitVec 7) (a : BitVec 7) (imm : BitVec 7) (s : State) : exec (.addB32Imm n d a imm) s = execAddB32Imm n d a imm s := rfl
@[simp] theorem exec_andB32Imm (n : BitVec 1) (d : BitVec 7) (a : BitVec 7) (imm : BitVec 7) (s : State) : exec (.andB32Imm n d a imm) s = execAndB32Imm n d a imm s := rfl
@[simp] theorem exec_shlB32Imm (n : BitVec 1) (d : BitVec 7) (a : BitVec 7) (imm : BitVec 7) (s : State) : exec (.shlB32Imm n d a imm) s = execShlB32Imm n d a imm s := rfl
@[simp] theorem exec_shrZ32Imm (n : BitVec 1) (d : BitVec 7) (a : BitVec 7) (imm : BitVec 7) (s : State) : exec (.shrZ32Imm n d a imm) s = execShrZ32Imm n d a imm s := rfl
@[simp] theorem exec_addB64 (n : BitVec 1) (d : BitVec 7) (a : BitVec 7) (b : BitVec 7) (s : State) : exec (.addB64 n d a b) s = execAddB64 n d a b s := rfl
@[simp] theorem exec_subB64 (n : BitVec 1) (d : BitVec 7) (a : BitVec 7) (b : BitVec 7) (s : State) : exec (.subB64 n d a b) s = execSubB64 n d a b s := rfl
@[simp] theorem exec_mulB64 (n : BitVec 1) (d : BitVec 7) (a : BitVec 7) (b : BitVec 7) (s : State) : exec (.mulB64 n d a b) s = execMulB64 n d a b s := rfl
@[simp] theorem exec_shlB64 (n : BitVec 1) (d : BitVec 7) (a : BitVec 7) (b : BitVec 7) (s : State) : exec (.shlB64 n d a b) s = execShlB64 n d a b s := rfl
@[simp] theorem exec_shrZ64 (n : BitVec 1) (d : BitVec 7) (a : BitVec 7) (b : BitVec 7) (s : State) : exec (.shrZ64 n d a b) s = execShrZ64 n d a b s := rfl
@[simp] theorem exec_shrS64 (n : BitVec 1) (d : BitVec 7) (a : BitVec 7) (b : BitVec 7) (s : State) : exec (.shrS64 n d a b) s = execShrS64 n d a b s := rfl
@[simp] theorem exec_bfxZ32 (n : BitVec 1) (d : BitVec 7) (a : BitVec 7) (b : BitVec 7) (s : State) : exec (.bfxZ32 n d a b) s = execBfxZ32 n d a b s := rfl
@[simp] theorem exec_bfxS32 (n : BitVec 1) (d : BitVec 7) (a : BitVec 7) (b : BitVec 7) (s : State) : exec (.bfxS32 n d a b) s = execBfxS32 n d a b s := rfl
@[simp] theorem exec_bfiB32 (n : BitVec 1) (d : BitVec 7) (a : BitVec 7) (b : BitVec 7) (s : State) : exec (.bfiB32 n d a b) s = execBfiB32 n d a b s := rfl
@[simp] theorem exec_cmpEqB32 (n : BitVec 1) (p : BitVec 3) (a : BitVec 7) (b : BitVec 7) (s : State) : exec (.cmpEqB32 n p a b) s = execCmpEqB32 n p a b s := rfl
@[simp] theorem exec_cmpNeB32 (n : BitVec 1) (p : BitVec 3) (a : BitVec 7) (b : BitVec 7) (s : State) : exec (.cmpNeB32 n p a b) s = execCmpNeB32 n p a b s := rfl
@[simp] theorem exec_cmpLtS32 (n : BitVec 1) (p : BitVec 3) (a : BitVec 7) (b : BitVec 7) (s : State) : exec (.cmpLtS32 n p a b) s = execCmpLtS32 n p a b s := rfl
@[simp] theorem exec_cmpLtZ32 (n : BitVec 1) (p : BitVec 3) (a : BitVec 7) (b : BitVec 7) (s : State) : exec (.cmpLtZ32 n p a b) s = execCmpLtZ32 n p a b s := rfl
@[simp] theorem exec_cmpEqB64 (n : BitVec 1) (p : BitVec 3) (a : BitVec 7) (b : BitVec 7) (s : State) : exec (.cmpEqB64 n p a b) s = execCmpEqB64 n p a b s := rfl
@[simp] theorem exec_cmpLtS64 (n : BitVec 1) (p : BitVec 3) (a : BitVec 7) (b : BitVec 7) (s : State) : exec (.cmpLtS64 n p a b) s = execCmpLtS64 n p a b s := rfl
@[simp] theorem exec_cmpLtZ64 (n : BitVec 1) (p : BitVec 3) (a : BitVec 7) (b : BitVec 7) (s : State) : exec (.cmpLtZ64 n p a b) s = execCmpLtZ64 n p a b s := rfl
@[simp] theorem exec_saddB64 (d : BitVec 5) (a : BitVec 5) (b : BitVec 5) (s : State) : exec (.saddB64 d a b) s = execSaddB64 d a b s := rfl
@[simp] theorem exec_saddB64Imm (d : BitVec 5) (a : BitVec 5) (imm : BitVec 11) (s : State) : exec (.saddB64Imm d a imm) s = execSaddB64Imm d a imm s := rfl
@[simp] theorem exec_ssubB64 (d : BitVec 5) (a : BitVec 5) (b : BitVec 5) (s : State) : exec (.ssubB64 d a b) s = execSsubB64 d a b s := rfl
@[simp] theorem exec_ssubB64Imm (d : BitVec 5) (a : BitVec 5) (imm : BitVec 11) (s : State) : exec (.ssubB64Imm d a imm) s = execSsubB64Imm d a imm s := rfl
@[simp] theorem exec_smulB64 (d : BitVec 5) (a : BitVec 5) (b : BitVec 5) (s : State) : exec (.smulB64 d a b) s = execSmulB64 d a b s := rfl
@[simp] theorem exec_smulB64Imm (d : BitVec 5) (a : BitVec 5) (imm : BitVec 11) (s : State) : exec (.smulB64Imm d a imm) s = execSmulB64Imm d a imm s := rfl
@[simp] theorem exec_sandB64 (d : BitVec 5) (a : BitVec 5) (b : BitVec 5) (s : State) : exec (.sandB64 d a b) s = execSandB64 d a b s := rfl
@[simp] theorem exec_sandB64Imm (d : BitVec 5) (a : BitVec 5) (imm : BitVec 11) (s : State) : exec (.sandB64Imm d a imm) s = execSandB64Imm d a imm s := rfl
@[simp] theorem exec_sorB64 (d : BitVec 5) (a : BitVec 5) (b : BitVec 5) (s : State) : exec (.sorB64 d a b) s = execSorB64 d a b s := rfl
@[simp] theorem exec_sorB64Imm (d : BitVec 5) (a : BitVec 5) (imm : BitVec 11) (s : State) : exec (.sorB64Imm d a imm) s = execSorB64Imm d a imm s := rfl
@[simp] theorem exec_sxorB64 (d : BitVec 5) (a : BitVec 5) (b : BitVec 5) (s : State) : exec (.sxorB64 d a b) s = execSxorB64 d a b s := rfl
@[simp] theorem exec_sxorB64Imm (d : BitVec 5) (a : BitVec 5) (imm : BitVec 11) (s : State) : exec (.sxorB64Imm d a imm) s = execSxorB64Imm d a imm s := rfl
@[simp] theorem exec_sshlB64 (d : BitVec 5) (a : BitVec 5) (b : BitVec 5) (s : State) : exec (.sshlB64 d a b) s = execSshlB64 d a b s := rfl
@[simp] theorem exec_sshlB64Imm (d : BitVec 5) (a : BitVec 5) (imm : BitVec 11) (s : State) : exec (.sshlB64Imm d a imm) s = execSshlB64Imm d a imm s := rfl
@[simp] theorem exec_sshrZ64 (d : BitVec 5) (a : BitVec 5) (b : BitVec 5) (s : State) : exec (.sshrZ64 d a b) s = execSshrZ64 d a b s := rfl
@[simp] theorem exec_sshrZ64Imm (d : BitVec 5) (a : BitVec 5) (imm : BitVec 11) (s : State) : exec (.sshrZ64Imm d a imm) s = execSshrZ64Imm d a imm s := rfl
@[simp] theorem exec_smovB64 (d : BitVec 5) (a : BitVec 5) (s : State) : exec (.smovB64 d a) s = execSmovB64 d a s := rfl
@[simp] theorem exec_smovB64Imm (d : BitVec 5) (imm : BitVec 11) (s : State) : exec (.smovB64Imm d imm) s = execSmovB64Imm d imm s := rfl
@[simp] theorem exec_scmpEqB64 (d : BitVec 5) (a : BitVec 5) (b : BitVec 5) (s : State) : exec (.scmpEqB64 d a b) s = execScmpEqB64 d a b s := rfl
@[simp] theorem exec_scmpEqB64Imm (d : BitVec 5) (a : BitVec 5) (imm : BitVec 11) (s : State) : exec (.scmpEqB64Imm d a imm) s = execScmpEqB64Imm d a imm s := rfl
@[simp] theorem exec_scmpLtS64 (d : BitVec 5) (a : BitVec 5) (b : BitVec 5) (s : State) : exec (.scmpLtS64 d a b) s = execScmpLtS64 d a b s := rfl
@[simp] theorem exec_scmpLtS64Imm (d : BitVec 5) (a : BitVec 5) (imm : BitVec 11) (s : State) : exec (.scmpLtS64Imm d a imm) s = execScmpLtS64Imm d a imm s := rfl
@[simp] theorem exec_scmpLtZ64 (d : BitVec 5) (a : BitVec 5) (b : BitVec 5) (s : State) : exec (.scmpLtZ64 d a b) s = execScmpLtZ64 d a b s := rfl
@[simp] theorem exec_scmpLtZ64Imm (d : BitVec 5) (a : BitVec 5) (imm : BitVec 11) (s : State) : exec (.scmpLtZ64Imm d a imm) s = execScmpLtZ64Imm d a imm s := rfl
@[simp] theorem exec_addF32 (n : BitVec 1) (d : BitVec 7) (a : BitVec 7) (b : BitVec 7) (s : State) : exec (.addF32 n d a b) s = execAddF32 n d a b s := rfl
@[simp] theorem exec_subF32 (n : BitVec 1) (d : BitVec 7) (a : BitVec 7) (b : BitVec 7) (s : State) : exec (.subF32 n d a b) s = execSubF32 n d a b s := rfl
@[simp] theorem exec_mulF32 (n : BitVec 1) (d : BitVec 7) (a : BitVec 7) (b : BitVec 7) (s : State) : exec (.mulF32 n d a b) s = execMulF32 n d a b s := rfl
@[simp] theorem exec_fmaF32 (n : BitVec 1) (d : BitVec 7) (a : BitVec 7) (b : BitVec 7) (s : State) : exec (.fmaF32 n d a b) s = execFmaF32 n d a b s := rfl
@[simp] theorem exec_divF32 (n : BitVec 1) (d : BitVec 7) (a : BitVec 7) (b : BitVec 7) (s : State) : exec (.divF32 n d a b) s = execDivF32 n d a b s := rfl
@[simp] theorem exec_minF32 (n : BitVec 1) (d : BitVec 7) (a : BitVec 7) (b : BitVec 7) (s : State) : exec (.minF32 n d a b) s = execMinF32 n d a b s := rfl
@[simp] theorem exec_maxF32 (n : BitVec 1) (d : BitVec 7) (a : BitVec 7) (b : BitVec 7) (s : State) : exec (.maxF32 n d a b) s = execMaxF32 n d a b s := rfl
@[simp] theorem exec_sqrtF32 (n : BitVec 1) (d : BitVec 7) (a : BitVec 7) (s : State) : exec (.sqrtF32 n d a) s = execSqrtF32 n d a s := rfl
@[simp] theorem exec_rcpF32 (n : BitVec 1) (d : BitVec 7) (a : BitVec 7) (s : State) : exec (.rcpF32 n d a) s = execRcpF32 n d a s := rfl
@[simp] theorem exec_rsqF32 (n : BitVec 1) (d : BitVec 7) (a : BitVec 7) (s : State) : exec (.rsqF32 n d a) s = execRsqF32 n d a s := rfl
@[simp] theorem exec_exp2F32 (n : BitVec 1) (d : BitVec 7) (a : BitVec 7) (s : State) : exec (.exp2F32 n d a) s = execExp2F32 n d a s := rfl
@[simp] theorem exec_log2F32 (n : BitVec 1) (d : BitVec 7) (a : BitVec 7) (s : State) : exec (.log2F32 n d a) s = execLog2F32 n d a s := rfl
@[simp] theorem exec_sinpiF32 (n : BitVec 1) (d : BitVec 7) (a : BitVec 7) (s : State) : exec (.sinpiF32 n d a) s = execSinpiF32 n d a s := rfl
@[simp] theorem exec_cospiF32 (n : BitVec 1) (d : BitVec 7) (a : BitVec 7) (s : State) : exec (.cospiF32 n d a) s = execCospiF32 n d a s := rfl
@[simp] theorem exec_addF64 (n : BitVec 1) (d : BitVec 7) (a : BitVec 7) (b : BitVec 7) (s : State) : exec (.addF64 n d a b) s = execAddF64 n d a b s := rfl
@[simp] theorem exec_subF64 (n : BitVec 1) (d : BitVec 7) (a : BitVec 7) (b : BitVec 7) (s : State) : exec (.subF64 n d a b) s = execSubF64 n d a b s := rfl
@[simp] theorem exec_mulF64 (n : BitVec 1) (d : BitVec 7) (a : BitVec 7) (b : BitVec 7) (s : State) : exec (.mulF64 n d a b) s = execMulF64 n d a b s := rfl
@[simp] theorem exec_fmaF64 (n : BitVec 1) (d : BitVec 7) (a : BitVec 7) (b : BitVec 7) (s : State) : exec (.fmaF64 n d a b) s = execFmaF64 n d a b s := rfl
@[simp] theorem exec_divF64 (n : BitVec 1) (d : BitVec 7) (a : BitVec 7) (b : BitVec 7) (s : State) : exec (.divF64 n d a b) s = execDivF64 n d a b s := rfl
@[simp] theorem exec_minF64 (n : BitVec 1) (d : BitVec 7) (a : BitVec 7) (b : BitVec 7) (s : State) : exec (.minF64 n d a b) s = execMinF64 n d a b s := rfl
@[simp] theorem exec_maxF64 (n : BitVec 1) (d : BitVec 7) (a : BitVec 7) (b : BitVec 7) (s : State) : exec (.maxF64 n d a b) s = execMaxF64 n d a b s := rfl
@[simp] theorem exec_sqrtF64 (n : BitVec 1) (d : BitVec 7) (a : BitVec 7) (s : State) : exec (.sqrtF64 n d a) s = execSqrtF64 n d a s := rfl
@[simp] theorem exec_addF16 (n : BitVec 1) (d : BitVec 7) (a : BitVec 7) (b : BitVec 7) (s : State) : exec (.addF16 n d a b) s = execAddF16 n d a b s := rfl
@[simp] theorem exec_subF16 (n : BitVec 1) (d : BitVec 7) (a : BitVec 7) (b : BitVec 7) (s : State) : exec (.subF16 n d a b) s = execSubF16 n d a b s := rfl
@[simp] theorem exec_mulF16 (n : BitVec 1) (d : BitVec 7) (a : BitVec 7) (b : BitVec 7) (s : State) : exec (.mulF16 n d a b) s = execMulF16 n d a b s := rfl
@[simp] theorem exec_fmaF16 (n : BitVec 1) (d : BitVec 7) (a : BitVec 7) (b : BitVec 7) (s : State) : exec (.fmaF16 n d a b) s = execFmaF16 n d a b s := rfl
@[simp] theorem exec_divF16 (n : BitVec 1) (d : BitVec 7) (a : BitVec 7) (b : BitVec 7) (s : State) : exec (.divF16 n d a b) s = execDivF16 n d a b s := rfl
@[simp] theorem exec_addBf16 (n : BitVec 1) (d : BitVec 7) (a : BitVec 7) (b : BitVec 7) (s : State) : exec (.addBf16 n d a b) s = execAddBf16 n d a b s := rfl
@[simp] theorem exec_subBf16 (n : BitVec 1) (d : BitVec 7) (a : BitVec 7) (b : BitVec 7) (s : State) : exec (.subBf16 n d a b) s = execSubBf16 n d a b s := rfl
@[simp] theorem exec_mulBf16 (n : BitVec 1) (d : BitVec 7) (a : BitVec 7) (b : BitVec 7) (s : State) : exec (.mulBf16 n d a b) s = execMulBf16 n d a b s := rfl
@[simp] theorem exec_fmaBf16 (n : BitVec 1) (d : BitVec 7) (a : BitVec 7) (b : BitVec 7) (s : State) : exec (.fmaBf16 n d a b) s = execFmaBf16 n d a b s := rfl
@[simp] theorem exec_sqrtF16 (n : BitVec 1) (d : BitVec 7) (a : BitVec 7) (s : State) : exec (.sqrtF16 n d a) s = execSqrtF16 n d a s := rfl
@[simp] theorem exec_rcpF16 (n : BitVec 1) (d : BitVec 7) (a : BitVec 7) (s : State) : exec (.rcpF16 n d a) s = execRcpF16 n d a s := rfl
@[simp] theorem exec_rsqF16 (n : BitVec 1) (d : BitVec 7) (a : BitVec 7) (s : State) : exec (.rsqF16 n d a) s = execRsqF16 n d a s := rfl
@[simp] theorem exec_exp2F16 (n : BitVec 1) (d : BitVec 7) (a : BitVec 7) (s : State) : exec (.exp2F16 n d a) s = execExp2F16 n d a s := rfl
@[simp] theorem exec_log2F16 (n : BitVec 1) (d : BitVec 7) (a : BitVec 7) (s : State) : exec (.log2F16 n d a) s = execLog2F16 n d a s := rfl
@[simp] theorem exec_cmpEqF32 (n : BitVec 1) (p : BitVec 3) (a : BitVec 7) (b : BitVec 7) (s : State) : exec (.cmpEqF32 n p a b) s = execCmpEqF32 n p a b s := rfl
@[simp] theorem exec_cmpLtF32 (n : BitVec 1) (p : BitVec 3) (a : BitVec 7) (b : BitVec 7) (s : State) : exec (.cmpLtF32 n p a b) s = execCmpLtF32 n p a b s := rfl
@[simp] theorem exec_cmpLeF32 (n : BitVec 1) (p : BitVec 3) (a : BitVec 7) (b : BitVec 7) (s : State) : exec (.cmpLeF32 n p a b) s = execCmpLeF32 n p a b s := rfl
@[simp] theorem exec_cmpEqF64 (n : BitVec 1) (p : BitVec 3) (a : BitVec 7) (b : BitVec 7) (s : State) : exec (.cmpEqF64 n p a b) s = execCmpEqF64 n p a b s := rfl
@[simp] theorem exec_cmpLtF64 (n : BitVec 1) (p : BitVec 3) (a : BitVec 7) (b : BitVec 7) (s : State) : exec (.cmpLtF64 n p a b) s = execCmpLtF64 n p a b s := rfl
@[simp] theorem exec_cmpLeF64 (n : BitVec 1) (p : BitVec 3) (a : BitVec 7) (b : BitVec 7) (s : State) : exec (.cmpLeF64 n p a b) s = execCmpLeF64 n p a b s := rfl
@[simp] theorem exec_cvtF64F32 (n : BitVec 1) (d : BitVec 7) (a : BitVec 7) (s : State) : exec (.cvtF64F32 n d a) s = execCvtF64F32 n d a s := rfl
@[simp] theorem exec_cvtF32F64 (n : BitVec 1) (d : BitVec 7) (a : BitVec 7) (s : State) : exec (.cvtF32F64 n d a) s = execCvtF32F64 n d a s := rfl
@[simp] theorem exec_cvtF32F16 (n : BitVec 1) (d : BitVec 7) (a : BitVec 7) (s : State) : exec (.cvtF32F16 n d a) s = execCvtF32F16 n d a s := rfl
@[simp] theorem exec_cvtF16F32 (n : BitVec 1) (d : BitVec 7) (a : BitVec 7) (s : State) : exec (.cvtF16F32 n d a) s = execCvtF16F32 n d a s := rfl
@[simp] theorem exec_cvtF32Bf16 (n : BitVec 1) (d : BitVec 7) (a : BitVec 7) (s : State) : exec (.cvtF32Bf16 n d a) s = execCvtF32Bf16 n d a s := rfl
@[simp] theorem exec_cvtBf16F32 (n : BitVec 1) (d : BitVec 7) (a : BitVec 7) (s : State) : exec (.cvtBf16F32 n d a) s = execCvtBf16F32 n d a s := rfl
@[simp] theorem exec_cvtS32F32 (n : BitVec 1) (d : BitVec 7) (a : BitVec 7) (s : State) : exec (.cvtS32F32 n d a) s = execCvtS32F32 n d a s := rfl
@[simp] theorem exec_cvtZ32F32 (n : BitVec 1) (d : BitVec 7) (a : BitVec 7) (s : State) : exec (.cvtZ32F32 n d a) s = execCvtZ32F32 n d a s := rfl
@[simp] theorem exec_cvtF32S32 (n : BitVec 1) (d : BitVec 7) (a : BitVec 7) (s : State) : exec (.cvtF32S32 n d a) s = execCvtF32S32 n d a s := rfl
@[simp] theorem exec_cvtF32Z32 (n : BitVec 1) (d : BitVec 7) (a : BitVec 7) (s : State) : exec (.cvtF32Z32 n d a) s = execCvtF32Z32 n d a s := rfl
@[simp] theorem exec_cvtS64F64 (n : BitVec 1) (d : BitVec 7) (a : BitVec 7) (s : State) : exec (.cvtS64F64 n d a) s = execCvtS64F64 n d a s := rfl
@[simp] theorem exec_cvtF64S64 (n : BitVec 1) (d : BitVec 7) (a : BitVec 7) (s : State) : exec (.cvtF64S64 n d a) s = execCvtF64S64 n d a s := rfl
@[simp] theorem exec_rdcAddF32 (n : BitVec 1) (d : BitVec 7) (a : BitVec 7) (s : State) : exec (.rdcAddF32 n d a) s = execRdcAddF32 n d a s := rfl
@[simp] theorem exec_rdcAddF64 (n : BitVec 1) (d : BitVec 7) (a : BitVec 7) (s : State) : exec (.rdcAddF64 n d a) s = execRdcAddF64 n d a s := rfl
@[simp] theorem exec_rdcMinF32 (n : BitVec 1) (d : BitVec 7) (a : BitVec 7) (s : State) : exec (.rdcMinF32 n d a) s = execRdcMinF32 n d a s := rfl
@[simp] theorem exec_rdcMaxF32 (n : BitVec 1) (d : BitVec 7) (a : BitVec 7) (s : State) : exec (.rdcMaxF32 n d a) s = execRdcMaxF32 n d a s := rfl
@[simp] theorem exec_rdcAddS32 (n : BitVec 1) (d : BitVec 7) (a : BitVec 7) (s : State) : exec (.rdcAddS32 n d a) s = execRdcAddS32 n d a s := rfl
@[simp] theorem exec_rdcAddZ64 (n : BitVec 1) (d : BitVec 7) (a : BitVec 7) (s : State) : exec (.rdcAddZ64 n d a) s = execRdcAddZ64 n d a s := rfl
@[simp] theorem exec_rngxB32 (n : BitVec 1) (d : BitVec 7) (a : BitVec 7) (b : BitVec 7) (s : State) : exec (.rngxB32 n d a b) s = execRngxB32 n d a b s := rfl
@[simp] theorem exec_rngxB64 (n : BitVec 1) (d : BitVec 7) (a : BitVec 7) (b : BitVec 7) (s : State) : exec (.rngxB64 n d a b) s = execRngxB64 n d a b s := rfl
@[simp] theorem exec_mma (a : BitVec 7) (s : State) : exec (.mma a) s = execMma a s := rfl
@[simp] theorem exec_mread (d : BitVec 7) (a : BitVec 7) (s : State) : exec (.mread d a) s = execMread d a s := rfl
@[simp] theorem exec_mwrite (a : BitVec 7) (b : BitVec 7) (s : State) : exec (.mwrite a b) s = execMwrite a b s := rfl
@[simp] theorem exec_mzero (a : BitVec 7) (s : State) : exec (.mzero a) s = execMzero a s := rfl
@[simp] theorem exec_mstat (d : BitVec 7) (a : BitVec 7) (b : BitVec 7) (s : State) : exec (.mstat d a b) s = execMstat d a b s := rfl
@[simp] theorem exec_mwin (d : BitVec 7) (a : BitVec 7) (b : BitVec 7) (s : State) : exec (.mwin d a b) s = execMwin d a b s := rfl
@[simp] theorem exec_crsv (d : BitVec 7) (a : BitVec 7) (s : State) : exec (.crsv d a) s = execCrsv d a s := rfl
@[simp] theorem exec_crel (d : BitVec 7) (a : BitVec 7) (s : State) : exec (.crel d a) s = execCrel d a s := rfl
@[simp] theorem exec_quantAq8 (d : BitVec 7) (a : BitVec 7) (g : BitVec 7) (s : State) : exec (.quantAq8 d a g) s = execQuantAq8 d a g s := rfl
@[simp] theorem exec_quantAq4 (d : BitVec 7) (a : BitVec 7) (g : BitVec 7) (s : State) : exec (.quantAq4 d a g) s = execQuantAq4 d a g s := rfl
@[simp] theorem exec_dquantAq8 (d : BitVec 7) (a : BitVec 7) (g : BitVec 7) (s : State) : exec (.dquantAq8 d a g) s = execDquantAq8 d a g s := rfl
@[simp] theorem exec_dquantAq4 (d : BitVec 7) (a : BitVec 7) (g : BitVec 7) (s : State) : exec (.dquantAq4 d a g) s = execDquantAq4 d a g s := rfl
@[simp] theorem exec_ldZ8 (d : BitVec 7) (a : BitVec 7) (o : BitVec 7) (s : State) : exec (.ldZ8 d a o) s = execLdZ8 d a o s := rfl
@[simp] theorem exec_ldS8 (d : BitVec 7) (a : BitVec 7) (o : BitVec 7) (s : State) : exec (.ldS8 d a o) s = execLdS8 d a o s := rfl
@[simp] theorem exec_ldZ16 (d : BitVec 7) (a : BitVec 7) (o : BitVec 7) (s : State) : exec (.ldZ16 d a o) s = execLdZ16 d a o s := rfl
@[simp] theorem exec_ldS16 (d : BitVec 7) (a : BitVec 7) (o : BitVec 7) (s : State) : exec (.ldS16 d a o) s = execLdS16 d a o s := rfl
@[simp] theorem exec_ldB32 (d : BitVec 7) (a : BitVec 7) (o : BitVec 7) (s : State) : exec (.ldB32 d a o) s = execLdB32 d a o s := rfl
@[simp] theorem exec_ldB64 (d : BitVec 7) (a : BitVec 7) (o : BitVec 7) (s : State) : exec (.ldB64 d a o) s = execLdB64 d a o s := rfl
@[simp] theorem exec_stB8 (d : BitVec 7) (a : BitVec 7) (o : BitVec 7) (s : State) : exec (.stB8 d a o) s = execStB8 d a o s := rfl
@[simp] theorem exec_stB16 (d : BitVec 7) (a : BitVec 7) (o : BitVec 7) (s : State) : exec (.stB16 d a o) s = execStB16 d a o s := rfl
@[simp] theorem exec_stB32 (d : BitVec 7) (a : BitVec 7) (o : BitVec 7) (s : State) : exec (.stB32 d a o) s = execStB32 d a o s := rfl
@[simp] theorem exec_stB64 (d : BitVec 7) (a : BitVec 7) (o : BitVec 7) (s : State) : exec (.stB64 d a o) s = execStB64 d a o s := rfl
@[simp] theorem exec_tagq (d : BitVec 7) (a : BitVec 7) (s : State) : exec (.tagq d a) s = execTagq d a s := rfl
@[simp] theorem exec_tagset (d : BitVec 7) (a : BitVec 7) (b : BitVec 7) (s : State) : exec (.tagset d a b) s = execTagset d a b s := rfl
@[simp] theorem exec_tagclr (d : BitVec 7) (a : BitVec 7) (s : State) : exec (.tagclr d a) s = execTagclr d a s := rfl
@[simp] theorem exec_taginv (d : BitVec 7) (s : State) : exec (.taginv d) s = execTaginv d s := rfl
@[simp] theorem exec_copyIn (a : BitVec 7) (s : State) : exec (.copyIn a) s = execCopyIn a s := rfl
@[simp] theorem exec_copyOut (a : BitVec 7) (s : State) : exec (.copyOut a) s = execCopyOut a s := rfl
@[simp] theorem exec_copyOutDigest (d : BitVec 7) (a : BitVec 7) (s : State) : exec (.copyOutDigest d a) s = execCopyOutDigest d a s := rfl
@[simp] theorem exec_hget (d : BitVec 7) (s : State) : exec (.hget d) s = execHget d s := rfl
@[simp] theorem exec_hfree (d : BitVec 7) (a : BitVec 7) (s : State) : exec (.hfree d a) s = execHfree d a s := rfl
@[simp] theorem exec_hwait (d : BitVec 7) (a : BitVec 7) (s : State) : exec (.hwait d a) s = execHwait d a s := rfl
@[simp] theorem exec_atomAddZ32 (n : BitVec 1) (d : BitVec 7) (a : BitVec 7) (b : BitVec 7) (s : State) : exec (.atomAddZ32 n d a b) s = execAtomAddZ32 n d a b s := rfl
@[simp] theorem exec_atomAddZ64 (n : BitVec 1) (d : BitVec 7) (a : BitVec 7) (b : BitVec 7) (s : State) : exec (.atomAddZ64 n d a b) s = execAtomAddZ64 n d a b s := rfl
@[simp] theorem exec_atomXchgB32 (n : BitVec 1) (d : BitVec 7) (a : BitVec 7) (b : BitVec 7) (s : State) : exec (.atomXchgB32 n d a b) s = execAtomXchgB32 n d a b s := rfl
@[simp] theorem exec_atomCasB32 (n : BitVec 1) (d : BitVec 7) (a : BitVec 7) (b : BitVec 7) (s : State) : exec (.atomCasB32 n d a b) s = execAtomCasB32 n d a b s := rfl
@[simp] theorem exec_atomCasB64 (n : BitVec 1) (d : BitVec 7) (a : BitVec 7) (b : BitVec 7) (s : State) : exec (.atomCasB64 n d a b) s = execAtomCasB64 n d a b s := rfl
@[simp] theorem exec_redAddF32 (a : BitVec 7) (b : BitVec 7) (s : State) : exec (.redAddF32 a b) s = execRedAddF32 a b s := rfl
@[simp] theorem exec_redAddF64 (a : BitVec 7) (b : BitVec 7) (s : State) : exec (.redAddF64 a b) s = execRedAddF64 a b s := rfl
@[simp] theorem exec_xaddF32 (a : BitVec 7) (b : BitVec 7) (s : State) : exec (.xaddF32 a b) s = execXaddF32 a b s := rfl
@[simp] theorem exec_xseal (d : BitVec 7) (a : BitVec 7) (s : State) : exec (.xseal d a) s = execXseal d a s := rfl
@[simp] theorem exec_xzero (a : BitVec 7) (s : State) : exec (.xzero a) s = execXzero a s := rfl
@[simp] theorem exec_bkmode (a : BitVec 7) (b : BitVec 7) (s : State) : exec (.bkmode a b) s = execBkmode a b s := rfl
@[simp] theorem exec_bkld (a : BitVec 7) (b : BitVec 7) (s : State) : exec (.bkld a b) s = execBkld a b s := rfl
@[simp] theorem exec_bkmac (a : BitVec 7) (b : BitVec 7) (s : State) : exec (.bkmac a b) s = execBkmac a b s := rfl
@[simp] theorem exec_bkrd (a : BitVec 7) (b : BitVec 7) (s : State) : exec (.bkrd a b) s = execBkrd a b s := rfl
@[simp] theorem exec_bkzero (a : BitVec 7) (b : BitVec 7) (s : State) : exec (.bkzero a b) s = execBkzero a b s := rfl
@[simp] theorem exec_bkwait (s : State) : exec (.bkwait) s = execBkwait s := rfl
@[simp] theorem exec_cmtB (n : BitVec 1) (d : BitVec 7) (s : State) : exec (.cmtB n d) s = execCmtB n d s := rfl
@[simp] theorem exec_cmtT (n : BitVec 1) (d : BitVec 7) (s : State) : exec (.cmtT n d) s = execCmtT n d s := rfl
@[simp] theorem exec_cmtD (n : BitVec 1) (d : BitVec 7) (s : State) : exec (.cmtD n d) s = execCmtD n d s := rfl
@[simp] theorem exec_cmtBLw (n : BitVec 1) (d : BitVec 7) (s : State) : exec (.cmtBLw n d) s = execCmtBLw n d s := rfl
@[simp] theorem exec_cmtTLw (n : BitVec 1) (d : BitVec 7) (s : State) : exec (.cmtTLw n d) s = execCmtTLw n d s := rfl
@[simp] theorem exec_cmtDLw (n : BitVec 1) (d : BitVec 7) (s : State) : exec (.cmtDLw n d) s = execCmtDLw n d s := rfl
@[simp] theorem exec_abtW (s : State) : exec (.abtW) s = execAbtW s := rfl
@[simp] theorem exec_abtB (s : State) : exec (.abtB) s = execAbtB s := rfl
@[simp] theorem exec_abtT (s : State) : exec (.abtT) s = execAbtT s := rfl
@[simp] theorem exec_fence (s0 : BitVec 3) (s : State) : exec (.fence s0) s = execFence s0 s := rfl
@[simp] theorem exec_opnW (o : BitVec 20) (s : State) : exec (.opnW o) s = execOpnW o s := rfl
@[simp] theorem exec_opnB (o : BitVec 20) (s : State) : exec (.opnB o) s = execOpnB o s := rfl
@[simp] theorem exec_opnT (o : BitVec 20) (s : State) : exec (.opnT o) s = execOpnT o s := rfl
@[simp] theorem exec_cln (a : BitVec 7) (b : BitVec 7) (s : State) : exec (.cln a b) s = execCln a b s := rfl
@[simp] theorem exec_inv (a : BitVec 7) (b : BitVec 7) (s : State) : exec (.inv a b) s = execInv a b s := rfl
@[simp] theorem exec_cinv (a : BitVec 7) (b : BitVec 7) (s : State) : exec (.cinv a b) s = execCinv a b s := rfl
@[simp] theorem exec_brGuarded (g : BitVec 3) (e : BitVec 1) (o : BitVec 20) (s : State) : exec (.brGuarded g e o) s = execBrGuarded g e o s := rfl
@[simp] theorem exec_bryGuarded (g : BitVec 3) (e : BitVec 1) (o : BitVec 20) (s : State) : exec (.bryGuarded g e o) s = execBryGuarded g e o s := rfl
@[simp] theorem exec_callGuarded (g : BitVec 3) (e : BitVec 1) (o : BitVec 20) (s : State) : exec (.callGuarded g e o) s = execCallGuarded g e o s := rfl
@[simp] theorem exec_br (o : BitVec 20) (s : State) : exec (.br o) s = execBr o s := rfl
@[simp] theorem exec_bry (o : BitVec 20) (s : State) : exec (.bry o) s = execBry o s := rfl
@[simp] theorem exec_call (o : BitVec 20) (s : State) : exec (.call o) s = execCall o s := rfl
@[simp] theorem exec_callr (a : BitVec 7) (s : State) : exec (.callr a) s = execCallr a s := rfl
@[simp] theorem exec_ret (s : State) : exec (.ret) s = execRet s := rfl
@[simp] theorem exec_jmpr (a : BitVec 7) (s : State) : exec (.jmpr a) s = execJmpr a s := rfl
@[simp] theorem exec_exit (s : State) : exec (.exit) s = execExit s := rfl
@[simp] theorem exec_trap (a : BitVec 7) (s : State) : exec (.trap a) s = execTrap a s := rfl
@[simp] theorem exec_bsync (s : State) : exec (.bsync) s = execBsync s := rfl
@[simp] theorem exec_yield (s : State) : exec (.yield) s = execYield s := rfl
@[simp] theorem exec_nop (s : State) : exec (.nop) s = execNop s := rfl
@[simp] theorem exec_lany (p : BitVec 3) (q : BitVec 3) (s : State) : exec (.lany p q) s = execLany p q s := rfl
@[simp] theorem exec_lall (p : BitVec 3) (q : BitVec 3) (s : State) : exec (.lall p q) s = execLall p q s := rfl
@[simp] theorem exec_lbits (d : BitVec 7) (q : BitVec 3) (s : State) : exec (.lbits d q) s = execLbits d q s := rfl
@[simp] theorem exec_xlIdx (d : BitVec 7) (a : BitVec 7) (b : BitVec 7) (s : State) : exec (.xlIdx d a b) s = execXlIdx d a b s := rfl
@[simp] theorem exec_xlLo (d : BitVec 7) (a : BitVec 7) (b : BitVec 7) (s : State) : exec (.xlLo d a b) s = execXlLo d a b s := rfl
@[simp] theorem exec_xlHi (d : BitVec 7) (a : BitVec 7) (b : BitVec 7) (s : State) : exec (.xlHi d a b) s = execXlHi d a b s := rfl
@[simp] theorem exec_xlXor (d : BitVec 7) (a : BitVec 7) (b : BitVec 7) (s : State) : exec (.xlXor d a b) s = execXlXor d a b s := rfl
@[simp] theorem exec_sget (s0 : BitVec 5) (a : BitVec 7) (s : State) : exec (.sget s0 a) s = execSget s0 a s := rfl
@[simp] theorem exec_xlRot (d : BitVec 7) (a : BitVec 7) (b : BitVec 7) (s : State) : exec (.xlRot d a b) s = execXlRot d a b s := rfl
@[simp] theorem exec_spawn (d : BitVec 7) (a : BitVec 7) (b : BitVec 7) (s : State) : exec (.spawn d a b) s = execSpawn d a b s := rfl
@[simp] theorem exec_regroup (a : BitVec 7) (b : BitVec 7) (s : State) : exec (.regroup a b) s = execRegroup a b s := rfl
@[simp] theorem exec_racktm (a : BitVec 7) (s : State) : exec (.racktm a) s = execRacktm a s := rfl
@[simp] theorem exec_waitc (d : BitVec 7) (a : BitVec 7) (b : BitVec 7) (s : State) : exec (.waitc d a b) s = execWaitc d a b s := rfl
@[simp] theorem exec_spr (x : BitVec 7) (c : BitVec 14) (s : State) : exec (.spr x c) s = execSpr x c s := rfl
@[simp] theorem exec_srd (x : BitVec 5) (c : BitVec 14) (s : State) : exec (.srd x c) s = execSrd x c s := rfl
@[simp] theorem exec_swr (x : BitVec 5) (c : BitVec 14) (s : State) : exec (.swr x c) s = execSwr x c s := rfl
@[simp] theorem exec_ksclaim (d : BitVec 7) (a : BitVec 7) (s : State) : exec (.ksclaim d a) s = execKsclaim d a s := rfl
@[simp] theorem exec_ksrd (d : BitVec 7) (a : BitVec 7) (s : State) : exec (.ksrd d a) s = execKsrd d a s := rfl
@[simp] theorem exec_kswr (a : BitVec 7) (b : BitVec 7) (s : State) : exec (.kswr a b) s = execKswr a b s := rfl
@[simp] theorem exec_ksres (d : BitVec 7) (a : BitVec 7) (s : State) : exec (.ksres d a) s = execKsres d a s := rfl
@[simp] theorem exec_ksrty (d : BitVec 7) (a : BitVec 7) (s : State) : exec (.ksrty d a) s = execKsrty d a s := rfl
@[simp] theorem exec_ksdir (d : BitVec 7) (a : BitVec 7) (b : BitVec 7) (s : State) : exec (.ksdir d a b) s = execKsdir d a b s := rfl
@[simp] theorem exec_kskill (d : BitVec 7) (a : BitVec 7) (s : State) : exec (.kskill d a) s = execKskill d a s := rfl
@[simp] theorem exec_qpost (d : BitVec 7) (a : BitVec 7) (b : BitVec 7) (s : State) : exec (.qpost d a b) s = execQpost d a b s := rfl
@[simp] theorem exec_qclk (d : BitVec 7) (a : BitVec 7) (s : State) : exec (.qclk d a) s = execQclk d a s := rfl
@[simp] theorem exec_sigrd (d : BitVec 7) (a : BitVec 7) (s : State) : exec (.sigrd d a) s = execSigrd d a s := rfl
@[simp] theorem exec_sigclr (s : State) : exec (.sigclr) s = execSigclr s := rfl
@[simp] theorem exec_chkv (d : BitVec 7) (a : BitVec 7) (s : State) : exec (.chkv d a) s = execChkv d a s := rfl
@[simp] theorem exec_scrub (d : BitVec 7) (a : BitVec 7) (b : BitVec 7) (s : State) : exec (.scrub d a b) s = execScrub d a b s := rfl
@[simp] theorem exec_asidld (d : BitVec 7) (a : BitVec 7) (b : BitVec 7) (s : State) : exec (.asidld d a b) s = execAsidld d a b s := rfl
@[simp] theorem exec_pgret (d : BitVec 7) (a : BitVec 7) (s : State) : exec (.pgret d a) s = execPgret d a s := rfl
@[simp] theorem exec_wayq (d : BitVec 7) (a : BitVec 7) (b : BitVec 7) (s : State) : exec (.wayq d a b) s = execWayq d a b s := rfl
@[simp] theorem exec_tlbinv (d : BitVec 7) (a : BitVec 7) (b : BitVec 7) (s : State) : exec (.tlbinv d a b) s = execTlbinv d a b s := rfl
@[simp] theorem exec_kspool (d : BitVec 7) (a : BitVec 7) (s : State) : exec (.kspool d a) s = execKspool d a s := rfl
@[simp] theorem exec_wideImmediate (p : BitVec 24) (s : State) : exec (.wideImmediate p) s = execWideImmediate p s := rfl
@[simp] theorem exec_modifierHint (r : BitVec 3) (t : BitVec 1) (g : BitVec 1) (p : BitVec 3) (e : BitVec 1) (u : BitVec 1) (c : BitVec 1) (s0 : BitVec 5) (s : State) : exec (.modifierHint r t g p e u c s0) s = execModifierHint r t g p e u c s0 s := rfl
@[simp] theorem exec_schedulingHint (n : BitVec 4) (s : State) : exec (.schedulingHint n) s = execSchedulingHint n s := rfl
@[simp] theorem exec_rackTimerExpiry (wid : Nat) (s : State) : exec (.rackTimerExpiry wid) s = execRackTimerExpiry wid s := rfl
@[simp] theorem exec_mmaStart (op : Nat) (s : State) : exec (.mmaStart op) s = execMmaStart op s := rfl
@[simp] theorem exec_mmaComplete (op : Nat) (s : State) : exec (.mmaComplete op) s = execMmaComplete op s := rfl
@[simp] theorem exec_copySegmentRun (copy seg : Nat) (s : State) : exec (.copySegmentRun copy seg) s = execCopySegmentRun copy seg s := rfl
@[simp] theorem exec_deviceCommitPublish (team : Nat) (s : State) : exec (.deviceCommitPublish team) s = execDeviceCommitPublish team s := rfl
@[simp] theorem exec_deferredReductionApply (team : Nat) (s : State) : exec (.deferredReductionApply team) s = execDeferredReductionApply team s := rfl
@[simp] theorem exec_remoteOpPerform (op : Nat) (s : State) : exec (.remoteOpPerform op) s = execRemoteOpPerform op s := rfl
@[simp] theorem exec_bankOpPerform (op : Nat) (s : State) : exec (.bankOpPerform op) s = execBankOpPerform op s := rfl
@[simp] theorem exec_monitorArm (wid lane : Nat) (s : State) : exec (.monitorArm wid lane) s = execMonitorArm wid lane s := rfl
@[simp] theorem exec_monitorWake (wid lane : Nat) (s : State) : exec (.monitorWake wid lane) s = execMonitorWake wid lane s := rfl
@[simp] theorem exec_ticketRead (vf ring : Nat) (s : State) : exec (.ticketRead vf ring) s = execTicketRead vf ring s := rfl
@[simp] theorem exec_publishWrite (vf ring : Nat) (value : W64) (s : State) : exec (.publishWrite vf ring value) s = execPublishWrite vf ring value s := rfl
@[simp] theorem exec_notifyWrite (vf : Nat) (ring : RingWord) (s : State) : exec (.notifyWrite vf ring) s = execNotifyWrite vf ring s := rfl
@[simp] theorem exec_configurationReread (vf ring : Nat) (s : State) : exec (.configurationReread vf ring) s = execConfigurationReread vf ring s := rfl
@[simp] theorem exec_cheadWrite (vf ring : Nat) (value : W64) (s : State) : exec (.cheadWrite vf ring value) s = execCheadWrite vf ring value s := rfl
@[simp] theorem exec_registerWrite (reg : HostReg) (value : W64) (s : State) : exec (.registerWrite reg value) s = execRegisterWrite reg value s := rfl
@[simp] theorem exec_slotConsume (vf ring : Nat) (s : State) : exec (.slotConsume vf ring) s = execSlotConsume vf ring s := rfl
@[simp] theorem exec_nopCommand (vf ring seq : Nat) (s : State) : exec (.nopCommand vf ring seq) s = execNopCommand vf ring seq s := rfl
@[simp] theorem exec_launch (vf ring seq : Nat) (s : State) : exec (.launch vf ring seq) s = execLaunch vf ring seq s := rfl
@[simp] theorem exec_barrier (vf ring seq : Nat) (s : State) : exec (.barrier vf ring seq) s = execBarrier vf ring seq s := rfl
@[simp] theorem exec_prologueEnd (launch : Nat) (s : State) : exec (.prologueEnd launch) s = execPrologueEnd launch s := rfl
@[simp] theorem exec_prologueRepeat (launch : Nat) (s : State) : exec (.prologueRepeat launch) s = execPrologueRepeat launch s := rfl
@[simp] theorem exec_taskDispatch (part : Nat) (s : State) : exec (.taskDispatch part) s = execTaskDispatch part s := rfl
@[simp] theorem exec_teamStart (team : Nat) (s : State) : exec (.teamStart team) s = execTeamStart team s := rfl
@[simp] theorem exec_affinityWaitExpiry (task : Nat) (s : State) : exec (.affinityWaitExpiry task) s = execAffinityWaitExpiry task s := rfl
@[simp] theorem exec_starvationBlock (task : Nat) (s : State) : exec (.starvationBlock task) s = execStarvationBlock task s := rfl
@[simp] theorem exec_commandComplete (vf ring seq : Nat) (s : State) : exec (.commandComplete vf ring seq) s = execCommandComplete vf ring seq s := rfl
@[simp] theorem exec_budgetExpiry (team : Nat) (s : State) : exec (.budgetExpiry team) s = execBudgetExpiry team s := rfl
@[simp] theorem exec_launchDeadlineExpiry (launch : Nat) (s : State) : exec (.launchDeadlineExpiry launch) s = execLaunchDeadlineExpiry launch s := rfl
@[simp] theorem exec_evictionOrder (team : EvictUnit) (saveArea : Nat) (s : State) : exec (.evictionOrder team saveArea) s = execEvictionOrder team saveArea s := rfl
@[simp] theorem exec_imageWrite (team : Nat) (s : State) : exec (.imageWrite team) s = execImageWrite team s := rfl
@[simp] theorem exec_jobMemoryMove (item : MoveItem) (s : State) : exec (.jobMemoryMove item) s = execJobMemoryMove item s := rfl
@[simp] theorem exec_recordMove (team part : Nat) (s : State) : exec (.recordMove team part) s = execRecordMove team part s := rfl
@[simp] theorem exec_partitionFree (part : Nat) (s : State) : exec (.partitionFree part) s = execPartitionFree part s := rfl
@[simp] theorem exec_partitionAssign (part vf : Nat) (s : State) : exec (.partitionAssign part vf) s = execPartitionAssign part vf s := rfl
@[simp] theorem exec_qenWrite (part : Nat) (value : W64) (s : State) : exec (.qenWrite part value) s = execQenWrite part value s := rfl
@[simp] theorem exec_vfEnable (vf : Nat) (s : State) : exec (.vfEnable vf) s = execVfEnable vf s := rfl
@[simp] theorem exec_vfDisable (vf : Nat) (s : State) : exec (.vfDisable vf) s = execVfDisable vf s := rfl
@[simp] theorem exec_hpolWrite (vf : Nat) (value : W64) (s : State) : exec (.hpolWrite vf value) s = execHpolWrite vf value s := rfl
@[simp] theorem exec_functionLevelReset (vf : Nat) (s : State) : exec (.functionLevelReset vf) s = execFunctionLevelReset vf s := rfl
@[simp] theorem exec_hostMemRead (vf dpa len : Nat) (s : State) : exec (.hostMemRead vf dpa len) s = execHostMemRead vf dpa len s := rfl
@[simp] theorem exec_hostMemWrite (vf dpa : Nat) (data : List Byte) (s : State) : exec (.hostMemWrite vf dpa data) s = execHostMemWrite vf dpa data s := rfl
@[simp] theorem exec_backgroundScrub (page : Nat) (s : State) : exec (.backgroundScrub page) s = execBackgroundScrub page s := rfl
@[simp] theorem exec_cellBlockGrant (vf page : Nat) (s : State) : exec (.cellBlockGrant vf page) s = execCellBlockGrant vf page s := rfl
@[simp] theorem exec_spokeFlitReceive (link group : Nat) (authentic : Bool) (msg : SpokeMsg) (s : State) : exec (.spokeFlitReceive link group authentic msg) s = execSpokeFlitReceive link group authentic msg s := rfl
@[simp] theorem exec_remotePostArrival (post : RemotePost) (s : State) : exec (.remotePostArrival post) s = execRemotePostArrival post s := rfl
@[simp] theorem exec_assistAnswer (part : Nat) (answer : AssistAnswer) (s : State) : exec (.assistAnswer part answer) s = execAssistAnswer part answer s := rfl
@[simp] theorem exec_firmwareDownload (image : List Byte) (s : State) : exec (.firmwareDownload image) s = execFirmwareDownload image s := rfl
@[simp] theorem exec_powerUp (s : State) : exec (.powerUp) s = execPowerUp s := rfl
@[simp] theorem exec_perstAssert (port : Nat) (s : State) : exec (.perstAssert port) s = execPerstAssert port s := rfl
@[simp] theorem exec_thermtrip (s : State) : exec (.thermtrip) s = execThermtrip s := rfl
@[simp] theorem exec_pwrfail (s : State) : exec (.pwrfail) s = execPwrfail s := rfl
@[simp] theorem exec_thermalThrottle (s : State) : exec (.thermalThrottle) s = execThermalThrottle s := rfl
@[simp] theorem exec_thermalRecover (s : State) : exec (.thermalRecover) s = execThermalRecover s := rfl
@[simp] theorem exec_recordGrant (part : Nat) (s : State) : exec (.recordGrant part) s = execRecordGrant part s := rfl
@[simp] theorem exec_poolWaitDeadline (unit : Nat) (s : State) : exec (.poolWaitDeadline unit) s = execPoolWaitDeadline unit s := rfl
@[simp] theorem exec_faultDeadlineExpiry (record : Nat) (s : State) : exec (.faultDeadlineExpiry record) s = execFaultDeadlineExpiry record s := rfl
@[simp] theorem exec_waveRebuild (record : Nat) (s : State) : exec (.waveRebuild record) s = execWaveRebuild record s := rfl
@[simp] theorem exec_linkTimeout (request : Nat) (s : State) : exec (.linkTimeout request) s = execLinkTimeout request s := rfl
@[simp] theorem exec_patrolRead (loc : StoreLoc) (s : State) : exec (.patrolRead loc) s = execPatrolRead loc s := rfl
@[simp] theorem exec_spareFill (page : Nat) (s : State) : exec (.spareFill page) s = execSpareFill page s := rfl
@[simp] theorem exec_ksdataRead (core : Nat) (ksh : W32) (ksoff : BitVec 17) (s : State) : exec (.ksdataRead core ksh ksoff) s = execKsdataRead core ksh ksoff s := rfl
@[simp] theorem exec_ksdataWrite (core : Nat) (ksh : W32) (ksoff : BitVec 17) (value : W64) (s : State) : exec (.ksdataWrite core ksh ksoff value) s = execKsdataWrite core ksh ksoff value s := rfl
@[simp] theorem exec_kscmdClaim (core : Nat) (ksh : W32) (value : W64) (s : State) : exec (.kscmdClaim core ksh value) s = execKscmdClaim core ksh value s := rfl
@[simp] theorem exec_kscmdResume (core : Nat) (ksh : W32) (value : W64) (s : State) : exec (.kscmdResume core ksh value) s = execKscmdResume core ksh value s := rfl
@[simp] theorem exec_kscmdRetry (core : Nat) (ksh : W32) (value : W64) (s : State) : exec (.kscmdRetry core ksh value) s = execKscmdRetry core ksh value s := rfl
@[simp] theorem exec_kscmdRedirect (core : Nat) (ksh : W32) (ksaddr : W57) (value : W64) (s : State) : exec (.kscmdRedirect core ksh ksaddr value) s = execKscmdRedirect core ksh ksaddr value s := rfl
@[simp] theorem exec_kscmdKill (core : Nat) (ksh : W32) (value : W64) (s : State) : exec (.kscmdKill core ksh value) s = execKscmdKill core ksh value s := rfl
@[simp] theorem exec_kscmdPost (core : Nat) (ksh : W32) (value : W64) (s : State) : exec (.kscmdPost core ksh value) s = execKscmdPost core ksh value s := rfl
@[simp] theorem exec_unassignedSlot (word : IWord) (s : State) : exec (.unassignedSlot word) s = execUnassignedSlot word s := rfl
@[simp] theorem exec_instructionFetch (s : State) : exec (.instructionFetch) s = execInstructionFetch s := rfl
@[simp] theorem exec_softError (loc : StoreLoc) (sort : ErrorSort) (s : State) : exec (.softError loc sort) s = execSoftError loc sort s := rfl
@[simp] theorem exec_pageOwnershipChange (page : Nat) (owner : Option Nat) (s : State) : exec (.pageOwnershipChange page owner) s = execPageOwnershipChange page owner s := rfl
@[simp] theorem exec_logicalDeviceBind (ld host : Nat) (s : State) : exec (.logicalDeviceBind ld host) s = execLogicalDeviceBind ld host s := rfl
@[simp] theorem exec_domestiqueHandlerEnd (core : Nat) (s : State) : exec (.domestiqueHandlerEnd core) s = execDomestiqueHandlerEnd core s := rfl
@[simp] theorem exec_perstRelease (port : Nat) (s : State) : exec (.perstRelease port) s = execPerstRelease port s := rfl

end Sys2Proof.Laws
end

