-- ==== Sys2Proof/Laws/Issue.lean ====
section
/-! SUPPORT. How an issue ends, said once: with the conditions of `IssuesWith` an instruction's meaning runs and its result is settled
(`issueWith_next`), and a meaning that ends in `done` completes (`completes_done`). -/

namespace Sys2Proof.Laws

open Sys2Proof.Machine Sys2Proof.Safety

/-! ### Waves by number -/

theorem wave?_wid {s : State} {v : Nat} {w : Wave} (h : s.wave? v = some w) : w.wid = v := by
  have := List.find?_some h
  simpa using this

theorem find?_updWhere (l : List Wave) (v u : Nat) (f : Wave → Wave) (hf : ∀ w, w.wid = u → (f w).wid = u) :
    (updWhere l (fun x => x.wid == u) f).find? (fun w => w.wid == v) = if v = u then (l.find? fun w => w.wid == v).map f else l.find? fun w => w.wid == v := by
  induction l with
  | nil => simp [updWhere]
  | cons x l ih =>
    simp only [updWhere, List.map_cons] at ih ⊢
    by_cases hx : x.wid = u
    · subst hx
      simp only [beq_self_eq_true, if_true, List.find?_cons, hf x rfl]
      by_cases hv : v = x.wid
      · subst hv; simp
      · have hb : (x.wid == v) = false := by simpa using fun h => hv h.symm
        simp only [hb, ih, hv, if_false]
    · have hb : (x.wid == u) = false := by simpa using hx
      simp only [hb, List.find?_cons, Bool.false_eq_true, if_false]
      by_cases hv : x.wid = v
      · subst hv; simp [hx]
      · have hb' : (x.wid == v) = false := by simpa using hv
        simp only [hb', ih]

/-- Changing one wave changes no other, and is seen by its number. -/
theorem wave?_updWave (s : State) (u v : Nat) (f : Wave → Wave) (hf : ∀ w, w.wid = u → (f w).wid = u) :
    (s.updWave u f).wave? v = if v = u then (s.wave? v).map f else s.wave? v := find?_updWhere s.waves v u f hf

theorem wave?_congr {s t : State} (h : s.waves = t.waves) (v : Nat) : s.wave? v = t.wave? v := by simp [State.wave?, h]

@[simp] theorem again_wid (w : Wave) : w.again.wid = w.wid := by unfold Wave.again; split <;> rfl
@[simp] theorem again_ready (w : Wave) : ({ w.again with wait := .ready } : Wave) = { w with wait := .ready } := by
  unfold Wave.again; split <;> rfl

theorem again_wait (w : Wave) (x : Wait) : ({ w.again with wait := x } : Wave) = { w with wait := x } := by
  unfold Wave.again; split <;> rfl

/-- Telling waves to try again changes no other part of a wave. -/
theorem wave?_wakeRetry (s : State) (v : Nat) : s.wakeRetry.wave? v = (s.wave? v).map Wave.again := by
  have h : ((fun w : Wave => w.wid == v) ∘ Wave.again) = fun w => w.wid == v := by funext w; simp
  simp only [State.wave?, State.wakeRetry, List.find?_map, h]

/-! ### Issue -/

/-- Covering a hold changes the hold's count and which latches are live. -/
theorem coverHold_eq (w : Wave) (e : Bool) (n : Option Nat) : ∃ h l, w.coverHold e n = { w with hold := h, latchLive := l } := by
  refine ⟨(w.coverHold e n).hold, (w.coverHold e n).latchLive, ?_⟩
  unfold Wave.coverHold
  cases n <;> dsimp only <;> split_ifs <;> rfl

/-- A wave that issues a group differs in its hold's count, in which latches are live, in the model's clock of its results, and in the mark of R32's
fourth case. -/
theorem cover_eq (w : Wave) (sg : Sig) (g : Group) : ∃ h l n q b, w.cover sg g = { w with hold := h, latchLive := l, now := n, slow := q, barred := b } := by
  unfold Wave.cover
  obtain ⟨h, l, e⟩ := coverHold_eq { w with barred := if w.fourth sg g then some g.first else none } (sg.ends || w.fourth sg g) g.sched
  rw [e]
  exact ⟨h, l, _, _, _, rfl⟩

@[simp] theorem cover_wid (w : Wave) (sg : Sig) (g : Group) : (w.cover sg g).wid = w.wid := by
  obtain ⟨h, l, n, q, b, e⟩ := cover_eq w sg g; rw [e]
@[simp] theorem cover_lanes (w : Wave) (sg : Sig) (g : Group) : (w.cover sg g).lanes = w.lanes := by
  obtain ⟨h, l, n, q, b, e⟩ := cover_eq w sg g; rw [e]
@[simp] theorem cover_protects (w : Wave) (sg : Sig) (g : Group) (r : List Nat) : (w.cover sg g).protects r = w.protects r := by
  obtain ⟨h, l, n, q, b, e⟩ := cover_eq w sg g; rw [e]; rfl
@[simp] theorem cover_activeLanes (g k : Group) (w : Wave) (sg : Sig) : activeLanes k (w.cover sg g) = activeLanes k w := by simp [activeLanes]

theorem poisonRead_congr {s t : State} (h : s.errors = t.errors) (c : Ctx) (sg : Sig) : s.poisonRead c sg = t.poisonRead c sg := by
  simp [State.poisonRead, h]

/-- With its conditions met, an instruction's meaning runs on the covered state and its result is settled. -/
theorem issueWith_next {sg : Sig} {cmp : Ctx → Nat → List W64} {g : Group} {w : Wave} {s : State} (h : IssuesWith sg cmp g w s)
    (k : Ctx → State → Res) :
    issueWith sg cmp s k = .next ((settle (covered sg g w s) (issueCtx sg g w) (k (issueCtx sg g w) (covered sg g w s))).countHold w.wid) := by
  have hp : (covered sg g w s).poisonRead (issueCtx sg g w) sg = none := by rw [← h.clean]; exact poisonRead_congr rfl _ _
  have ha : (issueCtx sg g w).act.isEmpty = false := by simpa [issueCtx, mkCtx] using h.active
  have ht := h.twins
  unfold issueWith
  rw [h.selected]
  simp only [h.wave, h.checks]
  unfold issueChecked
  simp only [h.able, h.unlocked, Bool.false_and, Bool.false_eq_true, if_false, cover_wid, cover_protects, h.unlatched]
  unfold covered issueCtx at *
  simp only [hp, ha, ht, Bool.false_eq_true, if_false]

/-- The same for instructions that compare nothing. -/
theorem issue_next {sg : Sig} {g : Group} {w : Wave} {s : State} (h : Issues sg g w s) (k : Ctx → State → Res) :
    issue sg s k = .next ((settle (covered sg g w s) (issueCtx sg g w) (k (issueCtx sg g w) (covered sg g w s))).countHold w.wid) :=
  issueWith_next h k

@[simp] theorem issueCtx_wid (sg : Sig) (g : Group) (w : Wave) : (issueCtx sg g w).w.wid = w.wid := by simp [issueCtx, mkCtx]

/-- The wave of an issue is the issuing wave but for its hold, its latches and the clock of its results. -/
theorem issueCtx_wave (sg : Sig) (g : Group) (w : Wave) :
    ∃ h l n q b, (issueCtx sg g w).w = { w with hold := h, latchLive := l, now := n, slow := q, barred := b } := cover_eq w sg g

@[simp] theorem issueCtx_team (sg : Sig) (g : Group) (w : Wave) : (issueCtx sg g w).w.team = w.team := by
  obtain ⟨h, l, n, q, b, e⟩ := issueCtx_wave sg g w; rw [e]; try rfl
@[simp] theorem issueCtx_blk (sg : Sig) (g : Group) (w : Wave) : (issueCtx sg g w).w.blk = w.blk := by
  obtain ⟨h, l, n, q, b, e⟩ := issueCtx_wave sg g w; rw [e]; try rfl
@[simp] theorem issueCtx_idx (sg : Sig) (g : Group) (w : Wave) : (issueCtx sg g w).w.idx = w.idx := by
  obtain ⟨h, l, n, q, b, e⟩ := issueCtx_wave sg g w; rw [e]; try rfl
@[simp] theorem issueCtx_core (sg : Sig) (g : Group) (w : Wave) : (issueCtx sg g w).w.core = w.core := by
  obtain ⟨h, l, n, q, b, e⟩ := issueCtx_wave sg g w; rw [e]; try rfl
@[simp] theorem issueCtx_slot (sg : Sig) (g : Group) (w : Wave) : (issueCtx sg g w).w.slot = w.slot := by
  obtain ⟨h, l, n, q, b, e⟩ := issueCtx_wave sg g w; rw [e]; try rfl
@[simp] theorem issueCtx_width (sg : Sig) (g : Group) (w : Wave) : (issueCtx sg g w).w.width = w.width := by
  obtain ⟨h, l, n, q, b, e⟩ := issueCtx_wave sg g w; rw [e]; try rfl
@[simp] theorem issueCtx_nregs (sg : Sig) (g : Group) (w : Wave) : (issueCtx sg g w).w.nregs = w.nregs := by
  obtain ⟨h, l, n, q, b, e⟩ := issueCtx_wave sg g w; rw [e]; try rfl
@[simp] theorem issueCtx_grade (sg : Sig) (g : Group) (w : Wave) : (issueCtx sg g w).w.grade = w.grade := by
  obtain ⟨h, l, n, q, b, e⟩ := issueCtx_wave sg g w; rw [e]; try rfl
@[simp] theorem issueCtx_sup (sg : Sig) (g : Group) (w : Wave) : (issueCtx sg g w).w.sup = w.sup := by
  obtain ⟨h, l, n, q, b, e⟩ := issueCtx_wave sg g w; rw [e]; try rfl
@[simp] theorem issueCtx_asid (sg : Sig) (g : Group) (w : Wave) : (issueCtx sg g w).w.asid = w.asid := by
  obtain ⟨h, l, n, q, b, e⟩ := issueCtx_wave sg g w; rw [e]; try rfl
@[simp] theorem issueCtx_status (sg : Sig) (g : Group) (w : Wave) : (issueCtx sg g w).w.status = w.status := by
  obtain ⟨h, l, n, q, b, e⟩ := issueCtx_wave sg g w; rw [e]; try rfl
@[simp] theorem issueCtx_lanes (sg : Sig) (g : Group) (w : Wave) : (issueCtx sg g w).w.lanes = w.lanes := by
  obtain ⟨h, l, n, q, b, e⟩ := issueCtx_wave sg g w; rw [e]; try rfl
@[simp] theorem issueCtx_sregs (sg : Sig) (g : Group) (w : Wave) : (issueCtx sg g w).w.sregs = w.sregs := by
  obtain ⟨h, l, n, q, b, e⟩ := issueCtx_wave sg g w; rw [e]; try rfl
@[simp] theorem issueCtx_fpmode (sg : Sig) (g : Group) (w : Wave) : (issueCtx sg g w).w.fpmode = w.fpmode := by
  obtain ⟨h, l, n, q, b, e⟩ := issueCtx_wave sg g w; rw [e]; try rfl
@[simp] theorem issueCtx_fpflags (sg : Sig) (g : Group) (w : Wave) : (issueCtx sg g w).w.fpflags = w.fpflags := by
  obtain ⟨h, l, n, q, b, e⟩ := issueCtx_wave sg g w; rw [e]; try rfl
@[simp] theorem issueCtx_winBase (sg : Sig) (g : Group) (w : Wave) : (issueCtx sg g w).w.winBase = w.winBase := by
  obtain ⟨h, l, n, q, b, e⟩ := issueCtx_wave sg g w; rw [e]; try rfl
@[simp] theorem issueCtx_winLimit (sg : Sig) (g : Group) (w : Wave) : (issueCtx sg g w).w.winLimit = w.winLimit := by
  obtain ⟨h, l, n, q, b, e⟩ := issueCtx_wave sg g w; rw [e]; try rfl
@[simp] theorem issueCtx_mlatch (sg : Sig) (g : Group) (w : Wave) : (issueCtx sg g w).w.mlatch = w.mlatch := by
  obtain ⟨h, l, n, q, b, e⟩ := issueCtx_wave sg g w; rw [e]; try rfl
@[simp] theorem issueCtx_pan (sg : Sig) (g : Group) (w : Wave) : (issueCtx sg g w).w.pan = w.pan := by
  obtain ⟨h, l, n, q, b, e⟩ := issueCtx_wave sg g w; rw [e]; try rfl
@[simp] theorem issueCtx_reds (sg : Sig) (g : Group) (w : Wave) : (issueCtx sg g w).w.reds = w.reds := by
  obtain ⟨h, l, n, q, b, e⟩ := issueCtx_wave sg g w; rw [e]; try rfl
@[simp] theorem issueCtx_abtW (sg : Sig) (g : Group) (w : Wave) : (issueCtx sg g w).w.abtW = w.abtW := by
  obtain ⟨h, l, n, q, b, e⟩ := issueCtx_wave sg g w; rw [e]; try rfl
@[simp] theorem issueCtx_abtB (sg : Sig) (g : Group) (w : Wave) : (issueCtx sg g w).w.abtB = w.abtB := by
  obtain ⟨h, l, n, q, b, e⟩ := issueCtx_wave sg g w; rw [e]; try rfl
@[simp] theorem issueCtx_abtT (sg : Sig) (g : Group) (w : Wave) : (issueCtx sg g w).w.abtT = w.abtT := by
  obtain ⟨h, l, n, q, b, e⟩ := issueCtx_wave sg g w; rw [e]; try rfl
@[simp] theorem issueCtx_foreign (sg : Sig) (g : Group) (w : Wave) : (issueCtx sg g w).w.foreign = w.foreign := by
  obtain ⟨h, l, n, q, b, e⟩ := issueCtx_wave sg g w; rw [e]; try rfl
@[simp] theorem issueCtx_epoch (sg : Sig) (g : Group) (w : Wave) : (issueCtx sg g w).w.epoch = w.epoch := by
  obtain ⟨h, l, n, q, b, e⟩ := issueCtx_wave sg g w; rw [e]; try rfl
@[simp] theorem issueCtx_prologue (sg : Sig) (g : Group) (w : Wave) : (issueCtx sg g w).w.prologue = w.prologue := by
  obtain ⟨h, l, n, q, b, e⟩ := issueCtx_wave sg g w; rw [e]; try rfl
@[simp] theorem issueCtx_isRack (sg : Sig) (g : Group) (w : Wave) : (issueCtx sg g w).w.isRack = w.isRack := by
  obtain ⟨h, l, n, q, b, e⟩ := issueCtx_wave sg g w; rw [e]; try rfl
@[simp] theorem issueCtx_plan (sg : Sig) (g : Group) (w : Wave) : (issueCtx sg g w).w.plan = w.plan := by
  obtain ⟨h, l, n, q, b, e⟩ := issueCtx_wave sg g w; rw [e]; try rfl
@[simp] theorem issueCtx_sectors (sg : Sig) (g : Group) (w : Wave) : (issueCtx sg g w).w.sectors = w.sectors := by
  obtain ⟨h, l, n, q, b, e⟩ := issueCtx_wave sg g w; rw [e]; try rfl
@[simp] theorem issueCtx_g (sg : Sig) (g : Group) (w : Wave) : (issueCtx sg g w).g = g := rfl
@[simp] theorem issueCtx_next (sg : Sig) (g : Group) (w : Wave) : (issueCtx sg g w).next = g.at_ + 4 := rfl

/-- The covered state seen by wave number. -/
theorem wave?_covered {sg : Sig} {g : Group} {w : Wave} {s : State} (h : s.wave? g.wid = some w) (v : Nat) :
    (covered sg g w s).wave? v = if v = w.wid then some (issueCtx sg g w).w else s.wave? v := by
  unfold covered
  rw [wave?_updWave _ _ _ _ (by simp)]
  split
  · next e => subst e; rw [wave?_wid h, h]; rfl
  · rfl

/-! ### Changes of one wave -/

/-- `u` is `s` with one wave changed by f, and perhaps marks of replaced words gone. -/
structure Touches (s u : State) (wid : Nat) (f : Wave → Wave) : Prop where
  rest : { u with waves := s.waves, errors := s.errors, softs := s.softs } = s
  marks : ∀ e ∈ u.errors, e ∈ s.errors
  softMarks : ∀ e ∈ u.softs, e ∈ s.softs
  waves : ∀ v, u.wave? v = if v = wid then (s.wave? v).map f else s.wave? v

theorem Touches.refl (s : State) (wid : Nat) : Touches s s wid id :=
  ⟨rfl, fun _ h => h, fun _ h => h, fun v => by split <;> simp⟩

theorem Touches.trans {s u t : State} {wid : Nat} {f g : Wave → Wave} (h : Touches s u wid f) (k : Touches u t wid g) : Touches s t wid (g ∘ f) := by
  refine ⟨?_, fun e he => h.marks e (k.marks e he), fun e he => h.softMarks e (k.softMarks e he), fun v => ?_⟩
  · have h1 := congrArg (fun y : State => ({ y with waves := s.waves, errors := s.errors, softs := s.softs } : State)) k.rest
    exact h1.trans h.rest
  · rw [k.waves, h.waves]
    split
    · cases s.wave? v <;> rfl
    · rfl

theorem Touches.updWave (s : State) (wid : Nat) (f : Wave → Wave) (hf : ∀ w, w.wid = wid → (f w).wid = wid) : Touches s (s.updWave wid f) wid f :=
  ⟨rfl, fun _ h => h, fun _ h => h, fun v => wave?_updWave s wid v f hf⟩

theorem Touches.covered {sg : Sig} {g : Group} {w : Wave} {s : State} (h : s.wave? g.wid = some w) :
    Touches s (covered sg g w s) w.wid fun _ => (issueCtx sg g w).w := by
  refine ⟨rfl, fun _ h => h, fun _ h => h, fun v => ?_⟩
  rw [wave?_covered h]
  split
  · next e => subst e; rw [wave?_wid h, h]; rfl
  · rfl

/-- Forgetting marks touches nothing else. -/
theorem Touches.forget (s : State) (p : StoreLoc → Bool) (wid : Nat) : Touches s (s.forget p) wid id := by
  unfold State.forget
  split
  · exact Touches.refl s _
  · exact ⟨rfl, fun e he => (List.mem_filter.1 he).1, fun e he => (List.mem_filter.1 he).1, fun v => by
      show s.wave? v = _
      split <;> simp⟩

theorem Touches.cleanRegs (s : State) (c : Ctx) (rs : List Nat) : Touches s (s.cleanRegs c rs) c.w.wid id := Touches.forget s _ _

theorem Touches.onLanes (s : State) (c : Ctx) (f : Nat → Lane → Lane) : Touches s (s.onLanes c f) c.w.wid (onActive c f) :=
  Touches.updWave s _ _ fun _ h => h

theorem Touches.put32 (s : State) (c : Ctx) (n : BitVec 1) (d : BitVec 7) (v : Nat → W32) :
    Touches s (if n = 1 then s else s.put32 c d v) c.w.wid (gets32 c n d v) := by
  by_cases hn : n = 1
  · have : gets32 c n d v = id := by funext w; unfold gets32; rw [if_pos hn]; rfl
    rw [if_pos hn, this]; exact Touches.refl s _
  · rw [if_neg hn]
    unfold State.put32
    by_cases h1 : d.toNat < 0x78
    · have : gets32 c n d v = onActive c fun i l => { l with regs := l.regs.set d.toNat (v i) } := by funext w; unfold gets32; rw [if_neg hn, if_pos h1]
      rw [if_pos h1, this]
      exact (Touches.cleanRegs s c _).trans (Touches.onLanes _ c _)
    · rw [if_neg h1]
      by_cases h2 : d.toNat < 0x7C
      · have : gets32 c n d v = fun w => { w with
            latches := w.latches.mapIdx fun j l => if j = d.toNat - 0x78 then l.mapIdx fun i x => if c.phys.contains i then v i else x else l
            latchLive := w.latchLive.mapIdx fun j b => if j = d.toNat - 0x78 then decide (w.hold > 0) else b } := by
          funext w; unfold gets32; rw [if_neg hn, if_neg h1, if_pos h2]
        rw [if_pos h2, this]
        exact Touches.updWave s _ _ fun _ h => h
      · have : gets32 c n d v = id := by funext w; unfold gets32; rw [if_neg hn, if_neg h1, if_neg h2]; rfl
        rw [if_neg h2, this]; exact Touches.refl s _

theorem lo32_eq (x : W64) : lo32 x = x.extractLsb' 0 32 := by
  apply BitVec.eq_of_getLsbD_eq; intro i hi; simp [lo32]
theorem hi32_eq (x : W64) : hi32 x = x.extractLsb' 32 32 := by
  apply BitVec.eq_of_getLsbD_eq; intro i hi; simp [hi32, hi]

theorem Touches.put64 (s : State) (c : Ctx) (n : BitVec 1) (d : BitVec 7) (v : Nat → W64) :
    Touches s (if n = 1 then s else s.put64 c d v) c.w.wid (gets64 c n d v) := by
  by_cases hn : n = 1
  · have : gets64 c n d v = id := by funext w; unfold gets64; rw [if_pos hn]; rfl
    rw [if_pos hn, this]; exact Touches.refl s _
  · rw [if_neg hn]
    unfold State.put64
    by_cases h1 : d.toNat < 0x78
    · have : gets64 c n d v = onActive c fun i l => { l with regs := (l.regs.set d.toNat (lo32 (v i))).set (d.toNat + 1) (hi32 (v i)) } := by
        funext w; unfold gets64; rw [if_neg hn, if_pos h1]; simp only [lo32_eq, hi32_eq]
      rw [if_pos h1, this]
      exact (Touches.cleanRegs s c _).trans (Touches.onLanes _ c _)
    · have : gets64 c n d v = id := by funext w; unfold gets64; rw [if_neg hn, if_neg h1]; rfl
      rw [if_neg h1, this]; exact Touches.refl s _

theorem Touches.putPred (s : State) (c : Ctx) (n : BitVec 1) (p : BitVec 3) (v : Nat → Bool) :
    Touches s (if n = 1 then s else s.putPred c p.toNat v) c.w.wid (getsPred c n p v) := by
  by_cases hn : n = 1
  · have : getsPred c n p v = id := by funext w; unfold getsPred; rw [if_pos hn]; rfl
    rw [if_pos hn, this]; exact Touches.refl s _
  · have : getsPred c n p v = onActive c fun i l => { l with preds := setPred l.preds p.toNat (v i) } := by funext w; unfold getsPred; rw [if_neg hn]
    rw [if_neg hn, this]; exact Touches.onLanes s c _

theorem Touches.putScalar (s : State) (c : Ctx) (d : BitVec 5) (v : W64) : Touches s (s.putScalar c d.toNat v) c.w.wid (getsScalar d v) :=
  (Touches.forget s _ _).trans (Touches.updWave _ _ (getsScalar d v) fun _ h => h)

theorem Touches.raise (s : State) (wid : Nat) (u : BitVec 8) : Touches s (s.raise wid u) wid (getsFlags u) := by
  unfold State.raise
  by_cases h : u = 0
  · have : getsFlags u = id := by funext w; simp [getsFlags, h]
    rw [if_pos h, this]; exact Touches.refl s _
  · rw [if_neg h]; exact Touches.updWave s _ _ fun _ h => h

theorem Touches.putRange (s : State) (c : Ctx) (d : BitVec 7) (v : Nat → List W32) : Touches s (s.putRange c d v) c.w.wid (getsRange c d v) :=
  (Touches.forget s _ _).trans (Touches.onLanes _ c _)

/-- The destinations of instructions without an nw bit. -/
theorem Touches.put32' (s : State) (c : Ctx) (d : BitVec 7) (v : Nat → W32) : Touches s (s.put32 c d v) c.w.wid (gets32 c 0 d v) := by
  simpa using Touches.put32 s c 0 d v
theorem Touches.put64' (s : State) (c : Ctx) (d : BitVec 7) (v : Nat → W64) : Touches s (s.put64 c d v) c.w.wid (gets64 c 0 d v) := by
  simpa using Touches.put64 s c 0 d v
theorem Touches.putPred' (s : State) (c : Ctx) (p : BitVec 3) (v : Nat → Bool) : Touches s (s.putPred c p.toNat v) c.w.wid (getsPred c 0 p v) := by
  simpa using Touches.putPred s c 0 p v

/-! ### Completion -/

/-- A meaning that ends in `done` completes: if `u` differs from `base` only in the issuing wave, which is `target`, so does the end, with the
lanes of the group past it. -/
theorem completes_done {base u : State} {c : Ctx} {target : Wave}
    (hrest : { u with grp := base.grp, waves := base.waves, errors := base.errors, softs := base.softs } = base) (hmarks : ∀ e ∈ u.errors, e ∈ base.errors)
    (hsofts : ∀ e ∈ u.softs, e ∈ base.softs)
    (hothers : ∀ v, v ≠ c.w.wid → u.wave? v = base.wave? v) (hself : u.wave? c.w.wid = some target) :
    Completes base (((u.advance c).over c.w.wid).countHold c.w.wid) c (pastGroup c target) := by
  have hwid : target.wid = c.w.wid := wave?_wid hself
  have key : ∀ v, (((u.advance c).over c.w.wid).countHold c.w.wid).wave? v =
      if v = c.w.wid then some ({ (({ pastGroup c target with age := 0, barred := none, rowWait := none, inWait := none, prologue := target.prologue.map fun p => { p with issued := p.issued + 1 } } : Wave).again)
        with hold := ((({ pastGroup c target with age := 0, barred := none, rowWait := none, inWait := none, prologue := target.prologue.map fun p => { p with issued := p.issued + 1 } } : Wave).again)).hold - 1 } : Wave)
      else (u.wave? v).map Wave.again := by
    intro v
    unfold State.countHold
    rw [wave?_updWave _ _ _ _ (by intro w hw; exact hw)]
    unfold State.over
    rw [wave?_wakeRetry]
    have e1 : ∀ (x : State), ({ x with grp := none } : State).wave? v = x.wave? v := fun x => rfl
    rw [e1, wave?_updWave _ _ _ _ (by intro w hw; exact hw)]
    unfold State.advance
    rw [wave?_updWave _ _ _ _ (by intro w hw; exact hw)]
    by_cases hv : v = c.w.wid
    · subst hv
      simp only [if_true, hself, Option.map_some]
      rfl
    · simp only [hv, if_false]
  refine ⟨?_, rfl, fun e he => hmarks e he, fun e he => hsofts e he, fun v hv => ?_, ?_⟩
  · exact hrest
  · rw [key, if_neg hv, hothers v hv]
    unfold OnlyWoken
    cases base.wave? v with
    | none => rfl
    | some x => exact congrArg some (again_ready x).symm
  · refine ⟨_, by rw [key, if_pos rfl], ?_⟩
    have := again_wait ({ pastGroup c target with age := 0, barred := none, rowWait := none, inWait := none, prologue := target.prologue.map fun p => { p with issued := p.issued + 1 } } : Wave) target.wait
    generalize hz : ({ pastGroup c target with age := 0, barred := none, rowWait := none, inWait := none, prologue := target.prologue.map fun p => { p with issued := p.issued + 1 } } : Wave).again = z at *
    have h2 : ({ z with age := target.age, wait := target.wait, prologue := target.prologue, barred := target.barred, rowWait := target.rowWait, inWait := target.inWait } : Wave)
        = { pastGroup c target with age := target.age, wait := target.wait, prologue := target.prologue, barred := target.barred, rowWait := target.rowWait, inWait := target.inWait } := by
      have := congrArg (fun y : Wave => ({ y with age := target.age, prologue := target.prologue, barred := target.barred, rowWait := target.rowWait, inWait := target.inWait } : Wave)) this
      exact this
    have := congrArg (fun y : Wave => ({ y with hold := target.hold } : Wave)) h2
    exact this

/-- The same for a meaning whose changes are all of the issuing wave. -/
theorem completes_touches {s u : State} {sg : Sig} {g : Group} {w : Wave} {f : Wave → Wave} (h : s.wave? g.wid = some w)
    (hu : Touches (covered sg g w s) u w.wid f) :
    Completes s (((u.advance (issueCtx sg g w)).over w.wid).countHold w.wid) (issueCtx sg g w) (pastGroup (issueCtx sg g w) (f (issueCtx sg g w).w)) := by
  have k := (Touches.covered (sg := sg) h).trans hu
  have hw := issueCtx_wid sg g w
  have := completes_done (base := s) (u := u) (c := issueCtx sg g w) (target := f (issueCtx sg g w).w)
    (by have := congrArg (fun y : State => ({ y with grp := s.grp } : State)) k.rest; exact this) k.marks k.softMarks
    (fun v hv => by rw [k.waves, if_neg (by rwa [hw] at hv)])
    (by rw [k.waves, hw, if_pos rfl, wave?_wid h, h]; rfl)
  rwa [hw] at this

/-- An instruction whose meaning ends in `done`: it changes what `base` says outside the waves, and then the issuing wave only. -/
theorem issueWith_done_base {s : State} {sg : Sig} {cmp : Ctx → Nat → List W64} {g : Group} {w : Wave} {k : Ctx → State → Res} {u : State}
    {f : Wave → Wave} (base : State) (hb : base.wave? g.wid = some w)
    (h : IssuesWith sg cmp g w s) (hk : k (issueCtx sg g w) (covered sg g w s) = .done u)
    (hu : Touches (covered sg g w base) u (issueCtx sg g w).w.wid f) :
    ∃ t, issueWith sg cmp s k = .next t ∧ Completes base t (issueCtx sg g w) (pastGroup (issueCtx sg g w) (f (issueCtx sg g w).w)) := by
  refine ⟨_, issueWith_next h k, ?_⟩
  rw [hk]
  unfold settle
  rw [issueCtx_wid] at hu ⊢
  exact completes_touches hb hu

/-- An instruction whose meaning ends in `done` with changes of the issuing wave only. -/
theorem issueWith_done {s : State} {sg : Sig} {cmp : Ctx → Nat → List W64} {g : Group} {w : Wave} {k : Ctx → State → Res} {u : State} {f : Wave → Wave}
    (h : IssuesWith sg cmp g w s) (hk : k (issueCtx sg g w) (covered sg g w s) = .done u)
    (hu : Touches (covered sg g w s) u (issueCtx sg g w).w.wid f) :
    ∃ t, issueWith sg cmp s k = .next t ∧ Completes s t (issueCtx sg g w) (pastGroup (issueCtx sg g w) (f (issueCtx sg g w).w)) :=
  issueWith_done_base s h.wave h hk hu

/-! ### Results that are not `done` -/

/-- A meaning that moves its lanes itself: the issue is over in its state. -/
theorem issueWith_moved {s : State} {sg : Sig} {cmp : Ctx → Nat → List W64} {g : Group} {w : Wave} {k : Ctx → State → Res} {u : State}
    (h : IssuesWith sg cmp g w s) (hk : k (issueCtx sg g w) (covered sg g w s) = .moved u) :
    issueWith sg cmp s k = .next ((u.over w.wid).countHold w.wid) := by
  rw [issueWith_next h k, hk]; unfold settle; rw [issueCtx_wid]

/-- The exact state that a `done` leaves. -/
theorem issueWith_done_eq {s : State} {sg : Sig} {cmp : Ctx → Nat → List W64} {g : Group} {w : Wave} {k : Ctx → State → Res} {u : State}
    (h : IssuesWith sg cmp g w s) (hk : k (issueCtx sg g w) (covered sg g w s) = .done u) :
    issueWith sg cmp s k = .next (((u.advance (issueCtx sg g w)).over w.wid).countHold w.wid) := by
  rw [issueWith_next h k, hk]; unfold settle; rw [issueCtx_wid]

/-- A meaning that detaches its wave before the group. -/
theorem issueWith_fault {s : State} {sg : Sig} {cmp : Ctx → Nat → List W64} {g : Group} {w : Wave} {k : Ctx → State → Res} {cause : Nat}
    (h : IssuesWith sg cmp g w s) (hk : k (issueCtx sg g w) (covered sg g w s) = .fault cause) :
    issueWith sg cmp s k = .next (((covered sg g w s).faultBefore (issueCtx sg g w) cause []).countHold w.wid) := by
  rw [issueWith_next h k, hk]; rfl

/-- A meaning that waits with its arrival noted. -/
theorem issueWith_hold {s : State} {sg : Sig} {cmp : Ctx → Nat → List W64} {g : Group} {w : Wave} {k : Ctx → State → Res} {u : State}
    (h : IssuesWith sg cmp g w s) (hk : k (issueCtx sg g w) (covered sg g w s) = .hold u) :
    issueWith sg cmp s k = .next (((({ u with grp := none } : State).updWave w.wid fun x => x.hang g)).countHold w.wid) := by
  rw [issueWith_next h k, hk]; unfold settle; rw [issueCtx_wid, issueCtx_g]

/-- A check of R39 that fails: the wave detaches before the group, and nothing else happens. -/
theorem issueWith_stops {s : State} {sg : Sig} {cmp : Ctx → Nat → List W64} {g : Group} {w : Wave} {cause : Nat} (k : Ctx → State → Res)
    (hg : s.grp = some g) (hw : s.wave? g.wid = some w) (hc : checkGroup sg g w = some cause) :
    issueWith sg cmp s k = .next (s.faultBefore (mkCtx g w) cause []) := by
  unfold issueWith; simp only [hg, hw, hc]

theorem Touches.advance (s : State) (c : Ctx) : Touches s (s.advance c) c.w.wid (pastGroup c) :=
  Touches.updWave s c.w.wid _ fun _ h => h

theorem Touches.steer (s : State) (c : Ctx) (f : Nat → Lane → Lane) : Touches s (s.steer c f) c.w.wid (onActive c f ∘ pastGroup c) :=
  (Touches.advance s c).trans (Touches.onLanes _ c f)

/-- A `moved` state that differs from the covered one in the issuing wave only completes. -/
theorem completes_over {s u : State} {sg : Sig} {g : Group} {w : Wave} {f : Wave → Wave} (h : s.wave? g.wid = some w)
    (hu : Touches (covered sg g w s) u w.wid f) :
    Completes s ((u.over w.wid).countHold w.wid) (issueCtx sg g w) (f (issueCtx sg g w).w) := by
  have k := (Touches.covered (sg := sg) h).trans hu
  have hw := issueCtx_wid sg g w
  have hself : u.wave? w.wid = some (f (issueCtx sg g w).w) := by rw [k.waves, if_pos rfl, wave?_wid h, h]; rfl
  generalize hx : f (issueCtx sg g w).w = target at *
  have key : ∀ v, ((u.over w.wid).countHold w.wid).wave? v =
      if v = w.wid then some ({ (({ target with age := 0, barred := none, rowWait := none, inWait := none, prologue := target.prologue.map fun p => { p with issued := p.issued + 1 } } : Wave).again)
        with hold := ((({ target with age := 0, barred := none, rowWait := none, inWait := none, prologue := target.prologue.map fun p => { p with issued := p.issued + 1 } } : Wave).again)).hold - 1 } : Wave)
      else (u.wave? v).map Wave.again := by
    intro v
    unfold State.countHold
    rw [wave?_updWave _ _ _ _ (by intro w hw; exact hw)]
    unfold State.over
    rw [wave?_wakeRetry]
    have e1 : ∀ (x : State), ({ x with grp := none } : State).wave? v = x.wave? v := fun x => rfl
    rw [e1, wave?_updWave _ _ _ _ (by intro w hw; exact hw)]
    by_cases hv : v = w.wid
    · subst hv
      simp only [if_true, hself, Option.map_some]
    · simp only [hv, if_false]
  refine ⟨?_, rfl, fun e he => k.marks e he, fun e he => k.softMarks e he, fun v hv => ?_, ?_⟩
  · have := congrArg (fun y : State => ({ y with grp := s.grp } : State)) k.rest; exact this
  · rw [hw] at hv
    rw [key, if_neg hv, k.waves, if_neg hv]
    unfold OnlyWoken
    cases s.wave? v with
    | none => rfl
    | some x => exact congrArg some (again_ready x).symm
  · refine ⟨_, by rw [hw, key, if_pos rfl], ?_⟩
    have := again_wait ({ target with age := 0, barred := none, rowWait := none, inWait := none, prologue := target.prologue.map fun p => { p with issued := p.issued + 1 } } : Wave) target.wait
    generalize hz : ({ target with age := 0, barred := none, rowWait := none, inWait := none, prologue := target.prologue.map fun p => { p with issued := p.issued + 1 } } : Wave).again = z at *
    have h2 : ({ z with age := target.age, wait := target.wait, prologue := target.prologue, barred := target.barred, rowWait := target.rowWait, inWait := target.inWait } : Wave)
        = { target with age := target.age, wait := target.wait, prologue := target.prologue, barred := target.barred, rowWait := target.rowWait, inWait := target.inWait } := by
      have := congrArg (fun y : Wave => ({ y with age := target.age, prologue := target.prologue, barred := target.barred, rowWait := target.rowWait, inWait := target.inWait } : Wave)) this
      exact this
    have := congrArg (fun y : Wave => ({ y with hold := target.hold } : Wave)) h2
    exact this

/-- The same over a base that already holds what the instruction changes outside the issuing wave. -/
theorem issueWith_moved_base {s : State} {sg : Sig} {cmp : Ctx → Nat → List W64} {g : Group} {w : Wave} {k : Ctx → State → Res} {u : State}
    {f : Wave → Wave} (base : State) (hb : base.wave? g.wid = some w) (h : IssuesWith sg cmp g w s)
    (hk : k (issueCtx sg g w) (covered sg g w s) = .moved u) (hu : Touches (covered sg g w base) u (issueCtx sg g w).w.wid f) :
    ∃ t, issueWith sg cmp s k = .next t ∧ Completes base t (issueCtx sg g w) (f (issueCtx sg g w).w) :=
  ⟨_, issueWith_moved h hk, completes_over hb (by rwa [issueCtx_wid] at hu)⟩

end Sys2Proof.Laws
end

