-- ==== Sys2Proof/Laws/Memory.lean ====
section
/-! SUPPORT. The laws of a byte store: reading after writing, and that every memory operation keeps the canonical form. -/

namespace Sys2Proof.Machine

/-- Every address of the list lies above k. -/
def Above (k : Nat) (m : Cells) : Prop := ∀ e ∈ m, k < e.1

theorem wf_cons_iff (a : Nat) (v : Byte) (m : Cells) : Memory.wf ((a, v) :: m) = true ↔ v ≠ 0 ∧ Above a m ∧ Memory.wf m = true := by
  induction m generalizing a v with
  | nil => simp [Memory.wf, Above]
  | cons e r ih =>
    obtain ⟨b, w⟩ := e
    have hr := ih b w
    simp only [Memory.wf, Bool.and_eq_true, decide_eq_true_eq, Above, List.mem_cons, forall_eq_or_imp]
    constructor
    · rintro ⟨⟨hv, hab⟩, hwf⟩
      exact ⟨hv, ⟨hab, fun e he => lt_trans hab ((hr.1 hwf).2.1 e he)⟩, hwf⟩
    · rintro ⟨hv, ⟨hab, -⟩, hwf⟩
      exact ⟨⟨hv, hab⟩, hwf⟩

theorem wf_nil : Memory.wf [] = true := rfl

theorem above_insertCell (k a : Nat) (v : Byte) (m : Cells) (hk : k < a) (h : Above k m) : Above k (insertCell a v m) := by
  induction m with
  | nil => simpa [insertCell, Above] using hk
  | cons e r ih =>
    obtain ⟨b, w⟩ := e
    simp only [Above, List.mem_cons, forall_eq_or_imp] at h
    simp only [insertCell]
    split_ifs
    · simp only [Above, List.mem_cons, forall_eq_or_imp]; exact ⟨hk, h⟩
    · simp only [Above, List.mem_cons, forall_eq_or_imp]; exact ⟨hk, h.2⟩
    · simp only [Above, List.mem_cons, forall_eq_or_imp]; exact ⟨h.1, ih h.2⟩

theorem wf_insertCell (a : Nat) (v : Byte) (m : Cells) (hv : v ≠ 0) (h : Memory.wf m = true) : Memory.wf (insertCell a v m) = true := by
  induction m with
  | nil => simpa [insertCell, Memory.wf] using hv
  | cons e r ih =>
    obtain ⟨b, w⟩ := e
    have hc := (wf_cons_iff b w r).1 h
    simp only [insertCell]
    split_ifs with h1 h2
    · refine (wf_cons_iff _ _ _).2 ⟨hv, ?_, h⟩
      simp only [Above, List.mem_cons, forall_eq_or_imp]
      exact ⟨h1, fun e he => lt_trans h1 (hc.2.1 e he)⟩
    · subst h2; exact (wf_cons_iff _ _ _).2 ⟨hv, hc.2⟩
    · exact (wf_cons_iff _ _ _).2 ⟨hc.1, above_insertCell b a v r (by omega) hc.2.1, ih hc.2.2⟩

theorem eraseCell_subset (a : Nat) (m : Cells) : ∀ e ∈ eraseCell a m, e ∈ m := by
  induction m with
  | nil => simp [eraseCell]
  | cons e r ih =>
    obtain ⟨b, w⟩ := e
    simp only [eraseCell]
    split_ifs
    · intro e he; exact List.mem_cons_of_mem _ he
    · intro e he
      rcases List.mem_cons.1 he with rfl | he
      · exact List.mem_cons_self
      · exact List.mem_cons_of_mem _ (ih e he)

theorem wf_eraseCell (a : Nat) (m : Cells) (h : Memory.wf m = true) : Memory.wf (eraseCell a m) = true := by
  induction m with
  | nil => rfl
  | cons e r ih =>
    obtain ⟨b, w⟩ := e
    have hc := (wf_cons_iff b w r).1 h
    simp only [eraseCell]
    split_ifs
    · exact hc.2.2
    · exact (wf_cons_iff _ _ _).2 ⟨hc.1, fun e he => hc.2.1 e (eraseCell_subset a r e he), ih hc.2.2⟩

theorem wf_put (m : Cells) (a : Nat) (v : Byte) (h : Memory.wf m = true) : Memory.wf (Cells.put m a v) = true := by
  unfold Cells.put
  split_ifs with hv
  · exact wf_eraseCell a m h
  · exact wf_insertCell a v m hv h

theorem wf_putBytes (bs : List Byte) : ∀ (m : Cells) (a : Nat), Memory.wf m = true → Memory.wf (Cells.putBytes m a bs) = true := by
  induction bs with
  | nil => intro m a h; exact h
  | cons b bs ih => intro m a h; exact ih _ _ (wf_put m a b h)

theorem wf_putAll (ws : List Host.Cell) : ∀ m : Cells, Memory.wf m = true → Memory.wf (Cells.putAll m ws) = true := by
  induction ws with
  | nil => intro m h; exact h
  | cons e ws ih => intro m h; exact ih _ (wf_put m e.1 e.2 h)

theorem wf_filter (p : Host.Cell → Bool) (m : Cells) (h : Memory.wf m = true) : Memory.wf (m.filter p) = true := by
  induction m with
  | nil => rfl
  | cons e r ih =>
    obtain ⟨b, w⟩ := e
    have hc := (wf_cons_iff b w r).1 h
    rw [List.filter_cons]
    split_ifs
    · exact (wf_cons_iff _ _ _).2 ⟨hc.1, fun e he => hc.2.1 e (List.mem_filter.1 he).1, ih hc.2.2⟩
    · exact ih hc.2.2

theorem wf_reset : Memory.wf State.reset.mem = true := rfl

/-! ### Reading after writing -/

theorem get_above (k : Nat) (m : Cells) (h : Above k m) : ∀ a ≤ k, Cells.get m a = 0 := by
  induction m with
  | nil => intro a _; rfl
  | cons e r ih =>
    obtain ⟨b, w⟩ := e
    simp only [Above, List.mem_cons, forall_eq_or_imp] at h
    intro a ha
    simp only [Cells.get]
    rw [if_neg (by omega)]
    exact ih h.2 a ha

theorem get_insertCell (m : Cells) (a : Nat) (v : Byte) (b : Nat) : Cells.get (insertCell a v m) b = if a = b then v else Cells.get m b := by
  induction m with
  | nil => rfl
  | cons e r ih =>
    obtain ⟨k, w⟩ := e
    simp only [insertCell]
    by_cases h1 : a < k
    · simp [h1, Cells.get]
    · rw [if_neg h1]
      by_cases h2 : a = k
      · subst h2; rw [if_pos rfl]; simp only [Cells.get]
        by_cases h3 : a = b <;> simp [h3]
      · rw [if_neg h2]
        by_cases h3 : k = b
        · subst h3; simp [Cells.get, h2]
        · simp [Cells.get, h3, ih]

theorem get_eraseCell (m : Cells) (a : Nat) (h : Memory.wf m = true) (b : Nat) :
    Cells.get (eraseCell a m) b = if a = b then 0 else Cells.get m b := by
  induction m with
  | nil => simp [eraseCell, Cells.get]
  | cons e r ih =>
    obtain ⟨k, w⟩ := e
    have hc := (wf_cons_iff k w r).1 h
    simp only [eraseCell]
    by_cases h1 : k = a
    · subst h1; rw [if_pos rfl]
      by_cases h2 : k = b
      · subst h2; rw [if_pos rfl]; exact get_above k r hc.2.1 k le_rfl
      · simp [Cells.get, h2]
    · rw [if_neg h1]
      by_cases h2 : k = b
      · subst h2; simp [Cells.get, Ne.symm h1]
      · simp [Cells.get, h2, ih hc.2.2]

/-- A byte reads as the last value written to its address, and as before everywhere else. -/
theorem get_put (m : Cells) (a : Nat) (v : Byte) (h : Memory.wf m = true) (b : Nat) :
    Cells.get (Cells.put m a v) b = if a = b then v else Cells.get m b := by
  unfold Cells.put
  by_cases hv : v = 0
  · rw [if_pos hv, get_eraseCell m a h, hv]
  · rw [if_neg hv, get_insertCell]

/-- Bytes outside those written read as before. -/
theorem get_putBytes_outside (bs : List Byte) : ∀ (m : Cells) (a b : Nat), Memory.wf m = true → (b < a ∨ a + bs.length ≤ b) →
    Cells.get (Cells.putBytes m a bs) b = Cells.get m b := by
  induction bs with
  | nil => intro m a b _ _; rfl
  | cons x bs ih =>
    intro m a b h hb
    simp only [List.length_cons] at hb
    rw [Cells.putBytes, ih _ _ _ (wf_put m a x h) (by omega), get_put m a x h, if_neg (by omega)]

/-- Bytes that no entry names read as before. -/
theorem get_putAll_outside (ws : List Host.Cell) : ∀ (m : Cells) (b : Nat), Memory.wf m = true → (∀ e ∈ ws, e.1 ≠ b) →
    Cells.get (Cells.putAll m ws) b = Cells.get m b := by
  induction ws with
  | nil => intro m b _ _; rfl
  | cons e ws ih =>
    intro m b h hb
    have h1 := hb e List.mem_cons_self
    show Cells.get (Cells.putAll (Cells.put m e.1 e.2) ws) b = _
    rw [ih _ _ (wf_put m e.1 e.2 h) (fun x hx => hb x (List.mem_cons_of_mem _ hx)), get_put m e.1 e.2 h, if_neg h1]

/-- Memories in canonical form that read alike are equal. -/
theorem ext_of_get (m n : Cells) (hm : Memory.wf m = true) (hn : Memory.wf n = true) (h : ∀ a, Cells.get m a = Cells.get n a) : m = n := by
  induction m generalizing n with
  | nil =>
    cases n with
    | nil => rfl
    | cons e r =>
      obtain ⟨b, w⟩ := e
      have hc := (wf_cons_iff b w r).1 hn
      exact absurd (by simpa [Cells.get] using (h b).symm) hc.1
  | cons e r ih =>
    obtain ⟨b, w⟩ := e
    have hc := (wf_cons_iff b w r).1 hm
    cases n with
    | nil => exact absurd (by simpa [Cells.get] using h b) hc.1
    | cons f q =>
      obtain ⟨k, x⟩ := f
      have hd := (wf_cons_iff k x q).1 hn
      have hbk : b = k := by
        rcases lt_trichotomy b k with hl | he | hg
        · exfalso
          have h1 := h b
          simp only [Cells.get, if_true, if_neg (by omega : ¬k = b)] at h1
          rw [get_above k q hd.2.1 b (by omega)] at h1; exact hc.1 h1
        · exact he
        · exfalso
          have h1 := h k
          simp only [Cells.get, if_true, if_neg (by omega : ¬b = k)] at h1
          rw [get_above b r hc.2.1 k (by omega)] at h1; exact hd.1 h1.symm
      subst hbk
      have hwx : w = x := by simpa [Cells.get] using h b
      subst hwx
      rw [ih q hc.2.2 hd.2.2 fun a => ?_]
      by_cases hab : b = a
      · subst hab; rw [get_above b r hc.2.1 b le_rfl, get_above b q hd.2.1 b le_rfl]
      · simpa [Cells.get, hab] using h a

/-! ### Writes of global memory keep its form -/

@[simp] theorem storeLine_mem (s : State) (e : Line) : (s.storeLine e).mem = s.mem := rfl
@[simp] theorem leaveCache_mem (s : State) (e : Line) : (s.leaveCache e).mem = s.mem := rfl
@[simp] theorem expelLine_mem (s : State) (e : Line) : (s.expelLine e).mem = s.mem := by
  unfold State.expelLine
  split <;> simp
@[simp] theorem setAside_mem (s : State) (e : Line) : (s.setAside e).mem = s.mem := rfl
@[simp] theorem hitLine_mem (s : State) (l : Nat) : (s.hitLine l).mem = s.mem := rfl
@[simp] theorem roomBelow_mem (s : State) (u l : Nat) : (s.roomBelow u l).mem = s.mem := by
  unfold State.roomBelow
  split
  · rfl
  · split <;> simp
@[simp] theorem sinkLine_mem (s : State) (e : Line) : (s.sinkLine e).mem = s.mem := by simp [State.sinkLine]
@[simp] theorem room_mem (s : State) (b : Bool) (u l : Nat) : (s.room b u l).mem = s.mem := by
  unfold State.room
  repeat' split
  all_goals simp
@[simp] theorem addLine_mem (s : State) (e : Line) : (s.addLine e).mem = s.mem := by simp [State.addLine]
@[simp] theorem noteDirty_mem (s : State) (wr : Writer) (l : Nat) (b : Cells) : (s.noteDirty wr l b).mem = s.mem := by
  unfold State.noteDirty
  dsimp only
  cases s.lines.find? fun e => e.dpa / 64 == l with
  | none => simp
  | some e =>
    dsimp only
    generalize (wr.l2.isNone || _) = stays
    cases stays <;> simp
@[simp] theorem clearPoison_mem (s : State) (ws : List Host.Cell) : (s.clearPoison ws).mem = s.mem := by
  unfold State.clearPoison
  split <;> rfl
@[simp] theorem liftErrors_mem (s : State) (wr : Writer) (ls : List Nat) : (s.liftErrors wr ls).mem = s.mem := by
  unfold State.liftErrors
  split <;> rfl

/-- A fold of steps that leave global memory alone leaves it alone. -/
theorem foldl_mem {α : Type} (f : State → α → State) (h : ∀ s a, (f s a).mem = s.mem) (l : List α) : ∀ s : State, (l.foldl f s).mem = s.mem := by
  induction l with
  | nil => intro s; rfl
  | cons a l ih => intro s; rw [List.foldl_cons, ih, h]

/-- A page whose cleared bit is set is filled with zeros: global memory keeps its form. -/
theorem wf_fillCleared (s : State) (page : Nat) (h : Memory.wf s.mem = true) : Memory.wf (s.fillCleared page).mem = true := by
  unfold State.fillCleared
  split
  · exact wf_filter _ _ h
  · exact h
theorem wf_fillAll (l : List Nat) : ∀ s : State, Memory.wf s.mem = true → Memory.wf (l.foldl State.fillCleared s).mem = true := by
  induction l with
  | nil => intro s h; exact h
  | cons a l ih => intro s h; exact ih _ (wf_fillCleared s a h)

theorem wf_writeMem (s : State) (wr : Writer) (ws : List Host.Cell) (h : Memory.wf s.mem = true) : Memory.wf (s.writeMem wr ws).mem = true := by
  unfold State.writeMem
  dsimp only
  rw [foldl_mem _ (fun _ _ => noteDirty_mem _ _ _ _), foldl_mem _ (fun _ _ => hitLine_mem _ _), clearPoison_mem, liftErrors_mem]
  exact wf_putAll _ _ (wf_fillAll _ _ h)
theorem wf_writeUncached (s : State) (wr : Writer) (ws : List Host.Cell) (h : Memory.wf s.mem = true) : Memory.wf (s.writeUncached wr ws).mem = true := by
  unfold State.writeUncached
  dsimp only
  rw [clearPoison_mem, foldl_mem _ fun s e => expelLine_mem s e]
  exact wf_putAll _ _ (wf_fillAll _ _ h)
theorem wf_writeAs (s : State) (wr : Writer) (ws : List Host.Cell) (h : Memory.wf s.mem = true) : Memory.wf (s.writeAs wr ws).mem = true := by
  unfold State.writeAs
  dsimp only
  split
  · exact wf_writeMem _ _ _ h
  · exact wf_writeUncached _ _ _ (wf_writeMem _ _ _ h)
end Sys2Proof.Machine
end

