-- ==== Sys2Proof/Laws/Shapes.lean ====
section
/-! SUPPORT. What each arithmetic shape does when its group issues: the issuing wave's destination, its flags, and nothing else. -/

namespace Sys2Proof.Laws

open Sys2Proof.Machine Sys2Proof.Safety

/-- A meaning without flags whose one write is the wave's. -/
theorem issue_write {s : State} {sg : Sig} {g : Group} {w : Wave} {wr : Ctx → State → State} {f : Ctx → Wave → Wave} (h : Issues sg g w s)
    (hw : ∀ c u, Touches u (wr c u) c.w.wid (f c)) :
    ∃ t, issue sg s (fun c s => .done (wr c s)) = .next t ∧
      Completes s t (issueCtx sg g w) (pastGroup (issueCtx sg g w) (f (issueCtx sg g w) (issueCtx sg g w).w)) :=
  issueWith_done h rfl (hw _ _)

/-- A meaning with flags and no enabled exception (R77, R78). -/
theorem issue_flags {s : State} {sg : Sig} {g : Group} {w : Wave} {fl : Ctx → Nat → BitVec 8} {wr : Ctx → State → State} {f : Ctx → Wave → Wave}
    (h : Issues sg g w s) (hn : trapCause (issueCtx sg g w).w.fpmode (flagUnion (issueCtx sg g w).act (fl (issueCtx sg g w))) = none)
    (hw : ∀ c u, Touches u (wr c u) c.w.wid (f c)) :
    ∃ t, issue sg s (fun c s => finishFlags c s (fl c) (wr c)) = .next t ∧
      Completes s t (issueCtx sg g w) (pastGroup (issueCtx sg g w)
        ((getsFlags (flagUnion (issueCtx sg g w).act (fl (issueCtx sg g w))) ∘ f (issueCtx sg g w)) (issueCtx sg g w).w)) := by
  refine issueWith_done h (u := ((wr (issueCtx sg g w) (covered sg g w s)).raise (issueCtx sg g w).w.wid
    (flagUnion (issueCtx sg g w).act (fl (issueCtx sg g w))))) ?_ ((hw _ _).trans (Touches.raise _ _ _))
  unfold finishFlags
  dsimp only
  rw [hn]

end Sys2Proof.Laws
end

