-- ==== Sys2Proof/Laws/State.lean ====
section
/-! SUPPORT. What each named update of the state leaves in each of its fields: one lemma for each field and update. -/

namespace Sys2Proof.Machine

variable (s : State)

/-! ### `State.setWave` -/

@[simp] theorem State.setWave_agenda (x : Wave) : (s.setWave x).agenda = s.agenda := rfl
@[simp] theorem State.setWave_turn (x : Wave) : (s.setWave x).turn = s.turn := rfl
@[simp] theorem State.setWave_nextId (x : Wave) : (s.setWave x).nextId = s.nextId := rfl
@[simp] theorem State.setWave_free (x : Wave) : (s.setWave x).free = s.free := rfl
@[simp] theorem State.setWave_grp (x : Wave) : (s.setWave x).grp = s.grp := rfl
@[simp] theorem State.setWave_waves (x : Wave) : (s.setWave x).waves = updWhere s.waves (fun y => y.wid == x.wid) fun _ => x := rfl
@[simp] theorem State.setWave_blocks (x : Wave) : (s.setWave x).blocks = s.blocks := rfl
@[simp] theorem State.setWave_teams (x : Wave) : (s.setWave x).teams = s.teams := rfl
@[simp] theorem State.setWave_resvs (x : Wave) : (s.setWave x).resvs = s.resvs := rfl
@[simp] theorem State.setWave_mmas (x : Wave) : (s.setWave x).mmas = s.mmas := rfl
@[simp] theorem State.setWave_copies (x : Wave) : (s.setWave x).copies = s.copies := rfl
@[simp] theorem State.setWave_remotes (x : Wave) : (s.setWave x).remotes = s.remotes := rfl
@[simp] theorem State.setWave_bankOps (x : Wave) : (s.setWave x).bankOps = s.bankOps := rfl
@[simp] theorem State.setWave_idle (x : Wave) : (s.setWave x).idle = s.idle := rfl
@[simp] theorem State.setWave_issued (x : Wave) : (s.setWave x).issued = s.issued := rfl
@[simp] theorem State.setWave_mem (x : Wave) : (s.setWave x).mem = s.mem := rfl
@[simp] theorem State.setWave_banks (x : Wave) : (s.setWave x).banks = s.banks := rfl
@[simp] theorem State.setWave_cellBlocks (x : Wave) : (s.setWave x).cellBlocks = s.cellBlocks := rfl
@[simp] theorem State.setWave_lines (x : Wave) : (s.setWave x).lines = s.lines := rfl
@[simp] theorem State.setWave_tlb (x : Wave) : (s.setWave x).tlb = s.tlb := rfl
@[simp] theorem State.setWave_errors (x : Wave) : (s.setWave x).errors = s.errors := rfl
@[simp] theorem State.setWave_found (x : Wave) : (s.setWave x).found = s.found := rfl
@[simp] theorem State.setWave_mismatch (x : Wave) : (s.setWave x).mismatch = s.mismatch := rfl
@[simp] theorem State.setWave_tags (x : Wave) : (s.setWave x).tags = s.tags := rfl
@[simp] theorem State.setWave_softs (x : Wave) : (s.setWave x).softs = s.softs := rfl
@[simp] theorem State.setWave_records (x : Wave) : (s.setWave x).records = s.records := rfl
@[simp] theorem State.setWave_gens (x : Wave) : (s.setWave x).gens = s.gens := rfl
@[simp] theorem State.setWave_poolWait (x : Wave) : (s.setWave x).poolWait = s.poolWait := rfl
@[simp] theorem State.setWave_tasks (x : Wave) : (s.setWave x).tasks = s.tasks := rfl
@[simp] theorem State.setWave_launches (x : Wave) : (s.setWave x).launches = s.launches := rfl
@[simp] theorem State.setWave_cmds (x : Wave) : (s.setWave x).cmds = s.cmds := rfl
@[simp] theorem State.setWave_doms (x : Wave) : (s.setWave x).doms = s.doms := rfl
@[simp] theorem State.setWave_ks (x : Wave) : (s.setWave x).ks = s.ks := rfl
@[simp] theorem State.setWave_ksReqs (x : Wave) : (s.setWave x).ksReqs = s.ksReqs := rfl
@[simp] theorem State.setWave_remoteDue (x : Wave) : (s.setWave x).remoteDue = s.remoteDue := rfl
@[simp] theorem State.setWave_parts (x : Wave) : (s.setWave x).parts = s.parts := rfl
@[simp] theorem State.setWave_vfs (x : Wave) : (s.setWave x).vfs = s.vfs := rfl
@[simp] theorem State.setWave_asids (x : Wave) : (s.setWave x).asids = s.asids := rfl
@[simp] theorem State.setWave_hosts (x : Wave) : (s.setWave x).hosts = s.hosts := rfl
@[simp] theorem State.setWave_pages (x : Wave) : (s.setWave x).pages = s.pages := rfl
@[simp] theorem State.setWave_cleared (x : Wave) : (s.setWave x).cleared = s.cleared := rfl
@[simp] theorem State.setWave_retired (x : Wave) : (s.setWave x).retired = s.retired := rfl
@[simp] theorem State.setWave_spared (x : Wave) : (s.setWave x).spared = s.spared := rfl
@[simp] theorem State.setWave_sparesUsed (x : Wave) : (s.setWave x).sparesUsed = s.sparesUsed := rfl
@[simp] theorem State.setWave_fills (x : Wave) : (s.setWave x).fills = s.fills := rfl
@[simp] theorem State.setWave_softCount (x : Wave) : (s.setWave x).softCount = s.softCount := rfl
@[simp] theorem State.setWave_ways (x : Wave) : (s.setWave x).ways = s.ways := rfl
@[simp] theorem State.setWave_errlog (x : Wave) : (s.setWave x).errlog = s.errlog := rfl
@[simp] theorem State.setWave_spokeOut (x : Wave) : (s.setWave x).spokeOut = s.spokeOut := rfl
@[simp] theorem State.setWave_spokeReqs (x : Wave) : (s.setWave x).spokeReqs = s.spokeReqs := rfl
@[simp] theorem State.setWave_msix (x : Wave) : (s.setWave x).msix = s.msix := rfl
@[simp] theorem State.setWave_hostReply (x : Wave) : (s.setWave x).hostReply = s.hostReply := rfl
@[simp] theorem State.setWave_hostWait (x : Wave) : (s.setWave x).hostWait = s.hostWait := rfl
@[simp] theorem State.setWave_assist (x : Wave) : (s.setWave x).assist = s.assist := rfl
@[simp] theorem State.setWave_power (x : Wave) : (s.setWave x).power = s.power := rfl

/-! ### `State.setBlock` -/

@[simp] theorem State.setBlock_agenda (x : Block) : (s.setBlock x).agenda = s.agenda := rfl
@[simp] theorem State.setBlock_turn (x : Block) : (s.setBlock x).turn = s.turn := rfl
@[simp] theorem State.setBlock_nextId (x : Block) : (s.setBlock x).nextId = s.nextId := rfl
@[simp] theorem State.setBlock_free (x : Block) : (s.setBlock x).free = s.free := rfl
@[simp] theorem State.setBlock_grp (x : Block) : (s.setBlock x).grp = s.grp := rfl
@[simp] theorem State.setBlock_waves (x : Block) : (s.setBlock x).waves = s.waves := rfl
@[simp] theorem State.setBlock_blocks (x : Block) : (s.setBlock x).blocks = updWhere s.blocks (fun y => y.team == x.team && y.idx == x.idx) fun _ => x := rfl
@[simp] theorem State.setBlock_teams (x : Block) : (s.setBlock x).teams = s.teams := rfl
@[simp] theorem State.setBlock_resvs (x : Block) : (s.setBlock x).resvs = s.resvs := rfl
@[simp] theorem State.setBlock_mmas (x : Block) : (s.setBlock x).mmas = s.mmas := rfl
@[simp] theorem State.setBlock_copies (x : Block) : (s.setBlock x).copies = s.copies := rfl
@[simp] theorem State.setBlock_remotes (x : Block) : (s.setBlock x).remotes = s.remotes := rfl
@[simp] theorem State.setBlock_bankOps (x : Block) : (s.setBlock x).bankOps = s.bankOps := rfl
@[simp] theorem State.setBlock_idle (x : Block) : (s.setBlock x).idle = s.idle := rfl
@[simp] theorem State.setBlock_issued (x : Block) : (s.setBlock x).issued = s.issued := rfl
@[simp] theorem State.setBlock_mem (x : Block) : (s.setBlock x).mem = s.mem := rfl
@[simp] theorem State.setBlock_banks (x : Block) : (s.setBlock x).banks = s.banks := rfl
@[simp] theorem State.setBlock_cellBlocks (x : Block) : (s.setBlock x).cellBlocks = s.cellBlocks := rfl
@[simp] theorem State.setBlock_lines (x : Block) : (s.setBlock x).lines = s.lines := rfl
@[simp] theorem State.setBlock_tlb (x : Block) : (s.setBlock x).tlb = s.tlb := rfl
@[simp] theorem State.setBlock_errors (x : Block) : (s.setBlock x).errors = s.errors := rfl
@[simp] theorem State.setBlock_found (x : Block) : (s.setBlock x).found = s.found := rfl
@[simp] theorem State.setBlock_mismatch (x : Block) : (s.setBlock x).mismatch = s.mismatch := rfl
@[simp] theorem State.setBlock_tags (x : Block) : (s.setBlock x).tags = s.tags := rfl
@[simp] theorem State.setBlock_softs (x : Block) : (s.setBlock x).softs = s.softs := rfl
@[simp] theorem State.setBlock_records (x : Block) : (s.setBlock x).records = s.records := rfl
@[simp] theorem State.setBlock_gens (x : Block) : (s.setBlock x).gens = s.gens := rfl
@[simp] theorem State.setBlock_poolWait (x : Block) : (s.setBlock x).poolWait = s.poolWait := rfl
@[simp] theorem State.setBlock_tasks (x : Block) : (s.setBlock x).tasks = s.tasks := rfl
@[simp] theorem State.setBlock_launches (x : Block) : (s.setBlock x).launches = s.launches := rfl
@[simp] theorem State.setBlock_cmds (x : Block) : (s.setBlock x).cmds = s.cmds := rfl
@[simp] theorem State.setBlock_doms (x : Block) : (s.setBlock x).doms = s.doms := rfl
@[simp] theorem State.setBlock_ks (x : Block) : (s.setBlock x).ks = s.ks := rfl
@[simp] theorem State.setBlock_ksReqs (x : Block) : (s.setBlock x).ksReqs = s.ksReqs := rfl
@[simp] theorem State.setBlock_remoteDue (x : Block) : (s.setBlock x).remoteDue = s.remoteDue := rfl
@[simp] theorem State.setBlock_parts (x : Block) : (s.setBlock x).parts = s.parts := rfl
@[simp] theorem State.setBlock_vfs (x : Block) : (s.setBlock x).vfs = s.vfs := rfl
@[simp] theorem State.setBlock_asids (x : Block) : (s.setBlock x).asids = s.asids := rfl
@[simp] theorem State.setBlock_hosts (x : Block) : (s.setBlock x).hosts = s.hosts := rfl
@[simp] theorem State.setBlock_pages (x : Block) : (s.setBlock x).pages = s.pages := rfl
@[simp] theorem State.setBlock_cleared (x : Block) : (s.setBlock x).cleared = s.cleared := rfl
@[simp] theorem State.setBlock_retired (x : Block) : (s.setBlock x).retired = s.retired := rfl
@[simp] theorem State.setBlock_spared (x : Block) : (s.setBlock x).spared = s.spared := rfl
@[simp] theorem State.setBlock_sparesUsed (x : Block) : (s.setBlock x).sparesUsed = s.sparesUsed := rfl
@[simp] theorem State.setBlock_fills (x : Block) : (s.setBlock x).fills = s.fills := rfl
@[simp] theorem State.setBlock_softCount (x : Block) : (s.setBlock x).softCount = s.softCount := rfl
@[simp] theorem State.setBlock_ways (x : Block) : (s.setBlock x).ways = s.ways := rfl
@[simp] theorem State.setBlock_errlog (x : Block) : (s.setBlock x).errlog = s.errlog := rfl
@[simp] theorem State.setBlock_spokeOut (x : Block) : (s.setBlock x).spokeOut = s.spokeOut := rfl
@[simp] theorem State.setBlock_spokeReqs (x : Block) : (s.setBlock x).spokeReqs = s.spokeReqs := rfl
@[simp] theorem State.setBlock_msix (x : Block) : (s.setBlock x).msix = s.msix := rfl
@[simp] theorem State.setBlock_hostReply (x : Block) : (s.setBlock x).hostReply = s.hostReply := rfl
@[simp] theorem State.setBlock_hostWait (x : Block) : (s.setBlock x).hostWait = s.hostWait := rfl
@[simp] theorem State.setBlock_assist (x : Block) : (s.setBlock x).assist = s.assist := rfl
@[simp] theorem State.setBlock_power (x : Block) : (s.setBlock x).power = s.power := rfl

/-! ### `State.setTeam` -/

@[simp] theorem State.setTeam_agenda (x : Team) : (s.setTeam x).agenda = s.agenda := rfl
@[simp] theorem State.setTeam_turn (x : Team) : (s.setTeam x).turn = s.turn := rfl
@[simp] theorem State.setTeam_nextId (x : Team) : (s.setTeam x).nextId = s.nextId := rfl
@[simp] theorem State.setTeam_free (x : Team) : (s.setTeam x).free = s.free := rfl
@[simp] theorem State.setTeam_grp (x : Team) : (s.setTeam x).grp = s.grp := rfl
@[simp] theorem State.setTeam_waves (x : Team) : (s.setTeam x).waves = s.waves := rfl
@[simp] theorem State.setTeam_blocks (x : Team) : (s.setTeam x).blocks = s.blocks := rfl
@[simp] theorem State.setTeam_teams (x : Team) : (s.setTeam x).teams = updWhere s.teams (fun y => y.id == x.id) fun _ => x := rfl
@[simp] theorem State.setTeam_resvs (x : Team) : (s.setTeam x).resvs = s.resvs := rfl
@[simp] theorem State.setTeam_mmas (x : Team) : (s.setTeam x).mmas = s.mmas := rfl
@[simp] theorem State.setTeam_copies (x : Team) : (s.setTeam x).copies = s.copies := rfl
@[simp] theorem State.setTeam_remotes (x : Team) : (s.setTeam x).remotes = s.remotes := rfl
@[simp] theorem State.setTeam_bankOps (x : Team) : (s.setTeam x).bankOps = s.bankOps := rfl
@[simp] theorem State.setTeam_idle (x : Team) : (s.setTeam x).idle = s.idle := rfl
@[simp] theorem State.setTeam_issued (x : Team) : (s.setTeam x).issued = s.issued := rfl
@[simp] theorem State.setTeam_mem (x : Team) : (s.setTeam x).mem = s.mem := rfl
@[simp] theorem State.setTeam_banks (x : Team) : (s.setTeam x).banks = s.banks := rfl
@[simp] theorem State.setTeam_cellBlocks (x : Team) : (s.setTeam x).cellBlocks = s.cellBlocks := rfl
@[simp] theorem State.setTeam_lines (x : Team) : (s.setTeam x).lines = s.lines := rfl
@[simp] theorem State.setTeam_tlb (x : Team) : (s.setTeam x).tlb = s.tlb := rfl
@[simp] theorem State.setTeam_errors (x : Team) : (s.setTeam x).errors = s.errors := rfl
@[simp] theorem State.setTeam_found (x : Team) : (s.setTeam x).found = s.found := rfl
@[simp] theorem State.setTeam_mismatch (x : Team) : (s.setTeam x).mismatch = s.mismatch := rfl
@[simp] theorem State.setTeam_tags (x : Team) : (s.setTeam x).tags = s.tags := rfl
@[simp] theorem State.setTeam_softs (x : Team) : (s.setTeam x).softs = s.softs := rfl
@[simp] theorem State.setTeam_records (x : Team) : (s.setTeam x).records = s.records := rfl
@[simp] theorem State.setTeam_gens (x : Team) : (s.setTeam x).gens = s.gens := rfl
@[simp] theorem State.setTeam_poolWait (x : Team) : (s.setTeam x).poolWait = s.poolWait := rfl
@[simp] theorem State.setTeam_tasks (x : Team) : (s.setTeam x).tasks = s.tasks := rfl
@[simp] theorem State.setTeam_launches (x : Team) : (s.setTeam x).launches = s.launches := rfl
@[simp] theorem State.setTeam_cmds (x : Team) : (s.setTeam x).cmds = s.cmds := rfl
@[simp] theorem State.setTeam_doms (x : Team) : (s.setTeam x).doms = s.doms := rfl
@[simp] theorem State.setTeam_ks (x : Team) : (s.setTeam x).ks = s.ks := rfl
@[simp] theorem State.setTeam_ksReqs (x : Team) : (s.setTeam x).ksReqs = s.ksReqs := rfl
@[simp] theorem State.setTeam_remoteDue (x : Team) : (s.setTeam x).remoteDue = s.remoteDue := rfl
@[simp] theorem State.setTeam_parts (x : Team) : (s.setTeam x).parts = s.parts := rfl
@[simp] theorem State.setTeam_vfs (x : Team) : (s.setTeam x).vfs = s.vfs := rfl
@[simp] theorem State.setTeam_asids (x : Team) : (s.setTeam x).asids = s.asids := rfl
@[simp] theorem State.setTeam_hosts (x : Team) : (s.setTeam x).hosts = s.hosts := rfl
@[simp] theorem State.setTeam_pages (x : Team) : (s.setTeam x).pages = s.pages := rfl
@[simp] theorem State.setTeam_cleared (x : Team) : (s.setTeam x).cleared = s.cleared := rfl
@[simp] theorem State.setTeam_retired (x : Team) : (s.setTeam x).retired = s.retired := rfl
@[simp] theorem State.setTeam_spared (x : Team) : (s.setTeam x).spared = s.spared := rfl
@[simp] theorem State.setTeam_sparesUsed (x : Team) : (s.setTeam x).sparesUsed = s.sparesUsed := rfl
@[simp] theorem State.setTeam_fills (x : Team) : (s.setTeam x).fills = s.fills := rfl
@[simp] theorem State.setTeam_softCount (x : Team) : (s.setTeam x).softCount = s.softCount := rfl
@[simp] theorem State.setTeam_ways (x : Team) : (s.setTeam x).ways = s.ways := rfl
@[simp] theorem State.setTeam_errlog (x : Team) : (s.setTeam x).errlog = s.errlog := rfl
@[simp] theorem State.setTeam_spokeOut (x : Team) : (s.setTeam x).spokeOut = s.spokeOut := rfl
@[simp] theorem State.setTeam_spokeReqs (x : Team) : (s.setTeam x).spokeReqs = s.spokeReqs := rfl
@[simp] theorem State.setTeam_msix (x : Team) : (s.setTeam x).msix = s.msix := rfl
@[simp] theorem State.setTeam_hostReply (x : Team) : (s.setTeam x).hostReply = s.hostReply := rfl
@[simp] theorem State.setTeam_hostWait (x : Team) : (s.setTeam x).hostWait = s.hostWait := rfl
@[simp] theorem State.setTeam_assist (x : Team) : (s.setTeam x).assist = s.assist := rfl
@[simp] theorem State.setTeam_power (x : Team) : (s.setTeam x).power = s.power := rfl

/-! ### `State.setCopy` -/

@[simp] theorem State.setCopy_agenda (x : Copy) : (s.setCopy x).agenda = s.agenda := rfl
@[simp] theorem State.setCopy_turn (x : Copy) : (s.setCopy x).turn = s.turn := rfl
@[simp] theorem State.setCopy_nextId (x : Copy) : (s.setCopy x).nextId = s.nextId := rfl
@[simp] theorem State.setCopy_free (x : Copy) : (s.setCopy x).free = s.free := rfl
@[simp] theorem State.setCopy_grp (x : Copy) : (s.setCopy x).grp = s.grp := rfl
@[simp] theorem State.setCopy_waves (x : Copy) : (s.setCopy x).waves = s.waves := rfl
@[simp] theorem State.setCopy_blocks (x : Copy) : (s.setCopy x).blocks = s.blocks := rfl
@[simp] theorem State.setCopy_teams (x : Copy) : (s.setCopy x).teams = s.teams := rfl
@[simp] theorem State.setCopy_resvs (x : Copy) : (s.setCopy x).resvs = s.resvs := rfl
@[simp] theorem State.setCopy_mmas (x : Copy) : (s.setCopy x).mmas = s.mmas := rfl
@[simp] theorem State.setCopy_copies (x : Copy) : (s.setCopy x).copies = updWhere s.copies (fun y => y.id == x.id) fun _ => x := rfl
@[simp] theorem State.setCopy_remotes (x : Copy) : (s.setCopy x).remotes = s.remotes := rfl
@[simp] theorem State.setCopy_bankOps (x : Copy) : (s.setCopy x).bankOps = s.bankOps := rfl
@[simp] theorem State.setCopy_idle (x : Copy) : (s.setCopy x).idle = s.idle := rfl
@[simp] theorem State.setCopy_issued (x : Copy) : (s.setCopy x).issued = s.issued := rfl
@[simp] theorem State.setCopy_mem (x : Copy) : (s.setCopy x).mem = s.mem := rfl
@[simp] theorem State.setCopy_banks (x : Copy) : (s.setCopy x).banks = s.banks := rfl
@[simp] theorem State.setCopy_cellBlocks (x : Copy) : (s.setCopy x).cellBlocks = s.cellBlocks := rfl
@[simp] theorem State.setCopy_lines (x : Copy) : (s.setCopy x).lines = s.lines := rfl
@[simp] theorem State.setCopy_tlb (x : Copy) : (s.setCopy x).tlb = s.tlb := rfl
@[simp] theorem State.setCopy_errors (x : Copy) : (s.setCopy x).errors = s.errors := rfl
@[simp] theorem State.setCopy_found (x : Copy) : (s.setCopy x).found = s.found := rfl
@[simp] theorem State.setCopy_mismatch (x : Copy) : (s.setCopy x).mismatch = s.mismatch := rfl
@[simp] theorem State.setCopy_tags (x : Copy) : (s.setCopy x).tags = s.tags := rfl
@[simp] theorem State.setCopy_softs (x : Copy) : (s.setCopy x).softs = s.softs := rfl
@[simp] theorem State.setCopy_records (x : Copy) : (s.setCopy x).records = s.records := rfl
@[simp] theorem State.setCopy_gens (x : Copy) : (s.setCopy x).gens = s.gens := rfl
@[simp] theorem State.setCopy_poolWait (x : Copy) : (s.setCopy x).poolWait = s.poolWait := rfl
@[simp] theorem State.setCopy_tasks (x : Copy) : (s.setCopy x).tasks = s.tasks := rfl
@[simp] theorem State.setCopy_launches (x : Copy) : (s.setCopy x).launches = s.launches := rfl
@[simp] theorem State.setCopy_cmds (x : Copy) : (s.setCopy x).cmds = s.cmds := rfl
@[simp] theorem State.setCopy_doms (x : Copy) : (s.setCopy x).doms = s.doms := rfl
@[simp] theorem State.setCopy_ks (x : Copy) : (s.setCopy x).ks = s.ks := rfl
@[simp] theorem State.setCopy_ksReqs (x : Copy) : (s.setCopy x).ksReqs = s.ksReqs := rfl
@[simp] theorem State.setCopy_remoteDue (x : Copy) : (s.setCopy x).remoteDue = s.remoteDue := rfl
@[simp] theorem State.setCopy_parts (x : Copy) : (s.setCopy x).parts = s.parts := rfl
@[simp] theorem State.setCopy_vfs (x : Copy) : (s.setCopy x).vfs = s.vfs := rfl
@[simp] theorem State.setCopy_asids (x : Copy) : (s.setCopy x).asids = s.asids := rfl
@[simp] theorem State.setCopy_hosts (x : Copy) : (s.setCopy x).hosts = s.hosts := rfl
@[simp] theorem State.setCopy_pages (x : Copy) : (s.setCopy x).pages = s.pages := rfl
@[simp] theorem State.setCopy_cleared (x : Copy) : (s.setCopy x).cleared = s.cleared := rfl
@[simp] theorem State.setCopy_retired (x : Copy) : (s.setCopy x).retired = s.retired := rfl
@[simp] theorem State.setCopy_spared (x : Copy) : (s.setCopy x).spared = s.spared := rfl
@[simp] theorem State.setCopy_sparesUsed (x : Copy) : (s.setCopy x).sparesUsed = s.sparesUsed := rfl
@[simp] theorem State.setCopy_fills (x : Copy) : (s.setCopy x).fills = s.fills := rfl
@[simp] theorem State.setCopy_softCount (x : Copy) : (s.setCopy x).softCount = s.softCount := rfl
@[simp] theorem State.setCopy_ways (x : Copy) : (s.setCopy x).ways = s.ways := rfl
@[simp] theorem State.setCopy_errlog (x : Copy) : (s.setCopy x).errlog = s.errlog := rfl
@[simp] theorem State.setCopy_spokeOut (x : Copy) : (s.setCopy x).spokeOut = s.spokeOut := rfl
@[simp] theorem State.setCopy_spokeReqs (x : Copy) : (s.setCopy x).spokeReqs = s.spokeReqs := rfl
@[simp] theorem State.setCopy_msix (x : Copy) : (s.setCopy x).msix = s.msix := rfl
@[simp] theorem State.setCopy_hostReply (x : Copy) : (s.setCopy x).hostReply = s.hostReply := rfl
@[simp] theorem State.setCopy_hostWait (x : Copy) : (s.setCopy x).hostWait = s.hostWait := rfl
@[simp] theorem State.setCopy_assist (x : Copy) : (s.setCopy x).assist = s.assist := rfl
@[simp] theorem State.setCopy_power (x : Copy) : (s.setCopy x).power = s.power := rfl

/-! ### `State.setMma` -/

@[simp] theorem State.setMma_agenda (x : MmaOp) : (s.setMma x).agenda = s.agenda := rfl
@[simp] theorem State.setMma_turn (x : MmaOp) : (s.setMma x).turn = s.turn := rfl
@[simp] theorem State.setMma_nextId (x : MmaOp) : (s.setMma x).nextId = s.nextId := rfl
@[simp] theorem State.setMma_free (x : MmaOp) : (s.setMma x).free = s.free := rfl
@[simp] theorem State.setMma_grp (x : MmaOp) : (s.setMma x).grp = s.grp := rfl
@[simp] theorem State.setMma_waves (x : MmaOp) : (s.setMma x).waves = s.waves := rfl
@[simp] theorem State.setMma_blocks (x : MmaOp) : (s.setMma x).blocks = s.blocks := rfl
@[simp] theorem State.setMma_teams (x : MmaOp) : (s.setMma x).teams = s.teams := rfl
@[simp] theorem State.setMma_resvs (x : MmaOp) : (s.setMma x).resvs = s.resvs := rfl
@[simp] theorem State.setMma_mmas (x : MmaOp) : (s.setMma x).mmas = updWhere s.mmas (fun y => y.id == x.id) fun _ => x := rfl
@[simp] theorem State.setMma_copies (x : MmaOp) : (s.setMma x).copies = s.copies := rfl
@[simp] theorem State.setMma_remotes (x : MmaOp) : (s.setMma x).remotes = s.remotes := rfl
@[simp] theorem State.setMma_bankOps (x : MmaOp) : (s.setMma x).bankOps = s.bankOps := rfl
@[simp] theorem State.setMma_idle (x : MmaOp) : (s.setMma x).idle = s.idle := rfl
@[simp] theorem State.setMma_issued (x : MmaOp) : (s.setMma x).issued = s.issued := rfl
@[simp] theorem State.setMma_mem (x : MmaOp) : (s.setMma x).mem = s.mem := rfl
@[simp] theorem State.setMma_banks (x : MmaOp) : (s.setMma x).banks = s.banks := rfl
@[simp] theorem State.setMma_cellBlocks (x : MmaOp) : (s.setMma x).cellBlocks = s.cellBlocks := rfl
@[simp] theorem State.setMma_lines (x : MmaOp) : (s.setMma x).lines = s.lines := rfl
@[simp] theorem State.setMma_tlb (x : MmaOp) : (s.setMma x).tlb = s.tlb := rfl
@[simp] theorem State.setMma_errors (x : MmaOp) : (s.setMma x).errors = s.errors := rfl
@[simp] theorem State.setMma_found (x : MmaOp) : (s.setMma x).found = s.found := rfl
@[simp] theorem State.setMma_mismatch (x : MmaOp) : (s.setMma x).mismatch = s.mismatch := rfl
@[simp] theorem State.setMma_tags (x : MmaOp) : (s.setMma x).tags = s.tags := rfl
@[simp] theorem State.setMma_softs (x : MmaOp) : (s.setMma x).softs = s.softs := rfl
@[simp] theorem State.setMma_records (x : MmaOp) : (s.setMma x).records = s.records := rfl
@[simp] theorem State.setMma_gens (x : MmaOp) : (s.setMma x).gens = s.gens := rfl
@[simp] theorem State.setMma_poolWait (x : MmaOp) : (s.setMma x).poolWait = s.poolWait := rfl
@[simp] theorem State.setMma_tasks (x : MmaOp) : (s.setMma x).tasks = s.tasks := rfl
@[simp] theorem State.setMma_launches (x : MmaOp) : (s.setMma x).launches = s.launches := rfl
@[simp] theorem State.setMma_cmds (x : MmaOp) : (s.setMma x).cmds = s.cmds := rfl
@[simp] theorem State.setMma_doms (x : MmaOp) : (s.setMma x).doms = s.doms := rfl
@[simp] theorem State.setMma_ks (x : MmaOp) : (s.setMma x).ks = s.ks := rfl
@[simp] theorem State.setMma_ksReqs (x : MmaOp) : (s.setMma x).ksReqs = s.ksReqs := rfl
@[simp] theorem State.setMma_remoteDue (x : MmaOp) : (s.setMma x).remoteDue = s.remoteDue := rfl
@[simp] theorem State.setMma_parts (x : MmaOp) : (s.setMma x).parts = s.parts := rfl
@[simp] theorem State.setMma_vfs (x : MmaOp) : (s.setMma x).vfs = s.vfs := rfl
@[simp] theorem State.setMma_asids (x : MmaOp) : (s.setMma x).asids = s.asids := rfl
@[simp] theorem State.setMma_hosts (x : MmaOp) : (s.setMma x).hosts = s.hosts := rfl
@[simp] theorem State.setMma_pages (x : MmaOp) : (s.setMma x).pages = s.pages := rfl
@[simp] theorem State.setMma_cleared (x : MmaOp) : (s.setMma x).cleared = s.cleared := rfl
@[simp] theorem State.setMma_retired (x : MmaOp) : (s.setMma x).retired = s.retired := rfl
@[simp] theorem State.setMma_spared (x : MmaOp) : (s.setMma x).spared = s.spared := rfl
@[simp] theorem State.setMma_sparesUsed (x : MmaOp) : (s.setMma x).sparesUsed = s.sparesUsed := rfl
@[simp] theorem State.setMma_fills (x : MmaOp) : (s.setMma x).fills = s.fills := rfl
@[simp] theorem State.setMma_softCount (x : MmaOp) : (s.setMma x).softCount = s.softCount := rfl
@[simp] theorem State.setMma_ways (x : MmaOp) : (s.setMma x).ways = s.ways := rfl
@[simp] theorem State.setMma_errlog (x : MmaOp) : (s.setMma x).errlog = s.errlog := rfl
@[simp] theorem State.setMma_spokeOut (x : MmaOp) : (s.setMma x).spokeOut = s.spokeOut := rfl
@[simp] theorem State.setMma_spokeReqs (x : MmaOp) : (s.setMma x).spokeReqs = s.spokeReqs := rfl
@[simp] theorem State.setMma_msix (x : MmaOp) : (s.setMma x).msix = s.msix := rfl
@[simp] theorem State.setMma_hostReply (x : MmaOp) : (s.setMma x).hostReply = s.hostReply := rfl
@[simp] theorem State.setMma_hostWait (x : MmaOp) : (s.setMma x).hostWait = s.hostWait := rfl
@[simp] theorem State.setMma_assist (x : MmaOp) : (s.setMma x).assist = s.assist := rfl
@[simp] theorem State.setMma_power (x : MmaOp) : (s.setMma x).power = s.power := rfl

/-! ### `State.setRecord` -/

@[simp] theorem State.setRecord_agenda (x : Record) : (s.setRecord x).agenda = s.agenda := rfl
@[simp] theorem State.setRecord_turn (x : Record) : (s.setRecord x).turn = s.turn := rfl
@[simp] theorem State.setRecord_nextId (x : Record) : (s.setRecord x).nextId = s.nextId := rfl
@[simp] theorem State.setRecord_free (x : Record) : (s.setRecord x).free = s.free := rfl
@[simp] theorem State.setRecord_grp (x : Record) : (s.setRecord x).grp = s.grp := rfl
@[simp] theorem State.setRecord_waves (x : Record) : (s.setRecord x).waves = s.waves := rfl
@[simp] theorem State.setRecord_blocks (x : Record) : (s.setRecord x).blocks = s.blocks := rfl
@[simp] theorem State.setRecord_teams (x : Record) : (s.setRecord x).teams = s.teams := rfl
@[simp] theorem State.setRecord_resvs (x : Record) : (s.setRecord x).resvs = s.resvs := rfl
@[simp] theorem State.setRecord_mmas (x : Record) : (s.setRecord x).mmas = s.mmas := rfl
@[simp] theorem State.setRecord_copies (x : Record) : (s.setRecord x).copies = s.copies := rfl
@[simp] theorem State.setRecord_remotes (x : Record) : (s.setRecord x).remotes = s.remotes := rfl
@[simp] theorem State.setRecord_bankOps (x : Record) : (s.setRecord x).bankOps = s.bankOps := rfl
@[simp] theorem State.setRecord_idle (x : Record) : (s.setRecord x).idle = s.idle := rfl
@[simp] theorem State.setRecord_issued (x : Record) : (s.setRecord x).issued = s.issued := rfl
@[simp] theorem State.setRecord_mem (x : Record) : (s.setRecord x).mem = s.mem := rfl
@[simp] theorem State.setRecord_banks (x : Record) : (s.setRecord x).banks = s.banks := rfl
@[simp] theorem State.setRecord_cellBlocks (x : Record) : (s.setRecord x).cellBlocks = s.cellBlocks := rfl
@[simp] theorem State.setRecord_lines (x : Record) : (s.setRecord x).lines = s.lines := rfl
@[simp] theorem State.setRecord_tlb (x : Record) : (s.setRecord x).tlb = s.tlb := rfl
@[simp] theorem State.setRecord_errors (x : Record) : (s.setRecord x).errors = s.errors := rfl
@[simp] theorem State.setRecord_found (x : Record) : (s.setRecord x).found = s.found := rfl
@[simp] theorem State.setRecord_mismatch (x : Record) : (s.setRecord x).mismatch = s.mismatch := rfl
@[simp] theorem State.setRecord_tags (x : Record) : (s.setRecord x).tags = s.tags := rfl
@[simp] theorem State.setRecord_softs (x : Record) : (s.setRecord x).softs = s.softs := rfl
@[simp] theorem State.setRecord_records (x : Record) : (s.setRecord x).records = updWhere s.records (fun y => y.id == x.id) fun _ => x := rfl
@[simp] theorem State.setRecord_gens (x : Record) : (s.setRecord x).gens = s.gens := rfl
@[simp] theorem State.setRecord_poolWait (x : Record) : (s.setRecord x).poolWait = s.poolWait := rfl
@[simp] theorem State.setRecord_tasks (x : Record) : (s.setRecord x).tasks = s.tasks := rfl
@[simp] theorem State.setRecord_launches (x : Record) : (s.setRecord x).launches = s.launches := rfl
@[simp] theorem State.setRecord_cmds (x : Record) : (s.setRecord x).cmds = s.cmds := rfl
@[simp] theorem State.setRecord_doms (x : Record) : (s.setRecord x).doms = s.doms := rfl
@[simp] theorem State.setRecord_ks (x : Record) : (s.setRecord x).ks = s.ks := rfl
@[simp] theorem State.setRecord_ksReqs (x : Record) : (s.setRecord x).ksReqs = s.ksReqs := rfl
@[simp] theorem State.setRecord_remoteDue (x : Record) : (s.setRecord x).remoteDue = s.remoteDue := rfl
@[simp] theorem State.setRecord_parts (x : Record) : (s.setRecord x).parts = s.parts := rfl
@[simp] theorem State.setRecord_vfs (x : Record) : (s.setRecord x).vfs = s.vfs := rfl
@[simp] theorem State.setRecord_asids (x : Record) : (s.setRecord x).asids = s.asids := rfl
@[simp] theorem State.setRecord_hosts (x : Record) : (s.setRecord x).hosts = s.hosts := rfl
@[simp] theorem State.setRecord_pages (x : Record) : (s.setRecord x).pages = s.pages := rfl
@[simp] theorem State.setRecord_cleared (x : Record) : (s.setRecord x).cleared = s.cleared := rfl
@[simp] theorem State.setRecord_retired (x : Record) : (s.setRecord x).retired = s.retired := rfl
@[simp] theorem State.setRecord_spared (x : Record) : (s.setRecord x).spared = s.spared := rfl
@[simp] theorem State.setRecord_sparesUsed (x : Record) : (s.setRecord x).sparesUsed = s.sparesUsed := rfl
@[simp] theorem State.setRecord_fills (x : Record) : (s.setRecord x).fills = s.fills := rfl
@[simp] theorem State.setRecord_softCount (x : Record) : (s.setRecord x).softCount = s.softCount := rfl
@[simp] theorem State.setRecord_ways (x : Record) : (s.setRecord x).ways = s.ways := rfl
@[simp] theorem State.setRecord_errlog (x : Record) : (s.setRecord x).errlog = s.errlog := rfl
@[simp] theorem State.setRecord_spokeOut (x : Record) : (s.setRecord x).spokeOut = s.spokeOut := rfl
@[simp] theorem State.setRecord_spokeReqs (x : Record) : (s.setRecord x).spokeReqs = s.spokeReqs := rfl
@[simp] theorem State.setRecord_msix (x : Record) : (s.setRecord x).msix = s.msix := rfl
@[simp] theorem State.setRecord_hostReply (x : Record) : (s.setRecord x).hostReply = s.hostReply := rfl
@[simp] theorem State.setRecord_hostWait (x : Record) : (s.setRecord x).hostWait = s.hostWait := rfl
@[simp] theorem State.setRecord_assist (x : Record) : (s.setRecord x).assist = s.assist := rfl
@[simp] theorem State.setRecord_power (x : Record) : (s.setRecord x).power = s.power := rfl

/-! ### `State.setLaunch` -/

@[simp] theorem State.setLaunch_agenda (x : Launch) : (s.setLaunch x).agenda = s.agenda := rfl
@[simp] theorem State.setLaunch_turn (x : Launch) : (s.setLaunch x).turn = s.turn := rfl
@[simp] theorem State.setLaunch_nextId (x : Launch) : (s.setLaunch x).nextId = s.nextId := rfl
@[simp] theorem State.setLaunch_free (x : Launch) : (s.setLaunch x).free = s.free := rfl
@[simp] theorem State.setLaunch_grp (x : Launch) : (s.setLaunch x).grp = s.grp := rfl
@[simp] theorem State.setLaunch_waves (x : Launch) : (s.setLaunch x).waves = s.waves := rfl
@[simp] theorem State.setLaunch_blocks (x : Launch) : (s.setLaunch x).blocks = s.blocks := rfl
@[simp] theorem State.setLaunch_teams (x : Launch) : (s.setLaunch x).teams = s.teams := rfl
@[simp] theorem State.setLaunch_resvs (x : Launch) : (s.setLaunch x).resvs = s.resvs := rfl
@[simp] theorem State.setLaunch_mmas (x : Launch) : (s.setLaunch x).mmas = s.mmas := rfl
@[simp] theorem State.setLaunch_copies (x : Launch) : (s.setLaunch x).copies = s.copies := rfl
@[simp] theorem State.setLaunch_remotes (x : Launch) : (s.setLaunch x).remotes = s.remotes := rfl
@[simp] theorem State.setLaunch_bankOps (x : Launch) : (s.setLaunch x).bankOps = s.bankOps := rfl
@[simp] theorem State.setLaunch_idle (x : Launch) : (s.setLaunch x).idle = s.idle := rfl
@[simp] theorem State.setLaunch_issued (x : Launch) : (s.setLaunch x).issued = s.issued := rfl
@[simp] theorem State.setLaunch_mem (x : Launch) : (s.setLaunch x).mem = s.mem := rfl
@[simp] theorem State.setLaunch_banks (x : Launch) : (s.setLaunch x).banks = s.banks := rfl
@[simp] theorem State.setLaunch_cellBlocks (x : Launch) : (s.setLaunch x).cellBlocks = s.cellBlocks := rfl
@[simp] theorem State.setLaunch_lines (x : Launch) : (s.setLaunch x).lines = s.lines := rfl
@[simp] theorem State.setLaunch_tlb (x : Launch) : (s.setLaunch x).tlb = s.tlb := rfl
@[simp] theorem State.setLaunch_errors (x : Launch) : (s.setLaunch x).errors = s.errors := rfl
@[simp] theorem State.setLaunch_found (x : Launch) : (s.setLaunch x).found = s.found := rfl
@[simp] theorem State.setLaunch_mismatch (x : Launch) : (s.setLaunch x).mismatch = s.mismatch := rfl
@[simp] theorem State.setLaunch_tags (x : Launch) : (s.setLaunch x).tags = s.tags := rfl
@[simp] theorem State.setLaunch_softs (x : Launch) : (s.setLaunch x).softs = s.softs := rfl
@[simp] theorem State.setLaunch_records (x : Launch) : (s.setLaunch x).records = s.records := rfl
@[simp] theorem State.setLaunch_gens (x : Launch) : (s.setLaunch x).gens = s.gens := rfl
@[simp] theorem State.setLaunch_poolWait (x : Launch) : (s.setLaunch x).poolWait = s.poolWait := rfl
@[simp] theorem State.setLaunch_tasks (x : Launch) : (s.setLaunch x).tasks = s.tasks := rfl
@[simp] theorem State.setLaunch_launches (x : Launch) : (s.setLaunch x).launches = updWhere s.launches (fun y => y.id == x.id) fun _ => x := rfl
@[simp] theorem State.setLaunch_cmds (x : Launch) : (s.setLaunch x).cmds = s.cmds := rfl
@[simp] theorem State.setLaunch_doms (x : Launch) : (s.setLaunch x).doms = s.doms := rfl
@[simp] theorem State.setLaunch_ks (x : Launch) : (s.setLaunch x).ks = s.ks := rfl
@[simp] theorem State.setLaunch_ksReqs (x : Launch) : (s.setLaunch x).ksReqs = s.ksReqs := rfl
@[simp] theorem State.setLaunch_remoteDue (x : Launch) : (s.setLaunch x).remoteDue = s.remoteDue := rfl
@[simp] theorem State.setLaunch_parts (x : Launch) : (s.setLaunch x).parts = s.parts := rfl
@[simp] theorem State.setLaunch_vfs (x : Launch) : (s.setLaunch x).vfs = s.vfs := rfl
@[simp] theorem State.setLaunch_asids (x : Launch) : (s.setLaunch x).asids = s.asids := rfl
@[simp] theorem State.setLaunch_hosts (x : Launch) : (s.setLaunch x).hosts = s.hosts := rfl
@[simp] theorem State.setLaunch_pages (x : Launch) : (s.setLaunch x).pages = s.pages := rfl
@[simp] theorem State.setLaunch_cleared (x : Launch) : (s.setLaunch x).cleared = s.cleared := rfl
@[simp] theorem State.setLaunch_retired (x : Launch) : (s.setLaunch x).retired = s.retired := rfl
@[simp] theorem State.setLaunch_spared (x : Launch) : (s.setLaunch x).spared = s.spared := rfl
@[simp] theorem State.setLaunch_sparesUsed (x : Launch) : (s.setLaunch x).sparesUsed = s.sparesUsed := rfl
@[simp] theorem State.setLaunch_fills (x : Launch) : (s.setLaunch x).fills = s.fills := rfl
@[simp] theorem State.setLaunch_softCount (x : Launch) : (s.setLaunch x).softCount = s.softCount := rfl
@[simp] theorem State.setLaunch_ways (x : Launch) : (s.setLaunch x).ways = s.ways := rfl
@[simp] theorem State.setLaunch_errlog (x : Launch) : (s.setLaunch x).errlog = s.errlog := rfl
@[simp] theorem State.setLaunch_spokeOut (x : Launch) : (s.setLaunch x).spokeOut = s.spokeOut := rfl
@[simp] theorem State.setLaunch_spokeReqs (x : Launch) : (s.setLaunch x).spokeReqs = s.spokeReqs := rfl
@[simp] theorem State.setLaunch_msix (x : Launch) : (s.setLaunch x).msix = s.msix := rfl
@[simp] theorem State.setLaunch_hostReply (x : Launch) : (s.setLaunch x).hostReply = s.hostReply := rfl
@[simp] theorem State.setLaunch_hostWait (x : Launch) : (s.setLaunch x).hostWait = s.hostWait := rfl
@[simp] theorem State.setLaunch_assist (x : Launch) : (s.setLaunch x).assist = s.assist := rfl
@[simp] theorem State.setLaunch_power (x : Launch) : (s.setLaunch x).power = s.power := rfl

/-! ### `State.setCmd` -/

@[simp] theorem State.setCmd_agenda (x : Cmd) : (s.setCmd x).agenda = s.agenda := rfl
@[simp] theorem State.setCmd_turn (x : Cmd) : (s.setCmd x).turn = s.turn := rfl
@[simp] theorem State.setCmd_nextId (x : Cmd) : (s.setCmd x).nextId = s.nextId := rfl
@[simp] theorem State.setCmd_free (x : Cmd) : (s.setCmd x).free = s.free := rfl
@[simp] theorem State.setCmd_grp (x : Cmd) : (s.setCmd x).grp = s.grp := rfl
@[simp] theorem State.setCmd_waves (x : Cmd) : (s.setCmd x).waves = s.waves := rfl
@[simp] theorem State.setCmd_blocks (x : Cmd) : (s.setCmd x).blocks = s.blocks := rfl
@[simp] theorem State.setCmd_teams (x : Cmd) : (s.setCmd x).teams = s.teams := rfl
@[simp] theorem State.setCmd_resvs (x : Cmd) : (s.setCmd x).resvs = s.resvs := rfl
@[simp] theorem State.setCmd_mmas (x : Cmd) : (s.setCmd x).mmas = s.mmas := rfl
@[simp] theorem State.setCmd_copies (x : Cmd) : (s.setCmd x).copies = s.copies := rfl
@[simp] theorem State.setCmd_remotes (x : Cmd) : (s.setCmd x).remotes = s.remotes := rfl
@[simp] theorem State.setCmd_bankOps (x : Cmd) : (s.setCmd x).bankOps = s.bankOps := rfl
@[simp] theorem State.setCmd_idle (x : Cmd) : (s.setCmd x).idle = s.idle := rfl
@[simp] theorem State.setCmd_issued (x : Cmd) : (s.setCmd x).issued = s.issued := rfl
@[simp] theorem State.setCmd_mem (x : Cmd) : (s.setCmd x).mem = s.mem := rfl
@[simp] theorem State.setCmd_banks (x : Cmd) : (s.setCmd x).banks = s.banks := rfl
@[simp] theorem State.setCmd_cellBlocks (x : Cmd) : (s.setCmd x).cellBlocks = s.cellBlocks := rfl
@[simp] theorem State.setCmd_lines (x : Cmd) : (s.setCmd x).lines = s.lines := rfl
@[simp] theorem State.setCmd_tlb (x : Cmd) : (s.setCmd x).tlb = s.tlb := rfl
@[simp] theorem State.setCmd_errors (x : Cmd) : (s.setCmd x).errors = s.errors := rfl
@[simp] theorem State.setCmd_found (x : Cmd) : (s.setCmd x).found = s.found := rfl
@[simp] theorem State.setCmd_mismatch (x : Cmd) : (s.setCmd x).mismatch = s.mismatch := rfl
@[simp] theorem State.setCmd_tags (x : Cmd) : (s.setCmd x).tags = s.tags := rfl
@[simp] theorem State.setCmd_softs (x : Cmd) : (s.setCmd x).softs = s.softs := rfl
@[simp] theorem State.setCmd_records (x : Cmd) : (s.setCmd x).records = s.records := rfl
@[simp] theorem State.setCmd_gens (x : Cmd) : (s.setCmd x).gens = s.gens := rfl
@[simp] theorem State.setCmd_poolWait (x : Cmd) : (s.setCmd x).poolWait = s.poolWait := rfl
@[simp] theorem State.setCmd_tasks (x : Cmd) : (s.setCmd x).tasks = s.tasks := rfl
@[simp] theorem State.setCmd_launches (x : Cmd) : (s.setCmd x).launches = s.launches := rfl
@[simp] theorem State.setCmd_cmds (x : Cmd) : (s.setCmd x).cmds = updWhere s.cmds (fun y => y.vf == x.vf && y.ring == x.ring && y.seq == x.seq) fun _ => x := rfl
@[simp] theorem State.setCmd_doms (x : Cmd) : (s.setCmd x).doms = s.doms := rfl
@[simp] theorem State.setCmd_ks (x : Cmd) : (s.setCmd x).ks = s.ks := rfl
@[simp] theorem State.setCmd_ksReqs (x : Cmd) : (s.setCmd x).ksReqs = s.ksReqs := rfl
@[simp] theorem State.setCmd_remoteDue (x : Cmd) : (s.setCmd x).remoteDue = s.remoteDue := rfl
@[simp] theorem State.setCmd_parts (x : Cmd) : (s.setCmd x).parts = s.parts := rfl
@[simp] theorem State.setCmd_vfs (x : Cmd) : (s.setCmd x).vfs = s.vfs := rfl
@[simp] theorem State.setCmd_asids (x : Cmd) : (s.setCmd x).asids = s.asids := rfl
@[simp] theorem State.setCmd_hosts (x : Cmd) : (s.setCmd x).hosts = s.hosts := rfl
@[simp] theorem State.setCmd_pages (x : Cmd) : (s.setCmd x).pages = s.pages := rfl
@[simp] theorem State.setCmd_cleared (x : Cmd) : (s.setCmd x).cleared = s.cleared := rfl
@[simp] theorem State.setCmd_retired (x : Cmd) : (s.setCmd x).retired = s.retired := rfl
@[simp] theorem State.setCmd_spared (x : Cmd) : (s.setCmd x).spared = s.spared := rfl
@[simp] theorem State.setCmd_sparesUsed (x : Cmd) : (s.setCmd x).sparesUsed = s.sparesUsed := rfl
@[simp] theorem State.setCmd_fills (x : Cmd) : (s.setCmd x).fills = s.fills := rfl
@[simp] theorem State.setCmd_softCount (x : Cmd) : (s.setCmd x).softCount = s.softCount := rfl
@[simp] theorem State.setCmd_ways (x : Cmd) : (s.setCmd x).ways = s.ways := rfl
@[simp] theorem State.setCmd_errlog (x : Cmd) : (s.setCmd x).errlog = s.errlog := rfl
@[simp] theorem State.setCmd_spokeOut (x : Cmd) : (s.setCmd x).spokeOut = s.spokeOut := rfl
@[simp] theorem State.setCmd_spokeReqs (x : Cmd) : (s.setCmd x).spokeReqs = s.spokeReqs := rfl
@[simp] theorem State.setCmd_msix (x : Cmd) : (s.setCmd x).msix = s.msix := rfl
@[simp] theorem State.setCmd_hostReply (x : Cmd) : (s.setCmd x).hostReply = s.hostReply := rfl
@[simp] theorem State.setCmd_hostWait (x : Cmd) : (s.setCmd x).hostWait = s.hostWait := rfl
@[simp] theorem State.setCmd_assist (x : Cmd) : (s.setCmd x).assist = s.assist := rfl
@[simp] theorem State.setCmd_power (x : Cmd) : (s.setCmd x).power = s.power := rfl

/-! ### `State.setDom` -/

@[simp] theorem State.setDom_agenda (x : Dom) : (s.setDom x).agenda = s.agenda := rfl
@[simp] theorem State.setDom_turn (x : Dom) : (s.setDom x).turn = s.turn := rfl
@[simp] theorem State.setDom_nextId (x : Dom) : (s.setDom x).nextId = s.nextId := rfl
@[simp] theorem State.setDom_free (x : Dom) : (s.setDom x).free = s.free := rfl
@[simp] theorem State.setDom_grp (x : Dom) : (s.setDom x).grp = s.grp := rfl
@[simp] theorem State.setDom_waves (x : Dom) : (s.setDom x).waves = s.waves := rfl
@[simp] theorem State.setDom_blocks (x : Dom) : (s.setDom x).blocks = s.blocks := rfl
@[simp] theorem State.setDom_teams (x : Dom) : (s.setDom x).teams = s.teams := rfl
@[simp] theorem State.setDom_resvs (x : Dom) : (s.setDom x).resvs = s.resvs := rfl
@[simp] theorem State.setDom_mmas (x : Dom) : (s.setDom x).mmas = s.mmas := rfl
@[simp] theorem State.setDom_copies (x : Dom) : (s.setDom x).copies = s.copies := rfl
@[simp] theorem State.setDom_remotes (x : Dom) : (s.setDom x).remotes = s.remotes := rfl
@[simp] theorem State.setDom_bankOps (x : Dom) : (s.setDom x).bankOps = s.bankOps := rfl
@[simp] theorem State.setDom_idle (x : Dom) : (s.setDom x).idle = s.idle := rfl
@[simp] theorem State.setDom_issued (x : Dom) : (s.setDom x).issued = s.issued := rfl
@[simp] theorem State.setDom_mem (x : Dom) : (s.setDom x).mem = s.mem := rfl
@[simp] theorem State.setDom_banks (x : Dom) : (s.setDom x).banks = s.banks := rfl
@[simp] theorem State.setDom_cellBlocks (x : Dom) : (s.setDom x).cellBlocks = s.cellBlocks := rfl
@[simp] theorem State.setDom_lines (x : Dom) : (s.setDom x).lines = s.lines := rfl
@[simp] theorem State.setDom_tlb (x : Dom) : (s.setDom x).tlb = s.tlb := rfl
@[simp] theorem State.setDom_errors (x : Dom) : (s.setDom x).errors = s.errors := rfl
@[simp] theorem State.setDom_found (x : Dom) : (s.setDom x).found = s.found := rfl
@[simp] theorem State.setDom_mismatch (x : Dom) : (s.setDom x).mismatch = s.mismatch := rfl
@[simp] theorem State.setDom_tags (x : Dom) : (s.setDom x).tags = s.tags := rfl
@[simp] theorem State.setDom_softs (x : Dom) : (s.setDom x).softs = s.softs := rfl
@[simp] theorem State.setDom_records (x : Dom) : (s.setDom x).records = s.records := rfl
@[simp] theorem State.setDom_gens (x : Dom) : (s.setDom x).gens = s.gens := rfl
@[simp] theorem State.setDom_poolWait (x : Dom) : (s.setDom x).poolWait = s.poolWait := rfl
@[simp] theorem State.setDom_tasks (x : Dom) : (s.setDom x).tasks = s.tasks := rfl
@[simp] theorem State.setDom_launches (x : Dom) : (s.setDom x).launches = s.launches := rfl
@[simp] theorem State.setDom_cmds (x : Dom) : (s.setDom x).cmds = s.cmds := rfl
@[simp] theorem State.setDom_doms (x : Dom) : (s.setDom x).doms = updWhere s.doms (fun y => y.core == x.core) fun _ => x := rfl
@[simp] theorem State.setDom_ks (x : Dom) : (s.setDom x).ks = s.ks := rfl
@[simp] theorem State.setDom_ksReqs (x : Dom) : (s.setDom x).ksReqs = s.ksReqs := rfl
@[simp] theorem State.setDom_remoteDue (x : Dom) : (s.setDom x).remoteDue = s.remoteDue := rfl
@[simp] theorem State.setDom_parts (x : Dom) : (s.setDom x).parts = s.parts := rfl
@[simp] theorem State.setDom_vfs (x : Dom) : (s.setDom x).vfs = s.vfs := rfl
@[simp] theorem State.setDom_asids (x : Dom) : (s.setDom x).asids = s.asids := rfl
@[simp] theorem State.setDom_hosts (x : Dom) : (s.setDom x).hosts = s.hosts := rfl
@[simp] theorem State.setDom_pages (x : Dom) : (s.setDom x).pages = s.pages := rfl
@[simp] theorem State.setDom_cleared (x : Dom) : (s.setDom x).cleared = s.cleared := rfl
@[simp] theorem State.setDom_retired (x : Dom) : (s.setDom x).retired = s.retired := rfl
@[simp] theorem State.setDom_spared (x : Dom) : (s.setDom x).spared = s.spared := rfl
@[simp] theorem State.setDom_sparesUsed (x : Dom) : (s.setDom x).sparesUsed = s.sparesUsed := rfl
@[simp] theorem State.setDom_fills (x : Dom) : (s.setDom x).fills = s.fills := rfl
@[simp] theorem State.setDom_softCount (x : Dom) : (s.setDom x).softCount = s.softCount := rfl
@[simp] theorem State.setDom_ways (x : Dom) : (s.setDom x).ways = s.ways := rfl
@[simp] theorem State.setDom_errlog (x : Dom) : (s.setDom x).errlog = s.errlog := rfl
@[simp] theorem State.setDom_spokeOut (x : Dom) : (s.setDom x).spokeOut = s.spokeOut := rfl
@[simp] theorem State.setDom_spokeReqs (x : Dom) : (s.setDom x).spokeReqs = s.spokeReqs := rfl
@[simp] theorem State.setDom_msix (x : Dom) : (s.setDom x).msix = s.msix := rfl
@[simp] theorem State.setDom_hostReply (x : Dom) : (s.setDom x).hostReply = s.hostReply := rfl
@[simp] theorem State.setDom_hostWait (x : Dom) : (s.setDom x).hostWait = s.hostWait := rfl
@[simp] theorem State.setDom_assist (x : Dom) : (s.setDom x).assist = s.assist := rfl
@[simp] theorem State.setDom_power (x : Dom) : (s.setDom x).power = s.power := rfl

/-! ### `State.setPart` -/

@[simp] theorem State.setPart_agenda (p : Nat) (x : Part) : (s.setPart p x).agenda = s.agenda := rfl
@[simp] theorem State.setPart_turn (p : Nat) (x : Part) : (s.setPart p x).turn = s.turn := rfl
@[simp] theorem State.setPart_nextId (p : Nat) (x : Part) : (s.setPart p x).nextId = s.nextId := rfl
@[simp] theorem State.setPart_free (p : Nat) (x : Part) : (s.setPart p x).free = s.free := rfl
@[simp] theorem State.setPart_grp (p : Nat) (x : Part) : (s.setPart p x).grp = s.grp := rfl
@[simp] theorem State.setPart_waves (p : Nat) (x : Part) : (s.setPart p x).waves = s.waves := rfl
@[simp] theorem State.setPart_blocks (p : Nat) (x : Part) : (s.setPart p x).blocks = s.blocks := rfl
@[simp] theorem State.setPart_teams (p : Nat) (x : Part) : (s.setPart p x).teams = s.teams := rfl
@[simp] theorem State.setPart_resvs (p : Nat) (x : Part) : (s.setPart p x).resvs = s.resvs := rfl
@[simp] theorem State.setPart_mmas (p : Nat) (x : Part) : (s.setPart p x).mmas = s.mmas := rfl
@[simp] theorem State.setPart_copies (p : Nat) (x : Part) : (s.setPart p x).copies = s.copies := rfl
@[simp] theorem State.setPart_remotes (p : Nat) (x : Part) : (s.setPart p x).remotes = s.remotes := rfl
@[simp] theorem State.setPart_bankOps (p : Nat) (x : Part) : (s.setPart p x).bankOps = s.bankOps := rfl
@[simp] theorem State.setPart_idle (p : Nat) (x : Part) : (s.setPart p x).idle = s.idle := rfl
@[simp] theorem State.setPart_issued (p : Nat) (x : Part) : (s.setPart p x).issued = s.issued := rfl
@[simp] theorem State.setPart_mem (p : Nat) (x : Part) : (s.setPart p x).mem = s.mem := rfl
@[simp] theorem State.setPart_banks (p : Nat) (x : Part) : (s.setPart p x).banks = s.banks := rfl
@[simp] theorem State.setPart_cellBlocks (p : Nat) (x : Part) : (s.setPart p x).cellBlocks = s.cellBlocks := rfl
@[simp] theorem State.setPart_lines (p : Nat) (x : Part) : (s.setPart p x).lines = s.lines := rfl
@[simp] theorem State.setPart_tlb (p : Nat) (x : Part) : (s.setPart p x).tlb = s.tlb := rfl
@[simp] theorem State.setPart_errors (p : Nat) (x : Part) : (s.setPart p x).errors = s.errors := rfl
@[simp] theorem State.setPart_found (p : Nat) (x : Part) : (s.setPart p x).found = s.found := rfl
@[simp] theorem State.setPart_mismatch (p : Nat) (x : Part) : (s.setPart p x).mismatch = s.mismatch := rfl
@[simp] theorem State.setPart_tags (p : Nat) (x : Part) : (s.setPart p x).tags = s.tags := rfl
@[simp] theorem State.setPart_softs (p : Nat) (x : Part) : (s.setPart p x).softs = s.softs := rfl
@[simp] theorem State.setPart_records (p : Nat) (x : Part) : (s.setPart p x).records = s.records := rfl
@[simp] theorem State.setPart_gens (p : Nat) (x : Part) : (s.setPart p x).gens = s.gens := rfl
@[simp] theorem State.setPart_poolWait (p : Nat) (x : Part) : (s.setPart p x).poolWait = s.poolWait := rfl
@[simp] theorem State.setPart_tasks (p : Nat) (x : Part) : (s.setPart p x).tasks = s.tasks := rfl
@[simp] theorem State.setPart_launches (p : Nat) (x : Part) : (s.setPart p x).launches = s.launches := rfl
@[simp] theorem State.setPart_cmds (p : Nat) (x : Part) : (s.setPart p x).cmds = s.cmds := rfl
@[simp] theorem State.setPart_doms (p : Nat) (x : Part) : (s.setPart p x).doms = s.doms := rfl
@[simp] theorem State.setPart_ks (p : Nat) (x : Part) : (s.setPart p x).ks = s.ks := rfl
@[simp] theorem State.setPart_ksReqs (p : Nat) (x : Part) : (s.setPart p x).ksReqs = s.ksReqs := rfl
@[simp] theorem State.setPart_remoteDue (p : Nat) (x : Part) : (s.setPart p x).remoteDue = s.remoteDue := rfl
@[simp] theorem State.setPart_parts (p : Nat) (x : Part) : (s.setPart p x).parts = s.parts.set p x := rfl
@[simp] theorem State.setPart_vfs (p : Nat) (x : Part) : (s.setPart p x).vfs = s.vfs := rfl
@[simp] theorem State.setPart_asids (p : Nat) (x : Part) : (s.setPart p x).asids = s.asids := rfl
@[simp] theorem State.setPart_hosts (p : Nat) (x : Part) : (s.setPart p x).hosts = s.hosts := rfl
@[simp] theorem State.setPart_pages (p : Nat) (x : Part) : (s.setPart p x).pages = s.pages := rfl
@[simp] theorem State.setPart_cleared (p : Nat) (x : Part) : (s.setPart p x).cleared = s.cleared := rfl
@[simp] theorem State.setPart_retired (p : Nat) (x : Part) : (s.setPart p x).retired = s.retired := rfl
@[simp] theorem State.setPart_spared (p : Nat) (x : Part) : (s.setPart p x).spared = s.spared := rfl
@[simp] theorem State.setPart_sparesUsed (p : Nat) (x : Part) : (s.setPart p x).sparesUsed = s.sparesUsed := rfl
@[simp] theorem State.setPart_fills (p : Nat) (x : Part) : (s.setPart p x).fills = s.fills := rfl
@[simp] theorem State.setPart_softCount (p : Nat) (x : Part) : (s.setPart p x).softCount = s.softCount := rfl
@[simp] theorem State.setPart_ways (p : Nat) (x : Part) : (s.setPart p x).ways = s.ways := rfl
@[simp] theorem State.setPart_errlog (p : Nat) (x : Part) : (s.setPart p x).errlog = s.errlog := rfl
@[simp] theorem State.setPart_spokeOut (p : Nat) (x : Part) : (s.setPart p x).spokeOut = s.spokeOut := rfl
@[simp] theorem State.setPart_spokeReqs (p : Nat) (x : Part) : (s.setPart p x).spokeReqs = s.spokeReqs := rfl
@[simp] theorem State.setPart_msix (p : Nat) (x : Part) : (s.setPart p x).msix = s.msix := rfl
@[simp] theorem State.setPart_hostReply (p : Nat) (x : Part) : (s.setPart p x).hostReply = s.hostReply := rfl
@[simp] theorem State.setPart_hostWait (p : Nat) (x : Part) : (s.setPart p x).hostWait = s.hostWait := rfl
@[simp] theorem State.setPart_assist (p : Nat) (x : Part) : (s.setPart p x).assist = s.assist := rfl
@[simp] theorem State.setPart_power (p : Nat) (x : Part) : (s.setPart p x).power = s.power := rfl

/-! ### `State.setVf` -/

@[simp] theorem State.setVf_agenda (v : Nat) (x : Vf) : (s.setVf v x).agenda = s.agenda := rfl
@[simp] theorem State.setVf_turn (v : Nat) (x : Vf) : (s.setVf v x).turn = s.turn := rfl
@[simp] theorem State.setVf_nextId (v : Nat) (x : Vf) : (s.setVf v x).nextId = s.nextId := rfl
@[simp] theorem State.setVf_free (v : Nat) (x : Vf) : (s.setVf v x).free = s.free := rfl
@[simp] theorem State.setVf_grp (v : Nat) (x : Vf) : (s.setVf v x).grp = s.grp := rfl
@[simp] theorem State.setVf_waves (v : Nat) (x : Vf) : (s.setVf v x).waves = s.waves := rfl
@[simp] theorem State.setVf_blocks (v : Nat) (x : Vf) : (s.setVf v x).blocks = s.blocks := rfl
@[simp] theorem State.setVf_teams (v : Nat) (x : Vf) : (s.setVf v x).teams = s.teams := rfl
@[simp] theorem State.setVf_resvs (v : Nat) (x : Vf) : (s.setVf v x).resvs = s.resvs := rfl
@[simp] theorem State.setVf_mmas (v : Nat) (x : Vf) : (s.setVf v x).mmas = s.mmas := rfl
@[simp] theorem State.setVf_copies (v : Nat) (x : Vf) : (s.setVf v x).copies = s.copies := rfl
@[simp] theorem State.setVf_remotes (v : Nat) (x : Vf) : (s.setVf v x).remotes = s.remotes := rfl
@[simp] theorem State.setVf_bankOps (v : Nat) (x : Vf) : (s.setVf v x).bankOps = s.bankOps := rfl
@[simp] theorem State.setVf_idle (v : Nat) (x : Vf) : (s.setVf v x).idle = s.idle := rfl
@[simp] theorem State.setVf_issued (v : Nat) (x : Vf) : (s.setVf v x).issued = s.issued := rfl
@[simp] theorem State.setVf_mem (v : Nat) (x : Vf) : (s.setVf v x).mem = s.mem := rfl
@[simp] theorem State.setVf_banks (v : Nat) (x : Vf) : (s.setVf v x).banks = s.banks := rfl
@[simp] theorem State.setVf_cellBlocks (v : Nat) (x : Vf) : (s.setVf v x).cellBlocks = s.cellBlocks := rfl
@[simp] theorem State.setVf_lines (v : Nat) (x : Vf) : (s.setVf v x).lines = s.lines := rfl
@[simp] theorem State.setVf_tlb (v : Nat) (x : Vf) : (s.setVf v x).tlb = s.tlb := rfl
@[simp] theorem State.setVf_errors (v : Nat) (x : Vf) : (s.setVf v x).errors = s.errors := rfl
@[simp] theorem State.setVf_found (v : Nat) (x : Vf) : (s.setVf v x).found = s.found := rfl
@[simp] theorem State.setVf_mismatch (v : Nat) (x : Vf) : (s.setVf v x).mismatch = s.mismatch := rfl
@[simp] theorem State.setVf_tags (v : Nat) (x : Vf) : (s.setVf v x).tags = s.tags := rfl
@[simp] theorem State.setVf_softs (v : Nat) (x : Vf) : (s.setVf v x).softs = s.softs := rfl
@[simp] theorem State.setVf_records (v : Nat) (x : Vf) : (s.setVf v x).records = s.records := rfl
@[simp] theorem State.setVf_gens (v : Nat) (x : Vf) : (s.setVf v x).gens = s.gens := rfl
@[simp] theorem State.setVf_poolWait (v : Nat) (x : Vf) : (s.setVf v x).poolWait = s.poolWait := rfl
@[simp] theorem State.setVf_tasks (v : Nat) (x : Vf) : (s.setVf v x).tasks = s.tasks := rfl
@[simp] theorem State.setVf_launches (v : Nat) (x : Vf) : (s.setVf v x).launches = s.launches := rfl
@[simp] theorem State.setVf_cmds (v : Nat) (x : Vf) : (s.setVf v x).cmds = s.cmds := rfl
@[simp] theorem State.setVf_doms (v : Nat) (x : Vf) : (s.setVf v x).doms = s.doms := rfl
@[simp] theorem State.setVf_ks (v : Nat) (x : Vf) : (s.setVf v x).ks = s.ks := rfl
@[simp] theorem State.setVf_ksReqs (v : Nat) (x : Vf) : (s.setVf v x).ksReqs = s.ksReqs := rfl
@[simp] theorem State.setVf_remoteDue (v : Nat) (x : Vf) : (s.setVf v x).remoteDue = s.remoteDue := rfl
@[simp] theorem State.setVf_parts (v : Nat) (x : Vf) : (s.setVf v x).parts = s.parts := rfl
@[simp] theorem State.setVf_vfs (v : Nat) (x : Vf) : (s.setVf v x).vfs = s.vfs.set v x := rfl
@[simp] theorem State.setVf_asids (v : Nat) (x : Vf) : (s.setVf v x).asids = s.asids := rfl
@[simp] theorem State.setVf_hosts (v : Nat) (x : Vf) : (s.setVf v x).hosts = s.hosts := rfl
@[simp] theorem State.setVf_pages (v : Nat) (x : Vf) : (s.setVf v x).pages = s.pages := rfl
@[simp] theorem State.setVf_cleared (v : Nat) (x : Vf) : (s.setVf v x).cleared = s.cleared := rfl
@[simp] theorem State.setVf_retired (v : Nat) (x : Vf) : (s.setVf v x).retired = s.retired := rfl
@[simp] theorem State.setVf_spared (v : Nat) (x : Vf) : (s.setVf v x).spared = s.spared := rfl
@[simp] theorem State.setVf_sparesUsed (v : Nat) (x : Vf) : (s.setVf v x).sparesUsed = s.sparesUsed := rfl
@[simp] theorem State.setVf_fills (v : Nat) (x : Vf) : (s.setVf v x).fills = s.fills := rfl
@[simp] theorem State.setVf_softCount (v : Nat) (x : Vf) : (s.setVf v x).softCount = s.softCount := rfl
@[simp] theorem State.setVf_ways (v : Nat) (x : Vf) : (s.setVf v x).ways = s.ways := rfl
@[simp] theorem State.setVf_errlog (v : Nat) (x : Vf) : (s.setVf v x).errlog = s.errlog := rfl
@[simp] theorem State.setVf_spokeOut (v : Nat) (x : Vf) : (s.setVf v x).spokeOut = s.spokeOut := rfl
@[simp] theorem State.setVf_spokeReqs (v : Nat) (x : Vf) : (s.setVf v x).spokeReqs = s.spokeReqs := rfl
@[simp] theorem State.setVf_msix (v : Nat) (x : Vf) : (s.setVf v x).msix = s.msix := rfl
@[simp] theorem State.setVf_hostReply (v : Nat) (x : Vf) : (s.setVf v x).hostReply = s.hostReply := rfl
@[simp] theorem State.setVf_hostWait (v : Nat) (x : Vf) : (s.setVf v x).hostWait = s.hostWait := rfl
@[simp] theorem State.setVf_assist (v : Nat) (x : Vf) : (s.setVf v x).assist = s.assist := rfl
@[simp] theorem State.setVf_power (v : Nat) (x : Vf) : (s.setVf v x).power = s.power := rfl

/-! ### `State.setRing` -/

@[simp] theorem State.setRing_agenda (v r : Nat) (x : Ring) : (s.setRing v r x).agenda = s.agenda := rfl
@[simp] theorem State.setRing_turn (v r : Nat) (x : Ring) : (s.setRing v r x).turn = s.turn := rfl
@[simp] theorem State.setRing_nextId (v r : Nat) (x : Ring) : (s.setRing v r x).nextId = s.nextId := rfl
@[simp] theorem State.setRing_free (v r : Nat) (x : Ring) : (s.setRing v r x).free = s.free := rfl
@[simp] theorem State.setRing_grp (v r : Nat) (x : Ring) : (s.setRing v r x).grp = s.grp := rfl
@[simp] theorem State.setRing_waves (v r : Nat) (x : Ring) : (s.setRing v r x).waves = s.waves := rfl
@[simp] theorem State.setRing_blocks (v r : Nat) (x : Ring) : (s.setRing v r x).blocks = s.blocks := rfl
@[simp] theorem State.setRing_teams (v r : Nat) (x : Ring) : (s.setRing v r x).teams = s.teams := rfl
@[simp] theorem State.setRing_resvs (v r : Nat) (x : Ring) : (s.setRing v r x).resvs = s.resvs := rfl
@[simp] theorem State.setRing_mmas (v r : Nat) (x : Ring) : (s.setRing v r x).mmas = s.mmas := rfl
@[simp] theorem State.setRing_copies (v r : Nat) (x : Ring) : (s.setRing v r x).copies = s.copies := rfl
@[simp] theorem State.setRing_remotes (v r : Nat) (x : Ring) : (s.setRing v r x).remotes = s.remotes := rfl
@[simp] theorem State.setRing_bankOps (v r : Nat) (x : Ring) : (s.setRing v r x).bankOps = s.bankOps := rfl
@[simp] theorem State.setRing_idle (v r : Nat) (x : Ring) : (s.setRing v r x).idle = s.idle := rfl
@[simp] theorem State.setRing_issued (v r : Nat) (x : Ring) : (s.setRing v r x).issued = s.issued := rfl
@[simp] theorem State.setRing_mem (v r : Nat) (x : Ring) : (s.setRing v r x).mem = s.mem := rfl
@[simp] theorem State.setRing_banks (v r : Nat) (x : Ring) : (s.setRing v r x).banks = s.banks := rfl
@[simp] theorem State.setRing_cellBlocks (v r : Nat) (x : Ring) : (s.setRing v r x).cellBlocks = s.cellBlocks := rfl
@[simp] theorem State.setRing_lines (v r : Nat) (x : Ring) : (s.setRing v r x).lines = s.lines := rfl
@[simp] theorem State.setRing_tlb (v r : Nat) (x : Ring) : (s.setRing v r x).tlb = s.tlb := rfl
@[simp] theorem State.setRing_errors (v r : Nat) (x : Ring) : (s.setRing v r x).errors = s.errors := rfl
@[simp] theorem State.setRing_found (v r : Nat) (x : Ring) : (s.setRing v r x).found = s.found := rfl
@[simp] theorem State.setRing_mismatch (v r : Nat) (x : Ring) : (s.setRing v r x).mismatch = s.mismatch := rfl
@[simp] theorem State.setRing_tags (v r : Nat) (x : Ring) : (s.setRing v r x).tags = s.tags := rfl
@[simp] theorem State.setRing_softs (v r : Nat) (x : Ring) : (s.setRing v r x).softs = s.softs := rfl
@[simp] theorem State.setRing_records (v r : Nat) (x : Ring) : (s.setRing v r x).records = s.records := rfl
@[simp] theorem State.setRing_gens (v r : Nat) (x : Ring) : (s.setRing v r x).gens = s.gens := rfl
@[simp] theorem State.setRing_poolWait (v r : Nat) (x : Ring) : (s.setRing v r x).poolWait = s.poolWait := rfl
@[simp] theorem State.setRing_tasks (v r : Nat) (x : Ring) : (s.setRing v r x).tasks = s.tasks := rfl
@[simp] theorem State.setRing_launches (v r : Nat) (x : Ring) : (s.setRing v r x).launches = s.launches := rfl
@[simp] theorem State.setRing_cmds (v r : Nat) (x : Ring) : (s.setRing v r x).cmds = s.cmds := rfl
@[simp] theorem State.setRing_doms (v r : Nat) (x : Ring) : (s.setRing v r x).doms = s.doms := rfl
@[simp] theorem State.setRing_ks (v r : Nat) (x : Ring) : (s.setRing v r x).ks = s.ks := rfl
@[simp] theorem State.setRing_ksReqs (v r : Nat) (x : Ring) : (s.setRing v r x).ksReqs = s.ksReqs := rfl
@[simp] theorem State.setRing_remoteDue (v r : Nat) (x : Ring) : (s.setRing v r x).remoteDue = s.remoteDue := rfl
@[simp] theorem State.setRing_parts (v r : Nat) (x : Ring) : (s.setRing v r x).parts = s.parts := rfl
@[simp] theorem State.setRing_vfs (v r : Nat) (x : Ring) : (s.setRing v r x).vfs = s.vfs.set v { s.vf v with rings := (s.vf v).rings.set r x } := rfl
@[simp] theorem State.setRing_asids (v r : Nat) (x : Ring) : (s.setRing v r x).asids = s.asids := rfl
@[simp] theorem State.setRing_hosts (v r : Nat) (x : Ring) : (s.setRing v r x).hosts = s.hosts := rfl
@[simp] theorem State.setRing_pages (v r : Nat) (x : Ring) : (s.setRing v r x).pages = s.pages := rfl
@[simp] theorem State.setRing_cleared (v r : Nat) (x : Ring) : (s.setRing v r x).cleared = s.cleared := rfl
@[simp] theorem State.setRing_retired (v r : Nat) (x : Ring) : (s.setRing v r x).retired = s.retired := rfl
@[simp] theorem State.setRing_spared (v r : Nat) (x : Ring) : (s.setRing v r x).spared = s.spared := rfl
@[simp] theorem State.setRing_sparesUsed (v r : Nat) (x : Ring) : (s.setRing v r x).sparesUsed = s.sparesUsed := rfl
@[simp] theorem State.setRing_fills (v r : Nat) (x : Ring) : (s.setRing v r x).fills = s.fills := rfl
@[simp] theorem State.setRing_softCount (v r : Nat) (x : Ring) : (s.setRing v r x).softCount = s.softCount := rfl
@[simp] theorem State.setRing_ways (v r : Nat) (x : Ring) : (s.setRing v r x).ways = s.ways := rfl
@[simp] theorem State.setRing_errlog (v r : Nat) (x : Ring) : (s.setRing v r x).errlog = s.errlog := rfl
@[simp] theorem State.setRing_spokeOut (v r : Nat) (x : Ring) : (s.setRing v r x).spokeOut = s.spokeOut := rfl
@[simp] theorem State.setRing_spokeReqs (v r : Nat) (x : Ring) : (s.setRing v r x).spokeReqs = s.spokeReqs := rfl
@[simp] theorem State.setRing_msix (v r : Nat) (x : Ring) : (s.setRing v r x).msix = s.msix := rfl
@[simp] theorem State.setRing_hostReply (v r : Nat) (x : Ring) : (s.setRing v r x).hostReply = s.hostReply := rfl
@[simp] theorem State.setRing_hostWait (v r : Nat) (x : Ring) : (s.setRing v r x).hostWait = s.hostWait := rfl
@[simp] theorem State.setRing_assist (v r : Nat) (x : Ring) : (s.setRing v r x).assist = s.assist := rfl
@[simp] theorem State.setRing_power (v r : Nat) (x : Ring) : (s.setRing v r x).power = s.power := rfl

/-! ### `State.updWave` -/

@[simp] theorem State.updWave_agenda (k : Nat) (f : Wave → Wave) : (s.updWave k f).agenda = s.agenda := rfl
@[simp] theorem State.updWave_turn (k : Nat) (f : Wave → Wave) : (s.updWave k f).turn = s.turn := rfl
@[simp] theorem State.updWave_nextId (k : Nat) (f : Wave → Wave) : (s.updWave k f).nextId = s.nextId := rfl
@[simp] theorem State.updWave_free (k : Nat) (f : Wave → Wave) : (s.updWave k f).free = s.free := rfl
@[simp] theorem State.updWave_grp (k : Nat) (f : Wave → Wave) : (s.updWave k f).grp = s.grp := rfl
@[simp] theorem State.updWave_waves (k : Nat) (f : Wave → Wave) : (s.updWave k f).waves = updWhere s.waves (fun y => y.wid == k) f := rfl
@[simp] theorem State.updWave_blocks (k : Nat) (f : Wave → Wave) : (s.updWave k f).blocks = s.blocks := rfl
@[simp] theorem State.updWave_teams (k : Nat) (f : Wave → Wave) : (s.updWave k f).teams = s.teams := rfl
@[simp] theorem State.updWave_resvs (k : Nat) (f : Wave → Wave) : (s.updWave k f).resvs = s.resvs := rfl
@[simp] theorem State.updWave_mmas (k : Nat) (f : Wave → Wave) : (s.updWave k f).mmas = s.mmas := rfl
@[simp] theorem State.updWave_copies (k : Nat) (f : Wave → Wave) : (s.updWave k f).copies = s.copies := rfl
@[simp] theorem State.updWave_remotes (k : Nat) (f : Wave → Wave) : (s.updWave k f).remotes = s.remotes := rfl
@[simp] theorem State.updWave_bankOps (k : Nat) (f : Wave → Wave) : (s.updWave k f).bankOps = s.bankOps := rfl
@[simp] theorem State.updWave_idle (k : Nat) (f : Wave → Wave) : (s.updWave k f).idle = s.idle := rfl
@[simp] theorem State.updWave_issued (k : Nat) (f : Wave → Wave) : (s.updWave k f).issued = s.issued := rfl
@[simp] theorem State.updWave_mem (k : Nat) (f : Wave → Wave) : (s.updWave k f).mem = s.mem := rfl
@[simp] theorem State.updWave_banks (k : Nat) (f : Wave → Wave) : (s.updWave k f).banks = s.banks := rfl
@[simp] theorem State.updWave_cellBlocks (k : Nat) (f : Wave → Wave) : (s.updWave k f).cellBlocks = s.cellBlocks := rfl
@[simp] theorem State.updWave_lines (k : Nat) (f : Wave → Wave) : (s.updWave k f).lines = s.lines := rfl
@[simp] theorem State.updWave_tlb (k : Nat) (f : Wave → Wave) : (s.updWave k f).tlb = s.tlb := rfl
@[simp] theorem State.updWave_errors (k : Nat) (f : Wave → Wave) : (s.updWave k f).errors = s.errors := rfl
@[simp] theorem State.updWave_found (k : Nat) (f : Wave → Wave) : (s.updWave k f).found = s.found := rfl
@[simp] theorem State.updWave_mismatch (k : Nat) (f : Wave → Wave) : (s.updWave k f).mismatch = s.mismatch := rfl
@[simp] theorem State.updWave_tags (k : Nat) (f : Wave → Wave) : (s.updWave k f).tags = s.tags := rfl
@[simp] theorem State.updWave_softs (k : Nat) (f : Wave → Wave) : (s.updWave k f).softs = s.softs := rfl
@[simp] theorem State.updWave_records (k : Nat) (f : Wave → Wave) : (s.updWave k f).records = s.records := rfl
@[simp] theorem State.updWave_gens (k : Nat) (f : Wave → Wave) : (s.updWave k f).gens = s.gens := rfl
@[simp] theorem State.updWave_poolWait (k : Nat) (f : Wave → Wave) : (s.updWave k f).poolWait = s.poolWait := rfl
@[simp] theorem State.updWave_tasks (k : Nat) (f : Wave → Wave) : (s.updWave k f).tasks = s.tasks := rfl
@[simp] theorem State.updWave_launches (k : Nat) (f : Wave → Wave) : (s.updWave k f).launches = s.launches := rfl
@[simp] theorem State.updWave_cmds (k : Nat) (f : Wave → Wave) : (s.updWave k f).cmds = s.cmds := rfl
@[simp] theorem State.updWave_doms (k : Nat) (f : Wave → Wave) : (s.updWave k f).doms = s.doms := rfl
@[simp] theorem State.updWave_ks (k : Nat) (f : Wave → Wave) : (s.updWave k f).ks = s.ks := rfl
@[simp] theorem State.updWave_ksReqs (k : Nat) (f : Wave → Wave) : (s.updWave k f).ksReqs = s.ksReqs := rfl
@[simp] theorem State.updWave_remoteDue (k : Nat) (f : Wave → Wave) : (s.updWave k f).remoteDue = s.remoteDue := rfl
@[simp] theorem State.updWave_parts (k : Nat) (f : Wave → Wave) : (s.updWave k f).parts = s.parts := rfl
@[simp] theorem State.updWave_vfs (k : Nat) (f : Wave → Wave) : (s.updWave k f).vfs = s.vfs := rfl
@[simp] theorem State.updWave_asids (k : Nat) (f : Wave → Wave) : (s.updWave k f).asids = s.asids := rfl
@[simp] theorem State.updWave_hosts (k : Nat) (f : Wave → Wave) : (s.updWave k f).hosts = s.hosts := rfl
@[simp] theorem State.updWave_pages (k : Nat) (f : Wave → Wave) : (s.updWave k f).pages = s.pages := rfl
@[simp] theorem State.updWave_cleared (k : Nat) (f : Wave → Wave) : (s.updWave k f).cleared = s.cleared := rfl
@[simp] theorem State.updWave_retired (k : Nat) (f : Wave → Wave) : (s.updWave k f).retired = s.retired := rfl
@[simp] theorem State.updWave_spared (k : Nat) (f : Wave → Wave) : (s.updWave k f).spared = s.spared := rfl
@[simp] theorem State.updWave_sparesUsed (k : Nat) (f : Wave → Wave) : (s.updWave k f).sparesUsed = s.sparesUsed := rfl
@[simp] theorem State.updWave_fills (k : Nat) (f : Wave → Wave) : (s.updWave k f).fills = s.fills := rfl
@[simp] theorem State.updWave_softCount (k : Nat) (f : Wave → Wave) : (s.updWave k f).softCount = s.softCount := rfl
@[simp] theorem State.updWave_ways (k : Nat) (f : Wave → Wave) : (s.updWave k f).ways = s.ways := rfl
@[simp] theorem State.updWave_errlog (k : Nat) (f : Wave → Wave) : (s.updWave k f).errlog = s.errlog := rfl
@[simp] theorem State.updWave_spokeOut (k : Nat) (f : Wave → Wave) : (s.updWave k f).spokeOut = s.spokeOut := rfl
@[simp] theorem State.updWave_spokeReqs (k : Nat) (f : Wave → Wave) : (s.updWave k f).spokeReqs = s.spokeReqs := rfl
@[simp] theorem State.updWave_msix (k : Nat) (f : Wave → Wave) : (s.updWave k f).msix = s.msix := rfl
@[simp] theorem State.updWave_hostReply (k : Nat) (f : Wave → Wave) : (s.updWave k f).hostReply = s.hostReply := rfl
@[simp] theorem State.updWave_hostWait (k : Nat) (f : Wave → Wave) : (s.updWave k f).hostWait = s.hostWait := rfl
@[simp] theorem State.updWave_assist (k : Nat) (f : Wave → Wave) : (s.updWave k f).assist = s.assist := rfl
@[simp] theorem State.updWave_power (k : Nat) (f : Wave → Wave) : (s.updWave k f).power = s.power := rfl

/-! ### `State.updBlock` -/

@[simp] theorem State.updBlock_agenda (k i : Nat) (f : Block → Block) : (s.updBlock k i f).agenda = s.agenda := rfl
@[simp] theorem State.updBlock_turn (k i : Nat) (f : Block → Block) : (s.updBlock k i f).turn = s.turn := rfl
@[simp] theorem State.updBlock_nextId (k i : Nat) (f : Block → Block) : (s.updBlock k i f).nextId = s.nextId := rfl
@[simp] theorem State.updBlock_free (k i : Nat) (f : Block → Block) : (s.updBlock k i f).free = s.free := rfl
@[simp] theorem State.updBlock_grp (k i : Nat) (f : Block → Block) : (s.updBlock k i f).grp = s.grp := rfl
@[simp] theorem State.updBlock_waves (k i : Nat) (f : Block → Block) : (s.updBlock k i f).waves = s.waves := rfl
@[simp] theorem State.updBlock_blocks (k i : Nat) (f : Block → Block) : (s.updBlock k i f).blocks = updWhere s.blocks (fun y => y.team == k && y.idx == i) f := rfl
@[simp] theorem State.updBlock_teams (k i : Nat) (f : Block → Block) : (s.updBlock k i f).teams = s.teams := rfl
@[simp] theorem State.updBlock_resvs (k i : Nat) (f : Block → Block) : (s.updBlock k i f).resvs = s.resvs := rfl
@[simp] theorem State.updBlock_mmas (k i : Nat) (f : Block → Block) : (s.updBlock k i f).mmas = s.mmas := rfl
@[simp] theorem State.updBlock_copies (k i : Nat) (f : Block → Block) : (s.updBlock k i f).copies = s.copies := rfl
@[simp] theorem State.updBlock_remotes (k i : Nat) (f : Block → Block) : (s.updBlock k i f).remotes = s.remotes := rfl
@[simp] theorem State.updBlock_bankOps (k i : Nat) (f : Block → Block) : (s.updBlock k i f).bankOps = s.bankOps := rfl
@[simp] theorem State.updBlock_idle (k i : Nat) (f : Block → Block) : (s.updBlock k i f).idle = s.idle := rfl
@[simp] theorem State.updBlock_issued (k i : Nat) (f : Block → Block) : (s.updBlock k i f).issued = s.issued := rfl
@[simp] theorem State.updBlock_mem (k i : Nat) (f : Block → Block) : (s.updBlock k i f).mem = s.mem := rfl
@[simp] theorem State.updBlock_banks (k i : Nat) (f : Block → Block) : (s.updBlock k i f).banks = s.banks := rfl
@[simp] theorem State.updBlock_cellBlocks (k i : Nat) (f : Block → Block) : (s.updBlock k i f).cellBlocks = s.cellBlocks := rfl
@[simp] theorem State.updBlock_lines (k i : Nat) (f : Block → Block) : (s.updBlock k i f).lines = s.lines := rfl
@[simp] theorem State.updBlock_tlb (k i : Nat) (f : Block → Block) : (s.updBlock k i f).tlb = s.tlb := rfl
@[simp] theorem State.updBlock_errors (k i : Nat) (f : Block → Block) : (s.updBlock k i f).errors = s.errors := rfl
@[simp] theorem State.updBlock_found (k i : Nat) (f : Block → Block) : (s.updBlock k i f).found = s.found := rfl
@[simp] theorem State.updBlock_mismatch (k i : Nat) (f : Block → Block) : (s.updBlock k i f).mismatch = s.mismatch := rfl
@[simp] theorem State.updBlock_tags (k i : Nat) (f : Block → Block) : (s.updBlock k i f).tags = s.tags := rfl
@[simp] theorem State.updBlock_softs (k i : Nat) (f : Block → Block) : (s.updBlock k i f).softs = s.softs := rfl
@[simp] theorem State.updBlock_records (k i : Nat) (f : Block → Block) : (s.updBlock k i f).records = s.records := rfl
@[simp] theorem State.updBlock_gens (k i : Nat) (f : Block → Block) : (s.updBlock k i f).gens = s.gens := rfl
@[simp] theorem State.updBlock_poolWait (k i : Nat) (f : Block → Block) : (s.updBlock k i f).poolWait = s.poolWait := rfl
@[simp] theorem State.updBlock_tasks (k i : Nat) (f : Block → Block) : (s.updBlock k i f).tasks = s.tasks := rfl
@[simp] theorem State.updBlock_launches (k i : Nat) (f : Block → Block) : (s.updBlock k i f).launches = s.launches := rfl
@[simp] theorem State.updBlock_cmds (k i : Nat) (f : Block → Block) : (s.updBlock k i f).cmds = s.cmds := rfl
@[simp] theorem State.updBlock_doms (k i : Nat) (f : Block → Block) : (s.updBlock k i f).doms = s.doms := rfl
@[simp] theorem State.updBlock_ks (k i : Nat) (f : Block → Block) : (s.updBlock k i f).ks = s.ks := rfl
@[simp] theorem State.updBlock_ksReqs (k i : Nat) (f : Block → Block) : (s.updBlock k i f).ksReqs = s.ksReqs := rfl
@[simp] theorem State.updBlock_remoteDue (k i : Nat) (f : Block → Block) : (s.updBlock k i f).remoteDue = s.remoteDue := rfl
@[simp] theorem State.updBlock_parts (k i : Nat) (f : Block → Block) : (s.updBlock k i f).parts = s.parts := rfl
@[simp] theorem State.updBlock_vfs (k i : Nat) (f : Block → Block) : (s.updBlock k i f).vfs = s.vfs := rfl
@[simp] theorem State.updBlock_asids (k i : Nat) (f : Block → Block) : (s.updBlock k i f).asids = s.asids := rfl
@[simp] theorem State.updBlock_hosts (k i : Nat) (f : Block → Block) : (s.updBlock k i f).hosts = s.hosts := rfl
@[simp] theorem State.updBlock_pages (k i : Nat) (f : Block → Block) : (s.updBlock k i f).pages = s.pages := rfl
@[simp] theorem State.updBlock_cleared (k i : Nat) (f : Block → Block) : (s.updBlock k i f).cleared = s.cleared := rfl
@[simp] theorem State.updBlock_retired (k i : Nat) (f : Block → Block) : (s.updBlock k i f).retired = s.retired := rfl
@[simp] theorem State.updBlock_spared (k i : Nat) (f : Block → Block) : (s.updBlock k i f).spared = s.spared := rfl
@[simp] theorem State.updBlock_sparesUsed (k i : Nat) (f : Block → Block) : (s.updBlock k i f).sparesUsed = s.sparesUsed := rfl
@[simp] theorem State.updBlock_fills (k i : Nat) (f : Block → Block) : (s.updBlock k i f).fills = s.fills := rfl
@[simp] theorem State.updBlock_softCount (k i : Nat) (f : Block → Block) : (s.updBlock k i f).softCount = s.softCount := rfl
@[simp] theorem State.updBlock_ways (k i : Nat) (f : Block → Block) : (s.updBlock k i f).ways = s.ways := rfl
@[simp] theorem State.updBlock_errlog (k i : Nat) (f : Block → Block) : (s.updBlock k i f).errlog = s.errlog := rfl
@[simp] theorem State.updBlock_spokeOut (k i : Nat) (f : Block → Block) : (s.updBlock k i f).spokeOut = s.spokeOut := rfl
@[simp] theorem State.updBlock_spokeReqs (k i : Nat) (f : Block → Block) : (s.updBlock k i f).spokeReqs = s.spokeReqs := rfl
@[simp] theorem State.updBlock_msix (k i : Nat) (f : Block → Block) : (s.updBlock k i f).msix = s.msix := rfl
@[simp] theorem State.updBlock_hostReply (k i : Nat) (f : Block → Block) : (s.updBlock k i f).hostReply = s.hostReply := rfl
@[simp] theorem State.updBlock_hostWait (k i : Nat) (f : Block → Block) : (s.updBlock k i f).hostWait = s.hostWait := rfl
@[simp] theorem State.updBlock_assist (k i : Nat) (f : Block → Block) : (s.updBlock k i f).assist = s.assist := rfl
@[simp] theorem State.updBlock_power (k i : Nat) (f : Block → Block) : (s.updBlock k i f).power = s.power := rfl

/-! ### `State.updTeam` -/

@[simp] theorem State.updTeam_agenda (k : Nat) (f : Team → Team) : (s.updTeam k f).agenda = s.agenda := rfl
@[simp] theorem State.updTeam_turn (k : Nat) (f : Team → Team) : (s.updTeam k f).turn = s.turn := rfl
@[simp] theorem State.updTeam_nextId (k : Nat) (f : Team → Team) : (s.updTeam k f).nextId = s.nextId := rfl
@[simp] theorem State.updTeam_free (k : Nat) (f : Team → Team) : (s.updTeam k f).free = s.free := rfl
@[simp] theorem State.updTeam_grp (k : Nat) (f : Team → Team) : (s.updTeam k f).grp = s.grp := rfl
@[simp] theorem State.updTeam_waves (k : Nat) (f : Team → Team) : (s.updTeam k f).waves = s.waves := rfl
@[simp] theorem State.updTeam_blocks (k : Nat) (f : Team → Team) : (s.updTeam k f).blocks = s.blocks := rfl
@[simp] theorem State.updTeam_teams (k : Nat) (f : Team → Team) : (s.updTeam k f).teams = updWhere s.teams (fun y => y.id == k) f := rfl
@[simp] theorem State.updTeam_resvs (k : Nat) (f : Team → Team) : (s.updTeam k f).resvs = s.resvs := rfl
@[simp] theorem State.updTeam_mmas (k : Nat) (f : Team → Team) : (s.updTeam k f).mmas = s.mmas := rfl
@[simp] theorem State.updTeam_copies (k : Nat) (f : Team → Team) : (s.updTeam k f).copies = s.copies := rfl
@[simp] theorem State.updTeam_remotes (k : Nat) (f : Team → Team) : (s.updTeam k f).remotes = s.remotes := rfl
@[simp] theorem State.updTeam_bankOps (k : Nat) (f : Team → Team) : (s.updTeam k f).bankOps = s.bankOps := rfl
@[simp] theorem State.updTeam_idle (k : Nat) (f : Team → Team) : (s.updTeam k f).idle = s.idle := rfl
@[simp] theorem State.updTeam_issued (k : Nat) (f : Team → Team) : (s.updTeam k f).issued = s.issued := rfl
@[simp] theorem State.updTeam_mem (k : Nat) (f : Team → Team) : (s.updTeam k f).mem = s.mem := rfl
@[simp] theorem State.updTeam_banks (k : Nat) (f : Team → Team) : (s.updTeam k f).banks = s.banks := rfl
@[simp] theorem State.updTeam_cellBlocks (k : Nat) (f : Team → Team) : (s.updTeam k f).cellBlocks = s.cellBlocks := rfl
@[simp] theorem State.updTeam_lines (k : Nat) (f : Team → Team) : (s.updTeam k f).lines = s.lines := rfl
@[simp] theorem State.updTeam_tlb (k : Nat) (f : Team → Team) : (s.updTeam k f).tlb = s.tlb := rfl
@[simp] theorem State.updTeam_errors (k : Nat) (f : Team → Team) : (s.updTeam k f).errors = s.errors := rfl
@[simp] theorem State.updTeam_found (k : Nat) (f : Team → Team) : (s.updTeam k f).found = s.found := rfl
@[simp] theorem State.updTeam_mismatch (k : Nat) (f : Team → Team) : (s.updTeam k f).mismatch = s.mismatch := rfl
@[simp] theorem State.updTeam_tags (k : Nat) (f : Team → Team) : (s.updTeam k f).tags = s.tags := rfl
@[simp] theorem State.updTeam_softs (k : Nat) (f : Team → Team) : (s.updTeam k f).softs = s.softs := rfl
@[simp] theorem State.updTeam_records (k : Nat) (f : Team → Team) : (s.updTeam k f).records = s.records := rfl
@[simp] theorem State.updTeam_gens (k : Nat) (f : Team → Team) : (s.updTeam k f).gens = s.gens := rfl
@[simp] theorem State.updTeam_poolWait (k : Nat) (f : Team → Team) : (s.updTeam k f).poolWait = s.poolWait := rfl
@[simp] theorem State.updTeam_tasks (k : Nat) (f : Team → Team) : (s.updTeam k f).tasks = s.tasks := rfl
@[simp] theorem State.updTeam_launches (k : Nat) (f : Team → Team) : (s.updTeam k f).launches = s.launches := rfl
@[simp] theorem State.updTeam_cmds (k : Nat) (f : Team → Team) : (s.updTeam k f).cmds = s.cmds := rfl
@[simp] theorem State.updTeam_doms (k : Nat) (f : Team → Team) : (s.updTeam k f).doms = s.doms := rfl
@[simp] theorem State.updTeam_ks (k : Nat) (f : Team → Team) : (s.updTeam k f).ks = s.ks := rfl
@[simp] theorem State.updTeam_ksReqs (k : Nat) (f : Team → Team) : (s.updTeam k f).ksReqs = s.ksReqs := rfl
@[simp] theorem State.updTeam_remoteDue (k : Nat) (f : Team → Team) : (s.updTeam k f).remoteDue = s.remoteDue := rfl
@[simp] theorem State.updTeam_parts (k : Nat) (f : Team → Team) : (s.updTeam k f).parts = s.parts := rfl
@[simp] theorem State.updTeam_vfs (k : Nat) (f : Team → Team) : (s.updTeam k f).vfs = s.vfs := rfl
@[simp] theorem State.updTeam_asids (k : Nat) (f : Team → Team) : (s.updTeam k f).asids = s.asids := rfl
@[simp] theorem State.updTeam_hosts (k : Nat) (f : Team → Team) : (s.updTeam k f).hosts = s.hosts := rfl
@[simp] theorem State.updTeam_pages (k : Nat) (f : Team → Team) : (s.updTeam k f).pages = s.pages := rfl
@[simp] theorem State.updTeam_cleared (k : Nat) (f : Team → Team) : (s.updTeam k f).cleared = s.cleared := rfl
@[simp] theorem State.updTeam_retired (k : Nat) (f : Team → Team) : (s.updTeam k f).retired = s.retired := rfl
@[simp] theorem State.updTeam_spared (k : Nat) (f : Team → Team) : (s.updTeam k f).spared = s.spared := rfl
@[simp] theorem State.updTeam_sparesUsed (k : Nat) (f : Team → Team) : (s.updTeam k f).sparesUsed = s.sparesUsed := rfl
@[simp] theorem State.updTeam_fills (k : Nat) (f : Team → Team) : (s.updTeam k f).fills = s.fills := rfl
@[simp] theorem State.updTeam_softCount (k : Nat) (f : Team → Team) : (s.updTeam k f).softCount = s.softCount := rfl
@[simp] theorem State.updTeam_ways (k : Nat) (f : Team → Team) : (s.updTeam k f).ways = s.ways := rfl
@[simp] theorem State.updTeam_errlog (k : Nat) (f : Team → Team) : (s.updTeam k f).errlog = s.errlog := rfl
@[simp] theorem State.updTeam_spokeOut (k : Nat) (f : Team → Team) : (s.updTeam k f).spokeOut = s.spokeOut := rfl
@[simp] theorem State.updTeam_spokeReqs (k : Nat) (f : Team → Team) : (s.updTeam k f).spokeReqs = s.spokeReqs := rfl
@[simp] theorem State.updTeam_msix (k : Nat) (f : Team → Team) : (s.updTeam k f).msix = s.msix := rfl
@[simp] theorem State.updTeam_hostReply (k : Nat) (f : Team → Team) : (s.updTeam k f).hostReply = s.hostReply := rfl
@[simp] theorem State.updTeam_hostWait (k : Nat) (f : Team → Team) : (s.updTeam k f).hostWait = s.hostWait := rfl
@[simp] theorem State.updTeam_assist (k : Nat) (f : Team → Team) : (s.updTeam k f).assist = s.assist := rfl
@[simp] theorem State.updTeam_power (k : Nat) (f : Team → Team) : (s.updTeam k f).power = s.power := rfl

/-! ### `State.updCopy` -/

@[simp] theorem State.updCopy_agenda (k : Nat) (f : Copy → Copy) : (s.updCopy k f).agenda = s.agenda := rfl
@[simp] theorem State.updCopy_turn (k : Nat) (f : Copy → Copy) : (s.updCopy k f).turn = s.turn := rfl
@[simp] theorem State.updCopy_nextId (k : Nat) (f : Copy → Copy) : (s.updCopy k f).nextId = s.nextId := rfl
@[simp] theorem State.updCopy_free (k : Nat) (f : Copy → Copy) : (s.updCopy k f).free = s.free := rfl
@[simp] theorem State.updCopy_grp (k : Nat) (f : Copy → Copy) : (s.updCopy k f).grp = s.grp := rfl
@[simp] theorem State.updCopy_waves (k : Nat) (f : Copy → Copy) : (s.updCopy k f).waves = s.waves := rfl
@[simp] theorem State.updCopy_blocks (k : Nat) (f : Copy → Copy) : (s.updCopy k f).blocks = s.blocks := rfl
@[simp] theorem State.updCopy_teams (k : Nat) (f : Copy → Copy) : (s.updCopy k f).teams = s.teams := rfl
@[simp] theorem State.updCopy_resvs (k : Nat) (f : Copy → Copy) : (s.updCopy k f).resvs = s.resvs := rfl
@[simp] theorem State.updCopy_mmas (k : Nat) (f : Copy → Copy) : (s.updCopy k f).mmas = s.mmas := rfl
@[simp] theorem State.updCopy_copies (k : Nat) (f : Copy → Copy) : (s.updCopy k f).copies = updWhere s.copies (fun y => y.id == k) f := rfl
@[simp] theorem State.updCopy_remotes (k : Nat) (f : Copy → Copy) : (s.updCopy k f).remotes = s.remotes := rfl
@[simp] theorem State.updCopy_bankOps (k : Nat) (f : Copy → Copy) : (s.updCopy k f).bankOps = s.bankOps := rfl
@[simp] theorem State.updCopy_idle (k : Nat) (f : Copy → Copy) : (s.updCopy k f).idle = s.idle := rfl
@[simp] theorem State.updCopy_issued (k : Nat) (f : Copy → Copy) : (s.updCopy k f).issued = s.issued := rfl
@[simp] theorem State.updCopy_mem (k : Nat) (f : Copy → Copy) : (s.updCopy k f).mem = s.mem := rfl
@[simp] theorem State.updCopy_banks (k : Nat) (f : Copy → Copy) : (s.updCopy k f).banks = s.banks := rfl
@[simp] theorem State.updCopy_cellBlocks (k : Nat) (f : Copy → Copy) : (s.updCopy k f).cellBlocks = s.cellBlocks := rfl
@[simp] theorem State.updCopy_lines (k : Nat) (f : Copy → Copy) : (s.updCopy k f).lines = s.lines := rfl
@[simp] theorem State.updCopy_tlb (k : Nat) (f : Copy → Copy) : (s.updCopy k f).tlb = s.tlb := rfl
@[simp] theorem State.updCopy_errors (k : Nat) (f : Copy → Copy) : (s.updCopy k f).errors = s.errors := rfl
@[simp] theorem State.updCopy_found (k : Nat) (f : Copy → Copy) : (s.updCopy k f).found = s.found := rfl
@[simp] theorem State.updCopy_mismatch (k : Nat) (f : Copy → Copy) : (s.updCopy k f).mismatch = s.mismatch := rfl
@[simp] theorem State.updCopy_tags (k : Nat) (f : Copy → Copy) : (s.updCopy k f).tags = s.tags := rfl
@[simp] theorem State.updCopy_softs (k : Nat) (f : Copy → Copy) : (s.updCopy k f).softs = s.softs := rfl
@[simp] theorem State.updCopy_records (k : Nat) (f : Copy → Copy) : (s.updCopy k f).records = s.records := rfl
@[simp] theorem State.updCopy_gens (k : Nat) (f : Copy → Copy) : (s.updCopy k f).gens = s.gens := rfl
@[simp] theorem State.updCopy_poolWait (k : Nat) (f : Copy → Copy) : (s.updCopy k f).poolWait = s.poolWait := rfl
@[simp] theorem State.updCopy_tasks (k : Nat) (f : Copy → Copy) : (s.updCopy k f).tasks = s.tasks := rfl
@[simp] theorem State.updCopy_launches (k : Nat) (f : Copy → Copy) : (s.updCopy k f).launches = s.launches := rfl
@[simp] theorem State.updCopy_cmds (k : Nat) (f : Copy → Copy) : (s.updCopy k f).cmds = s.cmds := rfl
@[simp] theorem State.updCopy_doms (k : Nat) (f : Copy → Copy) : (s.updCopy k f).doms = s.doms := rfl
@[simp] theorem State.updCopy_ks (k : Nat) (f : Copy → Copy) : (s.updCopy k f).ks = s.ks := rfl
@[simp] theorem State.updCopy_ksReqs (k : Nat) (f : Copy → Copy) : (s.updCopy k f).ksReqs = s.ksReqs := rfl
@[simp] theorem State.updCopy_remoteDue (k : Nat) (f : Copy → Copy) : (s.updCopy k f).remoteDue = s.remoteDue := rfl
@[simp] theorem State.updCopy_parts (k : Nat) (f : Copy → Copy) : (s.updCopy k f).parts = s.parts := rfl
@[simp] theorem State.updCopy_vfs (k : Nat) (f : Copy → Copy) : (s.updCopy k f).vfs = s.vfs := rfl
@[simp] theorem State.updCopy_asids (k : Nat) (f : Copy → Copy) : (s.updCopy k f).asids = s.asids := rfl
@[simp] theorem State.updCopy_hosts (k : Nat) (f : Copy → Copy) : (s.updCopy k f).hosts = s.hosts := rfl
@[simp] theorem State.updCopy_pages (k : Nat) (f : Copy → Copy) : (s.updCopy k f).pages = s.pages := rfl
@[simp] theorem State.updCopy_cleared (k : Nat) (f : Copy → Copy) : (s.updCopy k f).cleared = s.cleared := rfl
@[simp] theorem State.updCopy_retired (k : Nat) (f : Copy → Copy) : (s.updCopy k f).retired = s.retired := rfl
@[simp] theorem State.updCopy_spared (k : Nat) (f : Copy → Copy) : (s.updCopy k f).spared = s.spared := rfl
@[simp] theorem State.updCopy_sparesUsed (k : Nat) (f : Copy → Copy) : (s.updCopy k f).sparesUsed = s.sparesUsed := rfl
@[simp] theorem State.updCopy_fills (k : Nat) (f : Copy → Copy) : (s.updCopy k f).fills = s.fills := rfl
@[simp] theorem State.updCopy_softCount (k : Nat) (f : Copy → Copy) : (s.updCopy k f).softCount = s.softCount := rfl
@[simp] theorem State.updCopy_ways (k : Nat) (f : Copy → Copy) : (s.updCopy k f).ways = s.ways := rfl
@[simp] theorem State.updCopy_errlog (k : Nat) (f : Copy → Copy) : (s.updCopy k f).errlog = s.errlog := rfl
@[simp] theorem State.updCopy_spokeOut (k : Nat) (f : Copy → Copy) : (s.updCopy k f).spokeOut = s.spokeOut := rfl
@[simp] theorem State.updCopy_spokeReqs (k : Nat) (f : Copy → Copy) : (s.updCopy k f).spokeReqs = s.spokeReqs := rfl
@[simp] theorem State.updCopy_msix (k : Nat) (f : Copy → Copy) : (s.updCopy k f).msix = s.msix := rfl
@[simp] theorem State.updCopy_hostReply (k : Nat) (f : Copy → Copy) : (s.updCopy k f).hostReply = s.hostReply := rfl
@[simp] theorem State.updCopy_hostWait (k : Nat) (f : Copy → Copy) : (s.updCopy k f).hostWait = s.hostWait := rfl
@[simp] theorem State.updCopy_assist (k : Nat) (f : Copy → Copy) : (s.updCopy k f).assist = s.assist := rfl
@[simp] theorem State.updCopy_power (k : Nat) (f : Copy → Copy) : (s.updCopy k f).power = s.power := rfl

/-! ### `State.updRecord` -/

@[simp] theorem State.updRecord_agenda (k : Nat) (f : Record → Record) : (s.updRecord k f).agenda = s.agenda := rfl
@[simp] theorem State.updRecord_turn (k : Nat) (f : Record → Record) : (s.updRecord k f).turn = s.turn := rfl
@[simp] theorem State.updRecord_nextId (k : Nat) (f : Record → Record) : (s.updRecord k f).nextId = s.nextId := rfl
@[simp] theorem State.updRecord_free (k : Nat) (f : Record → Record) : (s.updRecord k f).free = s.free := rfl
@[simp] theorem State.updRecord_grp (k : Nat) (f : Record → Record) : (s.updRecord k f).grp = s.grp := rfl
@[simp] theorem State.updRecord_waves (k : Nat) (f : Record → Record) : (s.updRecord k f).waves = s.waves := rfl
@[simp] theorem State.updRecord_blocks (k : Nat) (f : Record → Record) : (s.updRecord k f).blocks = s.blocks := rfl
@[simp] theorem State.updRecord_teams (k : Nat) (f : Record → Record) : (s.updRecord k f).teams = s.teams := rfl
@[simp] theorem State.updRecord_resvs (k : Nat) (f : Record → Record) : (s.updRecord k f).resvs = s.resvs := rfl
@[simp] theorem State.updRecord_mmas (k : Nat) (f : Record → Record) : (s.updRecord k f).mmas = s.mmas := rfl
@[simp] theorem State.updRecord_copies (k : Nat) (f : Record → Record) : (s.updRecord k f).copies = s.copies := rfl
@[simp] theorem State.updRecord_remotes (k : Nat) (f : Record → Record) : (s.updRecord k f).remotes = s.remotes := rfl
@[simp] theorem State.updRecord_bankOps (k : Nat) (f : Record → Record) : (s.updRecord k f).bankOps = s.bankOps := rfl
@[simp] theorem State.updRecord_idle (k : Nat) (f : Record → Record) : (s.updRecord k f).idle = s.idle := rfl
@[simp] theorem State.updRecord_issued (k : Nat) (f : Record → Record) : (s.updRecord k f).issued = s.issued := rfl
@[simp] theorem State.updRecord_mem (k : Nat) (f : Record → Record) : (s.updRecord k f).mem = s.mem := rfl
@[simp] theorem State.updRecord_banks (k : Nat) (f : Record → Record) : (s.updRecord k f).banks = s.banks := rfl
@[simp] theorem State.updRecord_cellBlocks (k : Nat) (f : Record → Record) : (s.updRecord k f).cellBlocks = s.cellBlocks := rfl
@[simp] theorem State.updRecord_lines (k : Nat) (f : Record → Record) : (s.updRecord k f).lines = s.lines := rfl
@[simp] theorem State.updRecord_tlb (k : Nat) (f : Record → Record) : (s.updRecord k f).tlb = s.tlb := rfl
@[simp] theorem State.updRecord_errors (k : Nat) (f : Record → Record) : (s.updRecord k f).errors = s.errors := rfl
@[simp] theorem State.updRecord_found (k : Nat) (f : Record → Record) : (s.updRecord k f).found = s.found := rfl
@[simp] theorem State.updRecord_mismatch (k : Nat) (f : Record → Record) : (s.updRecord k f).mismatch = s.mismatch := rfl
@[simp] theorem State.updRecord_tags (k : Nat) (f : Record → Record) : (s.updRecord k f).tags = s.tags := rfl
@[simp] theorem State.updRecord_softs (k : Nat) (f : Record → Record) : (s.updRecord k f).softs = s.softs := rfl
@[simp] theorem State.updRecord_records (k : Nat) (f : Record → Record) : (s.updRecord k f).records = updWhere s.records (fun y => y.id == k) f := rfl
@[simp] theorem State.updRecord_gens (k : Nat) (f : Record → Record) : (s.updRecord k f).gens = s.gens := rfl
@[simp] theorem State.updRecord_poolWait (k : Nat) (f : Record → Record) : (s.updRecord k f).poolWait = s.poolWait := rfl
@[simp] theorem State.updRecord_tasks (k : Nat) (f : Record → Record) : (s.updRecord k f).tasks = s.tasks := rfl
@[simp] theorem State.updRecord_launches (k : Nat) (f : Record → Record) : (s.updRecord k f).launches = s.launches := rfl
@[simp] theorem State.updRecord_cmds (k : Nat) (f : Record → Record) : (s.updRecord k f).cmds = s.cmds := rfl
@[simp] theorem State.updRecord_doms (k : Nat) (f : Record → Record) : (s.updRecord k f).doms = s.doms := rfl
@[simp] theorem State.updRecord_ks (k : Nat) (f : Record → Record) : (s.updRecord k f).ks = s.ks := rfl
@[simp] theorem State.updRecord_ksReqs (k : Nat) (f : Record → Record) : (s.updRecord k f).ksReqs = s.ksReqs := rfl
@[simp] theorem State.updRecord_remoteDue (k : Nat) (f : Record → Record) : (s.updRecord k f).remoteDue = s.remoteDue := rfl
@[simp] theorem State.updRecord_parts (k : Nat) (f : Record → Record) : (s.updRecord k f).parts = s.parts := rfl
@[simp] theorem State.updRecord_vfs (k : Nat) (f : Record → Record) : (s.updRecord k f).vfs = s.vfs := rfl
@[simp] theorem State.updRecord_asids (k : Nat) (f : Record → Record) : (s.updRecord k f).asids = s.asids := rfl
@[simp] theorem State.updRecord_hosts (k : Nat) (f : Record → Record) : (s.updRecord k f).hosts = s.hosts := rfl
@[simp] theorem State.updRecord_pages (k : Nat) (f : Record → Record) : (s.updRecord k f).pages = s.pages := rfl
@[simp] theorem State.updRecord_cleared (k : Nat) (f : Record → Record) : (s.updRecord k f).cleared = s.cleared := rfl
@[simp] theorem State.updRecord_retired (k : Nat) (f : Record → Record) : (s.updRecord k f).retired = s.retired := rfl
@[simp] theorem State.updRecord_spared (k : Nat) (f : Record → Record) : (s.updRecord k f).spared = s.spared := rfl
@[simp] theorem State.updRecord_sparesUsed (k : Nat) (f : Record → Record) : (s.updRecord k f).sparesUsed = s.sparesUsed := rfl
@[simp] theorem State.updRecord_fills (k : Nat) (f : Record → Record) : (s.updRecord k f).fills = s.fills := rfl
@[simp] theorem State.updRecord_softCount (k : Nat) (f : Record → Record) : (s.updRecord k f).softCount = s.softCount := rfl
@[simp] theorem State.updRecord_ways (k : Nat) (f : Record → Record) : (s.updRecord k f).ways = s.ways := rfl
@[simp] theorem State.updRecord_errlog (k : Nat) (f : Record → Record) : (s.updRecord k f).errlog = s.errlog := rfl
@[simp] theorem State.updRecord_spokeOut (k : Nat) (f : Record → Record) : (s.updRecord k f).spokeOut = s.spokeOut := rfl
@[simp] theorem State.updRecord_spokeReqs (k : Nat) (f : Record → Record) : (s.updRecord k f).spokeReqs = s.spokeReqs := rfl
@[simp] theorem State.updRecord_msix (k : Nat) (f : Record → Record) : (s.updRecord k f).msix = s.msix := rfl
@[simp] theorem State.updRecord_hostReply (k : Nat) (f : Record → Record) : (s.updRecord k f).hostReply = s.hostReply := rfl
@[simp] theorem State.updRecord_hostWait (k : Nat) (f : Record → Record) : (s.updRecord k f).hostWait = s.hostWait := rfl
@[simp] theorem State.updRecord_assist (k : Nat) (f : Record → Record) : (s.updRecord k f).assist = s.assist := rfl
@[simp] theorem State.updRecord_power (k : Nat) (f : Record → Record) : (s.updRecord k f).power = s.power := rfl

/-! ### `State.updLaunch` -/

@[simp] theorem State.updLaunch_agenda (k : Nat) (f : Launch → Launch) : (s.updLaunch k f).agenda = s.agenda := rfl
@[simp] theorem State.updLaunch_turn (k : Nat) (f : Launch → Launch) : (s.updLaunch k f).turn = s.turn := rfl
@[simp] theorem State.updLaunch_nextId (k : Nat) (f : Launch → Launch) : (s.updLaunch k f).nextId = s.nextId := rfl
@[simp] theorem State.updLaunch_free (k : Nat) (f : Launch → Launch) : (s.updLaunch k f).free = s.free := rfl
@[simp] theorem State.updLaunch_grp (k : Nat) (f : Launch → Launch) : (s.updLaunch k f).grp = s.grp := rfl
@[simp] theorem State.updLaunch_waves (k : Nat) (f : Launch → Launch) : (s.updLaunch k f).waves = s.waves := rfl
@[simp] theorem State.updLaunch_blocks (k : Nat) (f : Launch → Launch) : (s.updLaunch k f).blocks = s.blocks := rfl
@[simp] theorem State.updLaunch_teams (k : Nat) (f : Launch → Launch) : (s.updLaunch k f).teams = s.teams := rfl
@[simp] theorem State.updLaunch_resvs (k : Nat) (f : Launch → Launch) : (s.updLaunch k f).resvs = s.resvs := rfl
@[simp] theorem State.updLaunch_mmas (k : Nat) (f : Launch → Launch) : (s.updLaunch k f).mmas = s.mmas := rfl
@[simp] theorem State.updLaunch_copies (k : Nat) (f : Launch → Launch) : (s.updLaunch k f).copies = s.copies := rfl
@[simp] theorem State.updLaunch_remotes (k : Nat) (f : Launch → Launch) : (s.updLaunch k f).remotes = s.remotes := rfl
@[simp] theorem State.updLaunch_bankOps (k : Nat) (f : Launch → Launch) : (s.updLaunch k f).bankOps = s.bankOps := rfl
@[simp] theorem State.updLaunch_idle (k : Nat) (f : Launch → Launch) : (s.updLaunch k f).idle = s.idle := rfl
@[simp] theorem State.updLaunch_issued (k : Nat) (f : Launch → Launch) : (s.updLaunch k f).issued = s.issued := rfl
@[simp] theorem State.updLaunch_mem (k : Nat) (f : Launch → Launch) : (s.updLaunch k f).mem = s.mem := rfl
@[simp] theorem State.updLaunch_banks (k : Nat) (f : Launch → Launch) : (s.updLaunch k f).banks = s.banks := rfl
@[simp] theorem State.updLaunch_cellBlocks (k : Nat) (f : Launch → Launch) : (s.updLaunch k f).cellBlocks = s.cellBlocks := rfl
@[simp] theorem State.updLaunch_lines (k : Nat) (f : Launch → Launch) : (s.updLaunch k f).lines = s.lines := rfl
@[simp] theorem State.updLaunch_tlb (k : Nat) (f : Launch → Launch) : (s.updLaunch k f).tlb = s.tlb := rfl
@[simp] theorem State.updLaunch_errors (k : Nat) (f : Launch → Launch) : (s.updLaunch k f).errors = s.errors := rfl
@[simp] theorem State.updLaunch_found (k : Nat) (f : Launch → Launch) : (s.updLaunch k f).found = s.found := rfl
@[simp] theorem State.updLaunch_mismatch (k : Nat) (f : Launch → Launch) : (s.updLaunch k f).mismatch = s.mismatch := rfl
@[simp] theorem State.updLaunch_tags (k : Nat) (f : Launch → Launch) : (s.updLaunch k f).tags = s.tags := rfl
@[simp] theorem State.updLaunch_softs (k : Nat) (f : Launch → Launch) : (s.updLaunch k f).softs = s.softs := rfl
@[simp] theorem State.updLaunch_records (k : Nat) (f : Launch → Launch) : (s.updLaunch k f).records = s.records := rfl
@[simp] theorem State.updLaunch_gens (k : Nat) (f : Launch → Launch) : (s.updLaunch k f).gens = s.gens := rfl
@[simp] theorem State.updLaunch_poolWait (k : Nat) (f : Launch → Launch) : (s.updLaunch k f).poolWait = s.poolWait := rfl
@[simp] theorem State.updLaunch_tasks (k : Nat) (f : Launch → Launch) : (s.updLaunch k f).tasks = s.tasks := rfl
@[simp] theorem State.updLaunch_launches (k : Nat) (f : Launch → Launch) : (s.updLaunch k f).launches = updWhere s.launches (fun y => y.id == k) f := rfl
@[simp] theorem State.updLaunch_cmds (k : Nat) (f : Launch → Launch) : (s.updLaunch k f).cmds = s.cmds := rfl
@[simp] theorem State.updLaunch_doms (k : Nat) (f : Launch → Launch) : (s.updLaunch k f).doms = s.doms := rfl
@[simp] theorem State.updLaunch_ks (k : Nat) (f : Launch → Launch) : (s.updLaunch k f).ks = s.ks := rfl
@[simp] theorem State.updLaunch_ksReqs (k : Nat) (f : Launch → Launch) : (s.updLaunch k f).ksReqs = s.ksReqs := rfl
@[simp] theorem State.updLaunch_remoteDue (k : Nat) (f : Launch → Launch) : (s.updLaunch k f).remoteDue = s.remoteDue := rfl
@[simp] theorem State.updLaunch_parts (k : Nat) (f : Launch → Launch) : (s.updLaunch k f).parts = s.parts := rfl
@[simp] theorem State.updLaunch_vfs (k : Nat) (f : Launch → Launch) : (s.updLaunch k f).vfs = s.vfs := rfl
@[simp] theorem State.updLaunch_asids (k : Nat) (f : Launch → Launch) : (s.updLaunch k f).asids = s.asids := rfl
@[simp] theorem State.updLaunch_hosts (k : Nat) (f : Launch → Launch) : (s.updLaunch k f).hosts = s.hosts := rfl
@[simp] theorem State.updLaunch_pages (k : Nat) (f : Launch → Launch) : (s.updLaunch k f).pages = s.pages := rfl
@[simp] theorem State.updLaunch_cleared (k : Nat) (f : Launch → Launch) : (s.updLaunch k f).cleared = s.cleared := rfl
@[simp] theorem State.updLaunch_retired (k : Nat) (f : Launch → Launch) : (s.updLaunch k f).retired = s.retired := rfl
@[simp] theorem State.updLaunch_spared (k : Nat) (f : Launch → Launch) : (s.updLaunch k f).spared = s.spared := rfl
@[simp] theorem State.updLaunch_sparesUsed (k : Nat) (f : Launch → Launch) : (s.updLaunch k f).sparesUsed = s.sparesUsed := rfl
@[simp] theorem State.updLaunch_fills (k : Nat) (f : Launch → Launch) : (s.updLaunch k f).fills = s.fills := rfl
@[simp] theorem State.updLaunch_softCount (k : Nat) (f : Launch → Launch) : (s.updLaunch k f).softCount = s.softCount := rfl
@[simp] theorem State.updLaunch_ways (k : Nat) (f : Launch → Launch) : (s.updLaunch k f).ways = s.ways := rfl
@[simp] theorem State.updLaunch_errlog (k : Nat) (f : Launch → Launch) : (s.updLaunch k f).errlog = s.errlog := rfl
@[simp] theorem State.updLaunch_spokeOut (k : Nat) (f : Launch → Launch) : (s.updLaunch k f).spokeOut = s.spokeOut := rfl
@[simp] theorem State.updLaunch_spokeReqs (k : Nat) (f : Launch → Launch) : (s.updLaunch k f).spokeReqs = s.spokeReqs := rfl
@[simp] theorem State.updLaunch_msix (k : Nat) (f : Launch → Launch) : (s.updLaunch k f).msix = s.msix := rfl
@[simp] theorem State.updLaunch_hostReply (k : Nat) (f : Launch → Launch) : (s.updLaunch k f).hostReply = s.hostReply := rfl
@[simp] theorem State.updLaunch_hostWait (k : Nat) (f : Launch → Launch) : (s.updLaunch k f).hostWait = s.hostWait := rfl
@[simp] theorem State.updLaunch_assist (k : Nat) (f : Launch → Launch) : (s.updLaunch k f).assist = s.assist := rfl
@[simp] theorem State.updLaunch_power (k : Nat) (f : Launch → Launch) : (s.updLaunch k f).power = s.power := rfl

/-! ### `State.wakeRetry` -/

@[simp] theorem State.wakeRetry_agenda : (s.wakeRetry).agenda = s.agenda := rfl
@[simp] theorem State.wakeRetry_turn : (s.wakeRetry).turn = s.turn := rfl
@[simp] theorem State.wakeRetry_nextId : (s.wakeRetry).nextId = s.nextId := rfl
@[simp] theorem State.wakeRetry_free : (s.wakeRetry).free = s.free := rfl
@[simp] theorem State.wakeRetry_grp : (s.wakeRetry).grp = s.grp := rfl
@[simp] theorem State.wakeRetry_waves : (s.wakeRetry).waves = s.waves.map Wave.again := rfl
@[simp] theorem State.wakeRetry_blocks : (s.wakeRetry).blocks = s.blocks := rfl
@[simp] theorem State.wakeRetry_teams : (s.wakeRetry).teams = s.teams := rfl
@[simp] theorem State.wakeRetry_resvs : (s.wakeRetry).resvs = s.resvs := rfl
@[simp] theorem State.wakeRetry_mmas : (s.wakeRetry).mmas = s.mmas := rfl
@[simp] theorem State.wakeRetry_copies : (s.wakeRetry).copies = s.copies := rfl
@[simp] theorem State.wakeRetry_remotes : (s.wakeRetry).remotes = s.remotes := rfl
@[simp] theorem State.wakeRetry_bankOps : (s.wakeRetry).bankOps = s.bankOps := rfl
@[simp] theorem State.wakeRetry_idle : (s.wakeRetry).idle = s.idle := rfl
@[simp] theorem State.wakeRetry_issued : (s.wakeRetry).issued = s.issued := rfl
@[simp] theorem State.wakeRetry_mem : (s.wakeRetry).mem = s.mem := rfl
@[simp] theorem State.wakeRetry_banks : (s.wakeRetry).banks = s.banks := rfl
@[simp] theorem State.wakeRetry_cellBlocks : (s.wakeRetry).cellBlocks = s.cellBlocks := rfl
@[simp] theorem State.wakeRetry_lines : (s.wakeRetry).lines = s.lines := rfl
@[simp] theorem State.wakeRetry_tlb : (s.wakeRetry).tlb = s.tlb := rfl
@[simp] theorem State.wakeRetry_errors : (s.wakeRetry).errors = s.errors := rfl
@[simp] theorem State.wakeRetry_found : (s.wakeRetry).found = s.found := rfl
@[simp] theorem State.wakeRetry_mismatch : (s.wakeRetry).mismatch = s.mismatch := rfl
@[simp] theorem State.wakeRetry_tags : (s.wakeRetry).tags = s.tags := rfl
@[simp] theorem State.wakeRetry_softs : (s.wakeRetry).softs = s.softs := rfl
@[simp] theorem State.wakeRetry_records : (s.wakeRetry).records = s.records := rfl
@[simp] theorem State.wakeRetry_gens : (s.wakeRetry).gens = s.gens := rfl
@[simp] theorem State.wakeRetry_poolWait : (s.wakeRetry).poolWait = s.poolWait := rfl
@[simp] theorem State.wakeRetry_tasks : (s.wakeRetry).tasks = s.tasks := rfl
@[simp] theorem State.wakeRetry_launches : (s.wakeRetry).launches = s.launches := rfl
@[simp] theorem State.wakeRetry_cmds : (s.wakeRetry).cmds = s.cmds := rfl
@[simp] theorem State.wakeRetry_doms : (s.wakeRetry).doms = s.doms := rfl
@[simp] theorem State.wakeRetry_ks : (s.wakeRetry).ks = s.ks := rfl
@[simp] theorem State.wakeRetry_ksReqs : (s.wakeRetry).ksReqs = s.ksReqs := rfl
@[simp] theorem State.wakeRetry_remoteDue : (s.wakeRetry).remoteDue = s.remoteDue := rfl
@[simp] theorem State.wakeRetry_parts : (s.wakeRetry).parts = s.parts := rfl
@[simp] theorem State.wakeRetry_vfs : (s.wakeRetry).vfs = s.vfs := rfl
@[simp] theorem State.wakeRetry_asids : (s.wakeRetry).asids = s.asids := rfl
@[simp] theorem State.wakeRetry_hosts : (s.wakeRetry).hosts = s.hosts := rfl
@[simp] theorem State.wakeRetry_pages : (s.wakeRetry).pages = s.pages := rfl
@[simp] theorem State.wakeRetry_cleared : (s.wakeRetry).cleared = s.cleared := rfl
@[simp] theorem State.wakeRetry_retired : (s.wakeRetry).retired = s.retired := rfl
@[simp] theorem State.wakeRetry_spared : (s.wakeRetry).spared = s.spared := rfl
@[simp] theorem State.wakeRetry_sparesUsed : (s.wakeRetry).sparesUsed = s.sparesUsed := rfl
@[simp] theorem State.wakeRetry_fills : (s.wakeRetry).fills = s.fills := rfl
@[simp] theorem State.wakeRetry_softCount : (s.wakeRetry).softCount = s.softCount := rfl
@[simp] theorem State.wakeRetry_ways : (s.wakeRetry).ways = s.ways := rfl
@[simp] theorem State.wakeRetry_errlog : (s.wakeRetry).errlog = s.errlog := rfl
@[simp] theorem State.wakeRetry_spokeOut : (s.wakeRetry).spokeOut = s.spokeOut := rfl
@[simp] theorem State.wakeRetry_spokeReqs : (s.wakeRetry).spokeReqs = s.spokeReqs := rfl
@[simp] theorem State.wakeRetry_msix : (s.wakeRetry).msix = s.msix := rfl
@[simp] theorem State.wakeRetry_hostReply : (s.wakeRetry).hostReply = s.hostReply := rfl
@[simp] theorem State.wakeRetry_hostWait : (s.wakeRetry).hostWait = s.hostWait := rfl
@[simp] theorem State.wakeRetry_assist : (s.wakeRetry).assist = s.assist := rfl
@[simp] theorem State.wakeRetry_power : (s.wakeRetry).power = s.power := rfl

/-! ### `State.countHold` -/

@[simp] theorem State.countHold_agenda (k : Nat) : (s.countHold k).agenda = s.agenda := rfl
@[simp] theorem State.countHold_turn (k : Nat) : (s.countHold k).turn = s.turn := rfl
@[simp] theorem State.countHold_nextId (k : Nat) : (s.countHold k).nextId = s.nextId := rfl
@[simp] theorem State.countHold_free (k : Nat) : (s.countHold k).free = s.free := rfl
@[simp] theorem State.countHold_grp (k : Nat) : (s.countHold k).grp = s.grp := rfl
@[simp] theorem State.countHold_waves (k : Nat) : (s.countHold k).waves = updWhere s.waves (fun y => y.wid == k) fun w => { w with hold := w.hold - 1 } := rfl
@[simp] theorem State.countHold_blocks (k : Nat) : (s.countHold k).blocks = s.blocks := rfl
@[simp] theorem State.countHold_teams (k : Nat) : (s.countHold k).teams = s.teams := rfl
@[simp] theorem State.countHold_resvs (k : Nat) : (s.countHold k).resvs = s.resvs := rfl
@[simp] theorem State.countHold_mmas (k : Nat) : (s.countHold k).mmas = s.mmas := rfl
@[simp] theorem State.countHold_copies (k : Nat) : (s.countHold k).copies = s.copies := rfl
@[simp] theorem State.countHold_remotes (k : Nat) : (s.countHold k).remotes = s.remotes := rfl
@[simp] theorem State.countHold_bankOps (k : Nat) : (s.countHold k).bankOps = s.bankOps := rfl
@[simp] theorem State.countHold_idle (k : Nat) : (s.countHold k).idle = s.idle := rfl
@[simp] theorem State.countHold_issued (k : Nat) : (s.countHold k).issued = s.issued := rfl
@[simp] theorem State.countHold_mem (k : Nat) : (s.countHold k).mem = s.mem := rfl
@[simp] theorem State.countHold_banks (k : Nat) : (s.countHold k).banks = s.banks := rfl
@[simp] theorem State.countHold_cellBlocks (k : Nat) : (s.countHold k).cellBlocks = s.cellBlocks := rfl
@[simp] theorem State.countHold_lines (k : Nat) : (s.countHold k).lines = s.lines := rfl
@[simp] theorem State.countHold_tlb (k : Nat) : (s.countHold k).tlb = s.tlb := rfl
@[simp] theorem State.countHold_errors (k : Nat) : (s.countHold k).errors = s.errors := rfl
@[simp] theorem State.countHold_found (k : Nat) : (s.countHold k).found = s.found := rfl
@[simp] theorem State.countHold_mismatch (k : Nat) : (s.countHold k).mismatch = s.mismatch := rfl
@[simp] theorem State.countHold_tags (k : Nat) : (s.countHold k).tags = s.tags := rfl
@[simp] theorem State.countHold_softs (k : Nat) : (s.countHold k).softs = s.softs := rfl
@[simp] theorem State.countHold_records (k : Nat) : (s.countHold k).records = s.records := rfl
@[simp] theorem State.countHold_gens (k : Nat) : (s.countHold k).gens = s.gens := rfl
@[simp] theorem State.countHold_poolWait (k : Nat) : (s.countHold k).poolWait = s.poolWait := rfl
@[simp] theorem State.countHold_tasks (k : Nat) : (s.countHold k).tasks = s.tasks := rfl
@[simp] theorem State.countHold_launches (k : Nat) : (s.countHold k).launches = s.launches := rfl
@[simp] theorem State.countHold_cmds (k : Nat) : (s.countHold k).cmds = s.cmds := rfl
@[simp] theorem State.countHold_doms (k : Nat) : (s.countHold k).doms = s.doms := rfl
@[simp] theorem State.countHold_ks (k : Nat) : (s.countHold k).ks = s.ks := rfl
@[simp] theorem State.countHold_ksReqs (k : Nat) : (s.countHold k).ksReqs = s.ksReqs := rfl
@[simp] theorem State.countHold_remoteDue (k : Nat) : (s.countHold k).remoteDue = s.remoteDue := rfl
@[simp] theorem State.countHold_parts (k : Nat) : (s.countHold k).parts = s.parts := rfl
@[simp] theorem State.countHold_vfs (k : Nat) : (s.countHold k).vfs = s.vfs := rfl
@[simp] theorem State.countHold_asids (k : Nat) : (s.countHold k).asids = s.asids := rfl
@[simp] theorem State.countHold_hosts (k : Nat) : (s.countHold k).hosts = s.hosts := rfl
@[simp] theorem State.countHold_pages (k : Nat) : (s.countHold k).pages = s.pages := rfl
@[simp] theorem State.countHold_cleared (k : Nat) : (s.countHold k).cleared = s.cleared := rfl
@[simp] theorem State.countHold_retired (k : Nat) : (s.countHold k).retired = s.retired := rfl
@[simp] theorem State.countHold_spared (k : Nat) : (s.countHold k).spared = s.spared := rfl
@[simp] theorem State.countHold_sparesUsed (k : Nat) : (s.countHold k).sparesUsed = s.sparesUsed := rfl
@[simp] theorem State.countHold_fills (k : Nat) : (s.countHold k).fills = s.fills := rfl
@[simp] theorem State.countHold_softCount (k : Nat) : (s.countHold k).softCount = s.softCount := rfl
@[simp] theorem State.countHold_ways (k : Nat) : (s.countHold k).ways = s.ways := rfl
@[simp] theorem State.countHold_errlog (k : Nat) : (s.countHold k).errlog = s.errlog := rfl
@[simp] theorem State.countHold_spokeOut (k : Nat) : (s.countHold k).spokeOut = s.spokeOut := rfl
@[simp] theorem State.countHold_spokeReqs (k : Nat) : (s.countHold k).spokeReqs = s.spokeReqs := rfl
@[simp] theorem State.countHold_msix (k : Nat) : (s.countHold k).msix = s.msix := rfl
@[simp] theorem State.countHold_hostReply (k : Nat) : (s.countHold k).hostReply = s.hostReply := rfl
@[simp] theorem State.countHold_hostWait (k : Nat) : (s.countHold k).hostWait = s.hostWait := rfl
@[simp] theorem State.countHold_assist (k : Nat) : (s.countHold k).assist = s.assist := rfl
@[simp] theorem State.countHold_power (k : Nat) : (s.countHold k).power = s.power := rfl

/-! ### `State.advance` -/

@[simp] theorem State.advance_agenda (c : Ctx) : (s.advance c).agenda = s.agenda := rfl
@[simp] theorem State.advance_turn (c : Ctx) : (s.advance c).turn = s.turn := rfl
@[simp] theorem State.advance_nextId (c : Ctx) : (s.advance c).nextId = s.nextId := rfl
@[simp] theorem State.advance_free (c : Ctx) : (s.advance c).free = s.free := rfl
@[simp] theorem State.advance_grp (c : Ctx) : (s.advance c).grp = s.grp := rfl
@[simp] theorem State.advance_blocks (c : Ctx) : (s.advance c).blocks = s.blocks := rfl
@[simp] theorem State.advance_teams (c : Ctx) : (s.advance c).teams = s.teams := rfl
@[simp] theorem State.advance_resvs (c : Ctx) : (s.advance c).resvs = s.resvs := rfl
@[simp] theorem State.advance_mmas (c : Ctx) : (s.advance c).mmas = s.mmas := rfl
@[simp] theorem State.advance_copies (c : Ctx) : (s.advance c).copies = s.copies := rfl
@[simp] theorem State.advance_remotes (c : Ctx) : (s.advance c).remotes = s.remotes := rfl
@[simp] theorem State.advance_bankOps (c : Ctx) : (s.advance c).bankOps = s.bankOps := rfl
@[simp] theorem State.advance_idle (c : Ctx) : (s.advance c).idle = s.idle := rfl
@[simp] theorem State.advance_issued (c : Ctx) : (s.advance c).issued = s.issued := rfl
@[simp] theorem State.advance_mem (c : Ctx) : (s.advance c).mem = s.mem := rfl
@[simp] theorem State.advance_banks (c : Ctx) : (s.advance c).banks = s.banks := rfl
@[simp] theorem State.advance_cellBlocks (c : Ctx) : (s.advance c).cellBlocks = s.cellBlocks := rfl
@[simp] theorem State.advance_lines (c : Ctx) : (s.advance c).lines = s.lines := rfl
@[simp] theorem State.advance_tlb (c : Ctx) : (s.advance c).tlb = s.tlb := rfl
@[simp] theorem State.advance_errors (c : Ctx) : (s.advance c).errors = s.errors := rfl
@[simp] theorem State.advance_found (c : Ctx) : (s.advance c).found = s.found := rfl
@[simp] theorem State.advance_mismatch (c : Ctx) : (s.advance c).mismatch = s.mismatch := rfl
@[simp] theorem State.advance_tags (c : Ctx) : (s.advance c).tags = s.tags := rfl
@[simp] theorem State.advance_softs (c : Ctx) : (s.advance c).softs = s.softs := rfl
@[simp] theorem State.advance_records (c : Ctx) : (s.advance c).records = s.records := rfl
@[simp] theorem State.advance_gens (c : Ctx) : (s.advance c).gens = s.gens := rfl
@[simp] theorem State.advance_poolWait (c : Ctx) : (s.advance c).poolWait = s.poolWait := rfl
@[simp] theorem State.advance_tasks (c : Ctx) : (s.advance c).tasks = s.tasks := rfl
@[simp] theorem State.advance_launches (c : Ctx) : (s.advance c).launches = s.launches := rfl
@[simp] theorem State.advance_cmds (c : Ctx) : (s.advance c).cmds = s.cmds := rfl
@[simp] theorem State.advance_doms (c : Ctx) : (s.advance c).doms = s.doms := rfl
@[simp] theorem State.advance_ks (c : Ctx) : (s.advance c).ks = s.ks := rfl
@[simp] theorem State.advance_ksReqs (c : Ctx) : (s.advance c).ksReqs = s.ksReqs := rfl
@[simp] theorem State.advance_remoteDue (c : Ctx) : (s.advance c).remoteDue = s.remoteDue := rfl
@[simp] theorem State.advance_parts (c : Ctx) : (s.advance c).parts = s.parts := rfl
@[simp] theorem State.advance_vfs (c : Ctx) : (s.advance c).vfs = s.vfs := rfl
@[simp] theorem State.advance_asids (c : Ctx) : (s.advance c).asids = s.asids := rfl
@[simp] theorem State.advance_hosts (c : Ctx) : (s.advance c).hosts = s.hosts := rfl
@[simp] theorem State.advance_pages (c : Ctx) : (s.advance c).pages = s.pages := rfl
@[simp] theorem State.advance_cleared (c : Ctx) : (s.advance c).cleared = s.cleared := rfl
@[simp] theorem State.advance_retired (c : Ctx) : (s.advance c).retired = s.retired := rfl
@[simp] theorem State.advance_spared (c : Ctx) : (s.advance c).spared = s.spared := rfl
@[simp] theorem State.advance_sparesUsed (c : Ctx) : (s.advance c).sparesUsed = s.sparesUsed := rfl
@[simp] theorem State.advance_fills (c : Ctx) : (s.advance c).fills = s.fills := rfl
@[simp] theorem State.advance_softCount (c : Ctx) : (s.advance c).softCount = s.softCount := rfl
@[simp] theorem State.advance_ways (c : Ctx) : (s.advance c).ways = s.ways := rfl
@[simp] theorem State.advance_errlog (c : Ctx) : (s.advance c).errlog = s.errlog := rfl
@[simp] theorem State.advance_spokeOut (c : Ctx) : (s.advance c).spokeOut = s.spokeOut := rfl
@[simp] theorem State.advance_spokeReqs (c : Ctx) : (s.advance c).spokeReqs = s.spokeReqs := rfl
@[simp] theorem State.advance_msix (c : Ctx) : (s.advance c).msix = s.msix := rfl
@[simp] theorem State.advance_hostReply (c : Ctx) : (s.advance c).hostReply = s.hostReply := rfl
@[simp] theorem State.advance_hostWait (c : Ctx) : (s.advance c).hostWait = s.hostWait := rfl
@[simp] theorem State.advance_assist (c : Ctx) : (s.advance c).assist = s.assist := rfl
@[simp] theorem State.advance_power (c : Ctx) : (s.advance c).power = s.power := rfl

end Sys2Proof.Machine
end

