-- ==== Sys2Proof/Tests/Slice0.lean ====
section
/-! SUPPORT. The tests: words from the encoding tables, ill-formed terms that the checks refuse, single steps with results taken from the
spec, and for every statement a concrete state that meets its hypotheses. -/

namespace Sys2Proof.Tests

open Sys2Proof.Machine Sys2Proof.Safety Sys2Proof.Slice0

/-! ### Small states -/

/-- The group of a placed wave, and its wave: 16 lanes, 16 registers, at 0x20000. -/
def grp : Group := { wid := 3, lanes := List.range 16, first := 0x20000, at_ := 0x20000, wides := [], modifier := none, sched := none }
def wave : Wave := launchWave placedLaunch placedTeam 0 0 3 0
/-- A state in which wave `w` has `grp` selected, with `f` done to the rest. -/
def at_ (w : Wave) (f : State → State := id) : State := f { (State.reset.withFetchWord 32 0) with waves := [w] }
/-- A wave whose lanes all hold `v` in register k, and the next word in the one after it. -/
def regs (k : Nat) (v : W64) (w : Wave) : Wave :=
  { w with lanes := w.lanes.map fun l => { l with regs := (l.regs.set k (v.setWidth 32)).set (k + 1) ((v >>> 32).setWidth 32) } }
/-- Bytes at a team-view address of the placed team's scratchpad. -/
def view (a : Nat) (bs : List Byte) (s : State) : State := { s with teams := s.teams.map fun t => { t with base := Cells.putBytes t.base a bs } }
def blocks (f : Block → Block) (s : State) : State := { s with blocks := s.blocks.map f }
def teams (f : Team → Team) (s : State) : State := { s with teams := s.teams.map f }

set_option maxRecDepth 100000

/-! ### The hypotheses of the statements, met -/

theorem noTrap_of_mode (c : Ctx) (fl : Nat → BitVec 8) (h : c.w.fpmode = 0) : NoTrap c fl := by
  unfold NoTrap trapCause
  rw [h]
  simp

theorem witness_IntegerResults :
    Issues (arith true false false [.w32 1 true, .r32 2, .r32 3]) grp wave (at_ wave) ∧
    Issues (arith true false false [.w64 14 true, .r64 2, .r64 4]) grp wave (at_ wave) ∧
    Issues { flds := [.w32 1 true, .r32 2], scalar := true, wides := 2, pro := true } { grp with wides := [0xFFFFFF, 1] } wave
      (at_ wave fun s => { s with grp := some { grp with wides := [0xFFFFFF, 1] } }) ∧
    Issues (arith true false false [.w32 15 false, .r32 0]) grp wave (at_ wave) :=
  ⟨⟨rfl, rfl, rfl, rfl, rfl, rfl, rfl, rfl, rfl⟩, ⟨rfl, rfl, rfl, rfl, rfl, rfl, rfl, rfl, rfl⟩, ⟨rfl, rfl, rfl, rfl, rfl, rfl, rfl, rfl, rfl⟩,
    ⟨rfl, rfl, rfl, rfl, rfl, rfl, rfl, rfl, rfl⟩⟩

theorem witness_ShiftAndFieldResults :
    (Issues (arith true false false [.w32 1 true, .r32 2, .r32 3]) grp wave (at_ wave) ∧
      Issues (arith true false false [.w64 0 true, .r64 2, .r64 4]) grp wave (at_ wave) ∧
      Issues { flds := [.w32 1 true, .r32 2], scalar := true, wides := 2, pro := true } grp wave (at_ wave)) ∧
    Issues (arith true false false [.rw32 1 true, .r32 1, .r32 3]) grp wave (at_ wave) :=
  ⟨⟨⟨rfl, rfl, rfl, rfl, rfl, rfl, rfl, rfl, rfl⟩, ⟨rfl, rfl, rfl, rfl, rfl, rfl, rfl, rfl, rfl⟩, ⟨rfl, rfl, rfl, rfl, rfl, rfl, rfl, rfl, rfl⟩⟩,
    ⟨rfl, rfl, rfl, rfl, rfl, rfl, rfl, rfl, rfl⟩⟩

/-- Finite operands of nonzero value in every format: 1.0 and the least subnormal number. -/
theorem witness_RoundedOnce :
    (∀ e ∈ [(Fmt.f64, 0x3FF0000000000000), (Fmt.f32, 0x3F800000), (Fmt.f16, 0x3C00), (Fmt.bf16, 0x3F80)],
      bits e.2 e.1.fb e.1.eb ≠ 2 ^ e.1.eb - 1 ∧ bits 1 e.1.fb e.1.eb ≠ 2 ^ e.1.eb - 1 ∧
      e.1.read false e.2 = .fin false (2 ^ e.1.fb) (-(e.1.fb : Int)) ∧ e.1.read false 1 = .fin false 1 (e.1.emin - e.1.fb)) ∧
    (∀ n : Nat, ∀ e : Int, value (.fin false (n + 1) e) ≠ 0) ∧
    (let top : ℝ := 2 ^ (2 ^ (Fmt.f16.eb - 1))
     let ulp : ℝ := top / 2 ^ (Fmt.f16.fb + 1)
     top - ulp / 2 ≤ |(65520 : ℝ)| ∧ ¬top - ulp / 2 ≤ |(65519 : ℝ)|) := by
  refine ⟨by decide, ?_, ?_⟩
  · intro n e
    simp only [value, Bool.false_eq_true, if_false]
    positivity
  · simp only [Fmt.f16]
    norm_num

theorem witness_IntegerResultsWithFlags :
    let sg := arith true false false [.w32 1 true, .r32 2, .r32 3]
    Issues sg grp wave (at_ wave) ∧ ∀ fl, NoTrap (issueCtx sg grp wave) fl :=
  ⟨⟨rfl, rfl, rfl, rfl, rfl, rfl, rfl, rfl, rfl⟩, fun _ => noTrap_of_mode _ _ rfl⟩

theorem witness_ScalarResults :
    Issues { flds := [.sreg 1, .sreg 2], pro := true } grp wave (at_ wave) ∧ Issues { flds := [.sreg 31], wides := 2, pro := true } grp wave (at_ wave) ∧
    Issues { flds := [.sreg 1], pro := true } grp wave (at_ wave) ∧ Issues { flds := [], wides := 2, pro := true } grp wave (at_ wave) :=
  ⟨⟨rfl, rfl, rfl, rfl, rfl, rfl, rfl, rfl, rfl⟩, ⟨rfl, rfl, rfl, rfl, rfl, rfl, rfl, rfl, rfl⟩, ⟨rfl, rfl, rfl, rfl, rfl, rfl, rfl, rfl, rfl⟩,
    ⟨rfl, rfl, rfl, rfl, rfl, rfl, rfl, rfl, rfl⟩⟩

theorem witness_FloatResults32 (rnd sat : Bool) :
    let two := arith false rnd sat [.w32 1 true, .r32 2, .r32 3]
    let one := arith false rnd sat [.w32 1 true, .r32 2]
    let three := arith false true sat [.rw32 1 true, .r32 2, .r32 3]
    (Issues two grp wave (at_ wave) ∧ ∀ fl, NoTrap (issueCtx two grp wave) fl) ∧ (Issues one grp wave (at_ wave) ∧ ∀ fl, NoTrap (issueCtx one grp wave) fl) ∧
    (Issues three grp wave (at_ wave) ∧ ∀ fl, NoTrap (issueCtx three grp wave) fl) := by
  cases rnd <;> cases sat <;>
    exact ⟨⟨⟨rfl, rfl, rfl, rfl, rfl, rfl, rfl, rfl, rfl⟩, fun _ => noTrap_of_mode _ _ rfl⟩, ⟨⟨rfl, rfl, rfl, rfl, rfl, rfl, rfl, rfl, rfl⟩, fun _ => noTrap_of_mode _ _ rfl⟩,
      ⟨⟨rfl, rfl, rfl, rfl, rfl, rfl, rfl, rfl, rfl⟩, fun _ => noTrap_of_mode _ _ rfl⟩⟩

theorem witness_FloatResults64 (rnd : Bool) :
    let two := arith false rnd false [.w64 0 true, .r64 2, .r64 4]
    let one := arith false true false [.w64 0 true, .r64 2]
    let three := arith false true false [.rw64 0 true, .r64 2, .r64 4]
    let wider := arith false false false [.w64 0 true, .r32 2]
    let narrower := arith false true true [.w32 0 true, .r64 2]
    (Issues two grp wave (at_ wave) ∧ ∀ fl, NoTrap (issueCtx two grp wave) fl) ∧ (Issues one grp wave (at_ wave) ∧ ∀ fl, NoTrap (issueCtx one grp wave) fl) ∧
    (Issues three grp wave (at_ wave) ∧ ∀ fl, NoTrap (issueCtx three grp wave) fl) ∧
    (Issues wider grp wave (at_ wave) ∧ ∀ fl, NoTrap (issueCtx wider grp wave) fl) ∧
    (Issues narrower grp wave (at_ wave) ∧ ∀ fl, NoTrap (issueCtx narrower grp wave) fl) := by
  cases rnd <;>
    exact ⟨⟨⟨rfl, rfl, rfl, rfl, rfl, rfl, rfl, rfl, rfl⟩, fun _ => noTrap_of_mode _ _ rfl⟩, ⟨⟨rfl, rfl, rfl, rfl, rfl, rfl, rfl, rfl, rfl⟩, fun _ => noTrap_of_mode _ _ rfl⟩,
      ⟨⟨rfl, rfl, rfl, rfl, rfl, rfl, rfl, rfl, rfl⟩, fun _ => noTrap_of_mode _ _ rfl⟩, ⟨⟨rfl, rfl, rfl, rfl, rfl, rfl, rfl, rfl, rfl⟩, fun _ => noTrap_of_mode _ _ rfl⟩,
      ⟨⟨rfl, rfl, rfl, rfl, rfl, rfl, rfl, rfl, rfl⟩, fun _ => noTrap_of_mode _ _ rfl⟩⟩

theorem witness_ComparisonResults (pro : Bool) :
    let two := arith pro false false [.r32 2, .r32 3]
    let pair := arith pro false false [.r64 2, .r64 4]
    (Issues two grp wave (at_ wave) ∧ ∀ fl, NoTrap (issueCtx two grp wave) fl) ∧ (Issues pair grp wave (at_ wave) ∧ ∀ fl, NoTrap (issueCtx pair grp wave) fl) := by
  cases pro <;>
    exact ⟨⟨⟨rfl, rfl, rfl, rfl, rfl, rfl, rfl, rfl, rfl⟩, fun _ => noTrap_of_mode _ _ rfl⟩, ⟨⟨rfl, rfl, rfl, rfl, rfl, rfl, rfl, rfl, rfl⟩, fun _ => noTrap_of_mode _ _ rfl⟩⟩

theorem witness_ReductionResults (rnd : Bool) :
    let one := arith false rnd false [.w32 1 true, .r32 2]
    let pair := arith false rnd false [.w64 0 true, .r64 2]
    (Issues one grp wave (at_ wave) ∧ ∀ fl, NoTrap (issueCtx one grp wave) fl) ∧ (Issues pair grp wave (at_ wave) ∧ ∀ fl, NoTrap (issueCtx pair grp wave) fl) := by
  cases rnd <;>
    exact ⟨⟨⟨rfl, rfl, rfl, rfl, rfl, rfl, rfl, rfl, rfl⟩, fun _ => noTrap_of_mode _ _ rfl⟩, ⟨⟨rfl, rfl, rfl, rfl, rfl, rfl, rfl, rfl, rfl⟩, fun _ => noTrap_of_mode _ _ rfl⟩⟩

theorem witness_RandomResults :
    Issues (arith false false false [.w32 1 true, .r64 2, .r64 4]) grp wave (at_ wave) ∧ Issues (arith false false false [.w64 0 true, .r64 2, .r64 4]) grp wave (at_ wave) :=
  ⟨⟨rfl, rfl, rfl, rfl, rfl, rfl, rfl, rfl, rfl⟩, ⟨rfl, rfl, rfl, rfl, rfl, rfl, rfl, rfl, rfl⟩⟩

/-! #### Matrix engine, scratchpad, tags, copies -/

/-- A parameter block for `mma` on FP32 columns: one chunk, reservation 0, from chunk 0, rows from 0. -/
def matrixWave : Wave := { wave with winBase := 0, winLimit := 16 }
def heldResv : Resv := { core := 0, idx := 0, team := 2, blk := 0, off := 0, len := 4096, fmt := 0, grp := 0, sclo := 0, zpo := 0, live := true }
def matrixState : State := at_ matrixWave fun s => view 0 [0, 0, 1] { s with resvs := [heldResv] }

theorem witness_MmaEntersEngine :
    let sg : Sig := { flds := [.unused 0x7C, .r32 1, .unused 0x7C], reuse := true, scalar := true, ends := true, matrix := true }
    let p := matrixState.viewBytes matrixWave 0 32
    Issues sg grp matrixWave matrixState ∧ ((issueCtx sg grp matrixWave).src32 0 1).toNat = 0 ∧ 32 ≤ matrixState.viewSize matrixWave ∧
    matrixState.guarded 2 0 32 false = false ∧ matrixState.viewPoison matrixWave 0 32 = none ∧ matrixState.tablePoison matrixWave (isResvNo (leAt p 4 2)) = false ∧
    matrixState.liveResv matrixWave (leAt p 4 2) = some heldResv ∧
    mmaCheck matrixWave p (some heldResv) = none ∧ matrixState.engineUse 0 < 16 :=
  ⟨⟨rfl, rfl, rfl, rfl, rfl, rfl, rfl, rfl, rfl⟩, rfl, by decide, rfl, rfl, rfl, rfl, rfl, by decide⟩

theorem witness_RowAccessResults :
    let c (sg : Sig) := issueCtx sg grp matrixWave
    let free (r : Nat) : Prop := matrixWave.winBase ≤ r ∧ r < matrixWave.winLimit ∧ matrixState.rowBusy matrixWave 0x20000 r = false
    matrixState.block? 2 0 = some (newBlock placedLaunch 2 0 0) ∧ (∀ r < 16, free r ∧ (∀ k < 8, matrixState.rowPoison matrixWave r (8 * k) 8 = false) ∧ matrixState.rowPoison matrixWave r 64 1 = false) ∧
    (∀ sg ∈ [onEngine [.range 8 8 true, .r32 1], onEngine [.r32 1, .range 8 8 false], onEngine [.r32 1], onEngine [.w32 2 true, .r32 1, .r32 3]],
      Issues sg grp matrixWave matrixState ∧ ∀ i ∈ (c sg).act, ((c sg).src32 i 1).toNat % 8192 = 0) := by
  refine ⟨rfl, by decide, ?_⟩
  intro sg h
  fin_cases h <;> exact ⟨⟨rfl, rfl, rfl, rfl, rfl, rfl, rfl, rfl, rfl⟩, by decide⟩

theorem witness_WindowAndReservationResults :
    let win := waiting [.w32 2 true, .r32 1, .r32 3]
    let res := waiting [.w32 2 true, .r32 1]
    let s (p : List Byte) : State := at_ wave (view 0 p)
    Issues win grp wave (at_ wave) ∧ Issues res grp wave (s [0, 0, 0, 0, 0, 0x10]) ∧ (s [0, 0, 0, 0, 0, 0x10]).tablePoison wave isResv = false ∧
    16 ≤ (s []).viewSize wave ∧ (s []).guarded 2 0 16 false = false ∧ (s []).viewPoison wave 0 16 = none ∧
    leAt ((s []).viewBytes wave 0 16) 4 4 < 256 ∧
    (let p := (s [0, 0, 0, 0, 0, 0x10]).viewBytes wave 0 16
     leAt p 0 4 = 0 ∧ leAt p 4 4 = 4096 ∧ leAt p 8 1 = 0 ∧ leAt p 9 1 = 0 ∧ leAt p 10 2 = 0 ∧ leAt p 12 2 = 0 ∧ leAt p 14 2 = 0) ∧
    (s []).block? 2 0 = some (newBlock placedLaunch 2 0 0) ∧ (at_ wave).resvs = [] ∧ matrixState.resvs = [heldResv] ∧
    (s []).liveResv wave 0 = none ∧ matrixState.liveResv wave 0 = some heldResv :=
  ⟨⟨rfl, rfl, rfl, rfl, rfl, rfl, rfl, rfl, rfl⟩, ⟨rfl, rfl, rfl, rfl, rfl, rfl, rfl, rfl, rfl⟩, rfl, by decide, rfl, rfl, by decide, by decide, by decide, rfl, rfl, rfl, rfl⟩

/-- A wave of 64 registers. -/
def wide : Wave := launchWave { placedLaunch with rcd := { placedRecord with regs := 64 } } placedTeam 0 0 3 0

theorem witness_QuantiseResults :
    (∀ x ∈ [(32, 9, 16), (64, 17, 32)], ∀ y ∈ [(32, 5, 16), (64, 9, 32)], ∀ b ∈ [true, false],
      (∀ z ∈ [x, y], let sg : Sig := { flds := [.range 0 z.2.1 b, .range 32 z.2.2 false], ends := true }
        Issues sg grp wide (at_ wide) ∧ ∀ fl, NoTrap (issueCtx sg grp wide) fl) ∧
      (∀ z ∈ [x, y], let sg : Sig := { flds := [.range 0 z.2.2 b, .range 32 z.2.1 false], rnd := true, ends := true }
        Issues sg grp wide (at_ wide) ∧ ∀ fl, NoTrap (issueCtx sg grp wide) fl)) := by
  intro x hx y hy b hb
  fin_cases hx <;> fin_cases hy <;> fin_cases hb <;> refine ⟨?_, ?_⟩ <;> intro z hz <;> fin_cases hz <;>
    exact ⟨⟨rfl, rfl, rfl, rfl, rfl, rfl, rfl, rfl, rfl⟩, fun _ => noTrap_of_mode _ _ rfl⟩

theorem witness_LoadResults :
    let sg (f : Fld) : Sig := { flds := [f, .r32 1], scalar := true, wides := 2, ends := true, pro := true }
    let reads (sg : Sig) (n : Nat) : Prop :=
      let c := issueCtx sg grp wave
      (∀ i ∈ c.act, (at_ wave).badAccess c.w (c.ea i 1 0 n) n = false ∧ (at_ wave).viewPoison c.w (c.ea i 1 0 n) n = none) ∧
        (at_ wave).anyGuarded c (fun i => c.ea i 1 0 n) n false = false
    (Issues (sg (.w32 2 true)) grp wave (at_ wave) ∧ ∀ n ∈ [1, 2, 4], reads (sg (.w32 2 true)) n) ∧
    (Issues (sg (.w64 2 true)) grp wave (at_ wave) ∧ reads (sg (.w64 2 true)) 8) :=
  ⟨⟨⟨rfl, rfl, rfl, rfl, rfl, rfl, rfl, rfl, rfl⟩, by decide⟩, ⟨⟨rfl, rfl, rfl, rfl, rfl, rfl, rfl, rfl, rfl⟩, by decide⟩⟩

theorem witness_StoreResults :
    let sg (f : Fld) : Sig := { flds := [f, .r32 1], scalar := true, wides := 2, ends := true, pro := true }
    let meets (f : Fld) (n : Nat) : Prop :=
      let c := issueCtx (sg f) grp wave
      IssuesWith (sg f) (fun c i => [BitVec.ofNat 64 (c.ea i 1 0 n), BitVec.ofNat 64 (leNat (storeData n 2 c i))]) grp wave (at_ wave) ∧
      (∀ i ∈ c.act, (at_ wave).badAccess c.w (c.ea i 1 0 n) n = false) ∧ (at_ wave).anyGuarded c (fun i => c.ea i 1 0 n) n true = false ∧
      wave.prologue = none ∧ (at_ wave).tablePoison wave isScore = false ∧ (sectorsOf (storePan c (fun i => c.ea i 1 0 n) (storeData n 2 c))).length + wave.reds.length ≤ 256
    meets (.st32 2) 1 ∧ meets (.st32 2) 2 ∧ meets (.st32 2) 4 ∧ meets (.st64 2) 8 :=
  ⟨⟨⟨rfl, rfl, rfl, rfl, rfl, rfl, rfl, rfl, rfl⟩, by decide, rfl, rfl, rfl, by decide⟩, ⟨⟨rfl, rfl, rfl, rfl, rfl, rfl, rfl, rfl, rfl⟩, by decide, rfl, rfl, rfl, by decide⟩,
    ⟨⟨rfl, rfl, rfl, rfl, rfl, rfl, rfl, rfl, rfl⟩, by decide, rfl, rfl, rfl, by decide⟩, ⟨⟨rfl, rfl, rfl, rfl, rfl, rfl, rfl, rfl, rfl⟩, by decide, rfl, rfl, rfl, by decide⟩⟩

/-- The placed wave as one that runs a prologue. -/
def proWave : Wave := { wave with prologue := some { launch := 1, area := zeros 4096, issued := 0, code := 0x20000, ended := none } }

theorem witness_StoreInPrologue :
    let sg (f : Fld) : Sig := { flds := [f, .r32 1], scalar := true, wides := 2, ends := true, pro := true }
    let meets (f : Fld) (n : Nat) : Prop :=
      let c := issueCtx (sg f) grp proWave
      IssuesWith (sg f) (fun c i => [BitVec.ofNat 64 (c.ea i 1 0 n), BitVec.ofNat 64 (leNat (storeData n 2 c i))]) grp proWave (at_ proWave) ∧
      (∀ i ∈ c.act, (at_ proWave).badAccess c.w (c.ea i 1 0 n) n = false) ∧ (at_ proWave).anyGuarded c (fun i => c.ea i 1 0 n) n true = false
    meets (.st32 2) 1 ∧ meets (.st32 2) 2 ∧ meets (.st32 2) 4 ∧ meets (.st64 2) 8 ∧ ∃ p, proWave.prologue = some p ∧ p.area.length = 4096 :=
  ⟨⟨⟨rfl, rfl, rfl, rfl, rfl, rfl, rfl, rfl, rfl⟩, by decide, rfl⟩, ⟨⟨rfl, rfl, rfl, rfl, rfl, rfl, rfl, rfl, rfl⟩, by decide, rfl⟩, ⟨⟨rfl, rfl, rfl, rfl, rfl, rfl, rfl, rfl, rfl⟩, by decide, rfl⟩,
    ⟨⟨rfl, rfl, rfl, rfl, rfl, rfl, rfl, rfl, rfl⟩, by decide, rfl⟩, _, rfl, by decide⟩

/-- The placed state with handles 0 and 1 of the block allocated, free and full. -/
def handleState : State := at_ wave (blocks fun b => { b with handles := [{ num := 0, state := .free, kil := false, rdr := false },
  { num := 1, state := .full, kil := false, rdr := false }, { num := 2, state := .filling, kil := false, rdr := false }] })
/-- A group whose modifier names scalar register 0, selected. -/
def scalarGrp : Group := { grp with modifier := some 0x2000 }
def selects (g : Group) (s : State) : State := { s with grp := some g }

theorem witness_CopyIssue :
    let s := selects scalarGrp handleState
    let sg (f : Fld) : Sig := { flds := [f, .r32 1, .code 0x7E true], scalar := true, ends := true, ok := true }
    let sc : List W64 := [0, 0, 0, 0, 0]
    let meets (k : CopyKind) (f : Fld) (d : BitVec 7) : Prop :=
      IssuesWith (sg f) (fun c i => [(c.src32 i 1).setWidth 64, (c.src32 i d).setWidth 64]) scalarGrp wave s ∧ (∀ j < 5, StoreLoc.sreg 3 j ∉ s.errors) ∧
      s.tablePoison wave (isHandleNo 0) = false ∧ s.tablePoison wave isScore = false ∧ s.copyIllegal wave k 0 0 sc 0 = false ∧ scalCassette sc = false ∧ s.copyHeld wave k 0 sc 0 = false ∧
      s.scoreUse 0 + (if k = .digest then 2 else 1) ≤ 64 ∧ s.viewPoison wave (copyImage 0) (scalBytes sc) = none
    meets .inward (.unused 0x7C) 0x7C ∧ meets .outward (.unused 0x7C) 0x7C ∧ meets .digest (.r32 2) 2 := by
  refine ⟨⟨⟨rfl, rfl, rfl, rfl, rfl, rfl, rfl, rfl, rfl⟩, ?_⟩, ⟨⟨rfl, rfl, rfl, rfl, rfl, rfl, rfl, rfl, rfl⟩, ?_⟩, ⟨⟨rfl, rfl, rfl, rfl, rfl, rfl, rfl, rfl, rfl⟩, ?_⟩⟩ <;>
    exact ⟨by decide, rfl, rfl, rfl, rfl, rfl, by decide, rfl⟩

theorem witness_TagAndHandleResults :
    let two := waiting [.w32 2 true, .r32 1]
    let s (k : W64) : State := { handleState with waves := [regs 1 k wave] }
    let k := regs 1
    (Issues (waiting [.w32 6 true, .r64 2]) grp wave handleState ∧ Issues (waiting [.w32 6 true, .r64 2, .r32 4]) grp wave handleState ∧
      Issues (waiting [.w32 6 true]) grp wave handleState ∧ handleState.tablePoison wave isTag = false ∧ handleState.tablePoison wave isHandle = false ∧ (handleState.block? 2 0).isSome = true ∧
      (handleState.team? 2).isSome = true) ∧
    (∀ m < 3, ∃ b ∈ handleState.blocks, ∃ h ∈ b.handles, h.num = m) ∧ (∀ b ∈ handleState.blocks, ∀ h ∈ b.handles, h.num ≠ 3) ∧
    (Issues two grp (k 0 wave) (s 0) ∧ ((issueCtx two grp (k 0 wave)).src32 0 1).toNat = 0) ∧
    (Issues two grp (k 0x201 wave) (s 0x201) ∧ ((issueCtx two grp (k 0x201 wave)).src32 0 1).toNat = 0x201) ∧
    (Issues two grp (k 0x102 wave) (s 0x102) ∧ ((issueCtx two grp (k 0x102 wave)).src32 0 1).toNat = 0x102) ∧
    HState.free.code = 0 ∧ HState.full.code = 2 ∧ HState.filling.code = 1 :=
  ⟨⟨⟨rfl, rfl, rfl, rfl, rfl, rfl, rfl, rfl, rfl⟩, ⟨rfl, rfl, rfl, rfl, rfl, rfl, rfl, rfl, rfl⟩, ⟨rfl, rfl, rfl, rfl, rfl, rfl, rfl, rfl, rfl⟩, rfl, rfl, rfl, rfl⟩,
    by decide, by decide, ⟨⟨rfl, rfl, rfl, rfl, rfl, rfl, rfl, rfl, rfl⟩, rfl⟩, ⟨⟨rfl, rfl, rfl, rfl, rfl, rfl, rfl, rfl, rfl⟩, rfl⟩,
    ⟨⟨rfl, rfl, rfl, rfl, rfl, rfl, rfl, rfl, rfl⟩, rfl⟩, rfl, rfl, rfl⟩

/-! #### Remote operations and bank operations -/

/-- The placed state with its pages plain (0x3B), of a bank-engine region (0x7B) or of cells (0xBB). -/
def kindState (b : Byte) (w : Wave := wave) : State := at_ w fun s =>
  { s with mem := Cells.put s.mem 0x12000 b, cellBlocks := [{ page := 0, cells := [] }], vfs := s.vfs.set 0 { s.vf 0 with hpol := 0x200 } }

theorem witness_RemoteRequestsAndReductions :
    let sg (f : Fld) (l : List Fld) : Sig := { flds := f :: l, scalar := true, ends := true }
    let s := kindState 0x3B
    let t := kindState 0xBB
    (∀ f ∈ [Fld.w32 6 true, .w64 6 true, .rw32 6 true, .rw64 6 true, .w32 6 false, .rw64 6 false], ∀ y ∈ [Fld.r32 4, .r64 4],
      IssuesWith (sg f [.r64 2, y]) (fun c i => [c.src64 i 2, (c.src32 i 4).setWidth 64, 0]) grp wave s) ∧
    (∀ fn < 7, s.remoteAddr 0 (s.vfOf wave) 1 fn 0 = .ok 0) ∧
    IssuesWith (waiting [.w64 6 true, .r64 2]) (fun c i => [c.src64 i 2, 0, 0]) grp wave t ∧ IssuesWith (waiting [.r64 2]) (fun c i => [c.src64 i 2, 0, 0]) grp wave t ∧
    (∀ fn, 7 ≤ fn → fn < 10 → t.remoteAddr 0 (t.vfOf wave) 1 fn 0 = .ok 0) ∧
    (∀ y ∈ [Fld.r32 4, .r64 4], ∀ u ∈ [s, t], IssuesWith (waiting [.r64 2, y]) (fun c i => [c.src64 i 2, (c.src32 i 4).setWidth 64]) grp wave u) ∧
    wave.sectors + 16 ≤ 256 := by
  refine ⟨?_, ?_, ⟨rfl, rfl, rfl, rfl, rfl, rfl, rfl, rfl, rfl⟩, ⟨rfl, rfl, rfl, rfl, rfl, rfl, rfl, rfl, rfl⟩, ?_, ?_, by decide⟩
  · intro f hf y hy
    fin_cases hf <;> fin_cases hy <;> exact ⟨rfl, rfl, rfl, rfl, rfl, rfl, rfl, rfl, rfl⟩
  · intro fn h
    interval_cases fn <;> rfl
  · intro fn h1 h2
    interval_cases fn <;> rfl
  · intro y hy u hu
    fin_cases hy <;> fin_cases hu <;> exact ⟨rfl, rfl, rfl, rfl, rfl, rfl, rfl, rfl, rfl⟩

theorem witness_BankIssue :
    let sg : Sig := { flds := [.unused 0x7C, .r64 2, .r32 4], scalar := true, ends := true }
    let s := kindState 0x7B
    IssuesWith sg (fun c i => [c.src64 i 2, (c.src32 i 4).setWidth 64]) grp wave s ∧
    (∀ fn < 5, s.bankIllegal wave fn 0 0 = false ∧ s.translate 0 (s.vfOf wave) 1 0 (bankNeed fn) = .ok (0, 1) ∧ s.bankHeld wave fn 0 = false) ∧
    s.viewPoison wave 0 (bkldBytes 0) = none ∧
    Issues { flds := [.unused 0x7C, .unused 0x7C, .unused 0x7C], ends := true } grp wave s ∧ (∀ o ∈ s.bankOps, o.wid ≠ 3) := by
  refine ⟨⟨rfl, rfl, rfl, rfl, rfl, rfl, rfl, rfl, rfl⟩, ?_, rfl, ⟨rfl, rfl, rfl, rfl, rfl, rfl, rfl, rfl, rfl⟩, by decide⟩
  intro fn h
  interval_cases fn <;> exact ⟨rfl, rfl, rfl⟩

/-! #### Levels, barriers, aborts, maintenance -/

/-- A wave with one byte in its pannier that a sibling has published too. -/
def clashing : Wave := { wave with pan := [(8, 1)], foreign := [8] }
/-- A second wave of the block, which has not arrived anywhere. -/
def sibling : Wave := { wave with wid := 4, idx := 1, slot := 1 }

theorem witness_WaveCommit :
    (Issues (commitForm 0 2) grp wave (at_ wave) ∧ (at_ wave).accessOut 3 = false ∧ (at_ wave).pannierPoison 3 = false ∧
      conflictReport (conflicting 0 wave.pan wave.foreign) = 0 ∧ (at_ wave).overlaysFit 0 = true) ∧
    (Issues (commitForm 0 2) grp clashing (at_ clashing) ∧ conflictReport (conflicting 0 clashing.pan clashing.foreign) ≠ 0 ∧ (at_ clashing).overlaysFit 0 = true) :=
  ⟨⟨⟨rfl, rfl, rfl, rfl, rfl, rfl, rfl, rfl, rfl⟩, rfl, by decide, rfl, rfl⟩, ⟨⟨rfl, rfl, rfl, rfl, rfl, rfl, rfl, rfl, rfl⟩, by decide, rfl⟩⟩

theorem witness_BarrierArrivals :
    let one := at_ wave
    let two : State := { one with waves := [wave, sibling] }
    (∀ s ∈ [one, two], Issues (bare false) grp wave s ∧ Issues (openForm grp 0) grp wave s ∧ Issues (commitForm 0 2) grp wave s ∧ s.accessOut 3 = false ∧
      s.pannierPoison 3 = false ∧ ∀ t, s.team? 2 = some t → t.gather = none) ∧
    (∀ fn ∈ [0x10, 0x11, 0x12, 1, 4, 2, 5], (meets one wave fn).fn = barKind fn ∧ (meets one wave fn).members = [3] ∧ one.stillMembers (meets one wave fn) = [3] ∧
      (meets two wave fn).members = [3, 4] ∧ two.stillMembers (meets two wave fn) = [3, 4] ∧ (meets two wave fn).arrived = []) := by
  refine ⟨?_, by decide⟩
  intro s hs
  fin_cases hs <;>
    exact ⟨⟨rfl, rfl, rfl, rfl, rfl, rfl, rfl, rfl, rfl⟩, ⟨rfl, rfl, rfl, rfl, rfl, rfl, rfl, rfl, rfl⟩, ⟨rfl, rfl, rfl, rfl, rfl, rfl, rfl, rfl, rfl⟩, rfl, by decide,
      by rintro t ⟨⟩; rfl⟩

theorem witness_OpenFenceYieldNop :
    Issues (openForm grp 0xFFFFF) grp wave (at_ wave) ∧
    (∀ scope : BitVec 3, scope.toNat ≤ 4 →
      Issues { flds := [.unused 0x7C, .code (scope.setWidth 7) (decide (scope.toNat ≤ 5)), .unused 0x7C], ends := true } grp wave (at_ wave)) ∧
    (∀ scope < 4, (at_ wave).scopeAllowed 0 scope = true) ∧
    Issues (bare true) grp wave (at_ wave) ∧ Issues { flds := [.unused 0x7C, .unused 0x7C, .unused 0x7C], pro := true } grp wave (at_ wave) := by
  refine ⟨⟨rfl, rfl, rfl, rfl, rfl, rfl, rfl, rfl, rfl⟩, ?_, by decide, ⟨rfl, rfl, rfl, rfl, rfl, rfl, rfl, rfl, rfl⟩, ⟨rfl, rfl, rfl, rfl, rfl, rfl, rfl, rfl, rfl⟩⟩
  intro scope h
  rcases scope with ⟨⟨n, hn⟩⟩
  change n ≤ 4 at h
  interval_cases n <;> exact ⟨rfl, rfl, rfl, rfl, rfl, rfl, rfl, rfl, rfl⟩

theorem witness_AbortResults :
    let w : Wave := { wave with abtW := some 0x20040, abtB := some 0x20040, abtT := some 0x20040 }
    let two := at_ w fun s => { s with waves := [w, sibling, { sibling with wid := 5, idx := 2, slot := 2, spawned := true }] }
    (∀ s ∈ [at_ w, two], Issues (bare false) grp w s) ∧ (∀ fn ∈ [6, 7, 8], (w.abortAddr fn).isSome = true ∧ (wave.abortAddr fn) = none ∧ sibling.abortAddr fn = none) ∧
    w.status = .running ∧ two.wave? sibling.wid = some sibling ∧ sibling.team = w.team ∧ sibling.blk = w.blk ∧ sibling.isRack = false ∧ sibling.spawned = false ∧
    Issues (bare false) grp wave (at_ wave) := by
  refine ⟨?_, by decide, rfl, rfl, rfl, rfl, rfl, rfl, ⟨rfl, rfl, rfl, rfl, rfl, rfl, rfl, rfl, rfl⟩⟩
  intro s h
  fin_cases h <;> exact ⟨rfl, rfl, rfl, rfl, rfl, rfl, rfl, rfl, rfl⟩

/-- The placed state with the line at 0 dirty in a level-2 slice, last written by a context, its word in error. -/
def badLine (vf : Nat) (w : Wave) : State := at_ w fun s =>
  { s with lines := [{ dpa := 0, l2 := true, unit := 0, way := 0, dirty := true, vf := vf, asid := 1, host := false }], errors := [.l2 0] }

theorem witness_MaintenanceResults :
    let sg : Sig := { flds := [.unused 0x7C, .r64 2, .r32 4], scalar := true, ends := true }
    let w := regs 4 64 wave
    let twin := at_ w (teams fun t => { t with secondary := true, twin := some 5 })
    (∀ s ∈ [at_ w, twin, badLine 1 w], Issues sg grp w s ∧ s.translate 0 (s.vfOf w) 1 0 Need.maintain = .ok (0, 0) ∧ s.remotes = [] ∧ s.bankOps = []) ∧
    (∀ i ∈ (issueCtx sg grp w).act, ((issueCtx sg grp w).src64 i 2).toNat = 0 ∧ ((issueCtx sg grp w).src32 i 4).toNat = 64) ∧
    plainAddr 0 = true ∧ rangeOk 64 = true ∧ pagePieces 0 64 = [(0, 64)] ∧ (at_ w).errors = [] ∧
    (∀ t, (at_ w).team? 2 = some t → t.secondary = false) ∧ (∃ t, twin.team? 2 = some t ∧ t.secondary = true) ∧
    (at_ w).lines = [] ∧
    (let s := badLine 1 w
     (∃ l ∈ s.lines, l.dpa < 64 ∧ l.dirty = true ∧ s.recalled l.dpa = false ∧ s.lineBad l = true ∧ l.vf ≠ s.vfOf w) ∧ s.mismatch = [] ∧
     ∃ l ∈ ({ s with mismatch := [0] } : State).lines, l.dpa / 64 ∈ ({ s with mismatch := [0] } : State).mismatch) := by
  refine ⟨?_, by decide, rfl, rfl, rfl, rfl, by rintro t ⟨⟩; rfl, ⟨_, rfl, rfl⟩, rfl, by decide⟩
  intro s h
  fin_cases h <;> exact ⟨⟨rfl, rfl, rfl, rfl, rfl, rfl, rfl, rfl, rfl⟩, rfl, rfl, rfl⟩

/-! #### Control, lanes, racks -/

/-- The wave with every lane at a depth. -/
def deep (n : Nat) : Wave := { wave with lanes := wave.lanes.map fun l => { l with depth := n, chip := List.replicate (min n 4) 0x20000 } }

theorem witness_BranchResults :
    let sg (kind : Nat) (o : BitVec 20) : Sig :=
      { flds := [], guard := false, wides := 1, bfmt := true, ends := kind == 1,
        ok := targetOk grp o && (kind ≠ 1 || decide (wideValue grp 20 o.toNat ≤ 0)), pro := kind == 0 }
    let guarded (c : Ctx) (j : Nat) : Bool := (c.lane j).preds.getLsbD 0 != true
    (∀ kind < 3, IssuesWith (sg kind 0xFFFF8) (fun _ _ => [1]) grp wave (at_ wave) ∧
      IssuesWith (sg kind 0xFFFF8) (fun c i => [if guarded c i then 1 else 0]) grp wave (at_ wave)) ∧
    (∀ j ∈ (issueCtx (sg 2 0xFFFF8) grp wave).act, ((issueCtx (sg 2 0xFFFF8) grp wave).lane j).depth < 32) ∧
    (let d := deep 32
     IssuesWith (sg 2 0xFFFF8) (fun _ _ => [1]) grp d (at_ d) ∧ IssuesWith (sg 2 0xFFFF8) (fun c i => [if guarded c i then 1 else 0]) grp d (at_ d) ∧
     ∃ j ∈ (issueCtx (sg 2 0xFFFF8) grp d).act, guarded (issueCtx (sg 2 0xFFFF8) grp d) j = true ∧ 32 ≤ ((issueCtx (sg 2 0xFFFF8) grp d).lane j).depth) := by
  refine ⟨?_, by decide, ⟨rfl, rfl, rfl, rfl, rfl, rfl, rfl, rfl, rfl⟩, ⟨rfl, rfl, rfl, rfl, rfl, rfl, rfl, rfl, rfl⟩, by decide⟩
  intro kind h
  interval_cases kind <;> exact ⟨⟨rfl, rfl, rfl, rfl, rfl, rfl, rfl, rfl, rfl⟩, ⟨rfl, rfl, rfl, rfl, rfl, rfl, rfl, rfl, rfl⟩⟩

theorem witness_IndirectTransfers :
    let sg : Sig := { flds := [.unused 0x7C, .r64 2, .unused 0x7C], scalar := true }
    let ra : Sig := { flds := [.unused 0x7C, .unused 0x7C, .unused 0x7C] }
    (∀ n ∈ [0, 31, 32], IssuesWith sg (fun c i => [c.src64 i 2]) grp (deep n) (at_ (deep n)) ∧
      IssuesWith ra (fun c i => [(c.lane i).top.setWidth 64]) grp (deep n) (at_ (deep n)) ∧
      ∀ i ∈ (issueCtx sg grp (deep n)).act, ((issueCtx sg grp (deep n)).src64 i 2).toNat = 0 ∧ ((issueCtx sg grp (deep n)).lane i).depth = n) := by
  intro sg ra n h
  fin_cases h <;> exact ⟨⟨rfl, rfl, rfl, rfl, rfl, rfl, rfl, rfl, rfl⟩, ⟨rfl, rfl, rfl, rfl, rfl, rfl, rfl, rfl, rfl⟩, by decide⟩

theorem witness_ReturnStackRoundTrip : ∀ n ∈ [0, 4, 31], ∀ l ∈ (deep n).lanes, l.depth < 32 ∧ l.chip.length = min l.depth 4 ∧ l.spill.length = 28 := by decide

theorem witness_ExitAndTrap :
    let sg : Sig := { flds := [.unused 0x7C, .unused 0x7C, .unused 0x7C], ends := true, pro := true }
    let half : Group := { grp with lanes := List.range 8 }
    let s := at_ wave
    let pr : Prologue := { launch := 1, area := [], issued := 0, code := 0x20000, ended := none }
    let p : Wave := { wave with prologue := some pr }
    let u := (covered sg grp wave s).steer (issueCtx sg grp wave) fun _ l => { l with live := false, sleep := none }
    (Issues sg half wave (selects half s) ∧ wave.prologue = none ∧ ∃ l, wave.lanes[8]? = some l ∧ l.live = true ∧ 8 ∉ (issueCtx sg half wave).phys) ∧
    (Issues sg grp wave s ∧ (∀ i < 16, i ∈ (issueCtx sg grp wave).phys) ∧ wave.lanes.length = 16 ∧ s.accessOut 3 = false ∧ s.pannierPoison 3 = false ∧
      (∀ x ∈ s.waves, x.wid = 3) ∧ ((u.commitWave 3 true).1.commitBlock 2 0 true).1.overlaysFit 0 = true) ∧
    (let two : State := { s with waves := [wave, sibling] }
     Issues sg grp wave two ∧ two.accessOut 3 = false ∧ two.pannierPoison 3 = false ∧ (∃ x ∈ two.waves, x.team = 2 ∧ x.blk = 0 ∧ x.wid ≠ 3 ∧ ∃ l ∈ x.lanes, l.live = true) ∧
      (((covered sg grp wave two).steer (issueCtx sg grp wave) fun _ l => { l with live := false, sleep := none }).commitWave 3 true).1.overlaysFit 0 = true) ∧
    (Issues sg grp p (at_ p) ∧ p.prologue = some pr) ∧
    IssuesWith { flds := [.unused 0x7C, .r32 1, .unused 0x7C], scalar := true, ends := true } (fun c i => [(c.src32 i 1).setWidth 64]) grp wave s :=
  ⟨⟨⟨rfl, rfl, rfl, rfl, rfl, rfl, rfl, rfl, rfl⟩, rfl, ⟨_, rfl, rfl, by decide⟩⟩, ⟨⟨rfl, rfl, rfl, rfl, rfl, rfl, rfl, rfl, rfl⟩, by decide, rfl, rfl, by decide, by decide, rfl⟩,
    ⟨⟨rfl, rfl, rfl, rfl, rfl, rfl, rfl, rfl, rfl⟩, rfl, by decide, by decide, rfl⟩,
    ⟨⟨rfl, rfl, rfl, rfl, rfl, rfl, rfl, rfl, rfl⟩, rfl⟩, ⟨rfl, rfl, rfl, rfl, rfl, rfl, rfl, rfl, rfl⟩⟩

theorem witness_LaneExchange :
    Issues { flds := [.unused 0x7C] } grp wave (at_ wave) ∧ Issues { flds := [.w64 6 true, .unused 0x7C] } grp wave (at_ wave) ∧
    Issues { flds := [.rw32 6 true, .r32 1, .r32 2], scalar := true } grp wave (at_ wave) ∧
    IssuesWith { flds := [.r64 2, .unused 0x7C], scalar := true } (fun c i => [c.src64 i 2]) grp wave (at_ wave) :=
  ⟨⟨rfl, rfl, rfl, rfl, rfl, rfl, rfl, rfl, rfl⟩, ⟨rfl, rfl, rfl, rfl, rfl, rfl, rfl, rfl, rfl⟩, ⟨rfl, rfl, rfl, rfl, rfl, rfl, rfl, rfl, rfl⟩,
    ⟨rfl, rfl, rfl, rfl, rfl, rfl, rfl, rfl, rfl⟩⟩

/-- A wave whose lanes name two targets, in a block with 15 other waves. -/
def twoWays : Wave := { wave with lanes := wave.lanes.mapIdx fun i l => { l with regs := l.regs.set 2 (BitVec.ofNat 32 (4 * (i % 2))) } }
def crowded : State := at_ twoWays fun s =>
  { s with waves := twoWays :: (List.range 15).map fun k => { wave with wid := 4 + k, idx := 1 + k, slot := 1 + k }, nextId := 30 }

theorem witness_RegroupResults :
    let sg : Sig := { flds := [.unused 0x7C, .r64 2, .r32 4], guard := false, scalar := true, ends := true }
    let lawful (w : Wave) (s : State) : Prop :=
      let c := issueCtx sg grp w
      IssuesWith sg (fun c i => [c.src64 i 2, (c.src32 i 4).setWidth 64]) grp w s ∧
      (∀ i ∈ c.act, (c.src64 i 2).toNat % 4 = 0 ∧ (c.src64 i 2).toNat < 2 ^ 57 ∧ (c.src32 i 4).toNat % 128 ≤ w.nregs ∧ (c.lane i).depth = 0) ∧
      s.accessOut 3 = false ∧ s.pannierPoison 3 = false ∧ ((covered sg grp w s).commitWave 3 true).1.overlaysFit 0 = true ∧ s.mmas = []
    let placed (w : Wave) (s : State) (own : Bool) : List Nat :=
      ((((covered sg grp w s).commitWave 3 true).1.updWave 3 fun w => { w with mlatch := none }).placeAll (issueCtx sg grp w) own 2 4).2
    (lawful wave (at_ wave) ∧ placed wave (at_ wave) true = []) ∧ (lawful twoWays crowded ∧ placed twoWays crowded true ≠ [] ∧ placed twoWays crowded false ≠ []) :=
  ⟨⟨⟨⟨rfl, rfl, rfl, rfl, rfl, rfl, rfl, rfl, rfl⟩, by decide, rfl, by decide, rfl, rfl⟩, rfl⟩,
    ⟨⟨⟨rfl, rfl, rfl, rfl, rfl, rfl, rfl, rfl, rfl⟩, by decide, rfl, by decide, rfl, rfl⟩, by decide, by decide⟩⟩

theorem witness_SpawnAndWaitResults :
    let sg : Sig := { flds := [.rw32 6 true, .r64 2, .r32 4], scalar := true, ends := true }
    let tm : Sig := { flds := [.unused 0x7C, .r32 1, .unused 0x7C], scalar := true, ends := true }
    let wt := waiting [.w64 6 true, .r64 2, .r32 4]
    let k (v : W64) := regs 1 v wave
    (IssuesWith sg (fun c i => [c.src64 i 2, (c.src32 i 4).setWidth 64, (c.src32 i 6).setWidth 64]) grp wave (at_ wave) ∧
      ∀ i ∈ (issueCtx sg grp wave).act, ((issueCtx sg grp wave).src64 i 2).toNat = 0 ∧ ((issueCtx sg grp wave).src32 i 4).toNat = 0) ∧
    (Issues tm grp (k 16) (at_ (k 16)) ∧ ((issueCtx tm grp (k 16)).src32 0 1).toNat = 16) ∧
    (Issues tm grp (k 4096) (at_ (k 4096)) ∧ ((issueCtx tm grp (k 4096)).src32 0 1).toNat = 4096) ∧
    (IssuesWith wt (fun c i => [c.src64 i 2, (c.src32 i 4).setWidth 64]) grp wave (at_ wave) ∧ plainAddr 0 = true ∧
      (at_ wave).translate 0 ((at_ wave).vfOf wave) 1 0 Need.monitor = .ok (0, 0)) :=
  ⟨⟨⟨rfl, rfl, rfl, rfl, rfl, rfl, rfl, rfl, rfl⟩, by decide⟩, ⟨⟨rfl, rfl, rfl, rfl, rfl, rfl, rfl, rfl, rfl⟩, rfl⟩, ⟨⟨rfl, rfl, rfl, rfl, rfl, rfl, rfl, rfl, rfl⟩, rfl⟩,
    ⟨⟨rfl, rfl, rfl, rfl, rfl, rfl, rfl, rfl, rfl⟩, rfl, rfl⟩⟩

/-! #### Registers, records, privileged instructions -/

theorem witness_RegisterAccess :
    (∀ sel ∈ [(0 : BitVec 14), 5], Issues { flds := [.reg 6], sup := decide (0x1000 ≤ sel.toNat), ok := decide (sel.toNat ≤ 5) } grp wave (at_ wave)) ∧
    (∀ sel ∈ [(0x10 : BitVec 14), 0x11, 0x20, 0x21, 0x22, 0x30],
      Issues { flds := [.wsreg 1], sup := decide (0x1000 ≤ sel.toNat), ok := readableSel sel.toNat, ends := true } grp wave (at_ wave) ∧
      ((at_ wave).waveReg wave sel.toNat).isSome = true) ∧
    (let w : Wave := { wave with sup := true }
     ∀ sel ∈ [(0x1000 : BitVec 14), 0x1001, 0x1002, 0x1003],
      Issues { flds := [.wsreg 1], sup := decide (0x1000 ≤ sel.toNat), ok := readableSel sel.toNat, ends := true } grp w (at_ w) ∧
      ((at_ w).waveReg w sel.toNat).isSome = true) ∧
    ((at_ wave).mmaBusy 3 = false ∧ StoreLoc.waveReg 3 1 ∉ (at_ wave).errors) ∧
    (∀ sel ∈ [(0x10 : BitVec 14), 0x11],
      Issues { flds := [.sreg 1], sup := decide (0x1000 ≤ sel.toNat), ok := sel == 0x10 || sel == 0x11 } grp wave (at_ wave)) := by
  refine ⟨?_, ?_, ?_, by decide, ?_⟩
  · intro sel h; fin_cases h <;> exact ⟨rfl, rfl, rfl, rfl, rfl, rfl, rfl, rfl, rfl⟩
  · intro sel h; fin_cases h <;> exact ⟨⟨rfl, rfl, rfl, rfl, rfl, rfl, rfl, rfl, rfl⟩, rfl⟩
  · intro w sel h; fin_cases h <;> exact ⟨⟨rfl, rfl, rfl, rfl, rfl, rfl, rfl, rfl, rfl⟩, rfl⟩
  · intro sel h; fin_cases h <;> exact ⟨rfl, rfl, rfl, rfl, rfl, rfl, rfl, rfl, rfl⟩

/-- A wave record of partition 0 at extent 0, held by the placed team. -/
def record0 : Record :=
  { id := 7, part := 0, extent := 0, slot := 0, gen := 0, kind := .wave, cause := 1, state := .claimed, depth := 0, disp := 0, prio := 0, expiry := 0,
    flags := 0, parent := 0xFFFFFFFF, asid := 1, vf := 0, ord := 0, team := 2, teamIdx := 0, blk := 0, wave := 0, seg := 0, seq := 0, ring := 0, queue := 0,
    link := 0, budget := 0, deadline := 0, parked := 0, faddr := 0, amask := 0, raddr := 0, pkind := 1, handler := 0, harg := 0, body := zeros 64, pan := [],
    unit := 3, notice := 0, launch := 1 }
def recordState (w : Wave := wave) : State := at_ w fun s => teams (fun t => { t with holds := [7], serving := some 0 }) { s with records := [record0] }

theorem witness_RecordInstructions :
    let s := recordState
    let s2 := recordState (regs 2 0x10000000000 wave)
    let w2 := regs 2 0x10000000000 wave
    let claim : Sig := { flds := [.w32 6 true, .r64 2, .unused 0x7C], scalar := true, ends := true }
    let rd : Sig := { flds := [.w64 6 true, .r64 2, .unused 0x7C], scalar := true, ends := true }
    let wr : Sig := { flds := [.unused 0x7C, .r64 2, .r64 4], scalar := true, ends := true }
    Issues claim grp wave s ∧ Issues rd grp wave s ∧ (issueCtx rd grp wave).src64 0 2 = 0 ∧ remoteHandle 0 = false ∧
    s.heldRec (.team 2) 0 0 = some record0 ∧ s.offsetOk record0 0 = true ∧ s.offsetOk record0 0xF8 = true ∧ s.offsetOk record0 0x100 = true ∧
    s.offsetOk record0 0x10000 = true ∧ s.offsetOk record0 0x14000 = true ∧ (∀ k ∈ [0, 0xF8, 0x100, 0x10000, 0x14000], s.badRead record0 k = false ∧ s.errors.any (s.localWord record0 k) = false) ∧
    s2.writeFault record0 0x100 = none ∧ IssuesWith wr (fun c i => [c.src64 i 2, c.src64 i 4]) grp w2 s2 ∧ (issueCtx wr grp w2).src64 0 2 = 0x10000000000 ∧
    s2.heldRec (.team 2) 0 0 = some record0 ∧ s2.offsetOk record0 0x100 = true ∧
    (∀ f ∈ [Fld.r64 4, .unused 0x7C], IssuesWith { flds := [.w32 6 true, .r32 1, f], scalar := true, ends := true }
      (fun c i => [(c.src32 i 1).setWidth 64, if f = .r64 4 then c.src64 i 4 else 0]) grp wave s) ∧ codeAddr 0 = true ∧ s.holdsRemote wave 0 = false ∧
    IssuesWith { flds := [.w32 6 true, .r32 1, .r32 4], scalar := true, ends := true } noCompare grp wave s := by
  refine ⟨⟨rfl, rfl, rfl, rfl, rfl, rfl, rfl, rfl, rfl⟩, ⟨rfl, rfl, rfl, rfl, rfl, rfl, rfl, rfl, rfl⟩, rfl, rfl, rfl, rfl, rfl, rfl, rfl, rfl, by decide +kernel,
    rfl, ⟨rfl, rfl, rfl, rfl, rfl, rfl, rfl, rfl, rfl⟩, rfl, rfl, rfl, ?_, rfl, rfl, ⟨rfl, rfl, rfl, rfl, rfl, rfl, rfl, rfl, rfl⟩⟩
  intro f h
  fin_cases h <;> exact ⟨rfl, rfl, rfl, rfl, rfl, rfl, rfl, rfl, rfl⟩

/-- The fault task of `record0`. -/
def faultTask : Task := { id := 9, part := 0, queue := 1, prio := 0, order := 0, kind := .fault 7, waited := 0, aff := none, blocks := false, anyPair := false, relaunches := 0 }

theorem witness_RecordEffects :
    let with_ (f : Record → Record) : State := { recordState with records := [f record0], tasks := [faultTask], nextId := 10 }
    let parked := with_ fun r => { r with state := .parked }
    (∀ s : State, s ∈ [with_ id, parked, with_ fun r => { r with state := .killed }] →
      s.byHandle 0 0 = some (s.records.getD 0 record0) ∧ s.record? 7 = some (s.records.getD 0 record0) ∧ ∀ r ∈ s.records, r.id < s.nextId) ∧
    (∀ s : State, s ∈ [with_ id, with_ fun r => { r with state := .killed }] → s.heldRec (.team 2) 0 0 = some (s.records.getD 0 record0)) ∧
    parked.heldRec (.team 5) 0 0 = none ∧ (∀ k ∈ parked.tasks, k.part = 0 ∧ k.queue = 1 ∧ k.kind = .fault 7) ∧
    (∀ k ∈ recordState.tasks, k.part ≠ 0) ∧
    (∀ kind ∈ [RecKind.wave, .segment, .matrix, .notice], let s := with_ fun r => { r with kind := kind }
      s.heldRec (.team 2) 0 0 = some { record0 with kind := kind } ∧ s.recordBad { record0 with kind := kind } = false) ∧
    recordState.isEvicted 2 = false ∧ (recordState.wave? 3 = some wave ∧ record0.unit = 3) := by
  refine ⟨by decide +kernel, by decide +kernel, by decide +kernel, by decide +kernel, by decide +kernel, by decide +kernel, by decide +kernel, by decide +kernel⟩

theorem witness_ClockAndSignatures :
    let pair : Sig := { flds := [.w64 6 true, .r32 1, .unused 0x7C], scalar := true, ends := true }
    let word : Sig := { flds := [.w32 6 true, .r32 1, .unused 0x7C], scalar := true, ends := true }
    let s := at_ wave
    (s.team? 2).isSome = true ∧ Issues pair grp wave s ∧ (0 : Nat) % 4 ≠ 3 ∧ Issues (bare true) grp wave s ∧ Issues word grp wave s ∧
    (∀ i ∈ (issueCtx word grp wave).act, ((issueCtx word grp wave).src32 i 1).toNat = 0) ∧ inView 65536 0 64 = true ∧ inView 65536 65472 64 = true ∧
    s.viewPoison wave 0 64 = none ∧ s.anyGuarded (issueCtx word grp wave) (fun _ => 0) 64 false = false :=
  ⟨rfl, ⟨rfl, rfl, rfl, rfl, rfl, rfl, rfl, rfl, rfl⟩, by decide, ⟨rfl, rfl, rfl, rfl, rfl, rfl, rfl, rfl, rfl⟩, ⟨rfl, rfl, rfl, rfl, rfl, rfl, rfl, rfl, rfl⟩,
    by decide, rfl, rfl, rfl, rfl⟩

/-- The placed wave at supervisor privilege, with 1 in register 4. -/
def supervisor : Wave := { regs 4 1 wave with sup := true }

theorem witness_PrivilegedResults :
    let s := at_ supervisor
    let page (x n : Nat) : Prop := x < 2 ^ 40 ∧ x % 65536 = 0 ∧ x + 65536 * n ≤ Config.deviceBytes
    (∀ f ∈ [[Fld.r64 2, .r32 4], [.r64 2, .unused 0x7C], [.r32 2, .r32 4]],
      let sg : Sig := { flds := .w32 6 true :: f, scalar := true, ends := true, sup := true }
      let c := issueCtx sg grp supervisor
      Issues sg grp supervisor s ∧ (c.src64 0 2).toNat = 0 ∧ (c.src32 0 2).toNat = 0 ∧ (c.src32 0 4).toNat = 1) ∧
    s.remotes = [] ∧ s.bankOps = [] ∧ page 0 1 ∧ page 0 0 ∧ page (Config.deviceBytes - 65536) 1 ∧ page (Config.deviceBytes - 4096 * 65536) 4096 := by
  refine ⟨?_, rfl, rfl, by unfold Config.deviceBytes; decide, by unfold Config.deviceBytes; decide,
    by unfold Config.deviceBytes; decide, by unfold Config.deviceBytes; decide⟩
  intro f h
  fin_cases h <;> exact ⟨⟨rfl, rfl, rfl, rfl, rfl, rfl, rfl, rfl, rfl⟩, rfl, rfl, rfl⟩

/-- Operand fields that every form takes: even registers from 2 on, predicates and scalars 1. -/
def fields0 : Fields := { n := 0, e := 0, p := 1, q := 2, scope := 0, d := 6, a := 2, b := 4, x := 1, y := 2, z := 3, v := 1, sel := 0, o := 0 }

theorem witness_IssueChecks :
    let off : Group := { grp with modifier := some 0x080000 }
    let late : Group := { grp with at_ := 0x2002C, wides := [0, 0, 0] }
    let s := selects off (at_ wave)
    let empty (e : Instr × Sig) : Bool := (checkGroup e.2 off wave).isNone && (activeLanes off wave).isEmpty && (s.poisonRead (issueCtx e.2 off wave) e.2).isNone &&
      !s.matrixFull e.2 wave
    (at_ wave).grp = some grp ∧ (at_ wave).wave? 3 = some wave ∧ wave.sup = false ∧ wave.prologue = none ∧
    hintsOk { flds := [.w32 6 true, .r64 2, .r32 4], scalar := true, ends := true, sup := true } grp = true ∧
    (∀ e ∈ forms fields0 late, (checkGroup e.2 late wave).isSome = true) ∧ s.grp = some off ∧ s.wave? off.wid = some wave ∧
    200 ≤ ((forms fields0 off).filter empty).length :=
  ⟨rfl, rfl, rfl, rfl, rfl, by decide +kernel, rfl, rfl, by decide +kernel⟩

theorem witness_EnabledExceptionTraps :
    let w : Wave := { (regs 2 0x7FF000017F800001 wide) with fpmode := 0x7F0000 }
    let raises (e : Instr × Sig × (Ctx → Nat → BitVec 8)) : Bool :=
      let c := issueCtx e.2.1 grp w
      (checkGroup e.2.1 grp w).isNone && ((at_ w).poisonRead c e.2.1).isNone && (trapCause c.w.fpmode (flagUnion c.act (e.2.2 c))).isSome
    (at_ w).grp = some grp ∧ (at_ w).wave? 3 = some w ∧ (activeLanes grp w).isEmpty = false ∧ 40 ≤ ((flagging fields0).filter raises).length :=
  ⟨rfl, rfl, rfl, by decide +kernel⟩

/-! #### Where the forms trap -/

/-- The placed wave with a pannier whose sectors are all taken. -/
def fullWave : Wave := { wave with reds := List.replicate 256 { fn := 5, addr := 0, value := 1, dpa := 0 } }

theorem witness_MmaTraps :
    let sg : Sig := { flds := [.unused 0x7C, .r32 1, .unused 0x7C], reuse := true, scalar := true, ends := true, matrix := true }
    let w := regs 1 1 matrixWave
    let p := (at_ matrixWave).viewBytes matrixWave 0 32
    Issues sg grp w (at_ w) ∧ ((issueCtx sg grp w).src32 0 1).toNat = 1 ∧
    Issues sg grp matrixWave (at_ matrixWave) ∧ mmaCheck matrixWave p ((at_ matrixWave).liveResv matrixWave (leAt p 4 2)) = some Cause.illegal :=
  ⟨⟨rfl, rfl, rfl, rfl, rfl, rfl, rfl, rfl, rfl⟩, rfl, ⟨rfl, rfl, rfl, rfl, rfl, rfl, rfl, rfl, rfl⟩, rfl⟩

/-- With no window (base and limit 0), row 0, column 1 or one row. -/
theorem witness_RowAccessTraps :
    let w := regs 1 0x10000 wave
    (∀ sg ∈ [onEngine [.range 8 8 true, .r32 1], onEngine [.r32 1, .range 8 8 false], onEngine [.r32 1], onEngine [.w32 2 true, .r32 1, .r32 3]],
      Issues sg grp w (at_ w) ∧ (issueCtx sg grp w).act = List.range 16 ∧ ∀ i < 16, ((issueCtx sg grp w).src32 i 1).toNat = 0x10000) ∧
    w.rowWait = none ∧ w.winLimit = 0 := by
  refine ⟨?_, rfl, rfl⟩
  intro sg h
  fin_cases h <;> exact ⟨⟨rfl, rfl, rfl, rfl, rfl, rfl, rfl, rfl, rfl⟩, by decide, by decide⟩

theorem witness_LoadAndStoreTraps :
    let ld (f : Fld) : Sig := { flds := [f, .r32 1], scalar := true, wides := 2, ends := true, pro := true }
    (∀ w ∈ [regs 1 0x400001 wave, regs 1 4095 proWave], ∀ f ∈ [Fld.w32 2 true, .w64 2 true], Issues (ld f) grp w (at_ w) ∧
      ∀ n ∈ [2, 4, 8], broken w ((at_ w).viewSize w) ((issueCtx (ld f) grp w).ea 0 1 0 n) n) ∧
    (∀ w ∈ [regs 1 0x400000 wave, regs 1 4096 proWave], broken w ((at_ w).viewSize w) ((issueCtx (ld (.w32 2 true)) grp w).ea 0 1 0 1) 1) ∧
    (∀ w ∈ [regs 1 0x400001 wave, regs 1 4095 proWave, fullWave], ∀ f ∈ [Fld.st32 2, .st64 2],
      IssuesWith (ld f) (fun c i => [BitVec.ofNat 64 (c.ea i 1 0 8), BitVec.ofNat 64 (leNat (storeData 8 2 c i))]) grp w (at_ w)) ∧
    ∀ n ∈ [1, 2, 4, 8], let c := issueCtx (ld (.st32 2)) grp fullWave
      (∀ i ∈ c.act, (at_ fullWave).badAccess c.w (c.ea i 1 0 n) n = false) ∧
      256 < (sectorsOf (storePan c (fun i => c.ea i 1 0 n) (storeData n 2 c))).length + fullWave.reds.length := by
  refine ⟨?_, ?_, ?_, by decide⟩
  · intro w hw f hf
    fin_cases hw <;> fin_cases hf <;> refine ⟨⟨rfl, rfl, rfl, rfl, rfl, rfl, rfl, rfl, rfl⟩, ?_⟩ <;> intro n hn <;> fin_cases hn <;> exact Or.inl (by decide)
  · intro w hw
    fin_cases hw
    · exact Or.inr (Or.inl ⟨rfl, by decide⟩)
    · exact Or.inr (Or.inr ⟨rfl, by decide⟩)
  · intro w hw f hf
    fin_cases hw <;> fin_cases hf <;> exact ⟨rfl, rfl, rfl, rfl, rfl, rfl, rfl, rfl, rfl⟩

/-- The placed wave with scalar 0 given. -/
def scalars0 (v : W64) : Wave := { wave with sregs := wave.sregs.set 0 v }

/-- A reserved bit of the first scalar; a cassette range with no reservation. -/
theorem witness_CopyTraps :
    let s (v : W64) := { selects scalarGrp handleState with waves := [scalars0 v] }
    let sg (f : Fld) : Sig := { flds := [f, .r32 1, .code 0x7E true], scalar := true, ends := true, ok := true }
    (∀ v ∈ [(2 ^ 60 : W64), 2 ^ 59], ∀ f ∈ [Fld.unused 0x7C, .r32 2],
      IssuesWith (sg f) (fun c i => [(c.src32 i 1).setWidth 64, (c.src32 i 2).setWidth 64]) scalarGrp (scalars0 v) (s v)) ∧
    (∀ k ∈ [CopyKind.inward, .outward, .digest], copyBroken (s (2 ^ 60)) (scalars0 (2 ^ 60)) k 0 [2 ^ 60, 0, 0, 0, 0] 0 0) ∧
    ¬copyBroken (s (2 ^ 59)) (scalars0 (2 ^ 59)) .inward 0 [2 ^ 59, 0, 0, 0, 0] 0 0 ∧ scalCassette [2 ^ 59, 0, 0, 0, 0] = true ∧ (s (2 ^ 59)).resvs = [] := by
  refine ⟨?_, ?_, ?_, rfl, rfl⟩
  · intro v hv f hf
    fin_cases hv <;> fin_cases hf <;> exact ⟨rfl, rfl, rfl, rfl, rfl, rfl, rfl, rfl, rfl⟩
  · intro k _
    exact Or.inr (Or.inl (by decide))
  · rintro (h | h | h | h | h | h | h | h | h)
    · exact absurd h (by decide)
    · exact absurd h (by decide)
    · exact absurd h (by decide)
    · exact absurd h (by decide)
    · exact absurd h.2 (by decide)
    · exact absurd h (by decide)
    · exact absurd h.1 (by decide)
    · exact absurd h.1 (by decide)
    · exact absurd (h _ rfl).1 (by decide)

/-- A reserved bit, a scope that the policy denies, a page that is not mapped. -/
theorem witness_AddressTraps :
    let s (v : W64) := kindState 0x3B (regs 2 v wave)
    let sg : Sig := { flds := [.w32 6 true, .r64 2, .r32 4], scalar := true, ends := true }
    (∀ v ∈ [(0x4000000000000000 : W64), 0x800000000000000, 0x10000000000], IssuesWith sg (fun c i => [c.src64 i 2, (c.src32 i 4).setWidth 64]) grp (regs 2 v wave) (s v) ∧
      IssuesWith (waiting [.r64 2, .r32 4]) (fun c i => [c.src64 i 2, (c.src32 i 4).setWidth 64]) grp (regs 2 v wave) (s v)) ∧
    (issueCtx sg grp (regs 2 0x4000000000000000 wave)).src64 0 2 = 0x4000000000000000 ∧ (issueCtx sg grp (regs 2 0x800000000000000 wave)).src64 0 2 = 0x800000000000000 ∧
    (issueCtx sg grp (regs 2 0x10000000000 wave)).src64 0 2 = 0x10000000000 ∧
    (∀ fn < 10, addressFails (s 0) wave fn 0x4000000000000000 Cause.illegal) ∧
    (∀ fn < 10, addressFails (s 0) wave fn 0x800000000000000 Cause.scope) ∧
    (∀ fn < 10, addressFails (s 0) wave fn 0x10000000000 Cause.notPresent) := by
  refine ⟨?_, by decide +kernel, by decide +kernel, by decide +kernel, ?_, ?_, ?_⟩
  · intro v hv
    simp only [List.mem_cons, List.not_mem_nil, or_false] at hv
    rcases hv with rfl | rfl | rfl <;> exact ⟨⟨rfl, rfl, rfl, rfl, rfl, rfl, rfl, rfl, rfl⟩, ⟨rfl, rfl, rfl, rfl, rfl, rfl, rfl, rfl, rfl⟩⟩
  · intro fn _
    exact Or.inl ⟨Or.inl (by decide), rfl⟩
  · intro fn h
    interval_cases fn <;> exact Or.inr (Or.inl ⟨by decide, rfl, rfl⟩)
  · intro fn h
    interval_cases fn <;> exact Or.inr (Or.inr ⟨by decide, rfl, rfl⟩)

theorem witness_PannierAndBankTraps :
    (∀ y ∈ [Fld.r32 4, .r64 4], IssuesWith (waiting [.r64 2, y]) (fun c i => [c.src64 i 2, (c.src32 i 4).setWidth 64]) grp fullWave (kindState 0x3B fullWave)) ∧
    256 < fullWave.sectors + 16 ∧
    (let sg : Sig := { flds := [.unused 0x7C, .r64 2, .r32 4], scalar := true, ends := true }
     (∀ k ∈ [(0x3B, wave), (0x7B, regs 2 (2 ^ 62) wave)], IssuesWith sg (fun c i => [c.src64 i 2, (c.src32 i 4).setWidth 64]) grp k.2 (kindState k.1 k.2)) ∧
     ∀ fn < 5, (kindState 0x7B).bankIllegal wave fn (2 ^ 62) 0 = true ∧ (kindState 0x3B).bankIllegal wave fn 0 0 = false ∧
       (kindState 0x3B).translate 0 ((kindState 0x3B).vfOf wave) 1 0 (bankNeed fn) = .error Cause.memside) := by
  refine ⟨?_, by decide, ?_, ?_⟩
  · intro y hy
    fin_cases hy <;> exact ⟨rfl, rfl, rfl, rfl, rfl, rfl, rfl, rfl, rfl⟩
  · intro k hk
    fin_cases hk <;> exact ⟨rfl, rfl, rfl, rfl, rfl, rfl, rfl, rfl, rfl⟩
  · intro fn h
    interval_cases fn <;> exact ⟨rfl, rfl, rfl⟩

theorem witness_JumpTraps :
    let w := regs 2 1 wave
    let sg : Sig := { flds := [.unused 0x7C, .r64 2, .unused 0x7C], scalar := true }
    IssuesWith sg (fun c i => [c.src64 i 2]) grp w (at_ w) ∧ 0 ∈ (issueCtx sg grp w).act ∧ ((issueCtx sg grp w).src64 0 2).toNat = 1 :=
  ⟨⟨rfl, rfl, rfl, rfl, rfl, rfl, rfl, rfl, rfl⟩, by decide, by decide⟩

/-- A partition with a record pool, and a policy of handlers for the placed launch. -/
def policyEntry (kind : Nat) : PolEntry :=
  { handler := 0, deadline := 0, budget := 0, kind := kind, queue := 1, prio := 2, expiry := 0, link := 0, pord := 0, pq := 0 }
def policyState (pool : Option (Nat × Nat)) (kind : Nat) (w : Wave := wave) : State := at_ w fun s =>
  { s with parts := s.parts.set 0 { s.part 0 with pool := pool },
           launches := s.launches.map fun l => { l with policy := some { arg := 0, entries := List.replicate 64 (policyEntry kind) } } }

theorem witness_TakingAFault :
    (∀ kind ∈ [1, 2], let s := policyState (some (0, 2)) kind
      s.wave? 3 = some wave ∧ wave.prologue = none ∧ s.recordDepth 2 (s.waveUnit wave).part = some (0, 0xFFFFFFFF) ∧ s.placeFor 0 0 true = some (0, 0) ∧ (s.part 0).fwm = 0 ∧
      s.polEntry (s.waveUnit wave).launch Cause.illegal = some (policyEntry kind) ∧ s.records = [] ∧
      s.lostExtent 0 (0, 0) = false ∧ s.errors = []) ∧
    (let s : State := { policyState (some (0, 2)) 1 with errors := [.sreg 3 0] }
     parkErr 3 (.sreg 3 0) = true ∧ parkErr 3 (.sreg 4 0) = false ∧ s.placeFor 0 0 true = some (0, 0) ∧ s.lostExtent 0 (0, 0) = false) ∧
    (let s := policyState none 1
     s.wave? 3 = some wave ∧ s.recordDepth 2 (s.waveUnit wave).part = some (0, 0xFFFFFFFF) ∧ s.placeFor 0 0 true = none) ∧
    (let t := policyState (some (0, 2)) 1
     let s : State := { t with parts := t.parts.set 0 { t.part 0 with fwm := 4 } }
     s.placeFor 0 0 true = some (0, 0) ∧ s.lostExtent 0 (0, 0) = false ∧ (s.part 0).fwm.getLsbD 2 = true) ∧
    (let w : Wave := { wave with prologue := some { launch := 1, area := [], issued := 0, code := 0x20000, ended := none } }
     (at_ w).wave? 3 = some w ∧ w.prologue.isSome = true) := by
  refine ⟨?_, ⟨rfl, rfl, rfl, rfl⟩, ⟨rfl, rfl, rfl⟩, ⟨rfl, rfl, rfl⟩, ⟨rfl, rfl⟩⟩
  intro kind h
  fin_cases h <;> exact ⟨rfl, rfl, rfl, rfl, rfl, rfl, rfl, rfl, rfl⟩

/-! #### Hints and events -/

theorem witness_HintsBind : ∀ g ∈ [grp, { grp with wides := [0] }, { grp with wides := [0, 0] }, { grp with modifier := some 0 }, { grp with sched := some 0 }],
    let n := g.wides.length + g.modifier.toList.length + g.sched.toList.length
    (selects g (at_ wave)).grp = some g ∧ (selects g (at_ wave)).wave? g.wid = some wave ∧
    (n < 2 ∧ g.modifier = none ∧ g.sched = none ∨ 2 ≤ n ∨ g.modifier.isSome = true ∨ g.sched.isSome = true) := by decide

/-- An operation of `matrixState`, issued or started. -/
def matrixOp (phase : MmaPhase) : MmaOp :=
  { id := 9, core := 0, team := 2, blk := 0, wid := 3, widx := 0, width := 16, grade := 0, asid := 1, param := [0, 0, 1] ++ zeros 29, resv := heldResv,
    fpmode := 0, snap := none, phase := phase, flags := 0, launch := 1 }

theorem witness_MatrixEngineRuns :
    (∀ p ∈ [MmaPhase.issued, .started []], let s : State := { matrixState with mmas := [matrixOp p] }
      s.mma? 9 = some (matrixOp p) ∧ (s.team? 2).isSome = true ∧
      s.block? 2 0 = some (newBlock placedLaunch 2 0 0) ∧ s.wave? 3 = some matrixWave ∧ s.errors = [] ∧ s.softs = [] ∧ s.rowsFree (matrixOp p) = true ∧
      s.cassFilling (matrixOp p) = false ∧ (∀ t ∈ s.teams, t.phase = .running)) ∧
    (matrixOp (.started [])).grade ≠ 1 ∧ (∀ f, trapCause (matrixOp (.started [])).fpmode f = none) := by
  refine ⟨?_, by decide, fun f => ?_⟩
  · intro p h
    fin_cases h <;> exact ⟨rfl, rfl, rfl, rfl, rfl, rfl, rfl, rfl, by decide⟩
  · unfold trapCause matrixOp; simp

/-- An operation whose one A entry is a signalling NaN, with its exceptions enabled, or with twins that differ. -/
def nanRows : List (List W32) := (List.range 32).map fun i => if i < 16 then [0x7F800001] else [0]

theorem witness_MatrixOperationParks :
    let started (fpmode : W64) (grade : Nat) : MmaOp := { matrixOp (.started nanRows) with fpmode := fpmode, grade := grade, width := if grade = 1 then 32 else 16 }
    let t := policyState (some (0, 2)) 1
    let s (o : MmaOp) : State := { t with mmas := [o], resvs := [heldResv] }
    let b := newBlock placedLaunch 2 0 0
    let from_ (o : MmaOp) (first : Nat) : List (List W32 × BitVec 8) := (List.range o.m).map fun i => mmaRow o b (nanRows.getD (first + i) []) (b.row (o.row + i))
    let fl (o : MmaOp) : BitVec 8 := (from_ o 0).foldl (fun f r => f ||| r.2) 0
    let trap := started 0x10000 0
    let twin := started 0 1
    trapCause trap.fpmode (fl trap &&& 0x7F) = some 3 ∧ trapCause twin.fpmode (fl twin &&& 0x7F) = none ∧ from_ twin 0 ≠ from_ twin twin.m ∧
    (∀ o ∈ [trap, twin], (s o).mma? 9 = some o ∧ (s o).block? 2 0 = some b ∧ (s o).recordDepth 2 0 = some (0, 0xFFFFFFFF) ∧ (s o).placeFor 0 0 false = some (0, 0) ∧
      (s o).lostExtent 0 (0, 0) = false) ∧
    (∀ cause ∈ [3, Cause.lane], t.polEntry 1 cause = some (policyEntry 1)) ∧ t.records = [] := by
  decide +kernel

/-- A layout record of one byte from `base`, and a copy of it in state `todo`. -/
def layout (base : Nat) : List Byte := leBytes 8 (2 ^ 57 + base) ++ leBytes 4 1 ++ zeros 52
def copy0 (k : CopyKind) (base : Nat) : Copy :=
  { id := 9, kind := k, core := 0, team := 2, blk := 0, wid := 3, widx := 0, handle := 0, scal := [0, 0, 0, 0, 0], a := 0, dig := 0, start := 0, len := 1,
    cassette := false, data := [5], recs := some (layout base, zeros 64), segs := [.todo], level := .wave, lines := [], vlines := [],
    kil := false, rdr := false, digested := false, gbase := 0 }
def stopKind (r : Run) : Nat := match r.stop with | none => 0 | some .wait => 1 | some (.fault _ _ _) => 2

theorem witness_CopySegmentsRun :
    let s (c : Copy) (held : List Copy) : State := { handleState with copies := c :: held }
    let other : Copy := { copy0 .outward 0 with id := 8, team := 5, lines := [4] }
    let r (c : Copy) (held : List Copy) : Run := runSeg c (segPlan (layout (layBase ((c.recs.getD ([], [])).1)) ) (zeros 64) c.scal) ((s c held).copyEnv c) 0 0 (Run.start (s c held) [])
    (∀ k ∈ [CopyKind.inward, .outward, .digest], let c := copy0 k 0x100
      (s c []).copy? 9 = some c ∧ ((s c []).team? 2).isSome = true ∧ (s c []).cassBusy c = false ∧ (s c []).inFlight c 0 = true ∧ c.segs[0]? = some .todo ∧ stopKind (r c []) = 0 ∧
      stopKind (r c [other]) = 1) ∧
    (∀ k ∈ [CopyKind.inward, .outward, .digest], stopKind (r (copy0 k 0x40000000) []) = 2 ∧ ((r (copy0 k 0x40000000) []).s.copy? 9).isSome = true) ∧
    (∀ t ∈ handleState.teams, t.phase = .running ∧ t.secondary = false) := by
  refine ⟨?_, ?_, by decide⟩
  · intro k h; fin_cases h <;> exact ⟨rfl, rfl, rfl, rfl, rfl, rfl, rfl⟩
  · intro k h; fin_cases h <;> exact ⟨rfl, rfl⟩

theorem witness_CopySegmentEffects :
    let s (c : Copy) : State := { handleState with copies := [c], cleared := [] }
    let f := layout 0x100
    (∀ k ∈ [CopyKind.inward, .outward, .digest], let c := copy0 k 0x100
      let p := segPlan f (zeros 64) c.scal
      let env := (s c).copyEnv c
      p.sz = 1 ∧ p.count = 1 ∧ segBytes c 0 = 1 ∧ locate f 1 (p.point 0) = .at 0x100 ∧ layLink f = 0 ∧ (s c).errors = [] ∧ (s c).softs = [] ∧
      ((s c).translate env.core env.vf env.asid 0 Need.copyIn = .ok (0, 0)) ∧ ((s c).translate env.core env.vf env.asid 0 Need.copyOut = .ok (0, 0)) ∧
      (∀ b ∈ [true, false], (s c).copyWaits env b 0x100 = false) ∧ c.cassette = false) ∧
    ∀ t ∈ handleState.teams, Memory.wf t.base = true := by
  refine ⟨?_, by decide⟩
  intro k h
  fin_cases h <;> exact ⟨rfl, rfl, rfl, rfl, rfl, rfl, rfl, rfl, rfl, by decide, rfl⟩

/-- The placed team's device commit gathers, with one byte in the block overlay that another team may have published. -/
def gatherState (checked : Bool) (foreign : List Nat) : State :=
  at_ wave fun s => teams (fun t => { t with gather := some { checked := checked, final := false, lowered := true }, ovl := [(8, 1)], foreign := foreign }) s

theorem witness_DeviceCommitPublishes : ∀ checked ∈ [true, false], ∀ t ∈ (gatherState checked []).teams,
    let s := gatherState checked []
    s.team? t.id = some t ∧ t.gather = some { checked := checked, final := false, lowered := true } ∧ s.gathered t = true ∧ t.secondary = false ∧
    t.twin = none ∧ s.errors = [] ∧ s.softs = [] ∧ deviceReport (s.carried t.id) t.foreign = 0 := by decide

/-- A device commit conflicts on the bytes of an outward copy that another team of its launch has published. -/
def pendingCopy : Copy := { copy0 .outward 0x100 with level := .team, segs := [.gathered [(0x100, 0, 5)] false], lines := [4], vlines := [(4, 0x100)] }

theorem witness_DeviceCommitReports : ∀ t ∈ (gatherState true [0x100]).teams,
    let s : State := { gatherState true [0x100] with copies := [pendingCopy] }
    s.team? t.id = some t ∧ s.gathered t = true ∧ deviceReport (s.carried t.id) t.foreign ≠ 0 := by decide

/-- The placed team and a twin of it that has gathered too, with other bytes in its overlay or the same. -/
def twinState (same : Bool) (abort : Bool) : State :=
  let s := gatherState true []
  let w : Wave := { wave with abtT := if abort then some 0x20040 else none }
  { policyState (some (0, 2)) 1 with
    grp := none
    waves := [w]
    teams := s.teams.flatMap fun t => [{ t with twin := some 5 }, { t with id := 5, secondary := true, twin := some 2, ovl := if same then t.ovl else [(8, 2)] }] }

theorem witness_TwinCommits :
    (∀ same ∈ [true, false], ∀ abort ∈ [true, false], let s := twinState same abort
      ∃ t t2 x, s.teams = [t, t2] ∧ s.team? t.id = some t ∧ s.team? t2.id = some t2 ∧ t.gather = some x ∧ t.twin = some t2.id ∧ t.secondary = false ∧
        s.gathered t = true ∧ s.gathered t2 = true ∧ s.errors = [] ∧ (s.signature t = s.signature t2 ↔ same = true) ∧ deviceReport (s.carried t.id) t.foreign = 0 ∧
        ((∃ w ∈ s.teamWaves t.id, w.abtT ≠ none) ↔ abort = true) ∧ s.wantsNotice t.launch Cause.twin = true) ∧
    (at_ wave).wantsNotice 1 Cause.twin = false ∧
    (∀ t ∈ (gatherState true []).teams,
      let c := { pendingCopy with len := 1 }
      let s : State := { gatherState true [] with copies := [c], errors := [.pending 9 0x100, .spad 2 0] }
      t.twin = none ∧ s.team? t.id = some t ∧ (s.carried t.id).any s.sourceLost = true) := by
  refine ⟨?_, by decide +kernel, by decide +kernel⟩
  intro same hs abort ha
  fin_cases hs <;> fin_cases ha <;> exact ⟨_, _, _, rfl, rfl, rfl, rfl, rfl, rfl, by decide +kernel, by decide +kernel, rfl, by decide +kernel, by decide +kernel, by decide +kernel, by decide +kernel⟩

def remote0 (fn : Nat) (val cmp : W64) : RemoteOp :=
  { id := 9, wid := 3, lane := 0, fn := fn, addr := 0, dpa := 0, val := val, cmp := cmp, dst := some 2, vf := 0, asid := 1, team := 2, epoch := 0, failed := false }
def red0 (fn : Nat) : Red := { fn := fn, addr := 0, value := 1, dpa := 0 }

theorem witness_RemotePerforms :
    (∀ fn ∈ [0, 1, 2, 3, 4, 8, 9], ∀ cmp ∈ [(0 : W64), 1], let s : State := { at_ wave with remotes := [remote0 fn 1 cmp] }
      s.remotes.find? (fun x => x.id == 9) = some (remote0 fn 1 cmp) ∧ (s.team? 2).isSome = true ∧ s.isSecondary 2 = false ∧ s.remoteReady (remote0 fn 1 cmp) = true ∧
      s.consumeLine 0 = (s, false) ∧ s.readNat 0 8 = 0 ∧ s.readNat 0 4 = 0 ∧ s.errors = [] ∧ s.softs = []) ∧
    (∀ fn ∈ [5, 6, 7], let s := at_ wave (teams fun t => { t with applyQ := [red0 fn] })
      (∀ t ∈ s.teams, t.applyQ = [red0 fn] ∧ s.team? t.id = some t) ∧ s.pageGone 0 = false ∧ s.lineHeld 0 = false ∧ s.consumeLine 0 = (s, false) ∧ s.errors = [] ∧ s.softs = []) := by
  refine ⟨?_, ?_⟩
  · intro fn h cmp hc; fin_cases h <;> fin_cases hc <;> exact ⟨rfl, rfl, rfl, rfl, rfl, rfl, rfl, rfl, rfl⟩
  · intro fn h; fin_cases h <;> exact ⟨by decide, rfl, rfl, rfl, rfl, rfl⟩

/-- A cell that is zero, poisoned, or holds a NaN, an infinity, both, or a sum beyond R85's range. -/
theorem witness_SealedCells : ∀ c ∈ [ExactCell.zero, { ExactCell.zero with poison := true }, { ExactCell.zero with nan := true }, { ExactCell.zero with pinf := true },
    { ExactCell.zero with ninf := true }, { ExactCell.zero with pinf := true, ninf := true }],
    -(2 ^ 314 : Int) ≤ c.sum ∧ c.sum < 2 ^ 314 ∧ ((c.poison = true ∨ c.nan = true ∨ (c.pinf = true ∧ c.ninf = true)) ∨ c.pinf = true ∨ c.ninf = true ∨ c = ExactCell.zero) := by
  decide

def bankOp0 (fn : Nat) : BankOp := { id := 9, core := 0, wid := 3, team := 2, fn := fn, dpa := 0, b := 0, data := zeros 32, dst := 0, epoch := 0 }
/-- The placed wave with lane 0 asleep. -/
def asleep (armed hit : Bool) : Asleep := { addr := 0, dpa := 0, cmp := 0, dst := 6, next := 0x20004, epoch := 0, armed := armed, hit := hit }
def sleeper (a : Asleep) : Wave := { wave with lanes := wave.lanes.mapIdx fun i l => if i = 0 then { l with sleep := some a } else l }

theorem witness_BanksMonitorsRacks :
    (∀ fn < 5, let s : State := { kindState 0x7B with bankOps := [bankOp0 fn] }
      s.bankOps.find? (fun x => x.id == 9) = some (bankOp0 fn) ∧ s.isSecondary 2 = false ∧ s.bankReady (bankOp0 fn) = true ∧ s.errors = [] ∧ s.softs = []) ∧
    (∀ a ∈ [asleep false false, { asleep false false with cmp := 1 }, asleep true true], let s : State := { at_ (sleeper a) with grp := none }
      s.wave? 3 = some (sleeper a) ∧ (sleeper a).status = .running ∧ (sleeper a).lanes[0]?.bind (·.sleep) = some a ∧ 0 < (sleeper a).plan ∧ s.isSecondary 2 = false ∧
      s.lineHeld 0 = false ∧ s.monitorRead 0 0 = (s, some 0) ∧ (a.armed = false → s.earlierOut 3 a.epoch = false) ∧ s.monitorsUsed 0 < Config.monitors ∧
      a.rs = false ∧ s.isEvicted 2 = false ∧ (sleeper a).armsLater 0 a = false) ∧
    (let w : Wave := { wave with status := .rack 0x20000 0 }
     (at_ w).wave? 3 = some w ∧ w.status = .rack 0x20000 0 ∧ (at_ w).isEvicted 2 = false) := by
  refine ⟨?_, ?_, ⟨rfl, rfl, rfl⟩⟩
  · intro fn h; interval_cases fn <;> exact ⟨rfl, rfl, rfl, rfl, rfl⟩
  · intro a h; fin_cases h <;> exact ⟨rfl, rfl, rfl, by decide, rfl, rfl, rfl, fun _ => rfl, by decide, rfl, rfl, rfl⟩

/-- The operations of Table 66 on the page of function 0, in either mode; set aside: `bkld`, `bkmac`, `bkrd` of a misaligned address in all-bank mode, and `bkmac` beyond
its x entries or its page. -/
theorem witness_BankEffects :
    let s (all : Bool) (o : BankOp) : State := { kindState 0x7B with bankOps := [o], banks := [{ Bank.fresh 0 with allBank := all }] }
    let op (fn : Nat) (dpa : Nat) (b : W32) : BankOp := { bankOp0 fn with dpa := dpa, b := b }
    (∀ all ∈ [true, false], ∀ o ∈ [op 0 0 1, op 1 0 0, op 2 0 0x301, op 3 0 0, op 4 0 3, op 1 32 0, op 2 32 0, op 3 32 0, op 2 0 0x3FC00, op 2 65024 1],
      (s all o).bankOps.find? (fun y => y.id == 9) = some o ∧ (s all o).isSecondary 2 = false ∧ (s all o).bankReady o = true ∧ (s all o).errors = [] ∧ (s all o).softs = [] ∧
      MemoryOk (s all o) ∧ ((s all o).bankOf 0).allBank = all ∧ ((s all o).bankOf 0).x.length = 16 ∧ (∀ k < 16, (((s all o).bankOf 0).x.getD k []).length = 256) ∧
      ((s all o).bankOf 0).acc.length = 16 ∧ (∀ k < 16, (((s all o).bankOf 0).acc.getD k []).length = 64) ∧ o.data.length = 32) ∧
    (∀ dpa ∈ [0, 32, 65024], pseudoChannel dpa = 0) ∧ (∀ v ∈ (kindState 0x7B).teams, v.id = 2 ∧ Memory.wf v.base = true) ∧ 32 % 512 ≠ 0 ∧
    65536 < 65024 % 65536 / 512 * 512 + 512 * (1 % 256 + 1) ∧ 255 < 0x3FC00 / 2 ^ 10 % 256 + 0x3FC00 / 2 ^ 18 % 256 * 15 + 1 := by
  unfold MemoryOk
  decide +kernel

/-- The core's monitors all armed, by lanes of waves that sleep. -/
def busyMonitors (w : Wave) : State := { at_ w with
  grp := none
  waves := w :: (List.range 16).map fun k =>
    { wave with wid := 10 + k, lanes := wave.lanes.map fun l => { l with sleep := some (asleep true false) } } }

theorem witness_MonitorsFull :
    Config.monitors ≤ (busyMonitors (sleeper (asleep false false))).monitorsUsed 0 ∧
    (let s : State := { at_ (sleeper (asleep false false)) with grp := none, errors := [.hbm 0] }
     (s.monitorRead 0 0).2 = none ∧ s.lineHeld 0 = false) ∧
    (let a : Asleep := { asleep false false with rs := true }
     let s : State := { at_ (sleeper a) with grp := none }
     s.wave? 3 = some (sleeper a) ∧ (sleeper a).lanes[0]?.bind (·.sleep) = some a ∧ s.translate 0 (s.vfOf (sleeper a)) 1 0 Need.monitor = .ok (0, 0) ∧ s.lineHeld 0 = false ∧
       ({ s with asids := [] } : State).translate 0 (s.vfOf (sleeper a)) 1 0 Need.monitor = .error Cause.notPresent) := by
  decide +kernel

/-- Function 0 with ring 0 configured: 16 slots at 0x30000, entry 0 published, one ticket out. -/
def ringCfg0 : RingCfg := { rbase := 0x30000, lgs := 4, en := true, queue := 0, ord := 0, cbase := 0x38000, lgc := 4, vector := 0 }
def ring0 (tail : W32) : Ring := { Ring.reset with cfg := some ringCfg0, tail := tail, bits := [0], asid := some 1, notify := true }
def ringState (tail : W32) : State := at_ wave fun s => ({ s with hosts := [((s.vf 0).ld, 1)], asids := s.asids.map fun a => { a with ring := some 0 }, grp := none, waves := [], teams := [], blocks := [], launches := [] } : State).setRing 0 0 (ring0 tail)

def failed (r : Fetched) : Option Nat := match r with | .fail c => some c | _ => none
def fetched (r : Fetched) : Option (List Byte) := match r with | .ok bs => some bs | _ => none

theorem witness_RingEvents :
    ∀ tail ∈ [(1 : W32), 15, 16], let s := ringState tail
      (s.vf 0).en = true ∧ (s.vf 0).st = 1 ∧ (s.ring 0 0).malformed = false ∧ (s.ring 0 0).cfg = some ringCfg0 ∧ ringCfg0.en = true ∧
      ((s.ring 0 0).tail - (s.ring 0 0).head).toNat = tail.toNat ∧ (s.ring 0 0).head ≠ (s.ring 0 0).tail ∧ 0 ∈ (s.ring 0 0).bits ∧
      fetched (s.fetchBytes 0 1 0x30000 64).2 = some (zeros 64) ∧ (s.fetchBytes 0 1 0x30000 64).1.vfs = s.vfs ∧ (s.ring 0 0).notify = true ∧
      (let b := (s.setRing 0 0 { s.ring 0 0 with notify := false }).bindRing 0 0
       (b.readGroups 0 ((b.ring 0 0).asid.getD 0)).isSome = true) ∧
      ((0 : W32) - (s.ring 0 0).head).toNat < ((s.ring 0 0).tail - (s.ring 0 0).head).toNat ∧
      ((s.ring 0 0).tail - (s.ring 0 0).head).toNat ≤ ((s.ring 0 0).tail - (s.ring 0 0).head).toNat := by
  intro tail h
  fin_cases h <;> exact ⟨rfl, rfl, rfl, rfl, rfl, rfl, by decide, by decide, by decide +kernel, by decide +kernel, rfl, by decide +kernel, by decide, by decide⟩

theorem witness_RegisterWrites : let s := ringState 1
    (s.vf 0).en = true ∧ (s.vf 0).st = 1 ∧ (s.vf 1).en = false ∧ 0 < s.vfs.length ∧ 0 < (s.vf 0).rings.length ∧
    (∃ t, exec (.publishWrite 0 0 0xFFFFFFFFFF) s = .next t ∧ t.readRegister (.publish 0 0) = 0xFFFFFFFF) ∧
    ∃ t, exec (.notifyWrite 0 ⟨0, 0x123456789A⟩) s = .next t ∧ t.readRegister (.notify 0 0) = 0x123456789A :=
  ⟨rfl, rfl, rfl, by decide, by decide, ⟨_, rfl, rfl⟩, _, rfl, rfl⟩

/-- A command of ring 0, with its slot's bytes. -/
def cmd0 (bytes : List Byte) (phase : CmdPhase) : Cmd := { vf := 0, ring := 0, seq := 0, bytes := bytes, consumed := 0, phase := phase, flags := 0, ticks := 0 }
def cmdState (bytes : List Byte) (phase : CmdPhase) : State := { ringState 1 with cmds := [cmd0 bytes phase] }
/-- A LAUNCH slot: its record at 0x31000, its prologue's code address. -/
def launchSlot (pro : Nat) : List Byte := 1 :: zeros 7 ++ leBytes 8 0x31000 ++ leBytes 8 pro ++ zeros 40

/-- A launch record that breaks no field, with its view size, grade and policy address. -/
def goodRecord (waves acc grade fpolicy : Nat) : List Byte :=
  leBytes 8 0x20000 ++ [16, 16, BitVec.ofNat 8 waves, 1] ++ leBytes 4 1 ++ leBytes 2 acc ++ [0, BitVec.ofNat 8 grade] ++ leBytes 4 0 ++ leBytes 4 65536 ++ zeros 20 ++
    leBytes 8 fpolicy ++ zeros 264

theorem goodRecord_unbroken : ∀ b ∈ [goodRecord 1 64 0 0, goodRecord 1 64 2 0, goodRecord 1 64 0 0x31000, goodRecord 16 6144 0 0], ¬recordBroken b := by
  intro b hb
  fin_cases hb <;>
  · rintro (h | h | h | h | h | h | h | h | h | h | h | h | h | h | h | h | h | h | ⟨k, h1, h2, h3⟩ | ⟨i, hi, h⟩ | ⟨i, ⟨hi, hd⟩, _⟩ | ⟨i, _, ⟨hi, hd⟩, _⟩ | ⟨i, ⟨hi, hd⟩, _⟩) <;>
    first
    | exact absurd h (by decide +kernel)
    | (interval_cases k <;> exact absurd h3 (by decide +kernel))
    | (interval_cases i <;> exact absurd h (by decide +kernel))
    | (interval_cases i <;> exact absurd hd (by decide +kernel))

/-- A command that may start: NOP, BARRIER, a LAUNCH of a record at 0x31000 with or without a prologue, a LAUNCH of a record that is not mapped. -/
theorem witness_CommandEvents :
    let far : List Byte := 1 :: zeros 7 ++ leBytes 8 (2 ^ 40) ++ zeros 48
    (∀ b ∈ [zeros 64, 2 :: zeros 63, launchSlot 0, launchSlot 0x32000, far], let s := cmdState b .waiting
      s.cmd? 0 0 0 = some (cmd0 b .waiting) ∧ s.mayStart (cmd0 b .waiting) = true ∧ slotMalformed b = false ∧ s.earlierCmds (cmd0 b .waiting) = [] ∧
      s.ringQueue 0 0 = some (0, 0)) ∧
    leAt (zeros 64) 0 1 = 0 ∧ leAt (2 :: zeros 63) 0 1 = 2 ∧ leAt (launchSlot 0) 0 1 = 1 ∧ leAt far 0 1 = 1 ∧ leAt (launchSlot 0) 16 8 = 0 ∧
    leAt (launchSlot 0x32000) 16 8 ≠ 0 ∧
    (let s := cmdState (launchSlot 0) .waiting
     fetched (s.fetchBytes 0 1 0x31000 320).2 = some (zeros 320) ∧ failed (s.fetchBytes 0 1 (2 ^ 40) 320).2 = some Cause.notPresent ∧
       (s.fetchBytes 0 1 0x31000 320).1.launch? (s.fetchBytes 0 1 0x31000 320).1.nextId = none) := by
  refine ⟨?_, rfl, rfl, rfl, rfl, rfl, by decide, by decide +kernel⟩
  intro b h
  fin_cases h <;> exact ⟨rfl, rfl, rfl, rfl, rfl⟩

/-- A launch of a command that runs its prologue, and one that asked for another run. -/
def launch0 (again : Bool) : Launch := { placedLaunch with left := 0, again := again }
/-- A state with a launch, in which function 0's policy allows grade 0. -/
def enterState : State :=
  let s := cmdState (launchSlot 0) (.running 1)
  { s with launches := [launch0 false], vfs := s.vfs.set 0 { s.vf 0 with hpol := 0 } }

theorem witness_LaunchEnters :
    let good := goodRecord 1 64 0 0
    enterState.launch? 1 = some (launch0 false) ∧ failed (enterState.fetchBytes 0 1 (2 ^ 40) 2112).2 = some Cause.notPresent ∧
    recordBroken (zeros 320) ∧ (launchRecOf good).grade = 0 ∧ (launchRecOf (goodRecord 1 64 2 0)).grade = 2 ∧ (launchRecOf good).fpolicy = 0 ∧
    (launchRecOf (goodRecord 1 64 0 0x31000)).fpolicy = 0x31000 ∧ (launchRecOf good).placeable 0 = true ∧ (launchRecOf (goodRecord 16 6144 0 0)).placeable 0 = true ∧
    ({ launchRecOf good with view := 0x1C0000, waves := 16, blocks := 8, width := 64 } : LaunchRec).placeable 0 = false ∧
    min 2 (((enterState.vf 0).hpol.toNat / 64) % 4) = 0 :=
  ⟨rfl, by decide +kernel, Or.inr (Or.inr (Or.inl (by decide))), rfl, rfl, rfl, rfl, by decide +kernel, by decide +kernel, by decide +kernel, by decide⟩

/-- A read of n zero bytes of one page, with nothing in the way, gives them and leaves the state. -/
theorem read_zeros (s : State) (e : Env) (need : Need) (elem p d x va n : Nat) (hp : s.translate e.core e.vf e.asid (p * 65536) need = .ok (d, x))
    (hva : ∀ k < n, (va + k) / 65536 = p) (hw : ∀ k < n, s.copyWaits e false (d + (va + k) % 65536) = false)
    (hc : ∀ a, s.consumeLine a = (s, false)) (hz : ∀ k < n, s.readByte (d + (va + k) % 65536) = 0) :
    ∃ q : Run × List Byte, (Run.start s []).read e need elem va n = q ∧ q.1.s = s ∧ q.1.stop = none ∧ q.2 = List.replicate n 0 := by
  suffices h : ∀ m ≤ n, ∃ q : Run × List Byte, (Run.start s []).read e need elem va m = q ∧ q.1.s = s ∧ q.1.stop = none ∧
      (q.1.memo = none ∨ q.1.memo = some (p, .ok (d, x))) ∧ q.2 = List.replicate m 0 by
    obtain ⟨q, a, b, c, -, f⟩ := h n le_rfl
    exact ⟨q, a, b, c, f⟩
  intro m
  induction m with
  | zero => exact fun _ => ⟨_, rfl, rfl, rfl, .inl rfl, rfl⟩
  | succ m ih =>
    intro hm
    obtain ⟨q, h1, h2, h3, h4, h5⟩ := ih (by omega)
    unfold Run.read at h1 ⊢
    rw [List.range_succ, List.foldl_append, h1]
    have hpg : (q.1.page e need (va + m)).2 = .ok (d + (va + m) % 65536) := by
      rcases h4 with h4 | h4 <;> simp [Run.page, h2, h4, hva m (by omega), hp, Except.map]
    have hs : (q.1.page e need (va + m)).1.s = s := by simp [Run.page, h2]
    have hst : (q.1.page e need (va + m)).1.stop = none := by simp [Run.page, h3]
    have hm2 : (q.1.page e need (va + m)).1.memo = some (p, .ok (d, x)) := by
      rcases h4 with h4 | h4 <;> simp [Run.page, h2, h4, hva m (by omega), hp]
    refine ⟨_, rfl, ?_⟩
    simp [h3, hpg, hs, hw m (by omega), hc, hst, hm2, hz m (by omega), h5, List.replicate_succ']

theorem witness_PolicyFetched :
    ∃ u, enterState.fetchBytes 0 1 0x31000 2112 = (u, .ok (List.replicate 2112 0)) ∧ u.launch? 1 = some (launch0 false) := by
  have hz : ∀ k < 2112, enterState.readByte (0x30000 + (0x31000 + k) % 65536) = 0 := by
    intro k hk
    have h : enterState.mem = placedTables := rfl
    have hc : enterState.cleared = [] := rfl
    have ha : (0x31000 + k) % 65536 = 0x1000 + k := by omega
    simp only [State.readByte, h, hc, ha, placedTables, Cells.get]
    rw [if_neg (by simp), if_neg (by omega), if_neg (by omega), if_neg (by omega), if_neg (by omega), if_neg (by omega), if_neg (by omega), if_neg (by omega)]
  obtain ⟨q, h1, h2, h3, h4⟩ := read_zeros enterState (frontEnv 0 1) Need.fetch 0 3 0x30000 0 0x31000 2112 rfl (fun k hk => by omega)
    (fun k _ => by simp [State.copyWaits, State.filling, State.recalled, State.ownerOf, show enterState.fills = [] from rfl, show enterState.copies = [] from rfl])
    (fun a => by simp [State.consumeLine, show enterState.errors = [] from rfl, show enterState.softs = [] from rfl]) hz
  refine ⟨enterState, ?_, rfl⟩
  simp [State.fetchBytes, h1, h2, h3, h4]
theorem witness_PolicyMalformed : policyMalformed 0x31000 (zeros 2112) = false ∧ policyMalformed 0x31020 (zeros 2112) = true := by decide +kernel

/-- The staging ranges of a slot, none of them present, or one that is not mapped; and a host that takes the prologue. -/
theorem witness_StartsPrologue :
    let s := enterState
    let bad : List Byte := 1 :: zeros 7 ++ leBytes 8 0x31000 ++ leBytes 8 0x32000 ++ leBytes 8 (2 ^ 40) ++ zeros 16 ++ leBytes 2 64 ++ zeros 14
    fetched (s.stageRanges 0 1 (launchSlot 0x32000)).2 = some [] ∧ failed (s.stageRanges 0 1 bad).2 = some Cause.notPresent ∧ (s.part 0).fwm.getLsbD 1 = false ∧
    (({ s with parts := s.parts.set 0 { s.part 0 with fwm := 2 } } : State).part 0).fwm.getLsbD 1 = true := by
  decide +kernel

/-- A prologue that has ended: by its exit with s31, by a fault, by a fetch that failed. -/
def prologueState (ended : Nat) (s31 : W64) : State :=
  let w := prologueWave 3 1 1 0x32000 (zeros 4096)
  { cmdState (launchSlot 0x32000) (.running 1) with
    waves := [{ w with sregs := w.sregs.set 31 s31, prologue := w.prologue.map fun p => { p with ended := some ended } }]
    launches := [launch0 false] }

theorem witness_PrologueEvents :
    (∀ e ∈ [(0, (0 : W64)), (0, 1), (0, 2), (0, 3), (5, 0), (261, 0)], let s := prologueState e.1 e.2
      ∃ w pr, s.waves = [w] ∧ w.prologue = some pr ∧ pr.launch = 1 ∧ pr.ended = some e.1 ∧ s.grp = none ∧ w.sregs.getD 31 0 = e.2 ∧ s.launch? 1 = some (launch0 false) ∧
        s.cmdOf (launch0 false) = some (cmd0 (launchSlot 0x32000) (.running 1))) ∧
    (let s : State := { cmdState (launchSlot 0x32000) (.running 1) with launches := [launch0 true] }
     s.launch? 1 = some (launch0 true) ∧ (launch0 true).status = none ∧ s.launchBusy (launch0 true) = false ∧
       s.cmdOf (launch0 true) = some (cmd0 (launchSlot 0x32000) (.running 1))) := by
  refine ⟨?_, rfl, rfl, rfl, rfl⟩
  intro e h
  fin_cases h <;> exact ⟨_, _, rfl, rfl, rfl, rfl, rfl, rfl, rfl, rfl⟩

/-- Commands that complete: finished, unreadable, with a launch that has ended; their record's place is mapped, or not. -/
theorem witness_Reports :
    (∀ p ∈ [CmdPhase.finished 0 0 0, .unreadable 1, .running 1], let s : State := { cmdState (zeros 64) p with launches := [launch0 false] }
      s.cmd? 0 0 0 = some (cmd0 (zeros 64) p) ∧ s.inTurn (cmd0 (zeros 64) p) = true ∧ s.errors = [] ∧ s.softs = [] ∧ MemoryOk s ∧ (s.vf 0).en = true ∧
      s.launch? 1 = some (launch0 false) ∧ s.launchBusy (launch0 false) = false ∧ s.remotes = [] ∧ s.bankOps = [] ∧
      s.translate Config.cores 0 1 (ringCfg0.cbase + 32 * 0) Need.completion = .ok (0x38000, 0) ∧ s.lineHeld 0x38000 = false ∧ (s.ring 0 0).ctail = 0) ∧
    (cmdState (zeros 64) (.unreadable 1)).mayStart (cmd0 (zeros 64) (.unreadable 1)) = true ∧
    (let s : State := { cmdState (zeros 64) (.finished 0 0 0) with asids := [] }
     s.translate Config.cores 0 1 (ringCfg0.cbase + 32 * 0) Need.completion = .error Cause.notPresent) ∧
    (∃ p, ({ cmdState (zeros 64) (.finished 0 0 0) with pages := [(3, 0)] } : State).pageOwner 3 = some p) ∧ 0x38000 % 32 = 0 ∧ 0x38000 / 65536 = 3 := by
  refine ⟨?_, rfl, by decide +kernel, ⟨0, rfl⟩, rfl, rfl⟩
  unfold MemoryOk
  decide +kernel

/-- The placed state with a task waiting in queue 0 of partition 0, its pair free. -/
def task0 : Task := { id := 9, part := 0, queue := 0, prio := 0, order := 0, kind := .team 1 0, waited := 65536, aff := none, blocks := false, anyPair := false, relaunches := 0 }
def queueState : State := at_ wave fun s =>
  { s with grp := none, waves := [], teams := [], blocks := [], tasks := [task0], parts := s.parts.set 0 { s.part 0 with qen := BitVec.allOnes 64 } }
/-- The placed team in a phase, its waves not selected. -/
def phased (p : TeamPhase) (budget : Option Nat) : State :=
  at_ wave fun s => teams (fun t => { t with phase := p, budget := budget, part := 1 }) { s with grp := none, waves := [] }

theorem witness_SchedulingEvents :
    ((queueState.dispatch 0).tasks ≠ queueState.tasks) ∧
    ((phased .staging none).copies = [] ∧ ∀ t ∈ (phased .staging none).teams, (phased .staging none).team? t.id = some t ∧ t.phase = .staging ∧
      (phased .staging none).launch? t.launch = some placedLaunch) ∧
    (∀ p ∈ [TeamPhase.running, .ending, .staging], ∀ t ∈ (phased p (some 0)).teams, t.phase = p ∧ t.budget = some 0 ∧ t.secondary = false) ∧
    (∀ t ∈ (phased .draining none).teams, t.phase = .draining ∧ t.pairUp = [2] ∧ (phased .draining none).drained 2 = true ∧ (phased .draining none).errors = []) ∧
    (∀ t ∈ (phased (.evicted true) none).teams, t.phase = .evicted true ∧ t.part ≠ 0 ∧ ((phased (.evicted true) none).part 0).owner = t.vf) ∧
    (phased (.evicted true) none).records = [] ∧
    (let l : Launch := { placedLaunch with deadline := some 0 }
     let s := at_ wave fun s => { s with launches := [l] }
     s.launch? 1 = some l ∧ 0 ≤ s.qclock 0 0 ∧ l.left ≠ 0 ∧ l.handler = none ∧
     ((s.killLaunch 1 6).updLaunch 1 fun l => { l with deadline := none }).wantsNotice 1 Cause.deadline = false) ∧
    ((∃ b ∈ (kindState 0xBB).cellBlocks, b.page = 0) ∧ (∀ t ∈ (kindState 0xBB).teams, t.applyQ = []) ∧ (kindState 0xBB).errors = [] ∧ (kindState 0xBB).softs = []) ∧
    (let e : State := { kindState 0xBB with errors := [.bank (pseudoChannel 0) 5, .cell 64], pages := [(0, 0)] }
     StoreLoc.bank (pseudoChannel 0) 5 ∈ e.errors ∧ StoreLoc.cell (0 * 65536 + 64 * 1) ∈ e.errors ∧ ∃ x ∈ e.teams, some x.part = e.pageOwner 0) := by
  refine ⟨by decide, by decide, by decide, by decide, by decide, rfl, ⟨rfl, by decide, by decide, rfl, rfl⟩, by decide, by decide⟩

/-- An evicted team of partition 1 with a PARKED record there, which moves to the pool of partition 0. -/
theorem witness_RecordMoves :
    let r : Record := { record0 with part := 1, state := .parked }
    let s : State := { phased (.evicted true) none with records := [r], parts := (at_ wave).parts.set 0 { (at_ wave).part 0 with pool := some (0, 2) } }
    (∀ t ∈ s.teams, s.team? t.id = some t ∧ t.phase = .evicted true ∧ t.part = 1 ∧ (s.part 0).owner = t.vf ∧ t.pairUp = [2]) ∧ r.team = 2 ∧ r.kind ≠ .notice ∧ r.state ≠ .killed ∧
    r.state ≠ .claimed ∧ r.state ≠ .resuming ∧ r.part ≠ 0 ∧ (s.records.map (·.id)).Nodup ∧ (s.moveRecord 0 7).isSome = true := by
  decide +kernel

/-- The placed state with nothing selected and partition 0 leaving its cores. -/
def leavingState : State := { queueState with parts := queueState.parts.set 0 { queueState.part 0 with leaving := true } }

theorem witness_DispatchAndEviction :
    ((queueState.dispatch 0).noteResident 0 ≠ queueState ∧ (queueState.part 0).leaving = false ∧ queueState.waiting 0 = [task0] ∧ task0.part = 0 ∧
      task0.kind = .team 1 0 ∧ queueState.launch? 1 = some placedLaunch ∧ placedLaunch.rcd.grade ≠ 2 ∧ task0.aff = none ∧ 0 ∈ pairsOf 0 ∧
      queueState.fitsOn placedLaunch.rcd.needOn 0 = true) ∧
    (leavingState.part 0).leaving = true ∧
    (0 < queueState.parts.length ∧ ∀ p ∈ [TeamPhase.running, .ending, .staging], let s : State := phased p none
      ∀ t ∈ s.teams, s.team? t.id = some t ∧ t.part = 1 ∧ t.secondary = false ∧ t.phase = p) ∧
    (∀ t ∈ (phased .draining none).teams, (phased .draining none).wantsNotice t.launch Cause.preempt = false) ∧
    (policyState (some (0, 2)) 1).wantsNotice 1 Cause.preempt = true := by
  refine ⟨⟨by decide +kernel, rfl, rfl, rfl, rfl, rfl, by decide, rfl, by decide, by decide +kernel⟩, rfl, ⟨by decide, ?_⟩, by decide, rfl⟩
  intro p h
  fin_cases h <;> decide

theorem witness_PartitionAndHostEvents :
    let s : State := { at_ wave with cleared := [7], pages := [(5, 0)], hosts := [(((at_ wave).vf 0).ld, 3)] }
    let last := (Config.deviceBytes - 65536) / 65536
    last * 65536 < Config.deviceBytes ∧ s.pageBusy last = false ∧ s.hosted 0 = true ∧ ({ s with hosts := [] } : State).hosted 0 = false ∧ s.pageOwner 6 ≠ some 3 ∧ s.pageGone 6 = false ∧ 7 ∈ s.cleared ∧ s.ownPage 0 5 = true ∧ s.cellBlocks = [] ∧
    0 < Config.cellBlocks ∧ (∀ e ∈ s.hosts, e.2 = 4 → e.1 = 1) ∧ (∃ e ∈ s.hosts, e.2 = 3 ∧ e.1 ≠ 1) ∧ 1 < Config.logicalDevices ∧
    (∀ k ∈ [0, 65535], s.hostPage 0 (5 * 65536 + k) = true ∧ s.lineHeld (5 * 65536 + k) = false ∧ s.filling (5 * 65536 + k) = false) ∧ s.memSide 5 = false ∧
    s.errors = [] ∧ s.softs = [] ∧ s.banks = [] ∧ s.hostPage 0 (6 * 65536) = false ∧
    (let held : State := { s with copies := [{ copy0 .outward 0x100 with segs := [.gathered [] false], lines := [5 * 1024] }] }
     held.hostPage 0 (5 * 65536) = true ∧ held.lineHeld (5 * 65536) = true) ∧
    (let near : State := { s with banks := [{ Bank.fresh 0 with pages := [5] }] }
     near.hostPage 0 (5 * 65536) = true ∧ near.filling (5 * 65536) = false ∧ near.memSide 5 = true) := by
  refine ⟨by decide, by decide, by decide, by decide, by decide, by decide, by decide, rfl, rfl, by decide, by decide, by decide, by decide, by decide, by decide, rfl, rfl, rfl, by decide, by decide, by decide⟩

theorem witness_OwnersAndFunctions :
    let s : State := { at_ wave with pages := [(5, 0)] }
    let busy : State := { s with parts := s.parts.set 0 { s.part 0 with busy := true } }
    let resetting : State := { s with vfs := s.vfs.set 5 { s.vf 5 with st := 2 } }
    let off : State := { busy with vfs := s.vfs.set 0 { s.vf 0 with en := false } }
    let quiet : State := { s with grp := none, waves := [], blocks := [], teams := [], launches := [] }
    Sized s ∧ Sized busy ∧ (s.part 0).owner = 0 ∧ (s.part 0).busy = false ∧ (busy.part 0).busy = true ∧ (s.part 1).owner = 0x7F ∧ (s.part 1).busy = false ∧
    (s.vf 5).st < 2 ∧ (s.vf 0).st < 2 ∧ 2 ≤ (resetting.vf 5).st ∧ (resetting.part 0).busy = false ∧ (s.vf 0).en = true ∧ (s.vf 1).en = false ∧
    (∀ p < 20, (s.part p).owner = 1 → (s.part p).busy = false) ∧ Sized off ∧ (off.vf 0).en = false ∧ (off.part 0).owner = 0 ∧ (off.part 0).busy = true ∧
    (quiet.launches = [] ∧ quiet.teams = [] ∧ quiet.doms = [] ∧ quiet.records = [] ∧ quiet.remotes = [] ∧ quiet.bankOps = [] ∧ (5, 0) ∈ quiet.pages ∧ quiet.bankPage 5 = false) ∧
    (let c : State := { s with copies := [{ copy0 .outward 0x100 with lines := [5 * 1024] }] }
     c.pageBusy 5 = true) ∧
    (let full : State := { s with pages := [(1, 0)], cellBlocks := List.replicate Config.cellBlocks { page := 0, cells := [] } }
     full.ownPage 0 1 = true ∧ (∀ b ∈ full.cellBlocks, b.page ≠ 1) ∧ Config.cellBlocks ≤ (full.cellBlocks.filter fun b => pageStack b.page == pageStack 1).length) := by
  refine ⟨by unfold Sized; decide, by unfold Sized; decide, rfl, rfl, rfl, rfl, rfl, by decide, by decide, by decide, rfl, rfl, rfl, by decide,
    by unfold Sized; decide, rfl, rfl, rfl, ⟨rfl, rfl, rfl, rfl, rfl, rfl, by decide, by decide⟩, by decide, rfl, by simp, by decide +kernel⟩

/-- A wave that waits for a record since clock 0, and the records and tasks the other events act on. -/
def pend : Pending := { cause := 1, done := false, faddr := 0x20000, amask := 1, laneFlags := [], codes := [] }
def poolWave : Wave := { wave with status := .waitsForPool pend 0 }
def poolState : State := { policyState (some (0, 2)) 1 poolWave with grp := none, poolWait := [(3, 0)] }
def dom0 : Dom := { core := 0, slot := 0, part := 0, vf := 0, asid := 1, record := 7, holds := [7], serving := 0, queue := 0, budget := none }
def spokeReq0 : SpokeReq :=
  { id := 9, link := 0, wid := 3, lanes := [0], dst := some 2, pair := true, next := 0x20004, first := 0x20000, amask := 1, value := none, handle := 0 }
def post0 : RemotePost :=
  { vf := 0, pord := 0, queue := 0, link := 0, group := 4, handle := 0, handler := 0, deadline := 0, budget := 0, prio := 0, depth := 0, arg := 0 }
/-- Function 0 with communication group 4 admitted, its policy enabling some links, and an ASID for its command ring. -/
def groupState (links : Nat) (asid : Option Nat) : State := { at_ wave with
  asids := (at_ wave).asids.map fun a => { a with ring := some 0 }
  vfs := (at_ wave).vfs.set 0 { (at_ wave).vf 0 with groups := [4], hpol := BitVec.ofNat 64 (links * 2 ^ 16), rings := [{ Ring.reset with asid := asid }] } }

theorem witness_RecordEvents :
    (poolState.poolWait = [(3, 0)] ∧ (poolState.waitingUnit (3, 0)).isSome = true ∧ ((poolState.waitingUnit (3, 0)).map fun y => (poolState.unitOf y).part) = some 0 ∧
      ((poolState.waitingUnit (3, 0)).bind poolState.grant).isSome = true ∧ ((poolState.waitingUnit (3, 0)).map poolState.waitOver) = some true ∧
      poolState.isPlaced 2 = true) ∧
    (recordState.record? 7 = some record0 ∧ record0.state = .claimed ∧ record0.deadline ≤ recordState.qclock record0.part record0.clock) ∧
    (∀ k ∈ [RecKind.segment, .matrix], let r : Record := { record0 with kind := k, state := .resuming }
      let s : State := { recordState with records := [r] }
      s.record? 7 = some r ∧ r.kind ≠ .wave ∧ s.isPlaced 2 = true) := by
  refine ⟨⟨rfl, rfl, rfl, rfl, rfl, rfl⟩, ⟨rfl, rfl, by decide⟩, ?_⟩
  intro k h
  fin_cases h <;> exact ⟨rfl, by decide, rfl⟩

/-- A record whose handler has resumed its wave. -/
def resumed : State := { recordState { wave with status := .parked 7 } with records := [{ record0 with state := .resuming }] }

/-- A wave, an operation and a segment that wait for a record, with room and without a deadline left. -/
theorem witness_PoolWaits :
    let op : MmaOp := matrixOp (.waitsForPool 1 0)
    let cp : Copy := { copy0 .outward 0x100 with segs := [.waitsForPool pend 0 (zeros 64) none [] 0] }
    let base : State := { policyState (some (0, 2)) 1 with grp := none, poolWait := [(9, 0)] }
    let ops : State := { base with mmas := [op] }
    let segs : State := { base with copies := [cp] }
    let room (s : State) (u : UnitAt) (cause : Nat) : Prop := s.isPlaced u.team = true ∧ s.recordDepth u.team u.part = some (0, 0xFFFFFFFF) ∧
      s.freeExtent u.part 0 (u.kind == .wave) = some (0, 0) ∧ s.lostExtent u.part (0, 0) = false ∧ s.polEntry u.launch cause = some (policyEntry 1) ∧ (s.part u.part).fwm = 0 ∧
      s.records = [] ∧ 0 ≤ s.qclock u.part (s.entryQueue u.launch cause)
    (poolState.poolWait = [(3, 0)] ∧ poolState.wave? 3 = some poolWave ∧ poolWave.status = .waitsForPool pend 0 ∧ poolState.errors = [] ∧
      room poolState (poolState.waveUnit poolWave) 1) ∧
    (ops.wave? 9 = none ∧ ops.mma? 9 = some op ∧ op.phase = .waitsForPool 1 0 ∧ room ops (ops.mmaUnit op) 1) ∧
    (segs.wave? 9 = none ∧ segs.mma? 9 = none ∧ segs.copy? 9 = some cp ∧ cp.segs[0]? = some (.waitsForPool pend 0 (zeros 64) none [] 0) ∧ room segs (segs.segUnit cp 0) 1) :=
  ⟨⟨rfl, rfl, rfl, rfl, rfl, rfl, rfl, rfl, rfl, rfl, rfl, by decide⟩, ⟨rfl, rfl, rfl, rfl, rfl, rfl, rfl, rfl, rfl, rfl, by decide⟩,
    rfl, rfl, rfl, rfl, rfl, rfl, rfl, rfl, rfl, rfl, rfl, by decide⟩

/-- A claimed record of each kind whose deadline has come, with either expiry, held or held by none. -/
theorem witness_RecordExpiry :
    ∀ k ∈ [RecKind.wave, .segment, .matrix, .notice], ∀ x ∈ [0, 1], ∀ b ∈ [RecState.parked, .claimed], let r : Record := { record0 with kind := k, expiry := x, state := b }
      let s : State := { recordState with records := [r], nextId := 8 }
      let free : State := { (at_ wave) with records := [r], nextId := 8 }
      s.record? 7 = some r ∧ free.record? 7 = some r ∧ r.deadline ≤ s.qclock r.part r.clock ∧ r.id < s.nextId ∧ (∃ t ∈ s.teams, 7 ∈ t.holds) ∧ r.peer = false ∧
      (∀ t ∈ free.teams, 7 ∉ t.holds) ∧ free.doms = [] := by
  decide +kernel

/-- A resumed wave whose lanes are live, or that a handler left without one; a resumed segment and a resumed operation. -/
theorem witness_WaveRebuilds :
    let body (p : Byte) : List Byte := patchBytes (patchBytes (zeros 2560) 312 [16]) 320 [p, p]
    let r (p : Byte) : Record := { record0 with state := .resuming, body := body p, pan := [] }
    let wv (p : Byte) : State := { resumed with records := [r p], nextId := 8 }
    ∀ p ∈ [(0xFF : Byte), 0], (wv p).record? 7 = some (r p) ∧ (wv p).wave? 3 = some { wave with status := .parked 7 } ∧ (r p).team = 2 ∧ (r p).unit = 3 ∧
      (∀ t ∈ (wv p).teams, t.id = 2 ∧ t.phase = .running ∧ t.secondary = false) ∧ wave.team = 2 ∧ wave.lanes.length = 16 ∧ wave.width = 16 ∧ leAt (r p).body 312 1 = 16 ∧
      ((wv p).coreUse 0).regs + 4 * wave.width * wave.nregs ≤ Config.regFileBytes ∧ (wv p).recordBad (r p) = false ∧ (wv p).errors = [] ∧ (wv p).softs = [] ∧ 7 < (wv p).nextId ∧
      leAt (r p).body 320 8 = p.toNat * 257 ∧ (wv p).accessOut 3 = false := by
  intro body r wv p hp
  fin_cases hp <;> exact ⟨rfl, rfl, rfl, rfl, by decide, rfl, rfl, rfl, by decide +kernel, by decide +kernel, by decide +kernel, rfl, rfl, by decide, by decide +kernel, rfl⟩

theorem witness_UnitsResumed :
    let cp : Copy := { copy0 .outward 0x100 with segs := [.parked 7 0 []] }
    let unit (k : RecKind) (d : Nat) : Record := { record0 with kind := k, state := .resuming, unit := 9, disp := d }
    (∀ d ∈ [1, 2, 3], let s : State := { resumed with records := [unit .segment d], copies := [cp] }
      s.record? 7 = some (unit .segment d) ∧ s.copy? 9 = some cp ∧ cp.recs ≠ none ∧ cp.segs[0]? = some (.parked 7 0 [])) ∧
    (let s : State := { resumed with records := [unit .matrix 1], mmas := [matrixOp (.parked 7)] }
     s.record? 7 = some (unit .matrix 1) ∧ (s.mma? 9).isSome = true ∧ ∃ t ∈ s.teams, t.phase = .running) := by
  decide +kernel

theorem witness_DomestiqueRegisters :
    let s : State := { recordState with doms := [dom0] }
    let d : Dom := { dom0 with remotes := [0x80000001] }
    let far : State := { recordState with doms := [d] }
    s.dom? 0 = some dom0 ∧ far.dom? 0 = some d ∧ s.ksReqs = [] ∧ far.ksReqs = [] ∧ s.errors = [] ∧ far.errors = [] ∧
    dom0.away 0 = false ∧ s.heldRec (.dom 0) 0 0 = some record0 ∧ s.offsetOk record0 0xF8 = true ∧ s.badRead record0 0xF8 = false ∧ s.errors.any (s.localWord record0 0xF8) = false ∧ s.offsetOk record0 0x100 = true ∧
    s.writeFault record0 0x100 = none ∧ s.heldRec (.dom 0) 0 1 = none ∧ s.domStops { dom0 with budget := some 0 } = true ∧ dom0.record ∈ dom0.holds ∧
    ({ dom0 with holds := [] } : Dom).record ∉ ({ dom0 with holds := [] } : Dom).holds ∧
    d.away 0x80000001 = true ∧ placeOk 0xF8 false = true ∧ placeOk 0x100 true = true :=
  ⟨rfl, rfl, rfl, rfl, rfl, rfl, rfl, rfl, rfl, by decide +kernel, by decide +kernel, rfl, rfl, rfl, by simp [State.domStops], by decide, by decide, rfl, rfl, rfl⟩

theorem witness_LinkEvents :
    (let s : State := { policyState (some (0, 2)) 1 with spokeReqs := [spokeReq0] }
     s.spokeReqs.find? (fun z => z.id == 9 && z.value.isNone) = some spokeReq0 ∧ s.wave? 3 = some wave) ∧
    (∀ link < 12, (((groupState 0xFFF none).vf 0).en = true ∧ 4 ∈ ((groupState 0xFFF none).vf 0).groups ∧ (groupState 0xFFF none).linkOpen 0 link = true) ∧
      ∀ x < 96, ¬(4 ∈ ((groupState 0 none).vf x).groups ∧ (groupState 0 none).linkOpen x link = true)) ∧
    (let s := groupState 1 (some 1)
     post0.authentic = true ∧ post0.group ∈ (s.vf post0.vf).groups ∧ s.linkOpen 0 0 = true ∧ s.ringBound 0 0 = true ∧ s.partOfOrd 0 0 = some 0 ∧ s.partOfOrd 0 1 = none ∧
      (∀ e ∈ s.remoteDue, e.1 ≠ remoteForm 0 0) ∧
      (let again : State := { s with remoteDue := [(remoteForm 0 0, 77)] }
       again.remoteDue.find? (fun e => e.1 == remoteForm 0 0) = some (remoteForm 0 0, 77))) ∧
    ((groupState 0 (some 1)).linkOpen 0 0 = false ∧ (groupState 1 none).ringBound 0 0 = false ∧ post0.group ∈ ((groupState 0 (some 1)).vf 0).groups) ∧
    post0.group ∉ ((at_ wave).vf 0).groups := by
  refine ⟨⟨rfl, rfl⟩, by decide, ⟨rfl, by decide, rfl, by decide, rfl, rfl, by decide, rfl⟩, ⟨rfl, rfl, by decide⟩, by decide⟩

theorem witness_LinkTimeouts :
    (let o : RemoteOp := { remote0 0 1 0 with addr := BitVec.ofNat 64 (5 * 2 ^ 57) }
     let w : Wave := { wave with wait := .replies 1 0x20000 }
     let s : State := { at_ w with grp := none, remotes := [o] }
     s.spokeReqs = [] ∧ s.remotes.find? (fun z => z.id == 9 && z.dst.isSome && decide (z.fn ≤ 4) && bits z.addr.toNat 57 3 == 5) = some o ∧ s.wave? 3 = some w ∧
       w.wait = .replies 1 0x20000) ∧
    (let c := copy0 .outward 0x100
     let s : State := { handleState with copies := [c] }
     s.spokeReqs = [] ∧ s.remotes = [] ∧ s.copy? 9 = some c ∧
       (List.range c.segs.length).find? (fun j => s.inFlight c j && (c.segs.getD j .done).resume.isSome) = some 0 ∧ (c.segs.getD 0 .done).resume = some (0, [], none)) :=
  ⟨⟨rfl, rfl, rfl, rfl⟩, rfl, rfl, rfl, rfl, rfl⟩

theorem witness_WaveRebuild : (resumed.record? 7).isSome = true ∧ resumed.accessOut 3 = false ∧ (∀ r ∈ resumed.records, resumed.recordBad r = false) ∧ (∀ t ∈ resumed.teams, t.phase = .running) ∧ (resumed.rebuildWave 7).records = [] := by
  decide +kernel

/-- The part at a step of power-up, with its ports in or out of reset. -/
def power (p : PowerPhase) (ports : List Bool) (clock : Nat) : State :=
  { State.reset with power := { Power.reset with phase := p, ports := ports, clock := clock } }

theorem witness_PowerAndErrorEvents :
    let hbm := StoreLoc.hbm 0
    let s : State := { State.reset with softs := [hbm] }
    (hbm ∉ State.reset.softs ∧ hbm ∉ State.reset.errors) ∧ (lineOf (.spad 1 0) = none ∧ StoreLoc.spad 1 0 ∉ State.reset.errors ∧ ∀ a, StoreLoc.spad 1 0 ≠ .spare a) ∧
    ((∀ a, StoreLoc.l2 64 ≠ .hbm a) ∧ (∀ a, StoreLoc.l2 64 ≠ .spare a) ∧ State.reset.isFilling 0 = false ∧ lineOf (.hbm 64) = some 1 ∧ lineOf (.l2 64) = some 1 ∧
      StoreLoc.l2 64 ∉ State.reset.errors ∧ 1 ∉ State.reset.mismatch) ∧ (hbm ∈ s.softs ∧ hbm ∉ s.errors ∧ (s.repair hbm).errors = s.errors) ∧
    (let e : State := { State.reset with errors := [hbm] }
     hbm ∉ e.softs ∧ hbm ∈ e.errors ∧ StoreLoc.spad 1 0 ∈ ({ e with errors := [.spad 1 0] } : State).errors) ∧
    (let f : State := { State.reset with fills := [5] }
     f.isFilling 5 = true ∧ f.sparesUsed.getD (pageStack 5) 0 < Config.spares ∧ 5 ∉ f.spared ∧ pageStack 5 < f.sparesUsed.length) ∧
    (∀ p ∈ [PowerPhase.off, .step 1, .step 2, .step 3, .step 4, .step 6, .step 7, .running], (power p [true, true] 30).power.phase = p ∧ (power p [true, true] 30).agenda = []) ∧
    (∀ b ∈ [true, false], ({ (power (.step 4) [true, false] 30) with power := { (power (.step 4) [true, false] 30).power with hbm := b } } : State).power.hbm = b) ∧
    ((power (.step 4) [true, true] 30).power.ports = (power (.step 4) [true, true] 30).power.perst.map not ∧
      (power (.step 4) [false, false] 30).power.ports ≠ (power (.step 4) [false, false] 30).power.perst.map not ∧
      ∀ x ∈ [none, some [(0 : Byte)]], ({ (power (.step 6) [true, true] 30).power with image := x } : Power).image = x) ∧
    (true ∈ (power (.step 4) [true, false] 30).power.ports ∧ true ∉ (power (.step 4) [false, false] 30).power.ports) ∧
    (true ∉ (power (.step 6) [true, false] 30).power.ports.set 0 false ∧ true ∈ (power (.step 6) [true, true] 30).power.ports.set 0 false) ∧
    (let c : Copy := { copy0 .outward 0x100 with lines := [4] }
     let h : State := { handleState with copies := [c] }
     StoreLoc.pending 9 0x100 ∉ h.errors ∧ h.mismatch = [] ∧ h.isFilling 0 = false ∧
       ((h.copy? 9).any fun x => x.pendingOut && x.stored && x.lines.contains (0x100 / 64)) = true ∧ ((h.copy? 9).any fun x => x.pendingOut && x.stored && x.lines.contains 9) = false) ∧
    (∀ image, imageVerifies image = true ∨ imageVerifies image = false) ∧
    (∀ k ∈ [15, 16, 29, 30], ClockLawful (power .running [true, true] k)) ∧
    ({ State.reset with assist := [.log []] } : State).assist = [.log []] ∧
    (let r : Record := { record0 with state := .parked }
     let a : State := { recordState with records := [r], assist := [.fault 7] }
     a.record? 7 = some r ∧ AssistReq.fault r.id ∈ a.assist ∧ r.part = 0 ∧ r.state = .parked) := by
  refine ⟨by decide, ⟨by decide, by decide, by simp⟩, ⟨by simp, by simp, by decide⟩, ⟨by decide, by decide, rfl⟩, by decide, by decide, by decide, by decide, by decide, by decide, by decide, by decide, ?_, ?_, rfl, by decide⟩
  · intro image; cases imageVerifies image <;> simp
  · intro k h; unfold ClockLawful; fin_cases h <;> decide

theorem witness_BadWordsDetach :
    let slot : IWord := 0b111101_0101_00000000_0000000_0000000#32
    let stopsWith (r : Except Nat IWord) : Nat := match r with | .ok _ => 0 | .error c => c
    (∀ w ∈ [wave, { wave with sup := true }, proWave], (at_ w).grp = some grp ∧ (at_ w).wave? 3 = some w) ∧
    (wave.prologue = none ∧ wave.sup = false ∧ proWave.prologue ≠ none) ∧
    (slot.toNat / 2 ^ 26 = 0x3D ∧ slot.toNat / 2 ^ 22 % 16 ≤ 5 ∧ hintsOk (slotSig slot) grp = true ∧ hintsOk (slotSig slot) { grp with wides := [0] } = false) ∧
    (let x : IWord := 0b111000_0010_00000000_01000000000000#32
     x.toNat / 2 ^ 26 = 0x38 ∧ x.toNat / 2 ^ 22 % 16 ≤ 2 ∧ 0x1000 ≤ x.toNat % 2 ^ 14) ∧ ((0 : IWord).toNat / 2 ^ 26 ≠ 0x3D ∧ (0 : IWord).toNat / 2 ^ 26 ≠ 0x38) ∧
    (∀ w ∈ [wave, proWave],
      (let s : State := { at_ w with asids := [] }
       stopsWith (s.fetch w (s.waveVf w) 0x20000) = Cause.notPresent ∧ stopsWith ((s.translate 0 (s.waveVf w) 1 0x20000 w.fetchNeed).map fun _ => 0) = Cause.notPresent) ∧
      (∀ e ∈ [([], Cause.ecc), ([0x800], Cause.checkValue)],
        let s : State := { at_ w with errors := [.hbm 0x20000], mismatch := e.1 }
        stopsWith (s.fetch w (s.waveVf w) 0x20000) = e.2 ∧ s.translate 0 (s.waveVf w) 1 0x20000 w.fetchNeed = .ok (0x20000, 0) ∧ (s.consumeLine 0x20000).2 = true) ∧
      (at_ w).fetch w ((at_ w).waveVf w) 0x20000 = .ok 0 ∧ (at_ w).errors = [] ∧ (at_ w).softs = []) := by
  refine ⟨by decide, ⟨rfl, rfl, by decide⟩, by decide, by decide, by decide, ?_⟩
  intro w h
  fin_cases h <;> exact ⟨by decide, by decide, rfl, rfl, rfl⟩

/-! #### The machine -/

theorem witness_DecodeOfEncode : encode (.addB32 0 1 2 3) = some 0b000001_0000_0_0000001_0000010_0000011#32 := by decide

theorem witness_EncodeOfDecode : decodeWord 0b000001_0000_0_0000001_0000010_0000011#32 = .ok (.addB32 0 1 2 3) := by decide

theorem witness_StepRunsDecoded :
    let s := State.reset.withFetchWord 32 0b000001_0000_0_0000001_0000010_0000011
    s.agenda = [] ∧ s.power.phase = .running ∧ s.grp = some grp ∧ s.wave? 3 = some wave ∧ wave.outside grp.at_ = false ∧
    s.fetchWaits wave (s.waveVf wave) grp.at_ = false ∧
    s.fetch wave (s.waveVf wave) grp.at_ = .ok 0b000001_0000_0_0000001_0000010_0000011#32 ∧
    (State.reset.withFetchWord 32 0).fetch wave ((State.reset.withFetchWord 32 0).waveVf wave) grp.at_ = .ok 0 ∧
    ({ s with agenda := [Instr.thermalRecover] } : State).agenda = [Instr.thermalRecover] ∧ s.happens .thermalRecover = true ∧
    (power .off [false, false] 30).happens .thermalRecover = false :=
  ⟨rfl, rfl, rfl, rfl, rfl, rfl, rfl, rfl, rfl, rfl, rfl⟩

theorem witness_StepKeepsClock : ClockLawful (State.reset.withFetchWord 32 0) ∧ Sized (State.reset.withFetchWord 32 0) ∧ ∃ t, Machine.step (State.reset.withFetchWord 32 0) = .next t :=
  ⟨by unfold ClockLawful; decide, by unfold Sized; decide, _, rfl⟩

theorem witness_StepKeepsMemoryForm : MemoryOk (State.reset.withFetchWord 32 0xFFFFFFFF) ∧ ∃ t, Machine.step (State.reset.withFetchWord 32 0xFFFFFFFF) = .next t :=
  ⟨by unfold MemoryOk; decide, _, rfl⟩

/-! ### Decoding: a word for every instruction, its fields written out from Tables 8 to 13 and the tables of its family -/

theorem test_decode_major01 : ∀ e ∈ ([(0b000001_0000_0_0001000_0001110_0100110#32, .addB32 0 8 14 38),
    (0b000001_0001_1_0001100_0010010_0101010#32, .subB32 1 12 18 42),
    (0b000001_0010_0_0010000_0010110_0101110#32, .addsS32 0 16 22 46),
    (0b000001_0011_1_0010100_0011010_0110010#32, .subsS32 1 20 26 50),
    (0b000001_0100_0_0011000_0011110_0110110#32, .minS32 0 24 30 54),
    (0b000001_0101_1_0011100_0100010_0111010#32, .minZ32 1 28 34 58),
    (0b000001_0110_0_0100000_0100110_0111110#32, .maxS32 0 32 38 62),
    (0b000001_0111_1_0100100_0101010_1000010#32, .maxZ32 1 36 42 66)] : List (IWord × Instr)), decodeWord e.1 = .ok e.2 := by decide

theorem test_decode_major02 : ∀ e ∈ ([(0b000010_0000_0_0101000_0101110_1000110#32, .mulB32 0 40 46 70),
    (0b000010_0001_1_0101100_0110010_1001010#32, .mulhiS32 1 44 50 74),
    (0b000010_0010_0_0110000_0110110_1001110#32, .mulhiZ32 0 48 54 78),
    (0b000010_0011_1_0110100_0111010_1010010#32, .divS32 1 52 58 82),
    (0b000010_0100_0_0111000_0111110_1010110#32, .divZ32 0 56 62 86),
    (0b000010_0101_1_0111100_1000010_1011010#32, .remS32 1 60 66 90),
    (0b000010_0110_0_1000000_1000110_1011110#32, .remZ32 0 64 70 94)] : List (IWord × Instr)), decodeWord e.1 = .ok e.2 := by decide

theorem test_decode_major03 : ∀ e ∈ ([(0b000011_0000_1_1000100_1001010_1100010#32, .andB32 1 68 74 98),
    (0b000011_0001_0_1001000_1001110_1100110#32, .orB32 0 72 78 102),
    (0b000011_0010_1_1001100_1010010_1101010#32, .xorB32 1 76 82 106),
    (0b000011_0011_0_1010000_1010110_1101110#32, .shlB32 0 80 86 110),
    (0b000011_0100_1_1010100_1011010_1110010#32, .shrZ32 1 84 90 114),
    (0b000011_0101_0_1011000_1011110_1110110#32, .shrS32 0 88 94 118),
    (0b000011_0110_1_1011100_1100010_1111100#32, .popcB32 1 92 98),
    (0b000011_0111_0_1011110_1100110_1111100#32, .clzB32 0 94 102)] : List (IWord × Instr)), decodeWord e.1 = .ok e.2 := by decide

theorem test_decode_major04 : ∀ e ∈ ([(0b000100_0000_0_1100010_1101000_1100010#32, .addB32Imm 0 98 104 98),
    (0b000100_0001_1_1100110_1101100_0100010#32, .andB32Imm 1 102 108 34),
    (0b000100_0010_0_1101010_1110000_1001010#32, .shlB32Imm 0 106 112 74),
    (0b000100_0011_1_1101110_1110100_1100010#32, .shrZ32Imm 1 110 116 98)] : List (IWord × Instr)), decodeWord e.1 = .ok e.2 := by decide

theorem test_decode_major05 : ∀ e ∈ ([(0b000101_0000_0_1110010_0000000_0011000#32, .addB64 0 114 0 24),
    (0b000101_0001_1_1110110_0000100_0011100#32, .subB64 1 118 4 28),
    (0b000101_0010_0_0000010_0001000_0100000#32, .mulB64 0 2 8 32),
    (0b000101_0011_1_0000110_0001100_0100100#32, .shlB64 1 6 12 36),
    (0b000101_0100_0_0001010_0010000_0101000#32, .shrZ64 0 10 16 40),
    (0b000101_0101_1_0001110_0010100_0101100#32, .shrS64 1 14 20 44)] : List (IWord × Instr)), decodeWord e.1 = .ok e.2 := by decide

theorem test_decode_major06 : ∀ e ∈ ([(0b000110_0000_0_0010010_0011000_0110000#32, .bfxZ32 0 18 24 48),
    (0b000110_0001_1_0010110_0011100_0110100#32, .bfxS32 1 22 28 52),
    (0b000110_0010_0_0011010_0100000_0111000#32, .bfiB32 0 26 32 56)] : List (IWord × Instr)), decodeWord e.1 = .ok e.2 := by decide

theorem test_decode_major07 : ∀ e ∈ ([(0b000111_0000_1_0000_110_0100100_0111100#32, .cmpEqB32 1 6 36 60),
    (0b000111_0001_0_0000_010_0101000_1000000#32, .cmpNeB32 0 2 40 64),
    (0b000111_0010_1_0000_110_0101100_1000100#32, .cmpLtS32 1 6 44 68),
    (0b000111_0011_0_0000_010_0110000_1001000#32, .cmpLtZ32 0 2 48 72),
    (0b000111_0100_1_0000_110_0110100_1001100#32, .cmpEqB64 1 6 52 76),
    (0b000111_0101_0_0000_010_0111000_1010000#32, .cmpLtS64 0 2 56 80),
    (0b000111_0110_1_0000_110_0111100_1010100#32, .cmpLtZ64 1 6 60 84)] : List (IWord × Instr)), decodeWord e.1 = .ok e.2 := by decide

theorem test_decode_major08 : ∀ e ∈ ([(0b001000_00000_00110_01100_00010_000000#32, .saddB64 6 12 2),
    (0b001000_00001_00110_01100_11001000110#32, .saddB64Imm 6 12 1606),
    (0b001000_00010_00110_01100_00010_000000#32, .ssubB64 6 12 2),
    (0b001000_00011_00110_01100_11001101100#32, .ssubB64Imm 6 12 1644),
    (0b001000_00100_00110_01100_00010_000000#32, .smulB64 6 12 2),
    (0b001000_00101_00110_01100_11110110010#32, .smulB64Imm 6 12 1970),
    (0b001000_00110_00110_01100_00010_000000#32, .sandB64 6 12 2),
    (0b001000_00111_00110_01100_11111011000#32, .sandB64Imm 6 12 2008),
    (0b001000_01000_00110_01100_00010_000000#32, .sorB64 6 12 2),
    (0b001000_01001_00110_01100_11111101110#32, .sorB64Imm 6 12 2030),
    (0b001000_01010_00110_01100_00010_000000#32, .sxorB64 6 12 2),
    (0b001000_01011_00110_01100_11100110100#32, .sxorB64Imm 6 12 1844),
    (0b001000_01100_00110_01100_00010_000000#32, .sshlB64 6 12 2),
    (0b001000_01101_00110_01100_11101011010#32, .sshlB64Imm 6 12 1882),
    (0b001000_01110_00110_01100_00010_000000#32, .sshrZ64 6 12 2),
    (0b001000_01111_00110_01100_11101100000#32, .sshrZ64Imm 6 12 1888),
    (0b001000_10000_00110_01100_00000000000#32, .smovB64 6 12),
    (0b001000_10001_00110_00000_10010000100#32, .smovB64Imm 6 1156)] : List (IWord × Instr)), decodeWord e.1 = .ok e.2 := by decide

theorem test_decode_major09 : ∀ e ∈ ([(0b001001_00000_00110_01100_00010_000000#32, .scmpEqB64 6 12 2),
    (0b001001_00001_00110_01100_10010101010#32, .scmpEqB64Imm 6 12 1194),
    (0b001001_00010_00110_01100_00010_000000#32, .scmpLtS64 6 12 2),
    (0b001001_00011_00110_01100_10011110000#32, .scmpLtS64Imm 6 12 1264),
    (0b001001_00100_00110_01100_00010_000000#32, .scmpLtZ64 6 12 2),
    (0b001001_00101_00110_01100_10000000110#32, .scmpLtZ64Imm 6 12 1030)] : List (IWord × Instr)), decodeWord e.1 = .ok e.2 := by decide

theorem test_decode_major10 : ∀ e ∈ ([(0b010000_0000_0_0001000_0001110_0100110#32, .addF32 0 8 14 38),
    (0b010000_0001_1_0001100_0010010_0101010#32, .subF32 1 12 18 42),
    (0b010000_0010_0_0010000_0010110_0101110#32, .mulF32 0 16 22 46),
    (0b010000_0011_1_0010100_0011010_0110010#32, .fmaF32 1 20 26 50),
    (0b010000_0100_0_0011000_0011110_0110110#32, .divF32 0 24 30 54),
    (0b010000_0101_1_0011100_0100010_0111010#32, .minF32 1 28 34 58),
    (0b010000_0110_0_0100000_0100110_0111110#32, .maxF32 0 32 38 62),
    (0b010000_0111_1_0100100_0101010_1111100#32, .sqrtF32 1 36 42),
    (0b010000_1000_0_0100110_0101110_1111100#32, .rcpF32 0 38 46),
    (0b010000_1001_0_0101010_0110000_1111100#32, .rsqF32 0 42 48),
    (0b010000_1010_1_0101100_0110100_1111100#32, .exp2F32 1 44 52),
    (0b010000_1011_0_0110000_0110110_1111100#32, .log2F32 0 48 54),
    (0b010000_1100_1_0110010_0111010_1111100#32, .sinpiF32 1 50 58),
    (0b010000_1101_1_0110110_0111100_1111100#32, .cospiF32 1 54 60)] : List (IWord × Instr)), decodeWord e.1 = .ok e.2 := by decide

theorem test_decode_major11 : ∀ e ∈ ([(0b010001_0000_0_0111000_1000000_1010110#32, .addF64 0 56 64 86),
    (0b010001_0001_1_0111100_1000100_1011010#32, .subF64 1 60 68 90),
    (0b010001_0010_0_1000000_1001000_1011110#32, .mulF64 0 64 72 94),
    (0b010001_0011_1_1000100_1001100_1100010#32, .fmaF64 1 68 76 98),
    (0b010001_0100_0_1001000_1010000_1100110#32, .divF64 0 72 80 102),
    (0b010001_0101_1_1001100_1010100_1101010#32, .minF64 1 76 84 106),
    (0b010001_0110_0_1010000_1011000_1101110#32, .maxF64 0 80 88 110),
    (0b010001_0111_1_1010100_1011100_1111100#32, .sqrtF64 1 84 92)] : List (IWord × Instr)), decodeWord e.1 = .ok e.2 := by decide

theorem test_decode_major12 : ∀ e ∈ ([(0b010010_0000_0_1011000_1011110_1110110#32, .addF16 0 88 94 118),
    (0b010010_0001_1_1011100_1100010_0000010#32, .subF16 1 92 98 2),
    (0b010010_0010_0_1100000_1100110_0000110#32, .mulF16 0 96 102 6),
    (0b010010_0011_1_1100100_1101010_0001010#32, .fmaF16 1 100 106 10),
    (0b010010_0100_0_1101000_1101110_0001110#32, .divF16 0 104 110 14),
    (0b010010_1000_1_1101100_1110010_0010010#32, .addBf16 1 108 114 18),
    (0b010010_1001_0_1110000_1110110_0010110#32, .subBf16 0 112 118 22),
    (0b010010_1010_1_1110100_0000010_0011010#32, .mulBf16 1 116 2 26),
    (0b010010_1011_0_0000000_0000110_0011110#32, .fmaBf16 0 0 6 30)] : List (IWord × Instr)), decodeWord e.1 = .ok e.2 := by decide

theorem test_decode_major13 : ∀ e ∈ ([(0b010011_0000_1_0000100_0001010_1111100#32, .sqrtF16 1 4 10),
    (0b010011_0001_0_0000110_0001110_1111100#32, .rcpF16 0 6 14),
    (0b010011_0010_0_0001010_0010000_1111100#32, .rsqF16 0 10 16),
    (0b010011_0011_1_0001100_0010100_1111100#32, .exp2F16 1 12 20),
    (0b010011_0100_0_0010000_0010110_1111100#32, .log2F16 0 16 22)] : List (IWord × Instr)), decodeWord e.1 = .ok e.2 := by decide

theorem test_decode_major14 : ∀ e ∈ ([(0b010100_0000_1_0000_101_0011010_0110000#32, .cmpEqF32 1 5 26 48),
    (0b010100_0001_0_0000_001_0011110_0110100#32, .cmpLtF32 0 1 30 52),
    (0b010100_0010_1_0000_101_0100010_0111000#32, .cmpLeF32 1 5 34 56),
    (0b010100_0011_0_0000_001_0100110_0111100#32, .cmpEqF64 0 1 38 60),
    (0b010100_0100_1_0000_101_0101010_1000000#32, .cmpLtF64 1 5 42 64),
    (0b010100_0101_0_0000_001_0101110_1000100#32, .cmpLeF64 0 1 46 68)] : List (IWord × Instr)), decodeWord e.1 = .ok e.2 := by decide

theorem test_decode_major15 : ∀ e ∈ ([(0b010101_0000_1_0101010_0110010_1111100#32, .cvtF64F32 1 42 50),
    (0b010101_0001_1_0101110_0110100_1111100#32, .cvtF32F64 1 46 52),
    (0b010101_0010_0_0110000_0111000_1111100#32, .cvtF32F16 0 48 56),
    (0b010101_0011_1_0110100_0111010_1111100#32, .cvtF16F32 1 52 58),
    (0b010101_0100_0_0110110_0111110_1111100#32, .cvtF32Bf16 0 54 62),
    (0b010101_0101_0_0111010_1000000_1111100#32, .cvtBf16F32 0 58 64),
    (0b010101_0110_1_0111100_1000100_1111100#32, .cvtS32F32 1 60 68),
    (0b010101_0111_0_1000000_1000110_1111100#32, .cvtZ32F32 0 64 70),
    (0b010101_1000_1_1000010_1001010_1111100#32, .cvtF32S32 1 66 74),
    (0b010101_1001_1_1000110_1001100_1111100#32, .cvtF32Z32 1 70 76),
    (0b010101_1010_0_1001000_1010000_1111100#32, .cvtS64F64 0 72 80),
    (0b010101_1011_1_1001100_1010010_1111100#32, .cvtF64S64 1 76 82)] : List (IWord × Instr)), decodeWord e.1 = .ok e.2 := by decide

theorem test_decode_major16 : ∀ e ∈ ([(0b010110_0000_0_1001110_1010110_1111100#32, .rdcAddF32 0 78 86),
    (0b010110_0001_0_1010010_1011000_1111100#32, .rdcAddF64 0 82 88),
    (0b010110_0010_1_1010100_1011100_1111100#32, .rdcMinF32 1 84 92),
    (0b010110_0011_0_1011000_1011110_1111100#32, .rdcMaxF32 0 88 94),
    (0b010110_0100_1_1011010_1100010_1111100#32, .rdcAddS32 1 90 98),
    (0b010110_0101_1_1011110_1100100_1111100#32, .rdcAddZ64 1 94 100)] : List (IWord × Instr)), decodeWord e.1 = .ok e.2 := by decide

theorem test_decode_major17 : ∀ e ∈ ([(0b010111_0000_0_1100000_1101000_0000110#32, .rngxB32 0 96 104 6),
    (0b010111_0001_1_1100100_1101100_0001010#32, .rngxB64 1 100 108 10)] : List (IWord × Instr)), decodeWord e.1 = .ok e.2 := by decide

theorem test_decode_major18 : ∀ e ∈ ([(0b011000_000001111100_1101110_1111100#32, .mma 110),
    (0b011000_00010_1101000_1110000_1111100#32, .mread 104 112),
    (0b011000_001001111100_1110000_0010000#32, .mwrite 112 16),
    (0b011000_001101111100_1110010_1111100#32, .mzero 114),
    (0b011000_01000_1101110_1110100_0010100#32, .mstat 110 116 20),
    (0b011000_01010_1110000_0000000_0010110#32, .mwin 112 0 22),
    (0b011000_01100_1110100_0000010_1111100#32, .crsv 116 2),
    (0b011000_01110_1110110_0000100_1111100#32, .crel 118 4)] : List (IWord × Instr)), decodeWord e.1 = .ok e.2 := by decide

theorem test_decode_major19 : ∀ e ∈ ([(0b011001_00000_0000000_0000110_0001110#32, .quantAq8 0 6 14),
    (0b011001_00010_0000010_0001010_0001110#32, .quantAq4 2 10 14),
    (0b011001_00100_0000110_0001100_0111010#32, .dquantAq8 6 12 58),
    (0b011001_00110_0001000_0010000_1011010#32, .dquantAq4 8 16 90)] : List (IWord × Instr)), decodeWord e.1 = .ok e.2 := by decide

theorem test_decode_major20 : ∀ e ∈ ([(0b100000_00000_0001100_0010010_1010110#32, .ldZ8 12 18 86),
    (0b100000_00010_0001110_0010110_0001110#32, .ldS8 14 22 14),
    (0b100000_00100_0010010_0011000_0100010#32, .ldZ16 18 24 34),
    (0b100000_00110_0010100_0011100_0010010#32, .ldS16 20 28 18),
    (0b100000_01000_0011000_0011110_1001110#32, .ldB32 24 30 78),
    (0b100000_01010_0011010_0100010_1101110#32, .ldB64 26 34 110)] : List (IWord × Instr)), decodeWord e.1 = .ok e.2 := by decide

theorem test_decode_major21 : ∀ e ∈ ([(0b100001_00000_0011110_0100100_1011010#32, .stB8 30 36 90),
    (0b100001_00010_0100000_0101000_0100010#32, .stB16 32 40 34),
    (0b100001_00100_0100100_0101010_0110110#32, .stB32 36 42 54),
    (0b100001_00110_0100110_0101110_0100110#32, .stB64 38 46 38)] : List (IWord × Instr)), decodeWord e.1 = .ok e.2 := by decide

theorem test_decode_major22 : ∀ e ∈ ([(0b100010_00000_0101010_0110000_1111100#32, .tagq 42 48),
    (0b100010_00010_0101100_0110010_1001010#32, .tagset 44 50 74),
    (0b100010_00100_0101110_0110110_1111100#32, .tagclr 46 54),
    (0b100010_00110_0110000_11111001111100#32, .taginv 48)] : List (IWord × Instr)), decodeWord e.1 = .ok e.2 := by decide

theorem test_decode_major23 : ∀ e ∈ ([(0b100011_000001111100_0111000_1111110#32, .copyIn 56),
    (0b100011_000101111100_0111000_1111110#32, .copyOut 56),
    (0b100011_00100_0110100_0111010_1111110#32, .copyOutDigest 52 58),
    (0b100011_00110_0110110_11111001111100#32, .hget 54),
    (0b100011_01000_0110110_0111110_1111100#32, .hfree 54 62),
    (0b100011_01010_0111000_1000000_1111100#32, .hwait 56 64)] : List (IWord × Instr)), decodeWord e.1 = .ok e.2 := by decide

theorem test_decode_major24 : ∀ e ∈ ([(0b100100_0000_1_0111100_1000010_1011010#32, .atomAddZ32 1 60 66 90),
    (0b100100_0001_0_1000000_1000110_1011110#32, .atomAddZ64 0 64 70 94),
    (0b100100_0010_1_1000100_1001010_1100010#32, .atomXchgB32 1 68 74 98),
    (0b100100_0011_0_1001000_1001110_1100110#32, .atomCasB32 0 72 78 102),
    (0b100100_0100_1_1001100_1010010_1101010#32, .atomCasB64 1 76 82 106),
    (0b100100_010101111100_1010100_1101100#32, .redAddF32 84 108),
    (0b100100_011001111100_1010110_1101110#32, .redAddF64 86 110),
    (0b100100_011101111100_1011000_1110000#32, .xaddF32 88 112),
    (0b100100_10000_1010100_1011100_1111100#32, .xseal 84 92),
    (0b100100_100101111100_1011100_1111100#32, .xzero 92)] : List (IWord × Instr)), decodeWord e.1 = .ok e.2 := by decide

theorem test_decode_major25 : ∀ e ∈ ([(0b100101_000001111100_1011110_1110100#32, .bkmode 94 116),
    (0b100101_000101111100_1100000_1110110#32, .bkld 96 118),
    (0b100101_001001111100_1100010_0000000#32, .bkmac 98 0),
    (0b100101_001101111100_1100100_0000010#32, .bkrd 100 2),
    (0b100101_010001111100_1100110_0000100#32, .bkzero 102 4),
    (0b100101_01010111110011111001111100#32, .bkwait)] : List (IWord × Instr)), decodeWord e.1 = .ok e.2 := by decide

theorem test_decode_major26 : ∀ e ∈ ([(0b100110_0000_1_1100010_11111001111100#32, .cmtB 1 98),
    (0b100110_0001_1_1100100_11111001111100#32, .cmtT 1 100),
    (0b100110_0010_0_1100110_11111001111100#32, .cmtD 0 102),
    (0b100110_0011_0_1101000_11111001111100#32, .cmtBLw 0 104),
    (0b100110_0100_1_1101010_11111001111100#32, .cmtTLw 1 106),
    (0b100110_0101_1_1101100_11111001111100#32, .cmtDLw 1 108),
    (0b100110_01100111110011111001111100#32, .abtW),
    (0b100110_01110111110011111001111100#32, .abtB),
    (0b100110_10000111110011111001111100#32, .abtT),
    (0b100110_1001011111000000_110_1111100#32, .fence 6)] : List (IWord × Instr)), decodeWord e.1 = .ok e.2 := by decide

theorem test_decode_major27 : ∀ e ∈ ([(0b100111_000000_00000101010101101001#32, .opnW 21865),
    (0b100111_010000_00000100101010010000#32, .opnB 19088),
    (0b100111_100000_00000100101010011011#32, .opnT 19099)] : List (IWord × Instr)), decodeWord e.1 = .ok e.2 := by decide

theorem test_decode_major28 : ∀ e ∈ ([(0b101000_000001111100_0000000_0010110#32, .cln 0 22),
    (0b101000_000101111100_0000010_0011000#32, .inv 2 24),
    (0b101000_001001111100_0000100_0011010#32, .cinv 4 26)] : List (IWord × Instr)), decodeWord e.1 = .ok e.2 := by decide

theorem test_decode_major30 : ∀ e ∈ ([(0b110000_00_000_1_00000100101011011010#32, .brGuarded 0 1 19162),
    (0b110000_01_101_0_00000100101011110111#32, .bryGuarded 5 0 19191),
    (0b110000_10_110_1_00000100101011100000#32, .callGuarded 6 1 19168)] : List (IWord × Instr)), decodeWord e.1 = .ok e.2 := by decide

theorem test_decode_major31 : ∀ e ∈ ([(0b110001_000000_00000100101011101011#32, .br 19179),
    (0b110001_010000_00000100101000010010#32, .bry 18962),
    (0b110001_100000_00000100101000011101#32, .call 18973)] : List (IWord × Instr)), decodeWord e.1 = .ok e.2 := by decide

theorem test_decode_major32 : ∀ e ∈ ([(0b110010_000001111100_0010010_1111100#32, .callr 18),
    (0b110010_00010111110011111001111100#32, .ret),
    (0b110010_001001111100_0010010_1111100#32, .jmpr 18),
    (0b110010_00110111110011111001111100#32, .exit),
    (0b110010_010001111100_0010100_1111100#32, .trap 20),
    (0b110010_01010111110011111001111100#32, .bsync),
    (0b110010_01100111110011111001111100#32, .yield),
    (0b110010_01110111110011111001111100#32, .nop)] : List (IWord × Instr)), decodeWord e.1 = .ok e.2 := by decide

theorem test_decode_major33 : ∀ e ∈ ([(0b110011_000000000_001_0000_000_1111100#32, .lany 1 0),
    (0b110011_000100000_011_0000_010_1111100#32, .lall 3 2),
    (0b110011_00100_0010010_0000_100_1111100#32, .lbits 18 4),
    (0b110011_00110_0010100_0011100_0110010#32, .xlIdx 20 28 50),
    (0b110011_01000_0011000_0011110_0110110#32, .xlLo 24 30 54),
    (0b110011_01010_0011010_0100010_0111000#32, .xlHi 26 34 56),
    (0b110011_01100_0011110_0100100_0111100#32, .xlXor 30 36 60),
    (0b110011_0111000_10011_0101000_1111100#32, .sget 19 40),
    (0b110011_10000_0100010_0101010_1000000#32, .xlRot 34 42 64)] : List (IWord × Instr)), decodeWord e.1 = .ok e.2 := by decide

theorem test_decode_major34 : ∀ e ∈ ([(0b110100_00000_0100110_0101100_1000100#32, .spawn 38 44 68),
    (0b110100_000101111100_0101110_1000110#32, .regroup 46 70),
    (0b110100_001001111100_0110000_1111100#32, .racktm 48)] : List (IWord × Instr)), decodeWord e.1 = .ok e.2 := by decide

theorem test_decode_major35 : ∀ e ∈ ([(0b110101_00000_0101100_0110010_1001010#32, .waitc 44 50 74)] : List (IWord × Instr)), decodeWord e.1 = .ok e.2 := by decide

theorem test_decode_major38 : ∀ e ∈ ([(0b111000_00000_0111010_00101100011000#32, .spr 58 2840),
    (0b111000_0001000_00011_00101100001010#32, .srd 3 2826),
    (0b111000_0010000_10101_00101100111100#32, .swr 21 2876)] : List (IWord × Instr)), decodeWord e.1 = .ok e.2 := by decide

theorem test_decode_major39 : ∀ e ∈ ([(0b111001_00000_0110100_0111100_1111100#32, .ksclaim 52 60),
    (0b111001_00010_0110110_0111110_1111100#32, .ksrd 54 62),
    (0b111001_001001111100_0111110_1010110#32, .kswr 62 86),
    (0b111001_00110_0111010_1000010_1111100#32, .ksres 58 66),
    (0b111001_01000_0111100_1000100_1111100#32, .ksrty 60 68),
    (0b111001_01010_0111110_1000110_1011100#32, .ksdir 62 70 92),
    (0b111001_01100_1000010_1001000_1111100#32, .kskill 66 72)] : List (IWord × Instr)), decodeWord e.1 = .ok e.2 := by decide

theorem test_decode_major3A : ∀ e ∈ ([(0b111010_00000_1000100_1001010_1100010#32, .qpost 68 74 98),
    (0b111010_00010_1000110_1001110_1111100#32, .qclk 70 78)] : List (IWord × Instr)), decodeWord e.1 = .ok e.2 := by decide

theorem test_decode_major3C : ∀ e ∈ ([(0b111100_00000_1001000_1010000_1111100#32, .sigrd 72 80),
    (0b111100_00010111110011111001111100#32, .sigclr),
    (0b111100_00100_1001010_1010010_1111100#32, .chkv 74 82)] : List (IWord × Instr)), decodeWord e.1 = .ok e.2 := by decide

theorem test_decode_major3D : ∀ e ∈ ([(0b111101_00000_1001100_1010100_1101010#32, .scrub 76 84 106),
    (0b111101_00010_1010000_1010110_1101110#32, .asidld 80 86 110),
    (0b111101_00100_1010010_1011010_1111100#32, .pgret 82 90),
    (0b111101_00110_1010100_1011100_1110010#32, .wayq 84 92 114),
    (0b111101_01000_1011000_1011110_1110110#32, .tlbinv 88 94 118),
    (0b111101_01010_1011010_1100010_1111100#32, .kspool 90 98)] : List (IWord × Instr)), decodeWord e.1 = .ok e.2 := by decide

theorem test_decode_major3F : ∀ e ∈ ([(0b111111_00_000000000100100001011111#32, .wideImmediate 18527),
    (0b111111_01_110_1_0_011_0_1_0_10111_00000000#32, .modifierHint 6 1 0 3 0 1 0 23),
    (0b111111_10_0000_00000000000000000000#32, .schedulingHint 0)] : List (IWord × Instr)), decodeWord e.1 = .ok e.2 := by decide

/-- Table 14 and Table 36: the words of the spec's own worked groups. -/
theorem test_decode_worked_groups : ∀ e ∈ ([(0x0C410203#32, .orB32 0 4 4 3), (0x4902847E#32, .divF16 0 10 8 0x7E), (0xC03FFFF4#32, .brGuarded 1 1 0xFFFF4),
    (0xFC02468A#32, .wideImmediate 0x02468A), (0x22230678#32, .smovB64Imm 3 0x678), (0x40C18103#32, .fmaF32 0 6 2 3), (0x1C80C289#32, .cmpLtS32 0 3 5 9),
    (0x45C28A7C#32, .sqrtF64 0 10 20), (0x100040FF#32, .addB32Imm 0 1 1 0x7F), (0x20242001#32, .saddB64Imm 4 4 1), (0x54C1C37C#32, .cvtF16F32 0 7 6),
    (0x5802447C#32, .rdcAddF32 0 9 8)] : List (IWord × Instr)), decodeWord e.1 = .ok e.2 := by decide

/-- The hints of Table 14 and Table 36: `?p2` with `s5`, and `.sat`. -/
theorem test_decode_worked_hints : decodeWord 0xFD0A2500#32 = .ok (.modifierHint 0 0 1 2 0 0 1 5) ∧ decodeWord 0xFD100000#32 = .ok (.modifierHint 0 1 0 0 0 0 0 0) := by
  decide

/-- Slots that Table 13 does not assign, and fixed fields that do not hold their value, are refused (R29, R42). -/
theorem test_decode_refuses : decodeWord 0 = .error .unassignedMajor ∧ decodeWord 0b010111_0010_00000000_0000000_0000000#32 = .error .unassignedFn ∧
    decodeWord 0b110010_0111_0_1111100_1111100_0000000#32 = .error .reservedBits ∧ decodeWord 0b000001_1000_0_0000001_0000010_0000011#32 = .error .unassignedFn ∧
    decodeBytes [1, 2, 3] = .error .truncated := by decide

/-! ### Ill-formed terms that the checks refuse -/

theorem test_wf_dst32 : Instr.wf (.addB32 0 0x7E 0 0) = false ∧ Instr.wf (.addB32 0 0x7C 0 0) = true := by decide
theorem test_wf_dst64 : Instr.wf (.addB64 0 3 0 0) = false ∧ Instr.wf (.addB64 0 2 0 0) = true := by decide
theorem test_wf_src64 : Instr.wf (.addB64 0 2 0x79 0) = false ∧ Instr.wf (.addB64 0 2 0 5) = false ∧ Instr.wf (.addB64 0 2 0x7E 0x7F) = true := by decide
theorem test_wf_store : Instr.wf (.stB32 0x7E 0 0) = false ∧ Instr.wf (.stB64 1 0 0) = false ∧ Instr.wf (.stB64 0x7F 0 0) = true := by decide
theorem test_wf_ranges : Instr.wf (.mread 113 0) = false ∧ Instr.wf (.mwrite 0 113) = false ∧ Instr.wf (.mread 112 0) = true := by decide
theorem test_wf_quant : Instr.wf (.quantAq8 0 32 0x21) = false ∧ Instr.wf (.quantAq4 112 0 0x40) = false ∧ Instr.wf (.dquantAq8 100 0 0x40) = false ∧
    Instr.wf (.dquantAq4 0 112 0x40) = false ∧ Instr.wf (.quantAq8 0 32 0x40) = true := by decide
theorem test_wf_selectors : Instr.wf (.spr 2 6) = false ∧ Instr.wf (.spr 120 0) = false ∧ Instr.wf (.srd 0 0x12) = false ∧ Instr.wf (.swr 0 0x20) = false ∧
    Instr.wf (.fence 6) = false ∧ Instr.wf (.swr 0 0x11) = true := by decide
theorem test_wf_copies : Instr.wf (.copyIn 0x7E) = false ∧ Instr.wf (.copyOutDigest 0x7E 0) = false ∧ Instr.wf (.copyIn 3) = true := by decide
theorem test_wf_modifier : Instr.wf (.modifierHint 5 0 0 0 0 0 0 0) = false ∧ Instr.wf (.modifierHint 0 0 0 1 0 0 0 0) = false ∧
    Instr.wf (.modifierHint 0 0 0 0 0 0 0 1) = false ∧ Instr.wf (.modifierHint 4 1 1 7 1 1 1 31) = true := by decide
theorem test_wf_events : Instr.wf (.ticketRead 96 0) = false ∧ Instr.wf (.ticketRead 0 8) = false ∧ Instr.wf (.taskDispatch 20) = false ∧
    Instr.wf (.kscmdKill 240 0 0) = false ∧ Instr.wf (.perstAssert 2) = false ∧ Instr.wf (.monitorArm 0 64) = false ∧ Instr.wf (.vfEnable 96) = false ∧
    Instr.wf (.partitionAssign 0 96) = false := by decide

/-! ### Single steps, with results from the spec -/

/-- A register of a lane after an instruction. -/
def gives (i : Instr) (w : Wave) (lane r : Nat) : Option W32 :=
  match exec i (at_ w) with
  | .next t => ((t.wave? 3).bind fun x => x.lanes[lane]?).bind fun l => l.regs[r]?
  | _ => none
/-- The sticky flags after an instruction. -/
def flagsAfter (i : Instr) (w : Wave) : Option W64 :=
  match exec i (at_ w) with | .next t => (t.wave? 3).map (·.fpflags) | _ => none
def with2 (a b : W32) : Wave := regs 4 (b.setWidth 64) (regs 2 (a.setWidth 64) wave)

/-- R94's worked values. -/
theorem test_bfx_z32 : gives (.bfxZ32 0 6 2 4) (with2 0xDEADBEEF 0x080C) 5 6 = some 0xDB := by decide
theorem test_bfx_s32 : gives (.bfxS32 0 6 2 4) (with2 0xDEADBEEF 0x080C) 5 6 = some 0xFFFFFFDB := by decide
theorem test_bfi_b32 : gives (.bfiB32 0 6 2 4) (with2 5 0x081C) 5 6 = some 0x50000000 := by decide
/-- R93: a negative amount is an amount of at least 2^31. -/
theorem test_shl_negative : gives (.shlB32 0 6 2 4) (with2 1 0xFFFFFFFF) 0 6 = some 0 := by decide
theorem test_shr_s32_whole : gives (.shrS32 0 6 2 4) (with2 0x80000000 32) 15 6 = some 0xFFFFFFFF := by decide
theorem test_add_wraps : gives (.addB32 0 2 2 4) (with2 0xFFFFFFFF 2) 7 2 = some 1 := by decide
/-- R30: with nw = 1 nothing is written. -/
theorem test_add_nw : gives (.addB32 1 2 2 4) (with2 0xFFFFFFFF 2) 7 2 = some 0xFFFFFFFF := by decide
/-- Table 20: division by zero and the signed overflow. -/
theorem test_div_zero : gives (.divS32 0 6 2 4) (with2 7 0) 0 6 = some 0x7FFFFFFF ∧ flagsAfter (.divS32 0 6 2 4) (with2 7 0) = some 0x20 := by decide
theorem test_div_overflow : gives (.divS32 0 6 2 4) (with2 0x80000000 0xFFFFFFFF) 0 6 = some 0x7FFFFFFF ∧
    flagsAfter (.divS32 0 6 2 4) (with2 0x80000000 0xFFFFFFFF) = some 0x80 := by decide
theorem test_adds_saturates : gives (.addsS32 0 6 2 4) (with2 0x7FFFFFFF 1) 0 6 = some 0x7FFFFFFF ∧
    flagsAfter (.addsS32 0 6 2 4) (with2 0x7FFFFFFF 1) = some 0x80 := by decide
/-- 1.5 + 2.25 = 3.75; 1 / 3 to nearest even, inexact. -/
theorem test_add_f32 : gives (.addF32 0 6 2 4) (with2 0x3FC00000 0x40100000) 3 6 = some 0x40700000 := by decide
theorem test_div_f32 : gives (.divF32 0 6 2 4) (with2 0x3F800000 0x40400000) 3 6 = some 0x3EAAAAAB := by decide
/-- R182: element (0, 0) of the worked copy, and one that is outside. -/
theorem test_locate :
    let r := leBytes 8 (9 * 2 ^ 60 + 2 * 2 ^ 57 + 0x1000000000) ++ leBytes 4 100 ++ leBytes 4 50 ++ zeros 12 ++ leBytes 5 4 ++ leBytes 5 400 ++ zeros 26
    (match locate r 4 [96, 48, 0, 0, 0] with | .at a => a | _ => 0) = 0x1000004C80 ∧
    (match locate r 4 [100, 48, 0, 0, 0] with | .outside => true | _ => false) = true := by decide
/-- R98: scalar registers are written once, with the widened immediate of Table 14. -/
theorem test_smov_wide : (match exec (.smovB64Imm 3 0x678) { at_ wave with grp := some { grp with wides := [0x02468A] } } with
    | .next t => (t.wave? 3).map fun w => w.sregs.getD 3 0 | _ => none) = some 0x12345678 := by decide
/-- R285: a privileged instruction at user privilege has no effect and detaches its wave; with no pool for the record it waits in place. -/
theorem test_scrub_user : (match exec (.scrub 6 2 4) (at_ wave) with | .next t => (t.wave? 3).map fun w => (w.running, w.lanes == wave.lanes) | _ => none) = some (false, true) := by
  decide
/-- R224: a branch taken by every lane. -/
theorem test_br : (match exec (.br 2) (at_ wave) with | .next t => (t.wave? 3).map fun w => w.lanes.map (·.pc) | _ => none) = some (List.replicate 16 0x20008) := by decide
/-- R34: a step decodes and runs the placed word, `or.b32 v4, v4, v3`. -/
theorem test_step_or : (match Machine.step { State.reset.withFetchWord 32 0x0C410203 with waves := [regs 3 0xF0 (regs 4 0x0F wave)] } with
    | .next t => ((t.wave? 3).bind fun w => w.lanes[0]?).map fun l => (l.regs.getD 4 0, l.pc) | _ => none) = some (0xF0, 0x20004) := by decide +kernel

end Sys2Proof.Tests
end

section

/-! LEMMAS. What leaves global memory as it is: of the operations on the state, all but the few of the next section. Each lemma goes through the
branches of its definition and cites the lemmas of the operations it calls (for O60). -/

namespace Sys2Proof.Machine

/-! ### Named reads and writes of the state -/

@[simp] theorem updKs_mem (s : State) (core : Nat) (f : KsRegs → KsRegs) : (s.updKs core f).mem = s.mem := rfl
@[simp] theorem drawFree_mem (s : State) : s.drawFree.2.mem = s.mem := rfl
@[simp] theorem awaitRows_mem (s : State) (w : Wave) (first : W57) (rows : List Nat) : (s.awaitRows w first rows).mem = s.mem := rfl

@[simp] theorem noteTlb_mem (s : State) (core vf asid va : Nat) : (s.noteTlb core vf asid va).mem = s.mem := by
  unfold State.noteTlb
  repeat' split
  all_goals rfl

/-! ### Commits between levels (R146-R153) -/

@[simp] theorem commitWave_mem (s : State) (wid : Nat) (lw : Bool) : (s.commitWave wid lw).1.mem = s.mem := by
  unfold State.commitWave
  dsimp only
  repeat' split
  all_goals simp

@[simp] theorem commitBlock_mem (s : State) (team idx : Nat) (lw : Bool) : (s.commitBlock team idx lw).1.mem = s.mem := by
  unfold State.commitBlock
  dsimp only
  repeat' split
  all_goals simp

@[simp] theorem commitWaves_mem (s : State) (team blk : Nat) (mem : List Nat) : (s.commitWaves team blk mem).mem = s.mem := by
  simp [State.commitWaves, foldl_mem]

@[simp] theorem commitT_mem (s : State) (team blk : Nat) (mem : List Nat) (lw : Bool) : (s.commitT team blk mem lw).1.mem = s.mem := by
  simp [State.commitT]

@[simp] theorem commitLower_mem (s : State) (team : Nat) (mem : List Nat) : (s.commitLower team mem).mem = s.mem := by
  simp [State.commitLower, foldl_mem]

@[simp] theorem keepA_mem (s : State) (w : Wave) : (s.keepA w).mem = s.mem := rfl

/-! ### The error log (R325, R326) -/

@[simp] theorem logEvent_mem (s : State) (e : Event) : (s.logEvent e).mem = s.mem := by
  unfold State.logEvent
  dsimp only
  repeat' split
  all_goals simp

@[simp] theorem logCore_mem (s : State) (core code action vf asid : Nat) : (s.logCore core code action vf asid).mem = s.mem := by simp [State.logCore]

/-! ### Faults and ends (R289-R296, R305-R308) -/

@[simp] theorem enqueue_mem (s : State) (t : Task) (head : Bool) : (s.enqueue t head).mem = s.mem := rfl
@[simp] theorem dropFaultTask_mem (s : State) (rid : Nat) : (s.dropFaultTask rid).mem = s.mem := rfl
@[simp] theorem reap_mem (s : State) : s.reap.mem = s.mem := rfl

@[simp] theorem takeFlags_mem (s : State) (r : Record) : (s.takeFlags r).mem = s.mem := by
  unfold State.takeFlags
  split <;> rfl

@[simp] theorem killRecord_mem (s : State) (rid : Nat) : (s.killRecord rid).mem = s.mem := by
  unfold State.killRecord
  split <;> simp

@[simp] theorem postFault_mem (s : State) (rid : Nat) : (s.postFault rid).mem = s.mem := by
  unfold State.postFault
  repeat' split
  all_goals rfl

@[simp] theorem repost_mem (s : State) (rids : List Nat) : (s.repost rids).mem = s.mem := by
  refine foldl_mem _ (fun s rid => ?_) rids s
  split
  · split <;> simp
  · rfl

@[simp] theorem sendSpoke_mem (s : State) (vf link : Nat) (m : Nat → SpokeMsg) : (s.sendSpoke vf link m).mem = s.mem := rfl

@[simp] theorem sendFor_mem (s : State) (vf link : Nat) (m : Nat → SpokeMsg) : (s.sendFor vf link m).mem = s.mem := by
  unfold State.sendFor
  split <;> rfl

@[simp] theorem failKs_mem (s : State) (q : KsReq) : (s.failKs q).mem = s.mem := rfl

@[simp] theorem releaseHolds_mem (s : State) (team : Nat) : (s.releaseHolds team).mem = s.mem := by
  unfold State.releaseHolds
  split <;> simp [foldl_mem]

@[simp] theorem orFlags_mem (s : State) (launch : Nat) (f : BitVec 8) : (s.orFlags launch f).mem = s.mem := rfl

@[simp] theorem forget_mem (s : State) (p : StoreLoc → Bool) : (s.forget p).mem = s.mem := by
  unfold State.forget
  split <;> rfl

@[simp] theorem sumFlags_mem (s : State) (w : Wave) : (s.sumFlags w).mem = s.mem := by
  unfold State.sumFlags
  split <;> rfl

@[simp] theorem setHandle_mem (s : State) (team blk num : Nat) (f : Handle → Handle) : (s.setHandle team blk num f).mem = s.mem := rfl

@[simp] theorem discardCopies_mem (s : State) (p : Copy → Bool) : (s.discardCopies p).mem = s.mem := by
  unfold State.discardCopies
  dsimp only
  rw [foldl_mem _ (fun s c => setHandle_mem s _ _ _ _), forget_mem]

@[simp] theorem startEnding_mem (s : State) (team : Nat) : (s.startEnding team).mem = s.mem := by
  unfold State.startEnding
  split <;> rfl

@[simp] theorem endBlock_mem (s : State) (team blk : Nat) : (s.endBlock team blk).mem = s.mem := by
  unfold State.endBlock
  dsimp only
  repeat' split
  all_goals simp

@[simp] theorem exitCommits_mem (s : State) (w : Wave) : (s.exitCommits w).mem = s.mem := by
  unfold State.exitCommits
  dsimp only
  repeat' split
  all_goals simp

@[simp] theorem afterWave_mem (s : State) (team blk : Nat) : (s.afterWave team blk).mem = s.mem := by
  unfold State.afterWave
  dsimp only
  repeat' split
  all_goals simp

@[simp] theorem finishWave_mem (s : State) (wid : Nat) : (s.finishWave wid).mem = s.mem := by
  unfold State.finishWave
  split <;> simp

@[simp] theorem tryFinish_mem (s : State) (wid : Nat) : (s.tryFinish wid).mem = s.mem := by
  unfold State.tryFinish
  repeat' split
  all_goals simp

@[simp] theorem freeResvs_mem (s : State) : s.freeResvs.mem = s.mem := rfl

@[simp] theorem endMma_mem (s : State) (id : Nat) (killed : Bool) : (s.endMma id killed).mem = s.mem := by
  unfold State.endMma
  dsimp only
  repeat' split
  all_goals simp

@[simp] theorem joinFlags_mem (s : State) (r : Record) : (s.joinFlags r).mem = s.mem := by
  unfold State.joinFlags
  split <;> rfl

@[simp] theorem endWave_mem (s : State) (wid : Nat) : (s.endWave wid).mem = s.mem := by
  unfold State.endWave
  split <;> simp

@[simp] theorem killWave_mem (s : State) (wid : Nat) : (s.killWave wid).mem = s.mem := by
  simp [State.killWave, foldl_mem]

@[simp] theorem completeCopy_mem (s : State) (id : Nat) : (s.completeCopy id).mem = s.mem := by
  unfold State.completeCopy
  repeat' split
  all_goals rfl

@[simp] theorem forward_mem (s : State) (team : Nat) (r : Received) : (s.forward team r).mem = s.mem := by
  unfold State.forward
  repeat' split
  all_goals rfl

theorem taken_mem (s : State) (team kind blk wave unit seg : Nat) : ∀ r t, s.taken team kind blk wave unit seg = some (r, t) → t.mem = s.mem := by
  unfold State.taken
  dsimp only
  split <;> simp

@[simp] theorem killSegment_mem (s : State) (id seg : Nat) : (s.killSegment id seg).mem = s.mem := by
  unfold State.killSegment
  repeat' split
  all_goals simp [foldl_mem]

@[simp] theorem dropTeam_mem (s : State) (team : Nat) : (s.dropTeam team).mem = s.mem := by simp [State.dropTeam]
@[simp] theorem chargeLaunch_mem (s : State) (launch ticks : Nat) : (s.chargeLaunch launch ticks).mem = s.mem := rfl
@[simp] theorem deadTeam_mem (s : State) (launch status : Nat) : (s.deadTeam launch status).mem = s.mem := rfl

@[simp] theorem relaunch_mem (s : State) (launch idx relaunches : Nat) : (s.relaunch launch idx relaunches).mem = s.mem := by
  unfold State.relaunch
  split <;> rfl

@[simp] theorem serve_mem (s : State) (team depth : Nat) (handle : W32) : (s.serve team depth handle).mem = s.mem := rfl

@[simp] theorem makeRecord_mem (s : State) (u : UnitAt) (cause depth : Nat) (parent : W32) (place : Nat × Nat) (flags : BitVec 8)
    (faddr amask : W64) (body pan : List Byte) (deadline : Nat) :
    (s.makeRecord u cause depth parent place flags faddr amask body pan deadline).mem = s.mem :=
  rfl

@[simp] theorem makeNotice_mem (s : State) (u : UnitAt) (cause what : Nat) (a b : W64) (idx : W32) :
    (s.makeNotice u cause what a b idx).mem = s.mem := by
  unfold State.makeNotice
  split <;> simp

@[simp] theorem buryTeam_mem (s : State) (t : Team) (again : Bool) (code status : Nat) : (s.buryTeam t again code status).mem = s.mem := by
  unfold State.buryTeam
  dsimp only
  repeat' split
  all_goals simp

@[simp] theorem killOne_mem (s : State) (team : Nat) (again : Bool) (code status : Nat) : (s.killOne team again code status).mem = s.mem := by
  unfold State.killOne
  repeat' split
  all_goals simp [foldl_mem]

@[simp] theorem killTeam_mem (s : State) (team : Nat) (again : Bool) (code status : Nat) : (s.killTeam team again code status).mem = s.mem := by
  unfold State.killTeam
  split <;> simp

@[simp] theorem poisonKill_mem (s : State) (team core asid code : Nat) : (s.poisonKill team core asid code).mem = s.mem := by simp [State.poisonKill]
@[simp] theorem dropRecord_mem (s : State) (r : Record) : (s.dropRecord r).mem = s.mem := by simp [State.dropRecord]

@[simp] theorem loseExtent_mem (s : State) (part extent : Nat) : (s.loseExtent part extent).mem = s.mem := by
  simp [State.loseExtent, foldl_mem]

@[simp] theorem killUnit_mem (s : State) (r : Record) : (s.killUnit r).mem = s.mem := by
  unfold State.killUnit
  repeat' split
  all_goals simp

@[simp] theorem expire_mem (s : State) (r : Record) : (s.expire r).mem = s.mem := by
  unfold State.expire
  split <;> simp

@[simp] theorem nestMet_mem (s : State) (rid : Nat) : (s.nestMet rid).mem = s.mem := by
  unfold State.nestMet
  repeat' split
  all_goals simp

@[simp] theorem nestLimit_mem (s : State) (team : Nat) (kill : State → State) (h : ∀ s, (kill s).mem = s.mem) :
    (s.nestLimit team kill).mem = s.mem := by
  unfold State.nestLimit
  dsimp only
  rw [reap_mem, foldl_mem _ (fun s h => sendFor_mem s _ _ _), foldl_mem _ nestMet_mem, h]

@[simp] theorem serveRecord_mem (s : State) (rid : Nat) : (s.serveRecord rid).mem = s.mem := by
  unfold State.serveRecord
  repeat' split
  all_goals simp

@[simp] theorem serveParked_mem (s : State) (rid : Nat) : (s.serveParked rid).mem = s.mem := by
  unfold State.serveParked
  repeat' split
  all_goals simp

@[simp] theorem parkWave_mem (s : State) (w : Wave) (p : Pending) (depth : Nat) (parent : W32) (place : Nat × Nat) (waited : Bool) (deadline : Nat) :
    (s.parkWave w p depth parent place waited deadline).mem = s.mem := by
  unfold State.parkWave
  dsimp only
  repeat' split
  all_goals simp

@[simp] theorem detach_mem (s : State) (wid : Nat) (p : Pending) : (s.detach wid p).mem = s.mem := by
  unfold State.detach
  dsimp only
  repeat' split
  all_goals simp

@[simp] theorem endRebuilt_mem (s : State) (w : Wave) : (s.endRebuilt w).mem = s.mem := by
  unfold State.endRebuilt
  dsimp only
  repeat' split
  all_goals simp

@[simp] theorem rebuildWave_mem (s : State) (rid : Nat) : (s.rebuildWave rid).mem = s.mem := by
  unfold State.rebuildWave
  dsimp only
  repeat' split
  all_goals simp

/-! ### Aborts (R155, R157) -/

@[simp] theorem abortOne_mem (s : State) (fn wid : Nat) : (s.abortOne fn wid).mem = s.mem := by
  unfold State.abortOne
  repeat' split
  all_goals simp

@[simp] theorem abort_mem (s : State) (fn : Nat) (w : Wave) : (s.abort fn w).mem = s.mem := by
  unfold State.abort
  split <;> simp [foldl_mem]

/-! ### The issue of a group (R36-R39) -/

@[simp] theorem onLanes_mem (s : State) (c : Ctx) (f : Nat → Lane → Lane) : (s.onLanes c f).mem = s.mem := rfl
@[simp] theorem cleanRegs_mem (s : State) (c : Ctx) (rs : List Nat) : (s.cleanRegs c rs).mem = s.mem := by simp [State.cleanRegs]
@[simp] theorem setLatch_mem (s : State) (c : Ctx) (k : Nat) (v : Nat → W32) : (s.setLatch c k v).mem = s.mem := rfl

@[simp] theorem put32_mem (s : State) (c : Ctx) (d : BitVec 7) (v : Nat → W32) : (s.put32 c d v).mem = s.mem := by
  unfold State.put32
  repeat' split
  all_goals simp

@[simp] theorem put64_mem (s : State) (c : Ctx) (d : BitVec 7) (v : Nat → W64) : (s.put64 c d v).mem = s.mem := by
  unfold State.put64
  split <;> simp

@[simp] theorem putRange_mem (s : State) (c : Ctx) (d : BitVec 7) (v : Nat → List W32) : (s.putRange c d v).mem = s.mem := by simp [State.putRange]
@[simp] theorem putPred_mem (s : State) (c : Ctx) (p : Nat) (v : Nat → Bool) : (s.putPred c p v).mem = s.mem := rfl
@[simp] theorem putScalar_mem (s : State) (c : Ctx) (n : Nat) (v : W64) : (s.putScalar c n v).mem = s.mem := by simp [State.putScalar]

@[simp] theorem raise_mem (s : State) (wid : Nat) (f : BitVec 8) : (s.raise wid f).mem = s.mem := by
  unfold State.raise
  split <;> rfl

@[simp] theorem over_mem (s : State) (wid : Nat) : (s.over wid).mem = s.mem := rfl

@[simp] theorem faultBefore_mem (s : State) (c : Ctx) (cause : Nat) (flags : List (BitVec 8)) : (s.faultBefore c cause flags).mem = s.mem := by
  simp [State.faultBefore]

@[simp] theorem cleanStacks_mem (s : State) (c : Ctx) : (s.cleanStacks c).mem = s.mem := by simp [State.cleanStacks]

/-! ### Scratchpad, copies and remote operations: their issue -/

@[simp] theorem foldAccess_mem (s : State) (team : Nat) (addr : W64) (x y : W64) (fn : Nat) : (s.foldAccess team addr x y fn).mem = s.mem := rfl

@[simp] theorem noteAll_mem (s : State) (w : Wave) (vas : List Nat) : (s.noteAll w vas).mem = s.mem := by
  simp [State.noteAll, foldl_mem]

/-! ### Errors and kills wider than a team (R317-R323) -/

@[simp] theorem killLaunch_mem (s : State) (lid status : Nat) : (s.killLaunch lid status).mem = s.mem := by
  simp [State.killLaunch, foldl_mem]

@[simp] theorem endDoms_mem (s : State) (p : Dom → Bool) : (s.endDoms p).mem = s.mem := by
  simp [State.endDoms, foldl_mem]

@[simp] theorem killTasks_mem (s : State) (p : Launch → Bool) (dom : Dom → Bool) (status : Nat) : (s.killTasks p dom status).mem = s.mem := by
  simp [State.killTasks, foldl_mem]

@[simp] theorem endContext_mem (s : State) (vf asid : Nat) : (s.endContext vf asid).mem = s.mem := by simp [State.endContext]

@[simp] theorem retire_mem (s : State) (page : Nat) : (s.retire page).1.mem = s.mem := by
  unfold State.retire
  split <;> rfl

@[simp] theorem queueFill_mem (s : State) (page : Nat) : (s.queueFill page).mem = s.mem := by
  unfold State.queueFill
  split <;> rfl

@[simp] theorem repair_mem (s : State) (loc : StoreLoc) : (s.repair loc).mem = s.mem := by
  unfold State.repair
  dsimp only
  repeat' split
  all_goals simp

@[simp] theorem repairAt_mem (s : State) (p : StoreLoc → Bool) : (s.repairAt p).mem = s.mem := by
  simp [State.repairAt, foldl_mem]

@[simp] theorem parity_mem (s : State) (core : Nat) : (s.parity core).mem = s.mem := by
  unfold State.parity
  split <;> simp

@[simp] theorem sweep_mem (s : State) (core : Nat) : (s.sweep core).mem = s.mem := by
  unfold State.sweep
  split <;> simp

@[simp] theorem cleanLine_mem (s : State) (e : Line) (level : Nat) : (s.cleanLine e level).mem = s.mem := by
  unfold State.cleanLine
  repeat' split
  all_goals simp

@[simp] theorem dropLine_mem (s : State) (e : Line) (level : Nat) : (s.dropLine e level).mem = s.mem := by
  unfold State.dropLine
  repeat' split
  all_goals rfl

@[simp] theorem ownerError_mem (s : State) (e : Line) : (s.ownerError e).mem = s.mem := by
  unfold State.ownerError
  dsimp only
  repeat' split
  all_goals simp

@[simp] theorem quarantine_mem (s : State) (l2 : Bool) (unit way : Nat) : (s.quarantine l2 unit way).mem = s.mem := by
  unfold State.quarantine
  dsimp only
  rw [forget_mem]
  refine foldl_mem _ (fun s e => ?_) _ _
  split <;> simp

@[simp] theorem dirtyError_mem (s : State) (e : Line) : (s.dirtyError e).mem = s.mem := by
  unfold State.dirtyError
  dsimp only
  repeat' split
  all_goals simp

@[simp] theorem writeBack_mem (s : State) (e : Line) (level : Nat) : (s.writeBack e level).mem = s.mem := by
  unfold State.writeBack
  split <;> simp

@[simp] theorem putLines_mem (s : State) (p : Line → Bool) : (s.putLines p).mem = s.mem := by
  unfold State.putLines
  dsimp only
  rw [foldl_mem]
  intro s a
  dsimp only
  repeat' split
  all_goals simp

@[simp] theorem refetch_mem (s : State) (line : Nat) : (s.refetch line).mem = s.mem := by
  simp [State.refetch, foldl_mem]

@[simp] theorem consumeLine_mem (s : State) (dpa : Nat) : (s.consumeLine dpa).1.mem = s.mem := by
  unfold State.consumeLine
  dsimp only
  repeat' split
  all_goals simp

@[simp] theorem consumeLines_mem (s : State) (dpas : List Nat) : (s.consumeLines dpas).1.mem = s.mem :=
  List.foldlRecOn (motive := fun acc : State × Bool => acc.1.mem = s.mem) _ _ rfl fun acc h l _ => by simp [h]

@[simp] theorem loseRecord_mem (s : State) (r : Record) : (s.loseRecord r).mem = s.mem := by simp [State.loseRecord]

@[simp] theorem poolFault_mem (s : State) (r : Record) : (s.poolFault r).mem = s.mem := by
  unfold State.poolFault
  split <;> simp

@[simp] theorem hitPage_mem (s : State) (page : Nat) : (s.hitPage page).mem = s.mem := rfl
@[simp] theorem ungrant_mem (s : State) (page : Nat) : (s.ungrant page).mem = s.mem := rfl

@[simp] theorem putOut_mem (s : State) (l2 : Bool) (unit : Nat) : (s.putOut l2 unit).mem = s.mem := by
  unfold State.putOut
  repeat' split
  all_goals simp

/-! ### Barriers, openings and cache maintenance (R146-R166, R200) -/

@[simp] theorem liveAt_mem (s : State) (wid : Nat) (pc : W57) : (s.liveAt wid pc).mem = s.mem := rfl

@[simp] theorem reportLive_mem (s : State) (wid d : Nat) (v : W64) : (s.reportLive wid d v).mem = s.mem := by
  unfold State.reportLive
  split <;> simp

@[simp] theorem release_mem (s : State) (a : Nat × Arrival) (report : W64) : (s.release a report).mem = s.mem := by
  unfold State.release
  split <;> simp

@[simp] theorem setBar_mem (s : State) (w : Wave) (fn : Nat) (b : Option Barrier) : (s.setBar w fn b).mem = s.mem := by
  unfold State.setBar
  split <;> rfl

@[simp] theorem overlayFull_mem (s : State) (w : Wave) (fn : Nat) (b : Barrier) : (s.overlayFull w fn b).mem = s.mem := by
  unfold State.overlayFull
  split <;> simp

@[simp] theorem releaseAll_mem (s : State) (b : Barrier) (report : W64) : (s.releaseAll b report).mem = s.mem := by
  simp [State.releaseAll, foldl_mem]

@[simp] theorem finishT_mem (w : Wave) (b : Barrier) (s : State) : (finishT w b s).mem = s.mem := by
  unfold finishT
  dsimp only
  repeat' split
  all_goals simp

@[simp] theorem finishD_mem (w : Wave) (b : Barrier) (s : State) : (finishD w b s).mem = s.mem := by
  unfold finishD
  dsimp only
  repeat' split
  all_goals simp

@[simp] theorem openLevel_mem (s : State) (wid kind : Nat) (a : W57) : (s.openLevel wid kind a).mem = s.mem := by simp [State.openLevel]

@[simp] theorem finishOpen_mem (fn : Nat) (w : Wave) (b : Barrier) (s : State) : (finishOpen fn w b s).mem = s.mem := by
  simp [finishOpen, foldl_mem]

@[simp] theorem finishSync_mem (w : Wave) (b : Barrier) (s : State) : (finishSync w b s).mem = s.mem := by simp [finishSync]

@[simp] theorem settleBar_mem (s : State) (team : Nat) (blk : Option Nat) : (s.settleBar team blk).mem = s.mem := by
  unfold State.settleBar
  dsimp only
  repeat' split
  all_goals simp

@[simp] theorem maintain_mem (s : State) (fn level lo n : Nat) : (s.maintain fn level lo n).mem = s.mem := by
  unfold State.maintain
  repeat' split
  all_goals simp [foldl_mem]

/-! ### Branches -/

@[simp] theorem steer_mem (s : State) (c : Ctx) (f : Nat → Lane → Lane) : (s.steer c f).mem = s.mem := rfl

/-! ### Racks (R210-R214) -/

@[simp] theorem placeInRack_mem (s : State) (w : Wave) (own : Bool) (entry : W57) (t : Thread) : (s.placeInRack w own entry t).1.mem = s.mem := by
  unfold State.placeInRack
  dsimp only
  repeat' split
  all_goals simp

@[simp] theorem placeAll_mem (s : State) (c : Ctx) (own : Bool) (a b : BitVec 7) : (s.placeAll c own a b).1.mem = s.mem :=
  List.foldlRecOn (motive := fun acc : State × List Nat => acc.1.mem = s.mem) _ _ rfl fun acc h i _ => by simp [h]

/-! ### Records reached by handle (R293-R303) -/

@[simp] theorem claimRec_mem (s : State) (h : Holder) (r : Record) : (s.claimRec h r).mem = s.mem := by
  unfold State.claimRec
  dsimp only
  repeat' split
  all_goals simp

@[simp] theorem letGo_mem (s : State) (h : Holder) (rid : Nat) : (s.letGo h rid).mem = s.mem := by
  unfold State.letGo
  repeat' split
  all_goals rfl

@[simp] theorem recWrite_mem (s : State) (r : Record) (off : Nat) (v : W64) : (s.recWrite r off v).mem = s.mem := by
  unfold State.recWrite
  repeat' split
  all_goals simp

@[simp] theorem writeHeld_mem (s : State) (vf : Nat) (h : W32) (off : Nat) (v : W64) : (s.writeHeld vf h off v).mem = s.mem := by
  unfold State.writeHeld
  split <;> simp

theorem writeFault_mem (s : State) (r : Record) (off : Nat) : ∀ t ∈ s.writeFault r off, t.mem = s.mem := by
  unfold State.writeFault
  split <;> simp

theorem readFault_mem (s : State) (r : Record) (off : Nat) : ∀ t ∈ s.readFault r off, t.mem = s.mem := by
  unfold State.readFault
  split <;> simp

@[simp] theorem disposeSegment_mem (s : State) (r : Record) (code : Nat) : (s.disposeSegment r code).mem = s.mem := by
  unfold State.disposeSegment
  dsimp only
  repeat' split
  all_goals simp

@[simp] theorem patchRows_mem (s : State) (r : Record) : (s.patchRows r).mem = s.mem := by
  unfold State.patchRows
  split <;> rfl

@[simp] theorem resumeNotice_mem (s : State) (r : Record) : (s.resumeNotice r).mem = s.mem := by
  unfold State.resumeNotice
  repeat' split
  all_goals simp

@[simp] theorem unclaim_mem (s : State) (h : Holder) (rid : Nat) : (s.unclaim h rid).mem = s.mem := by simp [State.unclaim]

@[simp] theorem finishDisposal_mem (s : State) (r : Record) : (s.finishDisposal r).mem = s.mem := by
  unfold State.finishDisposal
  split <;> simp

@[simp] theorem accept_mem (s : State) (h : Holder) (r : Record) (code : Nat) (addr : W57) : (s.accept h r code addr).mem = s.mem := by
  unfold State.accept
  dsimp only
  repeat' split
  all_goals simp

@[simp] theorem dispose_mem (s : State) (h : Holder) (vf : Nat) (x : W32) (code : Nat) (addr : W57) : (s.dispose h vf x code addr).1.mem = s.mem := by
  unfold State.dispose
  repeat' split
  all_goals simp

@[simp] theorem post_mem (s : State) (h : Holder) (vf part : Nat) (x : W32) (queue prio : Nat) : (s.post h vf part x queue prio).1.mem = s.mem := by
  unfold State.post
  repeat' split
  all_goals simp

@[simp] theorem takeRemote_mem (s : State) (h : Holder) (t : Task) (p : RemotePost) (d : Nat) : (s.takeRemote h t p d).mem = s.mem := by
  unfold State.takeRemote
  dsimp only
  repeat' split
  all_goals simp

@[simp] theorem claim_mem (s : State) (h : Holder) (vf part : Nat) (byHandle : Bool) (queue : Nat) (x : W32) :
    (s.claim h vf part byHandle queue x).1.mem = s.mem := by
  unfold State.claim
  repeat' split
  all_goals simp

@[simp] theorem sendRemote_mem (s : State) (c : Ctx) (dst : Option Nat) (pair : Bool) (reqs : List Asked) :
    (s.sendRemote c dst pair reqs).mem = s.mem := by
  simp [State.sendRemote, foldl_mem]

/-! ### Translation caches and fetches that fail -/

@[simp] theorem dropTlb_mem (s : State) (p : TlbEntry → Bool) : (s.dropTlb p).mem = s.mem := rfl

@[simp] theorem fetchFault_mem (s : State) (g : Group) (w : Wave) (cause : Nat) : (s.fetchFault g w cause).mem = s.mem := by
  unfold State.fetchFault
  split <;> simp

/-! ### What is performed at a line's home (R190-R197) -/

@[simp] theorem deliverAt_mem (s : State) (wid : Nat) (ls : List Nat) (d : Nat) (pair : Bool) (v : W64) :
    (s.deliverAt wid ls d pair v).mem = s.mem := by
  unfold State.deliverAt
  repeat' split
  all_goals simp

@[simp] theorem deliver_mem (s : State) (wid lane d : Nat) (pair : Bool) (v : W64) : (s.deliver wid lane d pair v).mem = s.mem := by
  unfold State.deliver
  split <;> simp

@[simp] theorem backBefore_mem (s : State) (o : RemoteOp) (first : W57) : (s.backBefore o first).mem = s.mem := rfl

@[simp] theorem replied_mem (s : State) (wid : Nat) : (s.replied wid).mem = s.mem := by
  unfold State.replied
  dsimp only
  repeat' split
  all_goals simp

@[simp] theorem setCell_mem (s : State) (dpa : Nat) (c : ExactCell) : (s.setCell dpa c).mem = s.mem := rfl

@[simp] theorem findCellError_mem (s : State) (dpa : Nat) : (s.findCellError dpa).mem = s.mem := by
  unfold State.findCellError
  dsimp only
  repeat' split
  all_goals simp

@[simp] theorem dropRemote_mem (s : State) (id : Nat) : (s.dropRemote id).mem = s.mem := rfl

@[simp] theorem answer_mem (s : State) (o : RemoteOp) (v : W64) : (s.answer o v).mem = s.mem := by
  unfold State.answer
  dsimp only
  repeat' split
  all_goals simp

@[simp] theorem unperformed_mem (s : State) (o : RemoteOp) (before : Bool) : (s.unperformed o before).mem = s.mem := by
  unfold State.unperformed
  repeat' split
  all_goals simp

@[simp] theorem countEnd_mem (s : State) (t : Team) : (s.countEnd t).mem = s.mem := by
  unfold State.countEnd
  repeat' split
  all_goals rfl

@[simp] theorem endTeam_mem (s : State) (team : Nat) : (s.endTeam team).mem = s.mem := by
  unfold State.endTeam
  split <;> simp

@[simp] theorem applied_mem (s : State) (team : Nat) : (s.applied team).mem = s.mem := by
  unfold State.applied
  repeat' split
  all_goals simp [foldl_mem]

@[simp] theorem setBank_mem (s : State) (b : Bank) : (s.setBank b).mem = s.mem := by
  unfold State.setBank
  split <;> rfl

@[simp] theorem bankMac_mem (s : State) (bk : Bank) (dpa b : Nat) : (s.bankMac bk dpa b).1.mem = s.mem :=
  List.foldlRecOn (motive := fun st : State × Bank => st.1.mem = s.mem) _ _ rfl fun st h i _ => by simp [h]

@[simp] theorem writeBase_mem (s : State) (team ta : Nat) (bs : List Byte) : (s.writeBase team ta bs).mem = s.mem := by simp [State.writeBase]

@[simp] theorem bankWhole_mem (s : State) (o : BankOp) : (s.bankWhole o).mem = s.mem := by
  unfold State.bankWhole
  dsimp only
  repeat' split
  all_goals simp

@[simp] theorem wakeLane_mem (s : State) (w : Wave) (lane : Nat) (a : Asleep) (v : W64) : (s.wakeLane w lane a v).mem = s.mem := by
  unfold State.wakeLane
  split <;> simp

@[simp] theorem monitorRead_mem (s : State) (vf dpa : Nat) : (s.monitorRead vf dpa).1.mem = s.mem := by
  unfold State.monitorRead
  split <;> simp

/-! ### The matrix engine (R134-R136) -/

@[simp] theorem orWaveFlags_mem (s : State) (wid : Nat) (f : BitVec 8) : (s.orWaveFlags wid f).mem = s.mem := by
  unfold State.orWaveFlags
  dsimp only
  repeat' split
  all_goals simp

@[simp] theorem parkMma_mem (s : State) (o : MmaOp) (cause depth : Nat) (parent : W32) (place : Nat × Nat) (waited : Bool) (deadline : Nat) :
    (s.parkMma o cause depth parent place waited deadline).mem = s.mem := by
  unfold State.parkMma
  repeat' split
  all_goals simp

@[simp] theorem detachMma_mem (s : State) (o : MmaOp) (cause : Nat) : (s.detachMma o cause).mem = s.mem := by
  unfold State.detachMma
  dsimp only
  repeat' split
  all_goals simp

/-! ### The copy engine (R181-R188) -/

@[simp] theorem Run.page_mem (r : Run) (e : Env) (need : Need) (va : Nat) : (r.page e need va).1.s.mem = r.s.mem := rfl

@[simp] theorem Run.read_mem (r : Run) (e : Env) (need : Need) (elem va n : Nat) : (r.read e need elem va n).1.s.mem = r.s.mem :=
  List.foldlRecOn (motive := fun acc : Run × List Byte => acc.1.s.mem = r.s.mem) _ _ rfl fun acc h k _ => by
    dsimp only
    repeat' split
    all_goals simpa using h

@[simp] theorem Run.place_mem (r : Run) (e : Env) (f d : List Byte) (sz elem : Nat) (p : List Int) : (r.place e f d sz elem p).1.s.mem = r.s.mem := by
  unfold Run.place
  dsimp only
  repeat' split
  all_goals simp

@[simp] theorem Run.inward_mem (r : Run) (e : Env) (fill : List Byte) (sz elem off : Nat) (p : Spot) :
    (r.inward e fill sz elem off p).s.mem = r.s.mem := by
  match p with
  | .outside => rfl
  | .over _ => rfl
  | .at a =>
    unfold Run.inward
    dsimp only
    split <;> simp

@[simp] theorem Run.outward_mem (r : Run) (e : Env) (data : List Byte) (elem : Nat) (p : Spot) : (r.outward e data elem p).s.mem = r.s.mem := by
  match p with
  | .outside => rfl
  | .over _ => rfl
  | .at a =>
    exact List.foldlRecOn (motive := fun acc : Run => acc.s.mem = r.s.mem) _ _ rfl fun acc h kv _ => by
      dsimp only
      repeat' split
      all_goals simpa using h

@[simp] theorem runSeg_mem (c : Copy) (p : SegPlan) (e : Env) (j from_ : Nat) (r : Run) : (runSeg c p e j from_ r).s.mem = r.s.mem :=
  List.foldlRecOn (motive := fun acc : Run => acc.s.mem = r.s.mem) _ _ rfl fun acc h i _ => by
    dsimp only
    repeat' split
    all_goals simpa using h

@[simp] theorem runBytes_mem (c : Copy) (e : Env) (base j from_ : Nat) (read : Nat → Byte) (r : Run) :
    (runBytes c e base j from_ read r).s.mem = r.s.mem :=
  List.foldlRecOn (motive := fun acc : Run => acc.s.mem = r.s.mem) _ _ rfl fun acc h i _ => by
    dsimp only
    repeat' split
    all_goals simpa using h

@[simp] theorem landBytes_mem (s : State) (c : Copy) (got : List (Nat × Byte)) : (s.landBytes c got).mem = s.mem := by
  unfold State.landBytes
  split <;> simp

@[simp] theorem parkSegment_mem (s : State) (c : Copy) (j cause gaddr elem : Nat) (body : List Byte) (got : List (Nat × Nat × Byte)) (depth : Nat)
    (parent : W32) (place : Nat × Nat) (waited : Bool) (deadline : Nat) :
    (s.parkSegment c j cause gaddr elem body got depth parent place waited deadline).mem = s.mem := by
  unfold State.parkSegment
  repeat' split
  all_goals simp

@[simp] theorem detachSegment_mem (s : State) (c : Copy) (j cause gaddr elem : Nat) (gpos : List Nat) (off : Nat) (got : List (Nat × Nat × Byte)) :
    (s.detachSegment c j cause gaddr elem gpos off got).mem = s.mem := by
  unfold State.detachSegment
  dsimp only
  repeat' split
  all_goals simp

@[simp] theorem Run.start_mem (s : State) (got : List (Nat × Nat × Byte)) : (Run.start s got).s.mem = s.mem := rfl

@[simp] theorem readRecords_mem (s : State) (c : Copy) (e : Env) : (s.readRecords c e).1.s.mem = s.mem := by
  unfold State.readRecords
  dsimp only
  repeat' split
  all_goals simp

@[simp] theorem takeRecords_mem (s : State) (c : Copy) (f d : List Byte) (sc : List W64) (stop : Option Stop) :
    (s.takeRecords c f d sc stop).mem = s.mem := by
  unfold State.takeRecords
  repeat' split
  all_goals simp [foldl_mem]

@[simp] theorem takeSegment_mem (s : State) (c : Copy) (j : Nat) : (s.takeSegment c j).mem = s.mem := by
  unfold State.takeSegment
  split
  next => rfl
  next h =>
    dsimp only
    split <;> simp [taken_mem _ _ _ _ _ _ _ _ _ h]

@[simp] theorem kept_mem (s : State) (c : Copy) (e : Env) (byte : Nat → Byte) (got : List (Nat × Nat × Byte)) :
    (s.kept c e byte got).s.mem = s.mem := by
  unfold State.kept
  repeat' split
  · rfl
  · refine List.foldlRecOn (motive := fun r : Run => r.s.mem = s.mem) _ _ rfl fun r h x _ => ?_
    split <;> simp [h]
  · rfl

/-! ### Device commits (R150-R154) -/

@[simp] theorem reread_mem (s : State) (cs : List Copy) : (s.reread cs).mem = s.mem := by
  unfold State.reread
  dsimp only
  repeat' split
  all_goals simp [foldl_mem]

@[simp] theorem overlayToBase_mem (s : State) (team : Nat) : (s.overlayToBase team).mem = s.mem := by
  unfold State.overlayToBase
  split <;> simp

@[simp] theorem endCopies_mem (s : State) (cs : List Copy) : (s.endCopies cs).mem = s.mem := by
  unfold State.endCopies
  rw [foldl_mem _ (fun s c => setHandle_mem s _ _ _ _), forget_mem]

@[simp] theorem clearWriteSet_mem (s : State) (team : Nat) (keep : Bool) : (s.clearWriteSet team keep).mem = s.mem := by simp [State.clearWriteSet]

@[simp] theorem endGather_mem (s : State) (team : Nat) (report : W64) : (s.endGather team report).mem = s.mem := by
  unfold State.endGather
  repeat' split
  all_goals simp

@[simp] theorem twinsDiffer_mem (s : State) (t t2 : Team) (own other : W64) : (s.twinsDiffer t t2 own other).mem = s.mem := by
  unfold State.twinsDiffer
  dsimp only
  repeat' split
  all_goals simp

/-! ### Rings and host accesses (R240-R243) -/

@[simp] theorem fetchBytes_mem (s : State) (vf asid va n : Nat) : (s.fetchBytes vf asid va n).1.mem = s.mem := by
  unfold State.fetchBytes
  dsimp only
  repeat' split
  all_goals simp

theorem mem_of_fetchBytes {s t : State} {vf asid va n : Nat} {f : Fetched} (h : s.fetchBytes vf asid va n = (t, f)) : t.mem = s.mem := by
  rw [← fetchBytes_mem s vf asid va n, h]

@[simp] theorem reply_mem (s : State) (r : HostReply) : (s.reply r).mem = s.mem := rfl

@[simp] theorem bindRing_mem (s : State) (vf ring : Nat) : (s.bindRing vf ring).mem = s.mem := by
  unfold State.bindRing
  split <;> rfl

theorem readGroups_mem (s : State) (vf asid : Nat) : ∀ t ∈ s.readGroups vf asid, t.mem = s.mem := by
  unfold State.readGroups
  dsimp only
  split
  next hu =>
    rw [← mem_of_fetchBytes hu]
    split <;> simp
  next => simp
  next hu => simp [mem_of_fetchBytes hu]

/-! ### Commands and launches (R243-R249) -/

@[simp] theorem finishCmd_mem (s : State) (c : Cmd) (status cause : Nat) : (s.finishCmd c status cause).mem = s.mem := rfl

@[simp] theorem startCmd_mem (s : State) (vf ring seq kind : Nat) (f : Cmd → State) (h : ∀ c, (f c).mem = s.mem) :
    (s.startCmd vf ring seq kind f).mem = s.mem := by
  unfold State.startCmd
  repeat' split
  all_goals simp [h]

@[simp] theorem endLaunch_mem (s : State) (id status cause : Nat) : (s.endLaunch id status cause).mem = s.mem := rfl

theorem enterLaunch_mem (s : State) (id consumed : Nat) (b : List Byte) : ∀ t ∈ s.enterLaunch id consumed b, t.mem = s.mem := by
  have enqueued (u : State) (f : Nat → Task) (n : Nat) : ((List.range n).foldl (fun s t => s.enqueue (f t) false) u).mem = u.mem :=
    foldl_mem _ (fun s t => enqueue_mem s _ _) _ u
  unfold State.enterLaunch
  dsimp only
  repeat' split
  all_goals simp [enqueued]
  all_goals exact mem_of_fetchBytes ‹_›

@[simp] theorem stageRanges_mem (s : State) (vf asid : Nat) (b : List Byte) : (s.stageRanges vf asid b).1.mem = s.mem :=
  List.foldlRecOn (motive := fun acc : State × Fetched => acc.1.mem = s.mem) _ _ rfl fun acc h i _ => by
    rw [← h]
    split
    · rw [← fetchBytes_mem acc.1 vf asid (leAt b (24 + 8 * i) 8) (leAt b (48 + 2 * i) 2)]
      split
      next heq => rw [heq]
      next => rfl
    · rfl

theorem startPrologue_mem (s : State) (id : Nat) (c : Cmd) (head : List Byte) : ∀ t ∈ s.startPrologue id c head, t.mem = s.mem := by
  unfold State.startPrologue
  split
  next => simp
  next l _ =>
    have hm := stageRanges_mem s l.vf l.asid c.bytes
    split
    next => simp
    next hu => simpa [hu] using hm
    next hu =>
      rw [hu] at hm
      split <;> simpa using hm

theorem prologueOutcome_mem (s : State) (id : Nat) (s31 : W64) (area : List Byte) : ∀ t ∈ s.prologueOutcome id s31 area, t.mem = s.mem := by
  unfold State.prologueOutcome
  dsimp only
  repeat' split
  next => simp
  next => exact enterLaunch_mem _ _ _ _
  next => simp
  next => simp

@[simp] theorem cleanContext_mem (s : State) (vf asid : Nat) : (s.cleanContext vf asid).mem = s.mem := by
  simp [State.cleanContext, foldl_mem]

/-! ### Pre-emption and the move of a job (R255-R259) -/

@[simp] theorem orderEviction_mem (s : State) (team area : Nat) (renew : Bool) : (s.orderEviction team area renew).mem = s.mem := by
  unfold State.orderEviction
  repeat' split
  all_goals rfl

@[simp] theorem orderPartition_mem (s : State) (part area : Nat) : (s.orderPartition part area).mem = s.mem := by
  simp [State.orderPartition, foldl_mem]

@[simp] theorem settleLeaving_mem (s : State) (part : Nat) : (s.settleLeaving part).mem = s.mem := by
  unfold State.settleLeaving
  split <;> rfl

@[simp] theorem queueSaved_mem (s : State) (team : Nat) : (s.queueSaved team).mem = s.mem := by
  unfold State.queueSaved
  repeat' split
  all_goals rfl

@[simp] theorem moveTeam_mem (s : State) (team pair : Nat) : (s.moveTeam team pair).mem = s.mem := rfl
@[simp] theorem saveTeam_mem (s : State) (team : Nat) : (s.saveTeam team).mem = s.mem := by simp [State.saveTeam]

@[simp] theorem bankPoisoned_mem (s : State) (page : Nat) : (s.bankPoisoned page).mem = s.mem := by
  unfold State.bankPoisoned
  dsimp only
  repeat' split
  all_goals simp [foldl_mem]

theorem moveRecord_mem (s : State) (part rid : Nat) : ∀ t ∈ s.moveRecord part rid, t.mem = s.mem := by
  unfold State.moveRecord
  repeat' split
  all_goals simp

/-! ### Dispatch and placement (R250-R262) -/

@[simp] theorem placeTeam_mem (s : State) (l : Launch) (idx relaunches pair : Nat) (second : Option Nat) :
    (s.placeTeam l idx relaunches pair second).mem = s.mem := by
  unfold State.placeTeam
  split <;> rfl

@[simp] theorem restoreTeam_mem (s : State) (team pair : Nat) : (s.restoreTeam team pair).mem = s.mem := by
  unfold State.restoreTeam
  split
  · rfl
  · dsimp only
    rw [State.updTeam_mem, foldl_mem _ (fun s wid => State.updWave_mem s _ _), moveTeam_mem, foldl_mem _ (fun s wid => State.updWave_mem s _ _)]

theorem fetchHandler_mem (s : State) (vf asid part addr : Nat) : ∀ t r p, s.fetchHandler vf asid part addr = .some t r p → t.mem = s.mem := by
  unfold State.fetchHandler
  dsimp only
  split
  next => simp
  next => simp
  next u b hu =>
    have hum := mem_of_fetchBytes hu
    repeat' split
    next => simp
    next => simp [hum]
    next => simp
    next => simp
    next => simp
    next v pb hv _ => simp [mem_of_fetchBytes hv, hum]

theorem placeHandler_mem (s : State) (l : Launch) (any : Bool) : ∀ t team, s.placeHandler l any = some (t, team) → t.mem = s.mem := by
  unfold State.placeHandler
  split <;> simp

@[simp] theorem dequeue_mem (s : State) (t : Task) : (s.dequeue t).mem = s.mem := rfl

theorem placeSaved_mem (s : State) (k : Task) (team : Nat) : ∀ t, s.placeSaved k team = .left t → t.mem = s.mem := by
  unfold State.placeSaved
  dsimp only
  repeat' split
  all_goals simp

theorem placeFault_mem (s : State) (k : Task) (rid : Nat) : ∀ t, s.placeFault k rid = .left t → t.mem = s.mem := by
  unfold State.placeFault
  dsimp only
  repeat' split
  all_goals simp
  next hf _ _ _ hp => simp [placeHandler_mem _ _ _ _ _ hp, fetchHandler_mem _ _ _ _ _ _ _ _ hf]

theorem placeRemote_mem (s : State) (k : Task) (p : RemotePost) (deadline : Nat) : ∀ t, s.placeRemote k p deadline = .left t → t.mem = s.mem := by
  unfold State.placeRemote
  dsimp only
  repeat' split
  all_goals simp
  next hf _ _ _ hp => simp [placeHandler_mem _ _ _ _ _ hp, fetchHandler_mem _ _ _ _ _ _ _ _ hf]

theorem tryPlace_mem (s : State) (k : Task) : ∀ t, s.tryPlace k = .left t → t.mem = s.mem := by
  unfold State.tryPlace
  dsimp only
  split
  next => exact placeSaved_mem _ _ _
  next => exact placeFault_mem _ _ _
  next => exact placeRemote_mem _ _ _ _
  next =>
    repeat' split
    all_goals simp

@[simp] theorem dispatch_mem (s : State) (part : Nat) : (s.dispatch part).mem = s.mem :=
  List.foldlRecOn (motive := fun acc : State × Option Nat => acc.1.mem = s.mem) _ _ rfl fun acc h k _ => by
    dsimp only
    split
    · exact h
    · split
      next t ht => exact (tryPlace_mem _ _ t ht).trans h
      next =>
        dsimp only
        repeat' split
        all_goals simp [h]

@[simp] theorem noteResident_mem (s : State) (part : Nat) : (s.noteResident part).mem = s.mem := by
  unfold State.noteResident
  split <;> rfl

@[simp] theorem markTask_mem (s : State) (task : Nat) (p : Task → Bool) (f : Task → Task) : (s.markTask task p f).mem = s.mem := rfl

/-! ### Tenants and host registers (R264-R280) -/

@[simp] theorem testWays_mem (s : State) (p : Nat) : (s.testWays p).mem = s.mem := by
  refine foldl_mem _ (fun s e => ?_) _ s
  dsimp only
  split <;> simp

@[simp] theorem endWork_mem (s : State) (lp : Launch → Bool) (tp : Team → Bool) (dp : Dom → Bool) (kp : Task → Bool) (rp : Record → Bool) :
    (s.endWork lp tp dp kp rp).mem = s.mem := by
  simp [State.endWork, foldl_mem]

@[simp] theorem writeRing_mem (s : State) (v k : Nat) (f : Ring → Ring) : (s.writeRing v k f).mem = s.mem := by
  unfold State.writeRing
  split <;> rfl

@[simp] theorem writeMsix_mem (s : State) (v e : Nat) (upper : Bool) (x : W64) : (s.writeMsix v e upper x).mem = s.mem := by
  unfold State.writeMsix
  split <;> rfl

/-! ### Soft errors and link timeouts (R315-R325) -/

@[simp] theorem retireStorage_mem (s : State) (a page : Nat) : (s.retireStorage a page).mem = s.mem := by
  unfold State.retireStorage
  split <;> simp

@[simp] theorem secondError_mem (s : State) (a : Nat) : (s.secondError a).mem = s.mem := by
  unfold State.secondError
  dsimp only
  repeat' split
  all_goals simp

@[simp] theorem strike_mem (s : State) (loc : StoreLoc) (mismatch : List Nat) : (s.strike loc mismatch).mem = s.mem := by
  unfold State.strike
  repeat' split
  all_goals simp

@[simp] theorem poison_mem (s : State) (loc : StoreLoc) : (s.poison loc).mem = s.mem := by
  unfold State.poison
  repeat' split
  all_goals simp

@[simp] theorem timeoutEvent_mem (s : State) (core vf asid : Nat) : (s.timeoutEvent core vf asid).mem = s.mem := by simp [State.timeoutEvent]

@[simp] theorem timeoutAccess_mem (s : State) (r : SpokeReq) : (s.timeoutAccess r).mem = s.mem := by
  unfold State.timeoutAccess
  split <;> simp

@[simp] theorem timeoutAtomic_mem (s : State) (o : RemoteOp) (w : Wave) : (s.timeoutAtomic o w).mem = s.mem := by
  unfold State.timeoutAtomic
  split <;> simp

@[simp] theorem timeoutSegment_mem (s : State) (c : Copy) : (s.timeoutSegment c).mem = s.mem := by
  unfold State.timeoutSegment
  repeat' split
  all_goals simp

/-! ### Records as time passes (R294, R308, R309) -/

theorem grant_mem (s : State) (x : Waiting) : ∀ t ∈ s.grant x, t.mem = s.mem := by
  unfold State.grant
  dsimp only
  repeat' split
  next => simp
  next => simp
  next =>
    intro t ht
    obtain ⟨place, -, rfl⟩ := Option.map_eq_some_iff.1 ht
    cases x <;> simp

@[simp] theorem killWaiting_mem (s : State) (x : Waiting) : (s.killWaiting x).mem = s.mem := by
  cases x <;> simp [State.killWaiting]

@[simp] theorem killHere_mem (s : State) (rid : Nat) : (s.killHere rid).mem = s.mem := by
  simp [State.killHere, foldl_mem]

@[simp] theorem killHolder_mem (s : State) (r : Record) : (s.killHolder r).mem = s.mem := by
  unfold State.killHolder
  split <;> simp

@[simp] theorem expireRecord_mem (s : State) (r : Record) : (s.expireRecord r).mem = s.mem := by simp [State.expireRecord]

/-! ### The state-access registers of a domestique (R304) -/

@[simp] theorem domActs_mem (s : State) (core : Nat) (f : State → Dom → State) (h : ∀ s d, (f s d).mem = s.mem) : (s.domActs core f).mem = s.mem := by
  unfold State.domActs
  repeat' split
  all_goals simp [h]

@[simp] theorem sendKs_mem (s : State) (d : Dom) (h : W32) (reply : KsReply) (m : Nat → SpokeMsg) : (s.sendKs d h reply m).mem = s.mem := by
  simp [State.sendKs]

@[simp] theorem kscmd_mem (s : State) (core : Nat) (ksh : W32) (value : W64) (away : Option (KsReply × (Nat → SpokeMsg)))
    (act : State → Dom → State × W32)
    (h : ∀ s d, (act s d).1.mem = s.mem) : (s.kscmd core ksh value away act).mem = s.mem := by
  refine domActs_mem s core _ fun s d => ?_
  dsimp only
  split <;> simp [h]

@[simp] theorem kscmdDispose_mem (s : State) (core : Nat) (ksh : W32) (value : W64) (code : Nat) (addr : W57) :
    (s.kscmdDispose core ksh value code addr).mem = s.mem := by
  simp [State.kscmdDispose]

/-! ### The spoke links (R300-R303) -/

@[simp] theorem sendAnswer_mem (s : State) (vf link tag : Nat) (v : W64) : (s.sendAnswer vf link tag v).mem = s.mem := rfl
@[simp] theorem sendRefusal_mem (s : State) (vf link tag : Nat) : (s.sendRefusal vf link tag).mem = s.mem := rfl

@[simp] theorem endRemote_mem (s : State) (h : W32) (final : Bool) (v : W64) : (s.endRemote h final v).mem = s.mem := by
  unfold State.endRemote
  split <;> rfl

@[simp] theorem dropRemoteHandle_mem (s : State) (team : Nat) (h : W32) : (s.dropRemoteHandle team h).mem = s.mem := rfl

@[simp] theorem finishReplies_mem (s : State) (wid : Nat) : (s.finishReplies wid).mem = s.mem := by
  unfold State.finishReplies
  dsimp only
  split
  · rfl
  · split
    · rfl
    · rw [foldl_mem, State.updWave_mem]
      intro s r
      split
      · exact foldl_mem _ (fun s i => deliverAt_mem s _ _ _ _ _) _ s
      · split <;> simp
      · rfl

@[simp] theorem takeKs_mem (s : State) (q : KsReq) (v : W64) : (s.takeKs q v).mem = s.mem := by
  unfold State.takeKs
  dsimp only
  repeat' split
  all_goals simp

@[simp] theorem takeReply_mem (s : State) (link id : Nat) (v : W64) : (s.takeReply link id v).mem = s.mem := by
  unfold State.takeReply
  dsimp only
  repeat' split
  all_goals simp

@[simp] theorem takeRefusal_mem (s : State) (link id : Nat) : (s.takeRefusal link id).mem = s.mem := by
  unfold State.takeRefusal
  repeat' split
  all_goals simp

@[simp] theorem peerPost_mem (s : State) (vf : Nat) (h : W32) (ord queue prio : Nat) : (s.peerPost vf h ord queue prio).1.mem = s.mem := by
  unfold State.peerPost
  repeat' split
  all_goals simp

@[simp] theorem peerEnded_mem (s : State) (vf : Nat) (h : W32) : (s.peerEnded vf h).mem = s.mem := by
  unfold State.peerEnded
  split <;> simp

@[simp] theorem peerFailed_mem (s : State) (vf : Nat) (h : W32) : (s.peerFailed vf h).mem = s.mem := by
  unfold State.peerFailed
  repeat' split
  all_goals simp

@[simp] theorem peerExpired_mem (s : State) (vf : Nat) (h : W32) : (s.peerExpired vf h).mem = s.mem := by
  unfold State.peerExpired
  repeat' split
  all_goals simp

@[simp] theorem homeExpired_mem (s : State) (h : W32) : (s.homeExpired h).mem = s.mem := by
  simp [State.homeExpired, foldl_mem]

@[simp] theorem takeMsg_mem (s : State) (link vf : Nat) (m : SpokeMsg) : (s.takeMsg link vf m).mem = s.mem := by
  unfold State.takeMsg
  dsimp only
  repeat' split
  all_goals simp
  · exact readFault_mem _ _ _ _ ‹_›
  · exact writeFault_mem _ _ _ _ ‹_›

/-! ### What runs next (R204-R206) -/

@[simp] theorem coreClock_mem (s : State) (r : Ready) (ready : List Ready) : (s.coreClock r ready).mem = s.mem := rfl

@[simp] theorem startGroup_mem (s : State) (r : Ready) (ready : List Ready) : (s.startGroup r ready).mem = s.mem := by
  unfold State.startGroup
  repeat' split
  all_goals simp

end Sys2Proof.Machine

end

section

/-! LEMMAS. The operations that write global memory keep it in its canonical form: each writes by the primitives `writeMem`, `writeUncached`,
`writeAs`, `putAll`, or removes cells by a filter (for O60). -/

namespace Sys2Proof.Machine

theorem wf_foldl {α : Type} (f : State → α → State) (l : List α) (h : ∀ s a, Memory.wf s.mem = true → Memory.wf (f s a).mem = true) (s : State)
    (hs : Memory.wf s.mem = true) : Memory.wf (l.foldl f s).mem = true :=
  List.foldlRecOn (motive := fun t : State => Memory.wf t.mem = true) l f hs fun t ht a _ => h t a ht

theorem wf_zeroPageAs (s : State) (page : Nat) (bank : Bool) (h : Memory.wf s.mem = true) : Memory.wf (s.zeroPageAs page bank).mem = true :=
  wf_filter _ _ (by rwa [hitPage_mem])

theorem wf_zeroPage (s : State) (page : Nat) (h : Memory.wf s.mem = true) : Memory.wf (s.zeroPage page).mem = true :=
  wf_zeroPageAs s page _ h

theorem wf_performRemote (s : State) (o : RemoteOp) (h : Memory.wf s.mem = true) : Memory.wf (s.performRemote o).mem = true := by
  unfold State.performRemote
  dsimp only
  repeat' split
  all_goals simp [h, wf_writeMem]

theorem wf_applyRed (s : State) (vf asid : Nat) (r : Red) (h : Memory.wf s.mem = true) : Memory.wf (s.applyRed vf asid r).mem = true := by
  unfold State.applyRed
  dsimp only
  repeat' split
  all_goals simp [h, wf_writeMem]

theorem wf_applyAll (s : State) (p : Team → Bool) (h : Memory.wf s.mem = true) : Memory.wf (s.applyAll p).mem = true := by
  refine wf_foldl _ _ (fun s t hs => ?_) s h
  rw [applied_mem, State.updTeam_mem]
  exact wf_foldl _ _ (fun s r hs => wf_applyRed s _ _ r hs) s hs

theorem wf_noteBankPage (s : State) (dpa : Nat) (h : Memory.wf s.mem = true) : Memory.wf (s.noteBankPage dpa).mem = true := by
  unfold State.noteBankPage
  dsimp only
  repeat' split
  all_goals simp [h, wf_filter]

theorem wf_performBank (s : State) (o : BankOp) (h : Memory.wf s.mem = true) : Memory.wf (s.performBank o).mem = true := by
  unfold State.performBank
  dsimp only
  repeat' split
  all_goals simp [h, wf_writeUncached]

theorem wf_segDone (s : State) (c : Copy) (j : Nat) (got : List (Nat × Nat × Byte)) (h : Memory.wf s.mem = true) :
    Memory.wf (s.segDone c j got).mem = true := by
  unfold State.segDone
  dsimp only
  split
  · simp [h]
  · simp [h]
  · rw [State.updCopy_mem]
    refine wf_foldl _ _ (fun s p hs => ?_) s h
    repeat' split
    · exact wf_noteBankPage s _ hs
    · exact hs
    · exact hs

theorem wf_settleSeg (s : State) (c : Copy) (j : Nat) (body : Copy) (point : Nat → List Nat) (off : Nat → Nat) (r : Run) (h : Memory.wf s.mem = true)
    (hr : r.s.mem = s.mem) : Memory.wf (settleSeg s c j body point off r).mem = true := by
  unfold settleSeg
  dsimp only
  split
  · exact h
  · split <;> simp [hr, h]
  · rw [State.wakeRetry_mem]
    refine wf_segDone _ _ _ _ ?_
    rw [foldl_mem _ (fun s p => noteTlb_mem s _ _ _ _), hr]
    exact h

theorem wf_runCopySegment (s : State) (c : Copy) (j : Nat) (h : Memory.wf s.mem = true) : Memory.wf (s.runCopySegment c j).mem = true := by
  unfold State.runCopySegment
  dsimp only
  split
  · split
    · exact h
    · rw [State.wakeRetry_mem]
      exact wf_segDone _ _ _ _ (by split <;> exact h)
  · split
    · exact h
    · split <;> simp [h]
    · split <;> simp [h]
    · refine wf_settleSeg _ _ _ _ _ _ _ h ?_
      repeat' split
      all_goals simp

theorem wf_runRegionSegment (s : State) (c : Copy) (j : Nat) (h : Memory.wf s.mem = true) : Memory.wf (s.runRegionSegment c j).mem = true := by
  unfold State.runRegionSegment
  dsimp only
  repeat' split
  all_goals simp [h, wf_settleSeg]

theorem wf_publishBytes (s : State) (t : Team) (b : Held) (h : Memory.wf s.mem = true) : Memory.wf (s.publishBytes t b).mem = true := by
  refine wf_writeAs _ _ _ ?_
  split
  · exact h
  · refine wf_foldl _ _ (fun s l hs => ?_) s h
    split <;> simp [hs]

theorem wf_publish (s : State) (t : Team) (g : Gather) (h : Memory.wf s.mem = true) : Memory.wf (s.publish t g).mem = true := by
  unfold State.publish
  dsimp only
  repeat' split
  all_goals simp [h, wf_publishBytes]

theorem wf_withSound (s : State) (t : Team) (cs : List Copy) (go : State → State) (hg : ∀ u, Memory.wf u.mem = true → Memory.wf (go u).mem = true)
    (h : Memory.wf s.mem = true) : Memory.wf (s.withSound t cs go).mem = true := by
  unfold State.withSound
  split
  · simp [h]
  · exact hg _ (by simp [h])

theorem wf_hostAccess (s : State) (a : HostAccess) (h : Memory.wf s.mem = true) : ∀ t ∈ s.hostAccess a, Memory.wf t.mem = true := by
  unfold State.hostAccess
  dsimp only
  repeat' split
  all_goals simp [h, wf_writeAs]

theorem wf_hostRequest (s : State) (a : HostAccess) (h : Memory.wf s.mem = true) : Memory.wf (s.hostRequest a).mem = true := by
  unfold State.hostRequest
  cases ha : s.hostAccess a with
  | none => exact h
  | some t => exact wf_hostAccess s a h t ha

theorem wf_hostRetry (s : State) (a : HostAccess) (h : Memory.wf s.mem = true) : Memory.wf (s.hostRetry a).mem = true := by
  unfold State.hostRetry
  cases ha : ({ s with hostWait := s.hostWait.erase a } : State).hostAccess a with
  | none => exact h
  | some t => exact wf_hostAccess { s with hostWait := s.hostWait.erase a } a h t ha

theorem wf_complete (s : State) (c : Cmd) (status cause repeats : Nat) (flags : BitVec 8) (ticks : Nat) (h : Memory.wf s.mem = true) :
    ∀ t ∈ s.complete c status cause repeats flags ticks, Memory.wf t.mem = true := by
  unfold State.complete
  dsimp only
  repeat' split
  all_goals simp [h, wf_writeAs, wf_noteBankPage]

theorem wf_clearRange (s : State) (a n : Nat) (h : Memory.wf s.mem = true) : Memory.wf (s.clearRange a n).mem = true := by
  unfold State.clearRange
  rw [forget_mem]
  exact wf_filter _ _ h

theorem wf_replaceCells (s : State) (a n : Nat) (cells : List Host.Cell) (h : Memory.wf s.mem = true) :
    Memory.wf (s.replaceCells a n cells).mem = true :=
  wf_writeAs _ _ _ (wf_clearRange s a n h)

theorem wf_replaceRange (s : State) (a : Nat) (bs : List Byte) (h : Memory.wf s.mem = true) : Memory.wf (s.replaceRange a bs).mem = true :=
  wf_replaceCells s a _ _ h

theorem wf_writeImage (s : State) (t : Team) (core a : Nat) (h : Memory.wf s.mem = true) : Memory.wf (s.writeImage t core a).mem = true := by
  unfold State.writeImage
  split
  · exact h
  · exact wf_replaceCells s _ _ _ h

theorem wf_writeImages (s : State) (t : Team) (h : Memory.wf s.mem = true) : Memory.wf (s.writeImages t).mem = true := by
  unfold State.writeImages
  dsimp only
  refine wf_foldl _ _ (fun u x hu => ?_) s h
  exact wf_writeImage u _ _ _ hu

theorem wf_scrubCores (s : State) (p vf : Nat) (writeBack : Bool) (h : Memory.wf s.mem = true) :
    Memory.wf (s.scrubCores p vf writeBack).mem = true := by
  unfold State.scrubCores
  cases writeBack with
  | true => exact wf_foldl _ _ (fun s e hs => by rwa [writeBack_mem]) s h
  | false =>
    simp only [Bool.false_eq_true, if_false]
    split
    · exact h
    · exact wf_putAll _ _ (wf_filter _ _ h)

theorem wf_flushPages (s : State) (pages : List Nat) (h : Memory.wf s.mem = true) : Memory.wf (s.flushPages pages).mem = true := by
  unfold State.flushPages
  dsimp only
  refine wf_foldl _ _ (fun s o hs => ?_) _ (wf_foldl _ _ (fun s o hs => wf_performRemote s o hs) s h)
  exact wf_performBank s o hs

theorem wf_freePartition (s : State) (p : Nat) (h : Memory.wf s.mem = true) : Memory.wf (s.freePartition p).mem = true := by
  unfold State.freePartition
  dsimp only
  rw [State.setPart_mem, testWays_mem]
  refine wf_scrubCores _ _ _ _ ?_
  dsimp only
  refine wf_foldl _ _ (fun s e hs => ?_) _ (wf_flushPages _ _ ?_)
  · rw [ungrant_mem]
    exact wf_zeroPageAs s _ _ hs
  · dsimp only
    exact wf_applyAll _ _ (by simp [h])

theorem wf_assignPartition (s : State) (p vf : Nat) (h : Memory.wf s.mem = true) : Memory.wf (s.assignPartition p vf).mem = true :=
  wf_scrubCores s p _ _ h

theorem wf_writeOwner (s : State) (p owner : Nat) (h : Memory.wf s.mem = true) : Memory.wf (s.writeOwner p owner).mem = true := by
  unfold State.writeOwner
  dsimp only
  repeat' split
  all_goals simp [h, wf_freePartition, wf_assignPartition]

theorem wf_resetFunction (s : State) (v : Nat) (h : Memory.wf s.mem = true) : Memory.wf (s.resetFunction v).mem = true := by
  unfold State.resetFunction
  dsimp only
  rw [State.setVf_mem]
  refine wf_foldl _ _ (fun s p hs => wf_scrubCores s p _ _ hs) _ ?_
  dsimp only
  exact wf_applyAll _ _ (by simp [h])

theorem wf_writeEn (s : State) (v : Nat) (en : Bool) (h : Memory.wf s.mem = true) : Memory.wf (s.writeEn v en).mem = true := by
  unfold State.writeEn
  repeat' split
  all_goals simp [h, wf_resetFunction]

theorem wf_freePage (s : State) (page : Nat) (h : Memory.wf s.mem = true) : Memory.wf (s.freePage page).mem = true := by
  unfold State.freePage
  split
  · exact h
  · simp [wf_zeroPage _ _ h]

theorem wf_writePctl (s : State) (p : Nat) (v : W64) (h : Memory.wf s.mem = true) : Memory.wf (s.writePctl p v).mem = true :=
  wf_writeOwner _ _ _ h

theorem wf_writeVfctl (s : State) (v : Nat) (x : W64) (h : Memory.wf s.mem = true) : Memory.wf (s.writeVfctl v x).mem = true :=
  wf_writeEn _ _ _ h

theorem wf_fresh (s : State) (p : Power) : Memory.wf (s.fresh p).mem = true := wf_reset

theorem wf_powerStep (s : State) (h : Memory.wf s.mem = true) : Memory.wf s.powerStep.mem = true := by
  unfold State.powerStep
  repeat' split
  all_goals simp [h, wf_fresh]

end Sys2Proof.Machine

end

section

/-! LEMMAS. Instructions and events that leave global memory as it is: whatever holds of memory before holds of it in every next state. A shape
that several instructions share has one lemma (for O60). -/

namespace Sys2Proof.Machine

variable {P : Cells → Prop} {s : State}

/-! ### Meanings and outcomes -/

/-- Wherever a step goes on, global memory satisfies a property. -/
@[simp] def NextMem (P : Cells → Prop) : Host.Outcome State Fault Refusal → Prop
  | .next t => P t.mem
  | .fault _ => True
  | .refused _ => True

/-- In every state that a meaning gives, global memory satisfies a property. -/
@[simp] def Res.Mem (P : Cells → Prop) : Res → Prop
  | .done t => P t.mem
  | .moved t => P t.mem
  | .hold t => P t.mem
  | .fault _ => True
  | .trap _ _ _ => True
  | .wait => True
  | .stall => True
  | .poisoned _ => True

/-- How an issue ends leaves global memory to the meaning's result. -/
theorem settle_memSat (c : Ctx) {r : Res} (h : P s.mem) (hr : r.Mem P) : P (settle s c r).mem := by
  cases r with
  | done | moved | hold => simpa [settle] using hr
  | fault | trap | wait | stall | poisoned => simpa [settle] using h

theorem issueChecked_memSat {sg : Sig} {cmp : Ctx → Nat → List W64} {g : Group} {w : Wave} {k : Ctx → State → Res} (h : P s.mem)
    (hk : ∀ c u, P u.mem → (k c u).Mem P) : P (issueChecked sg cmp g w s k).mem := by
  unfold issueChecked
  split
  · exact h
  · dsimp only
    generalize (s.interlocked w.wid (sg.flds.flatMap Fld.writes) && !(activeLanes g w).isEmpty) = locked
    generalize (if locked = true then ({ w.coverHold true g.sched with barred := some g.first } : Wave) else w.cover sg g) = v
    split
    · exact settle_memSat _ h trivial
    · split
      · rw [State.countHold_mem]
        exact settle_memSat _ h h
      · split
        · exact settle_memSat _ h trivial
        · split
          · exact h
          · split
            · exact settle_memSat _ h trivial
            · rw [State.countHold_mem]
              exact settle_memSat _ h (hk _ _ h)

/-- An issue touches global memory only through its meaning. -/
theorem issueWith_mem {sg : Sig} {cmp : Ctx → Nat → List W64} {k : Ctx → State → Res} (h : P s.mem) (hk : ∀ c u, P u.mem → (k c u).Mem P) :
    NextMem P (issueWith sg cmp s k) := by
  unfold issueWith
  repeat' split
  · trivial
  · trivial
  · simpa using h
  · exact issueChecked_memSat h hk

theorem issue_mem {sg : Sig} {k : Ctx → State → Res} (h : P s.mem) (hk : ∀ c u, P u.mem → (k c u).Mem P) : NextMem P (issue sg s k) :=
  issueWith_mem h hk

theorem finishFlags_memSat (c : Ctx) (f : Nat → BitVec 8) (write : State → State) (h : P (write s).mem) : (finishFlags c s f write).Mem P := by
  unfold finishFlags
  dsimp only
  split
  · trivial
  · simpa using h

theorem mem_getD {o : Option State} (ho : ∀ t ∈ o, P t.mem) (h : P s.mem) : P (o.getD s).mem := by
  cases o with
  | none => exact h
  | some t => exact ho t rfl

theorem mem_findSome {α : Type} {l : List α} {f : α → Option State} (hf : ∀ a, ∀ t ∈ f a, P t.mem) : ∀ t ∈ l.findSome? f, P t.mem := by
  intro t ht
  obtain ⟨a, -, ha⟩ := List.exists_of_findSome?_eq_some ht
  exact hf a t ha

/-! ### Arithmetic (R92-R107) -/

theorem binary32_mem {n : BitVec 1} {d a b : BitVec 7} {f : W32 → W32 → W32} (h : P s.mem) : NextMem P (binary32 n d a b f s) :=
  issue_mem h fun c u hu => by
    split <;> simpa using hu

theorem binary32F_mem {m : Mods} {n : BitVec 1} {d a b : BitVec 7} {f : Ctx → W32 → W32 → W32 × BitVec 8} (h : P s.mem) :
    NextMem P (binary32F m n d a b f s) :=
  issue_mem h fun c u hu => finishFlags_memSat _ _ _ (by split <;> simpa using hu)

theorem binary64_mem {n : BitVec 1} {d a b : BitVec 7} {f : W64 → W64 → W64} (h : P s.mem) : NextMem P (binary64 n d a b f s) :=
  issue_mem h fun c u hu => by
    split <;> simpa using hu

theorem binary64F_mem {m : Mods} {n : BitVec 1} {d a b : BitVec 7} {f : Ctx → W64 → W64 → W64 × BitVec 8} (h : P s.mem) :
    NextMem P (binary64F m n d a b f s) :=
  issue_mem h fun c u hu => finishFlags_memSat _ _ _ (by split <;> simpa using hu)

theorem unary32_mem {n : BitVec 1} {d a : BitVec 7} {f : W32 → W32} (h : P s.mem) : NextMem P (unary32 n d a f s) := issue_mem h fun c u hu => by
  split <;> simpa using hu

theorem unary32F_mem {m : Mods} {n : BitVec 1} {d a : BitVec 7} {f : Ctx → W32 → W32 × BitVec 8} (h : P s.mem) : NextMem P (unary32F m n d a f s) :=
  issue_mem h fun c u hu => finishFlags_memSat _ _ _ (by split <;> simpa using hu)

theorem unary64F_mem {m : Mods} {n : BitVec 1} {d a : BitVec 7} {f : Ctx → W64 → W64 × BitVec 8} (h : P s.mem) : NextMem P (unary64F m n d a f s) :=
  issue_mem h fun c u hu => finishFlags_memSat _ _ _ (by split <;> simpa using hu)

theorem widen_mem {m : Mods} {n : BitVec 1} {d a : BitVec 7} {f : Ctx → W32 → W64 × BitVec 8} (h : P s.mem) : NextMem P (widen m n d a f s) :=
  issue_mem h fun c u hu => finishFlags_memSat _ _ _ (by split <;> simpa using hu)

theorem narrow_mem {m : Mods} {n : BitVec 1} {d a : BitVec 7} {f : Ctx → W64 → W32 × BitVec 8} (h : P s.mem) : NextMem P (narrow m n d a f s) :=
  issue_mem h fun c u hu => finishFlags_memSat _ _ _ (by split <;> simpa using hu)

theorem ternary32F_mem {m : Mods} {n : BitVec 1} {d a b : BitVec 7} {f : Ctx → W32 → W32 → W32 → W32 × BitVec 8} (h : P s.mem) :
    NextMem P (ternary32F m n d a b f s) :=
  issue_mem h fun c u hu => finishFlags_memSat _ _ _ (by split <;> simpa using hu)

theorem ternary64F_mem {m : Mods} {n : BitVec 1} {d a b : BitVec 7} {f : Ctx → W64 → W64 → W64 → W64 × BitVec 8} (h : P s.mem) :
    NextMem P (ternary64F m n d a b f s) :=
  issue_mem h fun c u hu => finishFlags_memSat _ _ _ (by split <;> simpa using hu)

theorem compare32F_mem {n : BitVec 1} {p : BitVec 3} {a b : BitVec 7} {pro : Bool} {f : Ctx → W32 → W32 → Bool × BitVec 8} (h : P s.mem) :
    NextMem P (compare32F n p a b pro f s) :=
  issue_mem h fun c u hu => finishFlags_memSat _ _ _ (by split <;> simpa using hu)

theorem compare64F_mem {n : BitVec 1} {p : BitVec 3} {a b : BitVec 7} {pro : Bool} {f : Ctx → W64 → W64 → Bool × BitVec 8} (h : P s.mem) :
    NextMem P (compare64F n p a b pro f s) :=
  issue_mem h fun c u hu => finishFlags_memSat _ _ _ (by split <;> simpa using hu)

theorem immediate32_mem {n : BitVec 1} {d a i : BitVec 7} {f : W32 → W32 → W32} (h : P s.mem) : NextMem P (immediate32 n d a i f s) :=
  issue_mem h fun c u hu => by
    split <;> simpa using hu

theorem scalarReg_mem {d a b : BitVec 5} {f : W64 → W64 → W64} (h : P s.mem) : NextMem P (scalarReg d a b f s) :=
  issue_mem h fun c u hu => by simpa using hu

theorem scalarImm_mem {d a : BitVec 5} {i : BitVec 11} {f : W64 → W64 → W64} (h : P s.mem) : NextMem P (scalarImm d a i f s) :=
  issue_mem h fun c u hu => by simpa using hu

theorem execSmovB64_mem {d a : BitVec 5} (h : P s.mem) : NextMem P (execSmovB64 d a s) := issue_mem h fun c u hu => by simpa using hu

theorem execSmovB64Imm_mem {d : BitVec 5} {i : BitVec 11} (h : P s.mem) : NextMem P (execSmovB64Imm d i s) :=
  issue_mem h fun c u hu => by simpa using hu

theorem reduce32_mem {m : Mods} {n : BitVec 1} {d a : BitVec 7} {f : Ctx → W32 → W32 → W32 × BitVec 8} (h : P s.mem) :
    NextMem P (reduce32 m n d a f s) :=
  issue_mem h fun c u hu => finishFlags_memSat _ _ _ (by split <;> simpa using hu)

theorem reduce64_mem {m : Mods} {n : BitVec 1} {d a : BitVec 7} {f : Ctx → W64 → W64 → W64 × BitVec 8} (h : P s.mem) :
    NextMem P (reduce64 m n d a f s) :=
  issue_mem h fun c u hu => finishFlags_memSat _ _ _ (by split <;> simpa using hu)

theorem execRdcAddS32_mem {n : BitVec 1} {d a : BitVec 7} (h : P s.mem) : NextMem P (execRdcAddS32 n d a s) :=
  issue_mem h fun c u hu => finishFlags_memSat _ _ _ (by split <;> simpa using hu)

theorem execRngxB32_mem {n : BitVec 1} {d a b : BitVec 7} (h : P s.mem) : NextMem P (execRngxB32 n d a b s) := issue_mem h fun c u hu => by
  split <;> simpa using hu

theorem execRngxB64_mem {n : BitVec 1} {d a b : BitVec 7} (h : P s.mem) : NextMem P (execRngxB64 n d a b s) := issue_mem h fun c u hu => by
  split <;> simpa using hu

/-! ### Matrix instructions and quantisation (R113-R140) -/

theorem execMma_mem {a : BitVec 7} (h : P s.mem) : NextMem P (execMma a s) := issue_mem h fun c u hu => by
  dsimp only
  repeat' split
  all_goals simp [hu]

theorem execMread_mem {d a : BitVec 7} (h : P s.mem) : NextMem P (execMread d a s) := issue_mem h fun c u hu => by
  dsimp only
  repeat' split
  all_goals simp [hu]

theorem execMwrite_mem {a b : BitVec 7} (h : P s.mem) : NextMem P (execMwrite a b s) := issue_mem h fun c u hu => by
  dsimp only
  repeat' split
  all_goals simp [hu]

theorem execMzero_mem {a : BitVec 7} (h : P s.mem) : NextMem P (execMzero a s) := issue_mem h fun c u hu => by
  dsimp only
  repeat' split
  all_goals simp [hu]

theorem execMstat_mem {d a b : BitVec 7} (h : P s.mem) : NextMem P (execMstat d a b s) := issue_mem h fun c u hu => by
  dsimp only
  repeat' split
  all_goals simp [hu]

theorem execMwin_mem {d a b : BitVec 7} (h : P s.mem) : NextMem P (execMwin d a b s) := issue_mem h fun c u hu => by
  simp only [Res.Mem, put32_mem]
  rw [foldl_mem]
  · exact hu
  · intro t i
    split <;> simp

theorem execCrsv_mem {d a : BitVec 7} (h : P s.mem) : NextMem P (execCrsv d a s) := issue_mem h fun c u hu => by
  dsimp only
  repeat' split
  all_goals simp [hu]

theorem execCrel_mem {d a : BitVec 7} (h : P s.mem) : NextMem P (execCrel d a s) := issue_mem h fun c u hu => by
  dsimp only
  repeat' split
  all_goals simp [hu]

theorem quantWith_mem {w : Nat} {d a g : BitVec 7} (h : P s.mem) : NextMem P (quantWith w d a g s) :=
  issue_mem h fun c u hu => finishFlags_memSat _ _ _ (by simpa using hu)

theorem dquantWith_mem {w : Nat} {d a g : BitVec 7} (h : P s.mem) : NextMem P (dquantWith w d a g s) :=
  issue_mem h fun c u hu => finishFlags_memSat _ _ _ (by simpa using hu)

/-! ### Scratchpad, copies and remote operations (R173-R197) -/

theorem loadWith_mem {size : Nat} {sext pair : Bool} {d a o : BitVec 7} (h : P s.mem) : NextMem P (loadWith size sext pair d a o s) :=
  issue_mem h fun c u hu => by
    repeat' split
    all_goals simp [hu]

theorem storeWith_mem {size : Nat} {pair : Bool} {d a o : BitVec 7} (h : P s.mem) : NextMem P (storeWith size pair d a o s) :=
  issueWith_mem h fun c u hu => by
    dsimp only
    repeat' split
    all_goals simp [hu]

theorem tagWith_mem {sg : Sig} {d : BitVec 7} {f : Ctx → Nat → List (W64 × W16) → Nat → List (W64 × W16) × W32} (h : P s.mem) :
    NextMem P (tagWith sg d f s) :=
  issue_mem h fun c u hu => by
    split <;> simp [hu]

theorem execTaginv_mem {d : BitVec 7} (h : P s.mem) : NextMem P (execTaginv d s) := issue_mem h fun c u hu => by simpa using hu

theorem copyWith_mem {k : CopyKind} {flds : List Fld} {a d : BitVec 7} (h : P s.mem) : NextMem P (copyWith k flds a d s) :=
  issueWith_mem h fun c u hu => by
    dsimp only
    repeat' split
    all_goals simp [hu]

theorem execHget_mem {d : BitVec 7} (h : P s.mem) : NextMem P (execHget d s) := issue_mem h fun c u hu => by
  dsimp only
  repeat' split
  all_goals simp [hu]

theorem execHfree_mem {d a : BitVec 7} (h : P s.mem) : NextMem P (execHfree d a s) := issue_mem h fun c u hu => by
  dsimp only
  repeat' split
  all_goals simp [hu]

theorem execHwait_mem {d a : BitVec 7} (h : P s.mem) : NextMem P (execHwait d a s) := issue_mem h fun c u hu => by
  dsimp only
  repeat' split
  all_goals simp [hu]

theorem remoteWith_mem {fn : Nat} {sg : Sig} {r : RemoteArgs} {dst : Option Nat} (h : P s.mem) : NextMem P (remoteWith fn sg r dst s) :=
  issueWith_mem h fun c u hu => by
    dsimp only
    split
    · trivial
    · split
      all_goals simp only [Res.Mem, State.updWave_mem, State.advance_mem]
      all_goals rw [foldl_mem _ (fun t i => by rw [foldAccess_mem]), noteAll_mem]
      all_goals exact hu

theorem atomWith_mem {fn : Nat} {pair cas : Bool} {n : BitVec 1} {d a b : BitVec 7} (h : P s.mem) : NextMem P (atomWith fn pair cas n d a b s) :=
  remoteWith_mem h

theorem redWith_mem {fn : Nat} {pair : Bool} {a b : BitVec 7} (h : P s.mem) : NextMem P (redWith fn pair a b s) := issueWith_mem h fun c u hu => by
  dsimp only
  repeat' split
  all_goals simp [hu]

theorem bankWith_mem {fn : Nat} {a b : BitVec 7} (h : P s.mem) : NextMem P (bankWith fn a b s) := issueWith_mem h fun c u hu => by
  dsimp only
  repeat' split
  all_goals simp [hu]

theorem execBkwait_mem (h : P s.mem) : NextMem P (execBkwait s) := issue_mem h fun c u hu => by
  split <;> simp [hu]

theorem arriveAt_memSat {fn : Nat} {arr : Ctx → Arrival} {c : Ctx} {finish : Wave → Barrier → State → State}
    (hf : ∀ w b u, (finish w b u).mem = u.mem) (h : P s.mem) : (arriveAt fn arr c s finish).Mem P := by
  unfold arriveAt
  dsimp only
  repeat' split
  all_goals simp [h, hf]

/-! ### Commits, aborts, openings and cache maintenance -/

theorem commitB_mem {lw : Bool} {n : BitVec 1} {d : BitVec 7} (h : P s.mem) : NextMem P (commitB lw n d s) := issue_mem h fun c u hu => by
  dsimp only
  repeat' split
  all_goals simp [hu]

theorem barrierCommit_mem {fn : Nat} {n : BitVec 1} {d : BitVec 7} {finish : Wave → Barrier → State → State}
    (hf : ∀ w b u, (finish w b u).mem = u.mem) (h : P s.mem) : NextMem P (barrierCommit fn n d finish s) := issue_mem h fun c u hu => by
  repeat' split
  · trivial
  · trivial
  · exact arriveAt_memSat hf hu

theorem abortWith_mem {fn : Nat} (h : P s.mem) : NextMem P (abortWith fn s) := issue_mem h fun c u hu => by
  split <;> simp [hu]

theorem execFence_mem {scope : BitVec 3} (h : P s.mem) : NextMem P (execFence scope s) := issue_mem h fun c u hu => by
  split <;> simp [hu]

theorem execOpnW_mem {o : BitVec 20} (h : P s.mem) : NextMem P (execOpnW o s) := issue_mem h fun c u hu => by simpa using hu

theorem openBarrier_mem {fn : Nat} {o : BitVec 20} (h : P s.mem) : NextMem P (openBarrier fn o s) :=
  issue_mem h fun _ _ hu => arriveAt_memSat (finishOpen_mem fn) hu

theorem maintainWith_mem {fn : Nat} {a b : BitVec 7} (h : P s.mem) : NextMem P (maintainWith fn a b s) := issueWith_mem h fun c u hu => by
  dsimp only
  split
  · trivial
  split
  · trivial
  split
  · trivial
  split
  · rw [Res.Mem, foldl_mem _ (fun t i => foldAccess_mem t _ _ _ _ _), noteAll_mem]
    exact hu
  · split
    all_goals
      simp only [Res.Mem, faultBefore_mem]
      rw [foldl_mem, foldl_mem _ (fun t i => foldAccess_mem t _ _ _ _ _), noteAll_mem]
      · exact hu
      · intro t i
        refine foldl_mem _ (fun t p => ?_) _ t
        split <;> simp

/-! ### Branches, ends and votes (R222-R232) -/

theorem branchWith_mem {kind : Nat} {taken : Ctx → Nat → Bool} {o : BitVec 20} (h : P s.mem) : NextMem P (branchWith kind taken o s) :=
  issueWith_mem h fun c u hu => by
    repeat' split
    all_goals simp [hu]

theorem execCallr_mem {a : BitVec 7} (h : P s.mem) : NextMem P (execCallr a s) := issueWith_mem h fun c u hu => by
  repeat' split
  all_goals simp [hu]

theorem execRet_mem (h : P s.mem) : NextMem P (execRet s) := issueWith_mem h fun c u hu => by
  repeat' split
  all_goals simp [hu]

theorem execJmpr_mem {a : BitVec 7} (h : P s.mem) : NextMem P (execJmpr a s) := issueWith_mem h fun c u hu => by
  repeat' split
  all_goals simp [hu]

theorem execExit_mem (h : P s.mem) : NextMem P (execExit s) := issue_mem h fun c u hu => by
  dsimp only
  repeat' split
  all_goals simp [hu]

theorem execTrap_mem {a : BitVec 7} (h : P s.mem) : NextMem P (execTrap a s) := issueWith_mem h fun c u hu => by simpa using hu
theorem execBsync_mem (h : P s.mem) : NextMem P (execBsync s) := issue_mem h fun _ _ hu => arriveAt_memSat finishSync_mem hu
theorem execYield_mem (h : P s.mem) : NextMem P (execYield s) := issue_mem h fun c u hu => by simpa using hu
theorem execNop_mem (h : P s.mem) : NextMem P (execNop s) := issue_mem h fun c u hu => by simpa using hu
theorem execLany_mem {p q : BitVec 3} (h : P s.mem) : NextMem P (execLany p q s) := issue_mem h fun c u hu => by simpa using hu
theorem execLall_mem {p q : BitVec 3} (h : P s.mem) : NextMem P (execLall p q s) := issue_mem h fun c u hu => by simpa using hu
theorem execLbits_mem {d : BitVec 7} {q : BitVec 3} (h : P s.mem) : NextMem P (execLbits d q s) := issue_mem h fun c u hu => by simpa using hu

theorem shuffle_mem {src : Nat → Nat → Nat → Option Nat} {d a b : BitVec 7} (h : P s.mem) : NextMem P (shuffle src d a b s) :=
  issue_mem h fun c u hu => by simpa using hu

theorem execSget_mem {n : BitVec 5} {a : BitVec 7} (h : P s.mem) : NextMem P (execSget n a s) := issueWith_mem h fun c u hu => by simpa using hu

/-! ### Racks and waits (R210-R214, R233-R236) -/

theorem execSpawn_mem {d a b : BitVec 7} (h : P s.mem) : NextMem P (execSpawn d a b s) := issueWith_mem h fun c u hu => by
  split
  · trivial
  · simp only [Res.Mem, put32_mem]
    exact List.foldlRecOn (motive := fun acc : State × List (Nat × W32) => P acc.1.mem) _ _ hu fun acc ha i _ => by simpa using ha

theorem execRegroup_mem {a b : BitVec 7} (h : P s.mem) : NextMem P (execRegroup a b s) := issueWith_mem h fun c u hu => by
  dsimp only
  split
  · trivial
  split
  · trivial
  split
  · trivial
  split
  · trivial
  split
  · split
    · trivial
    · simpa using hu
  split
  next ht =>
    rw [← commitWave_mem u c.w.wid true, ← State.updWave_mem _ c.w.wid, ← placeAll_mem _ c true a b, ht] at hu
    split <;> simpa using hu
  · split <;> simpa using hu

theorem execRacktm_mem {a : BitVec 7} (h : P s.mem) : NextMem P (execRacktm a s) := issue_mem h fun c u hu => by
  dsimp only
  repeat' split
  all_goals simp [hu]

theorem execWaitc_mem {d a b : BitVec 7} (h : P s.mem) : NextMem P (execWaitc d a b s) := issueWith_mem h fun c u hu => by
  dsimp only
  split
  · trivial
  · simp only [Res.Mem, steer_mem]
    rw [foldl_mem _ (fun t i => foldAccess_mem t _ _ _ _ _), noteAll_mem]
    exact hu

/-! ### Special registers, records and check values -/

theorem execSpr_mem {x : BitVec 7} {sel : BitVec 14} (h : P s.mem) : NextMem P (execSpr x sel s) := issue_mem h fun c u hu => by simpa using hu

theorem execSrd_mem {x : BitVec 5} {sel : BitVec 14} (h : P s.mem) : NextMem P (execSrd x sel s) := issue_mem h fun c u hu => by
  repeat' split
  all_goals simp [hu]

theorem execSwr_mem {x : BitVec 5} {sel : BitVec 14} (h : P s.mem) : NextMem P (execSwr x sel s) := issue_mem h fun c u hu => by simpa using hu
theorem execKsclaim_mem {d a : BitVec 7} (h : P s.mem) : NextMem P (execKsclaim d a s) := issue_mem h fun c u hu => by simpa using hu

theorem execKsrd_mem {d a : BitVec 7} (h : P s.mem) : NextMem P (execKsrd d a s) := issue_mem h fun c u hu => by
  dsimp only
  split
  · trivial
  · split
    · refine mem_getD (mem_findSome fun i t ht => ?_) hu
      obtain ⟨r, -, hr⟩ := Option.bind_eq_some_iff.1 ht
      rwa [readFault_mem _ _ _ t hr]
    · split <;> simp [hu]

theorem execKswr_mem {a b : BitVec 7} (h : P s.mem) : NextMem P (execKswr a b s) := issueWith_mem h fun c u hu => by
  dsimp only
  split
  · trivial
  · split
    · refine mem_getD (mem_findSome fun i t ht => ?_) hu
      obtain ⟨r, -, hr⟩ := Option.bind_eq_some_iff.1 ht
      rwa [writeFault_mem _ _ _ t hr]
    · split
      · simp [hu]
      · simp only [Res.Mem]
        rw [foldl_mem _ (fun t i => writeHeld_mem t _ _ _ _)]
        exact hu

theorem disposeWith_mem {code : Nat} {d a : BitVec 7} {b : Option (BitVec 7)} (h : P s.mem) : NextMem P (disposeWith code d a b s) :=
  issueWith_mem h fun c u hu => by
    dsimp only
    repeat' split
    all_goals simp [hu]

theorem execQpost_mem {d a b : BitVec 7} (h : P s.mem) : NextMem P (execQpost d a b s) := issue_mem h fun c u hu => by
  dsimp only
  repeat' split
  all_goals simp [hu]

theorem execQclk_mem {d a : BitVec 7} (h : P s.mem) : NextMem P (execQclk d a s) := issue_mem h fun c u hu => by simpa using hu

theorem execSigrd_mem {d a : BitVec 7} (h : P s.mem) : NextMem P (execSigrd d a s) := issue_mem h fun c u hu => by
  dsimp only
  repeat' split
  all_goals simp [hu]

theorem execSigclr_mem (h : P s.mem) : NextMem P (execSigclr s) := issue_mem h fun c u hu => by simpa using hu

theorem execChkv_mem {d a : BitVec 7} (h : P s.mem) : NextMem P (execChkv d a s) := issue_mem h fun c u hu => by
  dsimp only
  repeat' split
  all_goals simp [hu]

/-! ### Privileged instructions (R285, R286) -/

theorem privWith_mem {flds : List Fld} {d a b : BitVec 7} {wideA : Bool} {bad : Nat → Nat → Bool} {act : State → Ctx → Nat → Nat → State × W32}
    (hact : ∀ u c x y, P u.mem → P (act u c x y).1.mem) (h : P s.mem) : NextMem P (privWith flds d a b wideA bad act s) := issue_mem h fun c u hu => by
  dsimp only
  generalize (if wideA = true then (c.src64 c.elected a).toNat else (c.src32 c.elected a).toNat) = x
  repeat' split
  · trivial
  · trivial
  · simpa using hact _ _ _ _ hu

theorem execAsidld_mem {d a b : BitVec 7} (h : P s.mem) : NextMem P (execAsidld d a b s) := privWith_mem (h := h) fun u c x y hu => by
  dsimp only
  repeat' split
  all_goals simp [hu]

theorem execPgret_mem {d a : BitVec 7} (h : P s.mem) : NextMem P (execPgret d a s) := privWith_mem (h := h) fun u c x y hu => by
  dsimp only
  repeat' split
  all_goals simp [hu]

theorem execWayq_mem {d a b : BitVec 7} (h : P s.mem) : NextMem P (execWayq d a b s) := privWith_mem (h := h) fun u c x y hu => by
  dsimp only
  repeat' split
  all_goals simp [hu]

theorem execTlbinv_mem {d a b : BitVec 7} (h : P s.mem) : NextMem P (execTlbinv d a b s) := privWith_mem (h := h) fun u c x y hu => by
  dsimp only
  repeat' split
  all_goals simp [hu]

theorem execKspool_mem {d a : BitVec 7} (h : P s.mem) : NextMem P (execKspool d a s) := privWith_mem (h := h) fun u c x y hu => by
  dsimp only
  repeat' split
  all_goals simp [hu]

/-! ### Hints, and words and fetches that fail (R34-R42, R223) -/

theorem stopGroup_mem {cause : Nat} (h : P s.mem) : NextMem P (stopGroup cause s) := by
  unfold stopGroup
  repeat' split
  all_goals simp [h]

theorem bindHint_mem {second : Group → Bool} {f : Group → Group} (h : P s.mem) : NextMem P (bindHint second f s) := by
  unfold bindHint
  repeat' split
  · trivial
  · exact stopGroup_mem h
  · exact h

theorem execUnassignedSlot_mem {word : IWord} (h : P s.mem) : NextMem P (execUnassignedSlot word s) := stopGroup_mem h

theorem execInstructionFetch_mem (h : P s.mem) : NextMem P (execInstructionFetch s) := by
  unfold execInstructionFetch
  dsimp only
  repeat' split
  all_goals simp [h]

/-! ### Events of the engines -/

theorem execMonitorArm_mem {wid lane : Nat} (h : P s.mem) : NextMem P (execMonitorArm wid lane s) := by
  have read {vf dpa : Nat} {t : State} {m : Option W32} (e : s.monitorRead vf dpa = (t, m)) : P t.mem := by
    rwa [← monitorRead_mem s vf dpa, e] at h
  unfold execMonitorArm
  dsimp only
  repeat' split
  all_goals simp [h]
  · rwa [taken_mem _ _ _ _ _ _ _ _ _ ‹_›]
  · exact read ‹_›
  · exact read ‹_›
  · exact read ‹_›
  · exact read ‹_›

theorem execMonitorWake_mem {wid lane : Nat} (h : P s.mem) : NextMem P (execMonitorWake wid lane s) := by
  unfold execMonitorWake
  dsimp only
  repeat' split
  all_goals simp [h]

theorem execRackTimerExpiry_mem {wid : Nat} (h : P s.mem) : NextMem P (execRackTimerExpiry wid s) := by
  unfold execRackTimerExpiry
  repeat' split
  all_goals simp [h]

theorem execMmaStart_mem {op : Nat} (h : P s.mem) : NextMem P (execMmaStart op s) := by
  unfold execMmaStart
  repeat' split
  all_goals simp [h]

theorem execMmaComplete_mem {op : Nat} (h : P s.mem) : NextMem P (execMmaComplete op s) := by
  unfold execMmaComplete
  dsimp only
  repeat' split
  all_goals simp [h]

/-! ### Events of rings, commands and launches (R240-R249) -/

theorem execTicketRead_mem {vf ring : Nat} (h : P s.mem) : NextMem P (execTicketRead vf ring s) := by
  unfold execTicketRead
  dsimp only
  repeat' split
  all_goals simp [h]

theorem execPublishWrite_mem {vf ring : Nat} {value : W64} (h : P s.mem) : NextMem P (execPublishWrite vf ring value s) := by
  unfold execPublishWrite
  dsimp only
  repeat' split
  all_goals simp [h]

theorem execNotifyWrite_mem {vf : Nat} {ring : RingWord} (h : P s.mem) : NextMem P (execNotifyWrite vf ring s) := by
  unfold execNotifyWrite
  dsimp only
  repeat' split
  all_goals simp [h]

theorem execConfigurationReread_mem {vf ring : Nat} (h : P s.mem) : NextMem P (execConfigurationReread vf ring s) := by
  unfold execConfigurationReread
  dsimp only
  split
  · exact h
  · split
    · exact h
    next t ht =>
      have hm := readGroups_mem _ _ _ t ht
      split <;> simpa [hm] using h

theorem execCheadWrite_mem {vf ring : Nat} {value : W64} (h : P s.mem) : NextMem P (execCheadWrite vf ring value s) := by
  unfold execCheadWrite
  split <;> simpa using h

theorem execSlotConsume_mem {vf ring : Nat} (h : P s.mem) : NextMem P (execSlotConsume vf ring s) := by
  unfold execSlotConsume
  dsimp only
  split
  · exact h
  · split
    · exact h
    next hf => simpa [mem_of_fetchBytes hf] using h
    next hf => simpa [mem_of_fetchBytes hf] using h

theorem execNopCommand_mem {vf ring seq : Nat} (h : P s.mem) : NextMem P (execNopCommand vf ring seq s) := by
  unfold execNopCommand
  rw [NextMem, startCmd_mem]
  · exact h
  · simp

theorem execBarrier_mem {vf ring seq : Nat} (h : P s.mem) : NextMem P (execBarrier vf ring seq s) := by
  unfold execBarrier
  rw [NextMem, startCmd_mem]
  · exact h
  · intro c
    split <;> simp

theorem execLaunch_mem {vf ring seq : Nat} (h : P s.mem) : NextMem P (execLaunch vf ring seq s) := by
  unfold execLaunch
  rw [NextMem, startCmd_mem]
  · exact h
  · intro c
    dsimp only
    split
    · simp
    split
    · rfl
    next ht => simp [mem_of_fetchBytes ht]
    next ht =>
      split
      next hu =>
        rw [State.wakeRetry_mem]
        split at hu
        · simpa using (enterLaunch_mem _ _ _ _ _ hu).trans (by simp [mem_of_fetchBytes ht])
        · simpa using (startPrologue_mem _ _ _ _ _ hu).trans (by simp [mem_of_fetchBytes ht])
      · rfl

theorem execPrologueEnd_mem {launch : Nat} (h : P s.mem) : NextMem P (execPrologueEnd launch s) := by
  unfold execPrologueEnd
  dsimp only
  repeat' split
  all_goals simp [h]
  next ht => simpa [prologueOutcome_mem _ _ _ _ _ ht] using h

theorem execPrologueRepeat_mem {launch : Nat} (h : P s.mem) : NextMem P (execPrologueRepeat launch s) := by
  unfold execPrologueRepeat
  repeat' split
  all_goals simp [h]
  next ht => simpa [startPrologue_mem _ _ _ _ _ ht] using h

/-! ### Events of teams, tenants and errors -/

theorem execBudgetExpiry_mem {team : Nat} (h : P s.mem) : NextMem P (execBudgetExpiry team s) := by
  unfold execBudgetExpiry
  repeat' split
  all_goals simp [h]

theorem execEvictionOrder_mem {unit : EvictUnit} {saveArea : Nat} (h : P s.mem) : NextMem P (execEvictionOrder unit saveArea s) := by
  unfold execEvictionOrder
  split <;> simpa using h

theorem execLaunchDeadlineExpiry_mem {launch : Nat} (h : P s.mem) : NextMem P (execLaunchDeadlineExpiry launch s) := by
  unfold execLaunchDeadlineExpiry
  dsimp only
  repeat' split
  all_goals simp [h]

theorem moveRecords_mem (s : State) (part : Nat) (rids : List Nat) :
    ∀ t ∈ rids.foldl (fun (o : Option State) rid => o.bind fun s => s.moveRecord part rid) (some s), t.mem = s.mem := by
  refine List.foldlRecOn (motive := fun o : Option State => ∀ t ∈ o, t.mem = s.mem) _ _ (by simp) fun o ho rid _ t ht => ?_
  obtain ⟨u, hu, htu⟩ := Option.bind_eq_some_iff.1 ht
  rw [moveRecord_mem _ _ _ t htu, ho u hu]

theorem execRecordMove_mem {team part : Nat} (h : P s.mem) : NextMem P (execRecordMove team part s) := by
  unfold execRecordMove
  dsimp only
  repeat' split
  all_goals simp [h]
  all_goals rwa [moveRecords_mem _ _ _ _ ‹_›]

theorem execTeamStart_mem {team : Nat} (h : P s.mem) : NextMem P (execTeamStart team s) := by
  unfold execTeamStart
  dsimp only
  repeat' split
  · exact h
  · exact h
  · exact h
  · simp only [NextMem, State.wakeRetry_mem, State.updTeam_mem]
    rw [foldl_mem]
    · exact h
    · intro u b
      rw [foldl_mem]
      exact fun _ _ => rfl

theorem execAffinityWaitExpiry_mem {task : Nat} (h : P s.mem) : NextMem P (execAffinityWaitExpiry task s) := by simpa [execAffinityWaitExpiry] using h
theorem execStarvationBlock_mem {task : Nat} (h : P s.mem) : NextMem P (execStarvationBlock task s) := by simpa [execStarvationBlock] using h
theorem execQenWrite_mem {part : Nat} {value : W64} (h : P s.mem) : NextMem P (execQenWrite part value s) := by simpa [execQenWrite] using h
theorem execHpolWrite_mem {vf : Nat} {value : W64} (h : P s.mem) : NextMem P (execHpolWrite vf value s) := by simpa [execHpolWrite] using h

theorem execCellBlockGrant_mem {vf page : Nat} (h : P s.mem) : NextMem P (execCellBlockGrant vf page s) := by
  unfold execCellBlockGrant
  split <;> simpa using h

theorem execLogicalDeviceBind_mem {ld host : Nat} (h : P s.mem) : NextMem P (execLogicalDeviceBind ld host s) := by
  unfold execLogicalDeviceBind
  split <;> simpa using h

theorem execSoftError_mem {loc : StoreLoc} {sort : ErrorSort} (h : P s.mem) : NextMem P (execSoftError loc sort s) := by
  unfold execSoftError
  repeat' split
  all_goals simp [h]

theorem execPatrolRead_mem {loc : StoreLoc} (h : P s.mem) : NextMem P (execPatrolRead loc s) := by
  unfold execPatrolRead
  dsimp only
  repeat' split
  all_goals simp [h]

theorem execSpareFill_mem {page : Nat} (h : P s.mem) : NextMem P (execSpareFill page s) := by
  unfold execSpareFill
  dsimp only
  repeat' split
  all_goals simp [h]

theorem execLinkTimeout_mem {request : Nat} (h : P s.mem) : NextMem P (execLinkTimeout request s) := by
  unfold execLinkTimeout
  repeat' split
  all_goals simp [h]

/-! ### Power, firmware and links (R282, R381-R383) -/

theorem execPerstAssert_mem {port : Nat} (h : P s.mem) : NextMem P (execPerstAssert port s) := by
  unfold execPerstAssert
  dsimp only
  repeat' split
  all_goals simp [h]

theorem execPerstRelease_mem {port : Nat} (h : P s.mem) : NextMem P (execPerstRelease port s) := by simpa [execPerstRelease] using h
theorem execThermalThrottle_mem (h : P s.mem) : NextMem P (execThermalThrottle s) := by simpa [execThermalThrottle] using h
theorem execThermalRecover_mem (h : P s.mem) : NextMem P (execThermalRecover s) := by simpa [execThermalRecover] using h

theorem execFirmwareDownload_mem {image : List Byte} (h : P s.mem) : NextMem P (execFirmwareDownload image s) := by
  unfold execFirmwareDownload
  repeat' split
  all_goals simp [h]

theorem execAssistAnswer_mem {part : Nat} {answer : AssistAnswer} (h : P s.mem) : NextMem P (execAssistAnswer part answer s) := by
  unfold execAssistAnswer
  dsimp only
  repeat' split
  all_goals simp [h]
  next ht => simpa [prologueOutcome_mem _ _ _ _ _ ht] using h

/-! ### Events of records, domestiques and spoke links -/

theorem execRecordGrant_mem {part : Nat} (h : P s.mem) : NextMem P (execRecordGrant part s) := by
  unfold execRecordGrant
  dsimp only
  split
  · exact h
  next t ht =>
    obtain ⟨e, -, he⟩ := List.exists_of_findSome?_eq_some ht
    split at he
    · simp at he
    · split at he
      · simp at he
      · obtain ⟨u, hu, rfl⟩ := Option.map_eq_some_iff.1 he
        simpa [grant_mem _ _ _ hu] using h

theorem execPoolWaitDeadline_mem {unit : Nat} (h : P s.mem) : NextMem P (execPoolWaitDeadline unit s) := by
  unfold execPoolWaitDeadline
  dsimp only
  repeat' split
  all_goals simp [h]

theorem execFaultDeadlineExpiry_mem {record : Nat} (h : P s.mem) : NextMem P (execFaultDeadlineExpiry record s) := by
  unfold execFaultDeadlineExpiry
  repeat' split
  all_goals simp [h]

theorem execWaveRebuild_mem {record : Nat} (h : P s.mem) : NextMem P (execWaveRebuild record s) := by
  unfold execWaveRebuild
  dsimp only
  repeat' split
  all_goals simp [h]

theorem execKsdataRead_mem {core : Nat} {ksh : W32} {ksoff : BitVec 17} (h : P s.mem) : NextMem P (execKsdataRead core ksh ksoff s) := by
  unfold execKsdataRead
  rw [NextMem, domActs_mem]
  · exact h
  · intro u d
    dsimp only
    repeat' split
    all_goals simp
    next ht => simpa using readFault_mem _ _ _ _ ht

theorem execKsdataWrite_mem {core : Nat} {ksh : W32} {ksoff : BitVec 17} {value : W64} (h : P s.mem) :
    NextMem P (execKsdataWrite core ksh ksoff value s) := by
  unfold execKsdataWrite
  rw [NextMem, domActs_mem]
  · exact h
  · intro u d
    dsimp only
    repeat' split
    all_goals simp
    next ht => simpa using writeFault_mem _ _ _ _ ht

theorem execKscmdClaim_mem {core : Nat} {ksh : W32} {value : W64} (h : P s.mem) : NextMem P (execKscmdClaim core ksh value s) := by
  simpa [execKscmdClaim] using h

theorem execKscmdResume_mem {core : Nat} {ksh : W32} {value : W64} (h : P s.mem) : NextMem P (execKscmdResume core ksh value s) := by
  simpa [execKscmdResume] using h

theorem execKscmdRetry_mem {core : Nat} {ksh : W32} {value : W64} (h : P s.mem) : NextMem P (execKscmdRetry core ksh value s) := by
  simpa [execKscmdRetry] using h

theorem execKscmdRedirect_mem {core : Nat} {ksh : W32} {ksaddr : W57} {value : W64} (h : P s.mem) :
    NextMem P (execKscmdRedirect core ksh ksaddr value s) := by
  unfold execKscmdRedirect
  rw [NextMem, kscmdDispose_mem, domActs_mem]
  · exact h
  · exact fun u d => updKs_mem u _ _

theorem execKscmdKill_mem {core : Nat} {ksh : W32} {value : W64} (h : P s.mem) : NextMem P (execKscmdKill core ksh value s) := by
  simpa [execKscmdKill] using h

theorem execKscmdPost_mem {core : Nat} {ksh : W32} {value : W64} (h : P s.mem) : NextMem P (execKscmdPost core ksh value s) := by
  simpa [execKscmdPost] using h

theorem execDomestiqueHandlerEnd_mem {core : Nat} (h : P s.mem) : NextMem P (execDomestiqueHandlerEnd core s) := by
  unfold execDomestiqueHandlerEnd
  repeat' split
  all_goals simp [h]

theorem execSpokeFlitReceive_mem {link group : Nat} {authentic : Bool} {msg : SpokeMsg} (h : P s.mem) :
    NextMem P (execSpokeFlitReceive link group authentic msg s) := by
  unfold execSpokeFlitReceive
  repeat' split
  all_goals simp [h]

theorem execRemotePostArrival_mem {post : RemotePost} (h : P s.mem) : NextMem P (execRemotePostArrival post s) := by
  unfold execRemotePostArrival
  repeat' split
  all_goals simp [h]

end Sys2Proof.Machine

end

section

/-! LEMMAS. Instructions and events that write global memory keep its canonical form, and so does the dispatch of every instruction (for O60). -/

namespace Sys2Proof.Machine

variable {P : Cells → Prop} {s : State}

/-- Wherever a step goes on, global memory is in its canonical form. -/
abbrev NextFormed (o : Host.Outcome State Fault Refusal) : Prop := NextMem (Memory.wf · = true) o

theorem execScrub_formed {d a b : BitVec 7} (h : Memory.wf s.mem = true) : NextFormed (execScrub d a b s) :=
  privWith_mem (P := (Memory.wf · = true)) (h := h) fun u c x y hu => by
    dsimp only
    split
    · exact wf_foldl _ _ (fun t e ht => wf_zeroPageAs t _ _ ht) u hu
    · exact hu

theorem execRemoteOpPerform_formed {op : Nat} (h : Memory.wf s.mem = true) : NextFormed (execRemoteOpPerform op s) := by
  unfold execRemoteOpPerform
  repeat' split
  all_goals simp [h, wf_performRemote]
  next ht => rwa [taken_mem _ _ _ _ _ _ _ _ _ ht]

theorem execDeferredReductionApply_formed {team : Nat} (h : Memory.wf s.mem = true) : NextFormed (execDeferredReductionApply team s) := by
  unfold execDeferredReductionApply
  repeat' split
  all_goals simp [h, wf_applyRed]

theorem execBankOpPerform_formed {op : Nat} (h : Memory.wf s.mem = true) : NextFormed (execBankOpPerform op s) := by
  unfold execBankOpPerform
  dsimp only
  repeat' split
  all_goals simp [h, wf_performBank, wf_noteBankPage]
  next ht => rwa [taken_mem _ _ _ _ _ _ _ _ _ ht]

theorem execCopySegmentRun_formed {copy seg : Nat} (h : Memory.wf s.mem = true) : NextFormed (execCopySegmentRun copy seg s) := by
  unfold execCopySegmentRun
  dsimp only
  repeat' split
  all_goals simp [h, wf_runRegionSegment, wf_runCopySegment]

theorem execDeviceCommitPublish_formed {team : Nat} (h : Memory.wf s.mem = true) : NextFormed (execDeviceCommitPublish team s) := by
  unfold execDeviceCommitPublish
  repeat' split
  · exact h
  · exact h
  · exact h
  · rw [NextFormed, NextMem, State.wakeRetry_mem]
    exact wf_withSound _ _ _ _ (fun u hu => wf_publish u _ _ hu) h
  · exact h
  · exact h
  · rw [NextFormed, NextMem, State.wakeRetry_mem]
    refine wf_withSound _ _ _ _ (fun u hu => ?_) h
    dsimp only
    split
    · exact wf_publish _ _ _ hu
    · simp [hu]

theorem execHostMemRead_formed {vf dpa len : Nat} (h : Memory.wf s.mem = true) : NextFormed (execHostMemRead vf dpa len s) := by
  unfold execHostMemRead
  split
  · exact h
  · exact wf_hostRequest _ _ h

theorem execHostMemWrite_formed {vf dpa : Nat} {data : List Byte} (h : Memory.wf s.mem = true) : NextFormed (execHostMemWrite vf dpa data s) := by
  unfold execHostMemWrite
  split
  · exact h
  · exact wf_hostRequest _ _ h

theorem execCommandComplete_formed {vf ring seq : Nat} (h : Memory.wf s.mem = true) : NextFormed (execCommandComplete vf ring seq s) := by
  unfold execCommandComplete
  dsimp only
  split
  · exact h
  split
  · exact h
  · split
    · split
      next ht => simpa using wf_complete _ _ _ _ _ _ _ h _ ht
      · exact h
    · exact h
  · split
    · split
      next ht => simpa using wf_complete _ _ _ _ _ _ _ h _ ht
      · exact h
    · exact h
  · split
    · exact h
    split
    · exact h
    split
    next ht =>
      obtain ⟨u, hu, rfl⟩ := Option.map_eq_some_iff.1 ht
      simpa using wf_complete _ _ _ _ _ _ _ (by simpa using h) u hu
    · simpa using h

theorem execImageWrite_formed {team : Nat} (h : Memory.wf s.mem = true) : NextFormed (execImageWrite team s) := by
  unfold execImageWrite
  dsimp only
  repeat' split
  · exact h
  · exact h
  · simpa using h
  all_goals simp [foldl_mem _ saveTeam_mem, wf_writeImages, h]

theorem execJobMemoryMove_formed {item : MoveItem} (h : Memory.wf s.mem = true) : NextFormed (execJobMemoryMove item s) := by
  cases item with
  | saveCells page area =>
    unfold execJobMemoryMove
    dsimp only
    split
    · exact h
    · rw [NextFormed, NextMem, State.wakeRetry_mem]
      refine wf_replaceRange _ _ _ ?_
      rw [foldl_mem _ (fun t i => findCellError_mem t _)]
      exact h
  | restoreCells page area =>
    unfold execJobMemoryMove
    dsimp only
    split
    · exact h
    · rw [NextFormed, NextMem, State.wakeRetry_mem, forget_mem, foldl_mem _ (fun t i => setCell_mem t _ _)]
      exact h
  | saveBank page area => simpa [execJobMemoryMove] using wf_replaceRange _ _ _ (by simpa using h)
  | restoreBank page area => simpa [execJobMemoryMove] using wf_noteBankPage s _ h

theorem execPartitionFree_formed {part : Nat} (h : Memory.wf s.mem = true) : NextFormed (execPartitionFree part s) := wf_writeOwner _ _ _ h
theorem execPartitionAssign_formed {part vf : Nat} (h : Memory.wf s.mem = true) : NextFormed (execPartitionAssign part vf s) := wf_writeOwner _ _ _ h
theorem execVfEnable_formed {vf : Nat} (h : Memory.wf s.mem = true) : NextFormed (execVfEnable vf s) := wf_writeEn _ _ _ h
theorem execVfDisable_formed {vf : Nat} (h : Memory.wf s.mem = true) : NextFormed (execVfDisable vf s) := wf_writeEn _ _ _ h

theorem execFunctionLevelReset_formed {vf : Nat} (h : Memory.wf s.mem = true) : NextFormed (execFunctionLevelReset vf s) := by
  simpa [execFunctionLevelReset] using wf_resetFunction s _ h

theorem execPageOwnershipChange_formed {page : Nat} {owner : Option Nat} (h : Memory.wf s.mem = true) :
    NextFormed (execPageOwnershipChange page owner s) := by
  unfold execPageOwnershipChange
  dsimp only
  repeat' split
  all_goals simp [h, wf_freePage]

theorem execBackgroundScrub_formed {page : Nat} (h : Memory.wf s.mem = true) : NextFormed (execBackgroundScrub page s) := by
  unfold execBackgroundScrub
  split
  · exact wf_filter _ _ h
  · exact h

theorem execRegisterWrite_formed {reg : HostReg} {value : W64} (h : Memory.wf s.mem = true) : NextFormed (execRegisterWrite reg value s) := by
  cases reg with
  | publish v k => exact execPublishWrite_mem h
  | notify v k => exact execNotifyWrite_mem h
  | chead v k => exact execCheadWrite_mem h
  | hpol v => exact execHpolWrite_mem h
  | qen p => exact execQenWrite_mem h
  | pctl p => exact wf_writePctl _ _ _ h
  | vfctl v => exact wf_writeVfctl _ _ _ h
  | gtbase v => 
    simp only [execRegisterWrite, NextMem]
    split <;> simp [h]
  | gtcnt v =>
    simp only [execRegisterWrite, NextMem]
    split <;> simp [h]
  | msixWord v e u =>
    simp only [execRegisterWrite, NextMem]
    split <;> simp [h]
  | _ => simpa [execRegisterWrite] using h

theorem execTaskDispatch_mem {part : Nat} (h : P s.mem) : NextMem P (execTaskDispatch part s) := by
  unfold execTaskDispatch
  dsimp only
  repeat' split
  all_goals simp [h]

theorem execPowerUp_formed (h : Memory.wf s.mem = true) : NextFormed (execPowerUp s) := by
  unfold execPowerUp
  split
  · exact h
  · exact wf_fresh _ _

theorem execThermtrip_formed (h : Memory.wf s.mem = true) : NextFormed (execThermtrip s) := by
  unfold execThermtrip
  split
  · exact h
  · exact wf_fresh _ _

theorem execPwrfail_formed (h : Memory.wf s.mem = true) : NextFormed (execPwrfail s) := by
  unfold execPwrfail
  split
  · exact h
  · exact wf_fresh _ _

/-- Each instruction and event keeps global memory in its canonical form, by the lemma of the shape or the meaning that its arm calls. -/
theorem exec_formed (i : Instr) (h : Memory.wf s.mem = true) : NextFormed (exec i s) := by
  cases i with
  | addB32 | subB32 | minS32 | minZ32 | maxS32 | maxZ32 | mulB32 | mulhiS32 | mulhiZ32 | andB32 | orB32 | xorB32 | shlB32 | shrZ32 | shrS32 | bfxZ32
    | bfxS32 =>
    dsimp only [exec]; exact binary32_mem h
  | addsS32 | subsS32 | divS32 | divZ32 | remS32 | remZ32 | addF32 | subF32 | mulF32 | divF32 | minF32 | maxF32 | addF16 | subF16 | mulF16 | divF16
    | addBf16 | subBf16 | mulBf16 =>
    dsimp only [exec]; exact binary32F_mem h
  | popcB32 | clzB32 => dsimp only [exec]; exact unary32_mem h
  | addB32Imm | andB32Imm | shlB32Imm | shrZ32Imm => dsimp only [exec]; exact immediate32_mem h
  | addB64 | subB64 | mulB64 | shlB64 | shrZ64 | shrS64 => dsimp only [exec]; exact binary64_mem h
  | bfiB32 | fmaF32 | fmaF16 | fmaBf16 => dsimp only [exec]; exact ternary32F_mem h
  | cmpEqB32 | cmpNeB32 | cmpLtS32 | cmpLtZ32 | cmpEqF32 | cmpLtF32 | cmpLeF32 => dsimp only [exec]; exact compare32F_mem h
  | cmpEqB64 | cmpLtS64 | cmpLtZ64 | cmpEqF64 | cmpLtF64 | cmpLeF64 => dsimp only [exec]; exact compare64F_mem h
  | saddB64 | ssubB64 | smulB64 | sandB64 | sorB64 | sxorB64 | sshlB64 | sshrZ64 | scmpEqB64 | scmpLtS64 | scmpLtZ64 =>
    dsimp only [exec]; exact scalarReg_mem h
  | saddB64Imm | ssubB64Imm | smulB64Imm | sandB64Imm | sorB64Imm | sxorB64Imm | sshlB64Imm | sshrZ64Imm | scmpEqB64Imm | scmpLtS64Imm |
    scmpLtZ64Imm =>
    dsimp only [exec]; exact scalarImm_mem h
  | smovB64 => exact execSmovB64_mem h
  | smovB64Imm => exact execSmovB64Imm_mem h
  | sqrtF32 | rcpF32 | rsqF32 | exp2F32 | log2F32 | sinpiF32 | cospiF32 | sqrtF16 | rcpF16 | rsqF16 | exp2F16 | log2F16 | cvtF32F16 | cvtF16F32 |
    cvtF32Bf16 | cvtBf16F32 | cvtS32F32 | cvtZ32F32 | cvtF32S32 | cvtF32Z32 =>
    dsimp only [exec]; exact unary32F_mem h
  | addF64 | subF64 | mulF64 | divF64 | minF64 | maxF64 => dsimp only [exec]; exact binary64F_mem h
  | fmaF64 => dsimp only [exec]; exact ternary64F_mem h
  | sqrtF64 | cvtS64F64 | cvtF64S64 => dsimp only [exec]; exact unary64F_mem h
  | cvtF64F32 => dsimp only [exec]; exact widen_mem h
  | cvtF32F64 => dsimp only [exec]; exact narrow_mem h
  | rdcAddF32 | rdcMinF32 | rdcMaxF32 => dsimp only [exec]; exact reduce32_mem h
  | rdcAddF64 | rdcAddZ64 => dsimp only [exec]; exact reduce64_mem h
  | rdcAddS32 => exact execRdcAddS32_mem h
  | rngxB32 => exact execRngxB32_mem h
  | rngxB64 => exact execRngxB64_mem h
  | mma => exact execMma_mem h
  | mread => exact execMread_mem h
  | mwrite => exact execMwrite_mem h
  | mzero => exact execMzero_mem h
  | mstat => exact execMstat_mem h
  | mwin => exact execMwin_mem h
  | crsv => exact execCrsv_mem h
  | crel => exact execCrel_mem h
  | quantAq8 | quantAq4 => dsimp only [exec]; exact quantWith_mem h
  | dquantAq8 | dquantAq4 => dsimp only [exec]; exact dquantWith_mem h
  | ldZ8 | ldS8 | ldZ16 | ldS16 | ldB32 | ldB64 => dsimp only [exec]; exact loadWith_mem h
  | stB8 | stB16 | stB32 | stB64 => dsimp only [exec]; exact storeWith_mem h
  | tagq | tagset | tagclr => dsimp only [exec]; exact tagWith_mem h
  | taginv => exact execTaginv_mem h
  | copyIn | copyOut | copyOutDigest => dsimp only [exec]; exact copyWith_mem h
  | hget => exact execHget_mem h
  | hfree => exact execHfree_mem h
  | hwait => exact execHwait_mem h
  | atomAddZ32 | atomAddZ64 | atomXchgB32 | atomCasB32 | atomCasB64 => dsimp only [exec]; exact atomWith_mem h
  | redAddF32 | redAddF64 | xaddF32 => dsimp only [exec]; exact redWith_mem h
  | xseal | xzero => dsimp only [exec]; exact remoteWith_mem h
  | bkmode | bkld | bkmac | bkrd | bkzero => dsimp only [exec]; exact bankWith_mem h
  | bkwait => exact execBkwait_mem h
  | cmtB | cmtBLw => dsimp only [exec]; exact commitB_mem h
  | cmtT | cmtTLw => dsimp only [exec]; exact barrierCommit_mem finishT_mem h
  | cmtD | cmtDLw => dsimp only [exec]; exact barrierCommit_mem finishD_mem h
  | abtW | abtB | abtT => dsimp only [exec]; exact abortWith_mem h
  | fence => exact execFence_mem h
  | opnW => exact execOpnW_mem h
  | opnB | opnT => dsimp only [exec]; exact openBarrier_mem h
  | cln | inv | cinv => dsimp only [exec]; exact maintainWith_mem h
  | brGuarded | bryGuarded | callGuarded | br | bry | call => dsimp only [exec]; exact branchWith_mem h
  | callr => exact execCallr_mem h
  | ret => exact execRet_mem h
  | jmpr => exact execJmpr_mem h
  | exit => exact execExit_mem h
  | trap => exact execTrap_mem h
  | bsync => exact execBsync_mem h
  | yield => exact execYield_mem h
  | nop => exact execNop_mem h
  | lany => exact execLany_mem h
  | lall => exact execLall_mem h
  | lbits => exact execLbits_mem h
  | xlIdx | xlLo | xlHi | xlXor | xlRot => dsimp only [exec]; exact shuffle_mem h
  | sget => exact execSget_mem h
  | spawn => exact execSpawn_mem h
  | regroup => exact execRegroup_mem h
  | racktm => exact execRacktm_mem h
  | waitc => exact execWaitc_mem h
  | spr => exact execSpr_mem h
  | srd => exact execSrd_mem h
  | swr => exact execSwr_mem h
  | ksclaim => exact execKsclaim_mem h
  | ksrd => exact execKsrd_mem h
  | kswr => exact execKswr_mem h
  | ksres | ksrty | ksdir | kskill => dsimp only [exec]; exact disposeWith_mem h
  | qpost => exact execQpost_mem h
  | qclk => exact execQclk_mem h
  | sigrd => exact execSigrd_mem h
  | sigclr => exact execSigclr_mem h
  | chkv => exact execChkv_mem h
  | scrub => exact execScrub_formed h
  | asidld => exact execAsidld_mem h
  | pgret => exact execPgret_mem h
  | wayq => exact execWayq_mem h
  | tlbinv => exact execTlbinv_mem h
  | kspool => exact execKspool_mem h
  | wideImmediate | modifierHint | schedulingHint => dsimp only [exec]; exact bindHint_mem h
  | rackTimerExpiry => exact execRackTimerExpiry_mem h
  | mmaStart => exact execMmaStart_mem h
  | mmaComplete => exact execMmaComplete_mem h
  | copySegmentRun => exact execCopySegmentRun_formed h
  | deviceCommitPublish => exact execDeviceCommitPublish_formed h
  | deferredReductionApply => exact execDeferredReductionApply_formed h
  | remoteOpPerform => exact execRemoteOpPerform_formed h
  | bankOpPerform => exact execBankOpPerform_formed h
  | monitorArm => exact execMonitorArm_mem h
  | monitorWake => exact execMonitorWake_mem h
  | ticketRead => exact execTicketRead_mem h
  | publishWrite => exact execPublishWrite_mem h
  | notifyWrite => exact execNotifyWrite_mem h
  | configurationReread => exact execConfigurationReread_mem h
  | cheadWrite => exact execCheadWrite_mem h
  | registerWrite => exact execRegisterWrite_formed h
  | slotConsume => exact execSlotConsume_mem h
  | nopCommand => exact execNopCommand_mem h
  | launch => exact execLaunch_mem h
  | barrier => exact execBarrier_mem h
  | prologueEnd => exact execPrologueEnd_mem h
  | prologueRepeat => exact execPrologueRepeat_mem h
  | taskDispatch => exact execTaskDispatch_mem h
  | teamStart => exact execTeamStart_mem h
  | affinityWaitExpiry => exact execAffinityWaitExpiry_mem h
  | starvationBlock => exact execStarvationBlock_mem h
  | commandComplete => exact execCommandComplete_formed h
  | budgetExpiry => exact execBudgetExpiry_mem h
  | launchDeadlineExpiry => exact execLaunchDeadlineExpiry_mem h
  | evictionOrder => exact execEvictionOrder_mem h
  | imageWrite => exact execImageWrite_formed h
  | jobMemoryMove => exact execJobMemoryMove_formed h
  | recordMove => exact execRecordMove_mem h
  | partitionFree => exact execPartitionFree_formed h
  | partitionAssign => exact execPartitionAssign_formed h
  | qenWrite => exact execQenWrite_mem h
  | vfEnable => exact execVfEnable_formed h
  | vfDisable => exact execVfDisable_formed h
  | hpolWrite => exact execHpolWrite_mem h
  | functionLevelReset => exact execFunctionLevelReset_formed h
  | hostMemRead => exact execHostMemRead_formed h
  | hostMemWrite => exact execHostMemWrite_formed h
  | backgroundScrub => exact execBackgroundScrub_formed h
  | cellBlockGrant => exact execCellBlockGrant_mem h
  | spokeFlitReceive => exact execSpokeFlitReceive_mem h
  | remotePostArrival => exact execRemotePostArrival_mem h
  | assistAnswer => exact execAssistAnswer_mem h
  | firmwareDownload => exact execFirmwareDownload_mem h
  | powerUp => exact execPowerUp_formed h
  | perstAssert => exact execPerstAssert_mem h
  | thermtrip => exact execThermtrip_formed h
  | pwrfail => exact execPwrfail_formed h
  | thermalThrottle => exact execThermalThrottle_mem h
  | thermalRecover => exact execThermalRecover_mem h
  | recordGrant => exact execRecordGrant_mem h
  | poolWaitDeadline => exact execPoolWaitDeadline_mem h
  | faultDeadlineExpiry => exact execFaultDeadlineExpiry_mem h
  | waveRebuild => exact execWaveRebuild_mem h
  | linkTimeout => exact execLinkTimeout_mem h
  | patrolRead => exact execPatrolRead_mem h
  | spareFill => exact execSpareFill_mem h
  | ksdataRead => exact execKsdataRead_mem h
  | ksdataWrite => exact execKsdataWrite_mem h
  | kscmdClaim => exact execKscmdClaim_mem h
  | kscmdResume => exact execKscmdResume_mem h
  | kscmdRetry => exact execKscmdRetry_mem h
  | kscmdRedirect => exact execKscmdRedirect_mem h
  | kscmdKill => exact execKscmdKill_mem h
  | kscmdPost => exact execKscmdPost_mem h
  | unassignedSlot => exact execUnassignedSlot_mem h
  | instructionFetch => exact execInstructionFetch_mem h
  | softError => exact execSoftError_mem h
  | pageOwnershipChange => exact execPageOwnershipChange_formed h
  | logicalDeviceBind => exact execLogicalDeviceBind_mem h
  | domestiqueHandlerEnd => exact execDomestiqueHandlerEnd_mem h
  | perstRelease => exact execPerstRelease_mem h

end Sys2Proof.Machine

end

section

/-! LEMMAS. The schedule (R8): the word of a group, the events of the units, one step (for O60). -/

namespace Sys2Proof.Machine

variable {s : State}

theorem issueWord_formed (g : Group) (h : Memory.wf s.mem = true) : NextFormed (s.issueWord g) := by
  unfold State.issueWord
  split
  · exact h
  split
  · simpa using h
  split
  · simpa using h
  split
  · exact execInstructionFetch_mem h
  · split
    · exact exec_formed _ h
    · exact execUnassignedSlot_mem h

@[simp] theorem endHolds_mem (s : State) : s.endHolds.mem = s.mem :=
  foldl_mem _ (fun t (w : Wave) => State.updWave_mem t w.wid t.holdOver) _ _

theorem resumable_mem (s : State) (core : Nat) : ∀ t ∈ s.resumable core, t.mem = s.mem := by
  refine mem_findSome (P := (· = s.mem)) fun w t ht => ?_
  obtain ⟨g, -, hg⟩ := Option.bind_eq_some_iff.1 ht
  split at hg
  · simp at hg
  · rw [← Option.some_inj.1 hg]
    rfl

theorem derail_mem (s : State) (first k : Nat) (t : State) (h : s.derail first = some (k, t)) : t.mem = s.mem := by
  unfold State.derail at h
  dsimp only at h
  split at h
  · simp at h
  · obtain ⟨j, -, hj⟩ := List.exists_of_findSome?_eq_some h
    split at hj
    next hu =>
      cases hj
      exact resumable_mem _ _ _ hu
    · obtain ⟨r, -, hr⟩ := Option.map_eq_some_iff.1 hj
      cases hr
      exact startGroup_mem _ _ _

@[simp] theorem idleClock_mem (s : State) : s.idleClock.mem = s.mem := rfl

@[simp] theorem tick_mem (s : State) : s.tick.mem = s.mem := by
  unfold State.tick
  dsimp only
  rw [idleClock_mem]

/-- An event keeps global memory in its canonical form. -/
def KeepsForm (e : State → Host.Outcome State Fault Refusal) : Prop := ∀ s : State, Memory.wf s.mem = true → NextFormed (e s)

theorem keepsForm_of_mem_eq {f : State → State} (hf : ∀ t, (f t).mem = t.mem) : KeepsForm fun t => .next (f t) := fun t h => by
  simpa [hf t] using h

/-- Each event that the units of a state offer keeps the form, in whatever state it is made. -/
theorem events_keepForm (u : State) : ∀ e ∈ u.events, KeepsForm e := by
  unfold State.events
  simp only [List.forall_mem_append, List.forall_mem_map, List.forall_mem_flatMap, and_assoc]
  simp only [List.forall_mem_cons, List.not_mem_nil, false_implies, implies_true, and_true]
  refine ⟨?_, ?_, ?_, ?_, ?_, ?_, ?_, ?_, ?_, ?_, ?_, ?_, ?_, ?_, ?_, ?_, ?_, ?_, ?_, ?_, ?_, ?_, ?_, ?_, ?_⟩
  · exact fun _ _ => ⟨fun _ h => execMmaStart_mem h, fun _ h => execMmaComplete_mem h⟩
  · exact fun _ _ _ _ _ h => execCopySegmentRun_formed h
  · exact fun _ _ _ h => execRemoteOpPerform_formed h
  · exact fun _ _ _ h => execBankOpPerform_formed h
  · exact fun _ _ => ⟨fun _ h => execMonitorArm_mem h, fun _ h => execMonitorWake_mem h⟩
  · exact fun _ _ _ h => execRackTimerExpiry_mem h
  · exact fun _ _ => ⟨fun _ h => execDeviceCommitPublish_formed h, fun _ h => execDeferredReductionApply_formed h,
      fun _ h => execTeamStart_mem h, fun _ h => execBudgetExpiry_mem h, fun _ h => execImageWrite_formed h⟩
  · exact fun _ _ _ h => execConfigurationReread_mem h
  · exact fun _ _ _ h => execSlotConsume_mem h
  · exact fun _ _ => ⟨fun _ h => execNopCommand_mem h, fun _ h => execLaunch_mem h, fun _ h => execBarrier_mem h,
      fun _ h => execCommandComplete_formed h⟩
  · exact fun _ _ => ⟨fun _ h => execPrologueEnd_mem h, fun _ h => execPrologueRepeat_mem h, fun _ h => execLaunchDeadlineExpiry_mem h⟩
  · exact fun _ _ _ h => execTaskDispatch_mem h
  · exact fun _ _ => keepsForm_of_mem_eq fun t => settleLeaving_mem t _
  · exact fun _ _ => ⟨fun _ h => execAffinityWaitExpiry_mem h, fun _ h => execStarvationBlock_mem h, fun _ h => execFaultDeadlineExpiry_mem h⟩
  · split
    · simp
    · exact List.forall_mem_map.2 fun _ _ _ h => execRecordGrant_mem h
  · exact fun _ _ _ h => execPoolWaitDeadline_mem h
  · exact fun _ _ => keepsForm_of_mem_eq fun t => settleBar_mem t _ _
  · exact fun _ _ => keepsForm_of_mem_eq fun t => settleBar_mem t _ _
  · exact fun _ _ => ⟨fun _ h => execFaultDeadlineExpiry_mem h, fun _ h => execWaveRebuild_mem h⟩
  · exact fun _ _ _ h => execFaultDeadlineExpiry_mem h
  · exact fun _ _ _ _ _ h => execFaultDeadlineExpiry_mem h
  · exact fun _ _ _ h => execSpareFill_mem h
  · exact fun _ _ t => wf_hostRetry t _
  · exact fun _ _ => keepsForm_of_mem_eq fun t => putOut_mem t _ _
  · exact fun _ _ _ h => execDomestiqueHandlerEnd_mem h

theorem tryEvent_formed (e : State → Host.Outcome State Fault Refusal) (h : NextFormed (e s)) : ∀ t ∈ s.tryEvent e, Memory.wf t.mem = true := by
  intro t ht
  unfold State.tryEvent at ht
  split at ht
  next hu =>
    rw [hu] at h
    split at ht
    · simp at ht
    · rwa [← Option.some_inj.1 ht]
  · simp at ht

theorem autoEvent_formed (h : Memory.wf s.mem = true) : ∀ t ∈ s.autoEvent, Memory.wf t.mem = true := by
  intro t ht
  unfold State.autoEvent at ht
  split at ht
  · simp at ht
  · obtain ⟨e, he, het⟩ := List.exists_of_findSome?_eq_some ht
    refine tryEvent_formed e (events_keepForm s e ?_ s h) t het
    exact (List.mem_append.1 he).elim List.mem_of_mem_drop List.mem_of_mem_take

theorem wf_proceed (h : Memory.wf s.mem = true) : Memory.wf s.proceed.mem = true := by
  unfold State.proceed
  dsimp only
  split
  · split
    next hu =>
      have hm := derail_mem _ _ _ _ hu
      split <;> simpa [hm] using h
    · simpa using h
  · exact mem_getD (P := (Memory.wf · = true)) (autoEvent_formed (by simpa using h)) (by simpa using h)

theorem stepOnce_formed (h : Memory.wf s.mem = true) : NextFormed s.stepOnce := by
  unfold State.stepOnce
  split
  · split
    · exact exec_formed _ h
    · exact h
  · split
    · exact wf_powerStep _ h
    · split
      · exact issueWord_formed _ h
      · exact wf_proceed h

end Sys2Proof.Machine

end

section

/-! The obligation O60. -/

namespace Sys2Proof.Machine

/-- Settles O60, by a lemma for each instruction and event: most leave global memory as it is, and the others write it by operations that keep
its form. -/
theorem stepKeepsMemoryForm : Obligations.StepKeepsMemoryForm := by
  unfold Obligations.StepKeepsMemoryForm
  intro s t h hs
  have ht : NextFormed s.stepOnce := stepOnce_formed h
  rwa [show s.stepOnce = .next t from hs] at ht

end Sys2Proof.Machine

end

section

/-! LEMMAS. Fields of a word. The encoder ORs operand fields into a constant, the decoder extracts them (Tables 8 and 13): what a word that is built in this way holds
in each place, and that a word is the OR of what is extracted from it. -/

namespace Sys2Proof.Encoding

/-! ### Fields put into a word -/

section

variable {n : Nat} (f : BitVec n) (x : IWord) {k s l : Nat} {m v : IWord}

theorem extractLsb'_or_field_same (h : k + n ≤ 32) (hx : x.extractLsb' k n = 0#n) : (x ||| f.setWidth 32 <<< k).extractLsb' k n = f := by
  ext i hi
  have hk : k + i < 32 := by omega
  have hc : x[k + i] = false := by simpa [hi, hk] using congrArg (·.getLsbD i) hx
  simp [hk, hi, hc]

theorem extractLsb'_or_field_other (h : s + l ≤ k ∨ k + n ≤ s) : (x ||| f.setWidth 32 <<< k).extractLsb' s l = x.extractLsb' s l := by
  ext i hi
  have : k ≤ s + i → f.getLsbD (s + i - k) = false := fun _ => f.getLsbD_of_ge _ (by omega)
  simp
  grind

theorem or_field_and (h : m.extractLsb' k n = 0#n) : (x ||| f.setWidth 32 <<< k) &&& m = x &&& m := by
  ext i hi
  have hf := f.getLsbD_of_ge (i - k)
  have hm : k ≤ i → i - k < n → m.getLsbD i = false := fun h1 h2 => by
    simpa [h2, h1] using congrArg (·.getLsbD (i - k)) h
  simp
  grind

theorem extractLsb'_or_low_same (h : n ≤ 32) (hx : x.extractLsb' 0 n = 0#n) : (x ||| f.setWidth 32).extractLsb' 0 n = f := by
  simpa using extractLsb'_or_field_same f x (k := 0) (by omega) hx

theorem extractLsb'_or_low_other (h : n ≤ s) : (x ||| f.setWidth 32).extractLsb' s l = x.extractLsb' s l := by
  simpa using extractLsb'_or_field_other f x (k := 0) (s := s) (l := l) (by omega)

theorem or_low_and (h : m.extractLsb' 0 n = 0#n) : (x ||| f.setWidth 32) &&& m = x &&& m := by
  simpa using or_field_and f x (k := 0) h

/-- A word with a bit set does not match a pattern in which that bit is fixed to 0. -/
theorem and_eq_false_of_bit (s : Nat) (hx : x.extractLsb' s 1 = 1#1) (hm : m.extractLsb' s 1 = 1#1) (hv : v.extractLsb' s 1 = 0#1) :
    (x &&& m = v) = False := by
  refine eq_false fun h => ?_
  have := congrArg (·.extractLsb' s 1) h
  simp [BitVec.extractLsb'_and, hx, hm, hv] at this

end

/-! ### A word from its fields -/

section

variable {w c F S : IWord} {k n : Nat}

theorem extractLsb'_shift_eq_and : (w.extractLsb' k n).setWidth 32 <<< k = w &&& (BitVec.allOnes n).setWidth 32 <<< k := by
  ext i hi
  have : k ≤ i → k + (i - k) = i := by omega
  simp
  grind

theorem extractLsb'_low_eq_and : (w.extractLsb' 0 n).setWidth 32 = w &&& (BitVec.allOnes n).setWidth 32 := by
  simpa using extractLsb'_shift_eq_and (w := w) (k := 0) (n := n)

theorem extractLsb'_eq_ofNat {m : Nat} (h : (w.extractLsb' k n).toNat = m) : w.extractLsb' k n = BitVec.ofNat n m := by
  rw [← h, BitVec.ofNat_toNat, BitVec.setWidth_eq]

/-- A word that agrees with a constant in the bits of S and in those of neither S nor F is the constant with the word's own bits of F. -/
theorem or_and_eq_self (hS : w &&& S = c &&& S) (hfix : w &&& (~~~S &&& ~~~F) = c &&& ~~~S) : c ||| (w &&& F) = w := by
  ext i hi
  have h1 := congrArg (·.getLsbD i) hS
  have h2 := congrArg (·.getLsbD i) hfix
  simp [hi] at h1 h2 ⊢
  grind

/-- A word whose major opcode and fn (or kind) are those of the constant c, and whose fixed bits are c's, is c with the word's own operand bits F. -/
theorem or_operands_eq_self {m f l : Nat} (hm : (w.extractLsb' 26 6).toNat = m) (hf : (w.extractLsb' k l).toNat = f)
    (hc : (BitVec.ofNat 6 m).setWidth 32 <<< 26 ||| (BitVec.ofNat l f).setWidth 32 <<< k = c &&& (0xFC000000#32 ||| (BitVec.allOnes l).setWidth 32 <<< k))
    (hfix : w &&& (~~~(0xFC000000#32 ||| (BitVec.allOnes l).setWidth 32 <<< k) &&& ~~~F) =
      c &&& ~~~(0xFC000000#32 ||| (BitVec.allOnes l).setWidth 32 <<< k)) : c ||| (w &&& F) = w := by
  refine or_and_eq_self ?_ hfix
  rw [← hc, ← extractLsb'_eq_ofNat hm, ← extractLsb'_eq_ofNat hf, extractLsb'_shift_eq_and, extractLsb'_shift_eq_and, ← BitVec.and_or_distrib_left]
  rfl

/-- A word stated with its (perhaps absent) operand bits in one place, to which fields can be added. -/
theorem some_eq_some_iff_or_and : some c = some w ↔ c ||| (w &&& 0#32) = w := by simp

end

end Sys2Proof.Encoding

end

section

/-! The obligation O55. -/

namespace Sys2Proof.Encoding

/-- Settles O55, by the arms of the decoder: in each the major opcode, the fn or kind and the fixed bits of the word are known (`unfixed` stands for the latter where
an arm fixes none), and the encoder ORs the fields that the decoder extracted into the constant that has the same ones. -/
theorem encodeOfDecode : Obligations.EncodeOfDecode := by
  unfold Obligations.EncodeOfDecode
  intro w i h
  have unfixed : w &&& 0#32 = 0#32 := BitVec.and_zero
  unfold decodeWord at h
  split at h
  case h_41 => cases h
  all_goals
    next hmajor =>
      simp only [decodeMajor01, decodeMajor02, decodeMajor03, decodeMajor04, decodeMajor05, decodeMajor06, decodeMajor07, decodeMajor08, decodeMajor09, decodeMajor10,
        decodeMajor11, decodeMajor12, decodeMajor13, decodeMajor14, decodeMajor15, decodeMajor16, decodeMajor17, decodeMajor18, decodeMajor19,
        decodeMajor20, decodeMajor21, decodeMajor22, decodeMajor23, decodeMajor24, decodeMajor25, decodeMajor26, decodeMajor27, decodeMajor28,
        decodeMajor30, decodeMajor31, decodeMajor32, decodeMajor33, decodeMajor34, decodeMajor35, decodeMajor38, decodeMajor39, decodeMajor3A,
        decodeMajor3C, decodeMajor3D, decodeMajor3F] at h
      (repeat' split at h) <;> cases h <;>
        (show some _ = some w
         simp only [some_eq_some_iff_or_and, extractLsb'_shift_eq_and, extractLsb'_low_eq_and, BitVec.or_assoc, ← BitVec.and_or_distrib_left]
         exact or_operands_eq_self hmajor ‹(w.extractLsb' _ _).toNat = _› rfl ‹w &&& _ = _›)

end Sys2Proof.Encoding

end

section

/-! LEMMAS and the obligation O54. Decoding what the encoder builds, by the quarters of the opcode map (Table 13): integer and scalar; floating point and matrix;
memory; control, records and hints. Each quarter's proof goes through the instructions: the two top bits of the word leave those of the quarter, and the
lemmas on fields read off the major opcode, the fn or kind, the fixed bits and each operand. -/

namespace Sys2Proof.Encoding

/-- In a quarter of the opcode map, the word of an instruction decodes to it. -/
def DecodesBack (q : BitVec 2) : Prop := ∀ (i : Instr) (x : IWord), encode i = some x → x.extractLsb' 30 2 = q → decodeWord x = .ok i

/-- Majors 0x01 to 0x09. A scalar instruction's immediate form is told from its register form by bit 21. -/
theorem decodesBack_integer : DecodesBack 0 := by
  intro i x h hq
  cases i <;> cases h <;>
    simp only [decodeWord, decodeMajor01, decodeMajor02, decodeMajor03, decodeMajor04, decodeMajor05, decodeMajor06, decodeMajor07, decodeMajor08,
      decodeMajor09, extractLsb'_or_field_same, extractLsb'_or_field_other, extractLsb'_or_low_same, extractLsb'_or_low_other, or_field_and,
      or_low_and, and_eq_false_of_bit _ 21, BitVec.reduceExtractLsb', BitVec.reduceToNat, BitVec.reduceAnd, BitVec.reduceEq, Nat.reduceAdd,
      Nat.reduceLeDiff, true_or, or_true, if_true, if_false] at hq ⊢

/-- Majors 0x10 to 0x19. -/
theorem decodesBack_float : DecodesBack 1 := by
  intro i x h hq
  cases i <;> cases h <;>
    simp only [decodeWord, decodeMajor10, decodeMajor11, decodeMajor12, decodeMajor13, decodeMajor14, decodeMajor15, decodeMajor16, decodeMajor17,
      decodeMajor18, decodeMajor19, extractLsb'_or_field_same, extractLsb'_or_field_other, extractLsb'_or_low_same, extractLsb'_or_low_other,
      or_field_and, or_low_and, BitVec.reduceExtractLsb', BitVec.reduceToNat, BitVec.reduceAnd, BitVec.reduceEq, Nat.reduceAdd, Nat.reduceLeDiff,
      true_or, or_true, if_true] at hq ⊢

/-- Majors 0x20 to 0x28. -/
theorem decodesBack_memory : DecodesBack 2 := by
  intro i x h hq
  cases i <;> cases h <;>
    simp only [decodeWord, decodeMajor20, decodeMajor21, decodeMajor22, decodeMajor23, decodeMajor24, decodeMajor25, decodeMajor26, decodeMajor27,
      decodeMajor28, extractLsb'_or_field_same, extractLsb'_or_field_other, extractLsb'_or_low_same, extractLsb'_or_low_other, or_field_and,
      or_low_and, BitVec.reduceExtractLsb', BitVec.reduceToNat, BitVec.reduceAnd, BitVec.reduceEq, Nat.reduceAdd, Nat.reduceLeDiff, true_or, or_true,
      if_true] at hq ⊢

/-- Majors 0x30 to 0x3F. -/
theorem decodesBack_control : DecodesBack 3 := by
  intro i x h hq
  cases i <;> cases h <;>
    simp only [decodeWord, decodeMajor30, decodeMajor31, decodeMajor32, decodeMajor33, decodeMajor34, decodeMajor35, decodeMajor38, decodeMajor39,
      decodeMajor3A, decodeMajor3C, decodeMajor3D, decodeMajor3F, extractLsb'_or_field_same, extractLsb'_or_field_other, extractLsb'_or_low_same,
      extractLsb'_or_low_other, or_field_and, or_low_and, BitVec.reduceExtractLsb', BitVec.reduceToNat, BitVec.reduceAnd, BitVec.reduceEq,
      Nat.reduceAdd, Nat.reduceLeDiff, true_or, or_true, if_true] at hq ⊢

/-- Settles O54, by the quarters of the opcode map. -/
theorem decodeOfEncode : Obligations.DecodeOfEncode := by
  unfold Obligations.DecodeOfEncode
  intro i x h
  have quarters : ∀ q : BitVec 2, q = 0#2 ∨ q = 1#2 ∨ q = 2#2 ∨ q = 3#2 := by decide
  obtain hq | hq | hq | hq := quarters (x.extractLsb' 30 2)
  · exact decodesBack_integer i x h hq
  · exact decodesBack_float i x h hq
  · exact decodesBack_memory i x h hq
  · exact decodesBack_control i x h hq

end Sys2Proof.Encoding

end

section

/-! LEMMAS and the obligation O33. Special and wave registers: what `spr` and `srd` read does not change as a group issues (R41, R238). -/

namespace Sys2Proof.Encoding

open Sys2Proof.Machine Sys2Proof.Safety Sys2Proof.Slice0 Sys2Proof.Laws

variable {sg : Sig} {g : Group} {w : Wave} {s : State}

/-- What `spr`, `srd` and `swr` accept (R41, R238). -/
abbrev sprSig (x : BitVec 7) (sel : BitVec 14) : Sig := { flds := [.reg x], sup := decide (0x1000 ≤ sel.toNat), ok := decide (sel.toNat ≤ 5) }
abbrev srdSig (k : BitVec 5) (sel : BitVec 14) : Sig := { flds := [.wsreg k], sup := decide (0x1000 ≤ sel.toNat), ok := readableSel sel.toNat, ends := true }
abbrev swrSig (k : BitVec 5) (sel : BitVec 14) : Sig := { flds := [.sreg k], sup := decide (0x1000 ≤ sel.toNat), ok := sel == 0x10 || sel == 0x11 }

/-- An instruction whose meaning ends in `done` with changes of the issuing wave only does what the changes say. -/
theorem does_of_done {i : Instr} {cmp : Ctx → Nat → List W64} {k : Ctx → State → Res} {u : State} {f : Ctx → Wave → Wave}
    (hi : exec i s = issueWith sg cmp s k) (h : IssuesWith sg cmp g w s) (hk : k (issueCtx sg g w) (covered sg g w s) = .done u)
    (hu : Touches (covered sg g w s) u (issueCtx sg g w).w.wid (f (issueCtx sg g w))) : Does i sg g w s s f := by
  unfold Does
  rw [hi]
  exact issueWith_done h hk hu

/-- The special register of a selector, for a lane of a group (Table 15). -/
def specialReg (s : State) (w : Wave) (sel : BitVec 14) (c : Ctx) (i : Nat) : W32 :=
  if sel = 0 then (c.lane i).tid
  else if sel = 1 then BitVec.ofNat 32 w.idx
  else if sel = 2 then BitVec.ofNat 32 w.blk
  else if sel = 3 then BitVec.ofNat 32 (((s.team? w.team).map (·.idx)).getD 0)
  else if sel = 4 then BitVec.ofNat 32 (c.lane i).depth
  else BitVec.ofNat 32 (i % c.w.plan)

theorem exec_spr_eq (x : BitVec 7) (sel : BitVec 14) (s : State) :
    exec (.spr x sel) s = issue (sprSig x sel) s
      fun c s => .done (s.put32 c x (specialReg s c.w sel c)) := rfl

/-- An issue changes a wave's hold, latches and clock only, and no special register shows them. -/
theorem specialReg_covered (sel : BitVec 14) (c : Ctx) : specialReg (covered sg g w s) (issueCtx sg g w).w sel c = specialReg s w sel c := by
  obtain ⟨h, l, n, q, b, e⟩ := issueCtx_wave sg g w
  rw [e]
  rfl

/-- The same of the wave registers. -/
theorem waveReg_covered (sel : Nat) : (covered sg g w s).waveReg (issueCtx sg g w).w sel = s.waveReg w sel := by
  obtain ⟨h, l, n, q, b, e⟩ := issueCtx_wave sg g w
  rw [e]
  rfl

theorem mmaBusy_covered (wid : Nat) : (covered sg g w s).mmaBusy wid = s.mmaBusy wid := rfl
theorem errors_covered : (covered sg g w s).errors = s.errors := rfl

/-- What `swr` does to a wave with a value: `fpmode` takes its writable bits, or the flags written 1 clear. -/
def writeWaveReg (sel : BitVec 14) (v : W64) (w : Wave) : Wave :=
  if sel = 0x10 then { w with fpmode := v &&& 0x7F000F } else { w with fpflags := w.fpflags &&& ~~~(v &&& 0xFF) }

theorem does_spr {x : BitVec 7} {sel : BitVec 14} (h : Issues (sprSig x sel) g w s) :
    Does (.spr x sel) (sprSig x sel) g w s s fun c => gets32 c 0 x (specialReg s w sel c) := by
  refine does_of_done (exec_spr_eq x sel s) h ?_ (Touches.put32' _ _ x (specialReg s w sel (issueCtx (sprSig x sel) g w)))
  rw [specialReg_covered]

theorem does_srd {k : BitVec 5} {sel : BitVec 14} {v : W64}
    (h : Issues (srdSig k sel) g w s) (hv : s.waveReg w sel.toNat = some v) (hf : sel = 0x11 → s.mmaBusy w.wid = false ∧ StoreLoc.waveReg w.wid 1 ∉ s.errors) :
    Does (.srd k sel) (srdSig k sel) g w s s
      fun _ => getsScalar k v := by
  refine does_of_done (exec_srd k sel s) h ?_ (Touches.putScalar _ _ k v)
  rw [waveReg_covered, hv, issueCtx_wid, mmaBusy_covered, errors_covered, if_neg, if_neg]
  · rfl
  · simpa using fun hs => (hf hs).2
  · simpa using fun hs => (hf hs).1

theorem does_swr {k : BitVec 5} {sel : BitVec 14} (h : Issues (swrSig k sel) g w s) :
    Does (.swr k sel) (swrSig k sel) g w s s fun _ w =>
      if sel = 0x10 then { w with fpmode := w.sregs.getD k.toNat 0 &&& 0x7F000F }
      else { w with fpflags := w.fpflags &&& ~~~(w.sregs.getD k.toNat 0 &&& 0xFF) } := by
  refine issueWith_done (f := writeWaveReg sel ((issueCtx _ g w).w.sregs.getD k.toNat 0)) h rfl ?_
  exact (Touches.forget _ _ _).trans (Touches.updWave _ _ _ fun w' hw => by split <;> exact hw)

/-- Settles O33, by an instruction at a time. -/
theorem registerAccess : Obligations.RegisterAccess := by
  unfold Obligations.RegisterAccess
  intro x k sel g w s
  exact ⟨does_spr, fun v h hv hf => does_srd h hv hf, does_swr⟩

end Sys2Proof.Encoding

end

section

/-! LEMMAS and the obligations O40 and O57. The words of a group: hints bind to it (R34-R38), and a step runs the instruction that its next word decodes to
(R34, R223). -/

namespace Sys2Proof.Encoding

open Sys2Proof.Machine

variable {g : Group} {w : Wave} {s : State}

theorem stopGroup_eq (cause : Nat) (hg : s.grp = some g) (hw : s.wave? g.wid = some w) :
    stopGroup cause s = .next (s.faultBefore (mkCtx g w) cause []) := by
  unfold stopGroup
  simp only [hg, hw]

/-- The hints that a group has. -/
def hintCount (g : Group) : Nat := g.wides.length + g.modifier.toList.length + g.sched.toList.length

theorem bindHint_eq (second : Group → Bool) (f : Group → Group) (hg : s.grp = some g) :
    bindHint second f s =
      if second g || decide (hintCount g ≥ 2) then stopGroup Cause.illegal s else .next { s with grp := some { f g with at_ := g.at_ + 4 } } := by
  unfold bindHint
  simp only [hg]
  rfl

/-- A hint word binds to the group while it has fewer than two hints and none of a kind that it can have once; else the wave detaches. -/
def Binds (g : Group) (w : Wave) (s : State) (i : Instr) (taken : Bool) (f : Group → Group) : Prop :=
  (hintCount g < 2 → taken = false → exec i s = .next { s with grp := some { f g with at_ := g.at_ + 4 } }) ∧
  (2 ≤ hintCount g ∨ taken = true → exec i s = .next (s.faultBefore (mkCtx g w) Cause.illegal []))

theorem binds_of_bindHint {i : Instr} {second : Group → Bool} {f : Group → Group} (hi : exec i s = bindHint second f s) (hg : s.grp = some g)
    (hw : s.wave? g.wid = some w) : Binds g w s i (second g) f := by
  unfold Binds
  rw [hi, bindHint_eq second f hg]
  refine ⟨fun few first => ?_, fun h => ?_⟩
  · rw [if_neg (by simp [first, few])]
  · rw [if_pos (by simpa [or_comm] using h), stopGroup_eq _ hg hw]

/-- Settles O40: each kind of hint is bound by `bindHint`. -/
theorem hintsBind : Obligations.HintsBind := by
  unfold Obligations.HintsBind
  intro p r t ge gp e u c k n g w s hints binds hg hw
  have wide : Binds g w s (.wideImmediate p) false _ := binds_of_bindHint (second := fun _ => false) rfl hg hw
  have modifier : Binds g w s (.modifierHint r t ge gp e u c k) g.modifier.isSome _ := binds_of_bindHint (second := fun g => g.modifier.isSome) rfl hg hw
  have scheduling : Binds g w s (.schedulingHint n) g.sched.isSome _ := binds_of_bindHint (second := fun g => g.sched.isSome) rfl hg hw
  exact ⟨wide, modifier, scheduling⟩

/-- An event pending in the agenda comes first, and is made where the part's state lets it happen. -/
theorem step_agenda {e : Instr} {rest : List Instr} (h : s.agenda = e :: rest) :
    Machine.step s = if s.happens e then exec e { s with agenda := rest } else .next { s with agenda := rest } := by
  unfold Machine.step State.stepOnce
  rw [h]

theorem step_issueWord (ha : s.agenda = []) (hp : s.power.phase = .running) (hg : s.grp = some g) : Machine.step s = s.issueWord g := by
  unfold Machine.step State.stepOnce
  simp [ha, hp, hg]

theorem issueWord_decoded {x : IWord} {i : Instr} (hw : s.wave? g.wid = some w) (hin : w.outside g.at_ = false)
    (hwait : s.fetchWaits w (s.waveVf w) g.at_ = false) (hx : s.fetch w (s.waveVf w) g.at_ = .ok x) (hi : decodeWord x = .ok i) :
    s.issueWord g = exec i s := by
  unfold State.issueWord
  simp only [hw, hin, hwait, hx, hi, Bool.false_eq_true, if_false]

theorem issueWord_undecoded {x : IWord} {e : DecodeError} (hw : s.wave? g.wid = some w) (hin : w.outside g.at_ = false)
    (hwait : s.fetchWaits w (s.waveVf w) g.at_ = false) (hx : s.fetch w (s.waveVf w) g.at_ = .ok x) (he : decodeWord x = .error e) :
    s.issueWord g = exec (.unassignedSlot x) s := by
  unfold State.issueWord
  simp only [hw, hin, hwait, hx, he, Bool.false_eq_true, if_false, Laws.exec_unassignedSlot]

/-- Settles O57, by the cases of a step. -/
theorem stepRunsDecoded : Obligations.StepRunsDecoded := by
  unfold Obligations.StepRunsDecoded
  intro s g w x
  refine ⟨fun ha hp hg hw hin hwait hx => ?_, fun e rest h => ?_⟩
  · rw [step_issueWord ha hp hg]
    exact ⟨fun i => issueWord_decoded hw hin hwait hx, fun e => issueWord_undecoded hw hin hwait hx⟩
  · rw [step_agenda h]
    exact ⟨fun now => if_pos now, fun never => if_neg (by simp [never])⟩

end Sys2Proof.Encoding

end

section

/-! LEMMAS and the obligation O53. Words that are no instruction (R39, R42), and words that cannot be fetched (R223, R319-R321): a consumer meets an uncorrectable
error exactly where `lineError` names one, and what reading a line does on the way leaves the waves alone. -/

namespace Sys2Proof.Encoding

open Sys2Proof.Machine

/-! ### Words that are no instruction -/

theorem privilegedSlot_iff (x : IWord) :
    privilegedSlot x = true ↔ (x.toNat / 2 ^ 26 = 0x3D ∧ x.toNat / 2 ^ 22 % 16 ≤ 5) ∨
      (x.toNat / 2 ^ 26 = 0x38 ∧ x.toNat / 2 ^ 22 % 16 ≤ 2 ∧ 0x1000 ≤ x.toNat % 2 ^ 14) := by
  have major : x.toNat / 67108864 % 64 = x.toNat / 67108864 := by omega
  simp [privilegedSlot, BitVec.extractLsb'_toNat, Nat.shiftRight_eq_div_pow, major, and_assoc]

section

variable {g : Group} {w : Wave} {s : State}

theorem execUnassignedSlot_eq (x : IWord) (hg : s.grp = some g) (hw : s.wave? g.wid = some w) :
    execUnassignedSlot x s = .next (s.faultBefore (mkCtx g w)
      (if privilegedSlot x && hintsOk (slotSig x) g && w.prologue.isNone && !w.sup then Cause.priv else Cause.illegal) []) := by
  unfold execUnassignedSlot
  simp only [hg, hw]
  exact stopGroup_eq _ hg hw

end

/-! ### Reading a line -/

/-- What a log entry, a repair or the start of a spare fill keeps: the selected group, the waves, the errors and the cached lines. -/
structure Keeps (s t : State) : Prop where
  grp : t.grp = s.grp
  waves : t.waves = s.waves
  errors : t.errors = s.errors
  lines : t.lines = s.lines

variable {s t u : State} {d : Nat}

theorem Keeps.refl (s : State) : Keeps s s := ⟨rfl, rfl, rfl, rfl⟩

theorem Keeps.trans (h : Keeps s t) (k : Keeps t u) : Keeps s u :=
  ⟨k.grp.trans h.grp, k.waves.trans h.waves, k.errors.trans h.errors, k.lines.trans h.lines⟩

theorem Keeps.foldl {α : Type} {f : State → α → State} (h : ∀ s a, Keeps s (f s a)) (l : List α) (s : State) : Keeps s (l.foldl f s) :=
  List.foldlRecOn (motive := Keeps s) l f (Keeps.refl s) fun t ht a _ => ht.trans (h t a)

theorem Keeps.logEvent (s : State) (e : Event) : Keeps s (s.logEvent e) := by
  unfold State.logEvent
  dsimp only
  split <;> exact ⟨rfl, rfl, rfl, rfl⟩

theorem Keeps.queueFill (s : State) (page : Nat) : Keeps s (s.queueFill page) := by
  unfold State.queueFill
  split <;> exact ⟨rfl, rfl, rfl, rfl⟩

theorem Keeps.repair (s : State) (loc : StoreLoc) : Keeps s (s.repair loc) := by
  have logged (e : Event) : Keeps s (({ s with softs := s.softs.filter (· != loc) } : State).logEvent e) :=
    Keeps.trans (t := { s with softs := s.softs.filter (· != loc) }) ⟨rfl, rfl, rfl, rfl⟩ (Keeps.logEvent _ e)
  have counted (e : Event) (l : List (Nat × Nat)) :
      Keeps s { (({ s with softs := s.softs.filter (· != loc) } : State).logEvent e) with softCount := l } :=
    (logged e).trans ⟨rfl, rfl, rfl, rfl⟩
  unfold State.repair
  dsimp only
  split
  · split
    · exact (counted _ _).trans (Keeps.queueFill _ _)
    · exact counted _ _
  · exact logged _

theorem Keeps.repairAt (s : State) (p : StoreLoc → Bool) : Keeps s (s.repairAt p) := Keeps.foldl Keeps.repair _ s

theorem Keeps.dirtyLine? (h : Keeps s t) (d : Nat) : t.dirtyLine? d = s.dirtyLine? d := by
  unfold State.dirtyLine?
  rw [h.lines]

theorem Keeps.lineBad (h : Keeps s t) (e : Line) : t.lineBad e = s.lineBad e := by
  unfold State.lineBad
  rw [h.errors]

/-- A line that is fetched again takes its stale errors and its clean copies with it. -/
theorem refetch_keeps (s : State) (line : Nat) :
    Keeps { s with errors := s.errors.filter fun e => !s.stale line e, lines := s.lines.filter fun x => x.dirty || x.dpa / 64 != line } (s.refetch line) :=
  Keeps.foldl (fun t _ => Keeps.logEvent t _) _ _

/-- The errors of a line in HBM4. -/
def inHbm (line : Nat) : StoreLoc → Bool
  | .hbm a => a / 64 == line
  | _ => false

theorem lineError_isSome_of_dirty {e : Line} (h : s.blank (d / 65536) = false) (hd : s.dirtyLine? d = some e) :
    (s.lineError d).isSome = s.lineBad e := by
  have line : e.dpa / 64 = d / 64 := by
    have found := List.find?_some hd
    simp only [Bool.and_eq_true, beq_iff_eq] at found
    exact found.1
  unfold State.lineError State.lineBad
  rw [h, Bool.or_false, hd, line]
  cases s.errors with
  | nil => rfl
  | cons x l =>
    simp only [List.isEmpty_cons, Bool.false_eq_true, if_false]
    exact List.isSome_find?

theorem lineError_isSome_of_clean (h : s.blank (d / 65536) = false) (hd : s.dirtyLine? d = none) :
    (s.lineError d).isSome = s.errors.any (inHbm (d / 64)) := by
  unfold State.lineError
  rw [h, Bool.or_false, hd]
  cases s.errors with
  | nil => rfl
  | cons x l =>
    simp only [List.isEmpty_cons, Bool.false_eq_true, if_false]
    exact List.isSome_find?

/-- A line whose clean copies in error, if any, have been fetched again (R320). -/
def freshLine (s : State) (line : Nat) : State := if s.errors.any (s.stale line) then s.refetch line else s

theorem freshLine_grp (s : State) (line : Nat) : (freshLine s line).grp = s.grp := by
  unfold freshLine
  split
  · exact (refetch_keeps s line).grp
  · rfl

theorem freshLine_waves (s : State) (line : Nat) : (freshLine s line).waves = s.waves := by
  unfold freshLine
  split
  · exact (refetch_keeps s line).waves
  · rfl

theorem inHbm_of_stale {line m : Nat} {e : StoreLoc} (h : s.stale line e = true) : inHbm m e = false := by
  cases e <;> simp_all [State.stale, inHbm]

/-- Errors in HBM4 are in no clean copy. -/
theorem freshLine_inHbm (s : State) (line : Nat) : (freshLine s line).errors.filter (inHbm line) = s.errors.filter (inHbm line) := by
  unfold freshLine
  split
  · rw [(refetch_keeps s line).errors]
    simp only [List.filter_filter]
    refine List.filter_congr fun e _ => ?_
    cases he : s.stale line e
    · simp
    · simp [inHbm_of_stale he]
  · rfl

/-- What reading a line in use does: its correctable errors are repaired, then the dirty line is read, or what stands below it. -/
theorem consumeLine_eq (h : ((s.errors.isEmpty && s.softs.isEmpty) || s.blank (d / 65536)) = false) :
    let r := s.repairAt (onLine (d / 64))
    s.consumeLine d = match r.dirtyLine? d with
      | some e => if r.lineBad e then (r.dirtyError e, true) else (freshLine r (d / 64), false)
      | none =>
        let f := freshLine r (d / 64)
        let bad := f.errors.filter (inHbm (d / 64))
        let l := f.logEvent (f.hbmEvent d 1 (f.lineCause d))
        if bad.isEmpty then (f, false)
        else if bad.all fun e => l.found.contains e then (l, true)
        else (({ l with found := bad.filter (fun e => !l.found.contains e) ++ l.found } : State).queueFill (d / 65536), true) := by
  unfold State.consumeLine
  rw [h]
  rfl

/-- What reading a line does: with no error named it keeps the group and the waves, and else it meets the error. -/
theorem consumeLine_cases (s : State) (d : Nat) :
    (s.lineError d = none ∧ (s.consumeLine d).2 = false ∧ (s.consumeLine d).1.grp = s.grp ∧ (s.consumeLine d).1.waves = s.waves) ∨
    ((s.lineError d).isSome = true ∧ (s.consumeLine d).2 = true) := by
  cases hu : (s.errors.isEmpty && s.softs.isEmpty) || s.blank (d / 65536) with
  | true =>
    have none_named : s.lineError d = none := by
      unfold State.lineError
      rw [if_pos]
      simp only [Bool.or_eq_true, Bool.and_eq_true] at hu ⊢
      exact hu.imp_left And.left
    have same : s.consumeLine d = (s, false) := by
      unfold State.consumeLine
      rw [hu]
      rfl
    exact .inl ⟨none_named, by rw [same], by rw [same], by rw [same]⟩
  | false =>
    have k := Keeps.repairAt s (onLine (d / 64))
    have hb := (Bool.or_eq_false_iff.mp hu).2
    have unnamed : ¬(s.lineError d).isSome = true → s.lineError d = none := Option.not_isSome_iff_eq_none.mp
    rw [consumeLine_eq hu, k.dirtyLine? d]
    cases hd : s.dirtyLine? d with
    | some e =>
      have named := lineError_isSome_of_dirty hb hd
      dsimp only
      rw [k.lineBad e]
      split
      · next bad => exact .inr ⟨named.trans bad, rfl⟩
      · next good => exact .inl ⟨unnamed (named ▸ good), rfl, (freshLine_grp _ _).trans k.grp, (freshLine_waves _ _).trans k.waves⟩
    | none =>
      have named := lineError_isSome_of_clean hb hd
      dsimp only
      rw [freshLine_inHbm, k.errors]
      split
      · next good =>
        refine .inl ⟨unnamed ?_, rfl, (freshLine_grp _ _).trans k.grp, (freshLine_waves _ _).trans k.waves⟩
        simpa [named] using good
      · next bad =>
        have met : (s.lineError d).isSome = true := by simpa [named] using bad
        split <;> exact .inr ⟨met, rfl⟩

theorem consumeLine_of_clean (he : s.errors = []) (hs : s.softs = []) (d : Nat) : s.consumeLine d = (s, false) := by
  unfold State.consumeLine
  rw [he, hs]
  rfl

/-! ### Fetches that fail -/

section

variable {g : Group} {w : Wave}

theorem execInstructionFetch_of_error {cause : Nat} (hg : s.grp = some g) (hw : s.wave? g.wid = some w)
    (hp : s.translate w.core (s.waveVf w) w.asid g.at_.toNat w.fetchNeed = .error cause) :
    execInstructionFetch s = .next (s.fetchFault g w cause) := by
  unfold execInstructionFetch
  simp only [hg, hw, hp]

variable {k : Nat} {v : W57}

theorem execInstructionFetch_of_place (hg : s.grp = some g) (hw : s.wave? g.wid = some w)
    (hp : s.translate w.core (s.waveVf w) w.asid g.at_.toNat w.fetchNeed = .ok (d, k)) :
    execInstructionFetch s = .next (if (s.consumeLine d).2 then
        match (s.consumeLine d).1.wave? g.wid with
        | some x => (s.consumeLine d).1.fetchFault g x (s.lineCause d)
        | none => { (s.consumeLine d).1 with grp := none }
      else (s.consumeLine d).1) := by
  unfold execInstructionFetch
  simp only [hg, hw, hp]
  cases (s.consumeLine d).2
  · rfl
  · cases (s.consumeLine d).1.wave? g.wid <;> rfl

theorem fetchFault_of_none {cause : Nat} (h : w.prologue = none) :
    s.fetchFault g w cause = ({ s with grp := some g } : State).faultBefore (mkCtx g w) cause [] := by
  unfold State.fetchFault
  rw [h]

theorem fetchFault_of_some {cause : Nat} {p : Prologue} (h : w.prologue = some p) :
    s.fetchFault g w cause =
      ({ s with grp := none } : State).updWave w.wid fun x => { x with prologue := some { p with ended := some (256 + cause) } } := by
  unfold State.fetchFault
  rw [h]

theorem lineCause_eq (s : State) (d : Nat) : s.lineCause d = if d / 64 ∈ s.mismatch then Cause.checkValue else Cause.ecc := by
  simp [State.lineCause]

theorem fetch_of_place (hp : s.translate w.core (s.waveVf w) w.asid v.toNat w.fetchNeed = .ok (d, k)) :
    s.fetch w (s.waveVf w) v = if (s.lineError d).isSome then .error (s.lineCause d) else .ok (BitVec.ofNat 32 (s.readNat d 4)) := by
  unfold State.fetch
  rw [hp]

theorem fetch_of_no_place {cause : Nat} (hp : s.translate w.core (s.waveVf w) w.asid v.toNat w.fetchNeed = .error cause) :
    s.fetch w (s.waveVf w) v = .error cause := by
  unfold State.fetch
  rw [hp]

/-- A failed fetch at a place: the reading meets the line's error, under the line's cause. -/
theorem consumes_of_fetch_error {cause : Nat} (hf : s.fetch w (s.waveVf w) v = .error cause)
    (hp : s.translate w.core (s.waveVf w) w.asid v.toNat w.fetchNeed = .ok (d, k)) :
    (s.consumeLine d).2 = true ∧ cause = s.lineCause d := by
  rw [fetch_of_place hp] at hf
  split at hf
  · next met =>
    obtain ⟨unmet, -⟩ | ⟨-, reads⟩ := consumeLine_cases s d
    · simp [unmet] at met
    · exact ⟨reads, (Except.error.inj hf).symm⟩
  · cases hf

/-- A fetch that succeeds: the reading of its line keeps the group and the waves. -/
theorem execInstructionFetch_of_fetch {x : IWord} (hg : s.grp = some g) (hw : s.wave? g.wid = some w)
    (hf : s.fetch w (s.waveVf w) g.at_ = .ok x) :
    ∃ d, execInstructionFetch s = .next (s.consumeLine d).1 ∧ (s.consumeLine d).1.grp = s.grp ∧ (s.consumeLine d).1.waves = s.waves := by
  cases hp : s.translate w.core (s.waveVf w) w.asid g.at_.toNat w.fetchNeed with
  | error c => cases (fetch_of_no_place hp).symm.trans hf
  | ok p =>
    obtain ⟨d, k⟩ := p
    obtain ⟨-, unread, same_grp, same_waves⟩ | ⟨met, -⟩ := consumeLine_cases s d
    · refine ⟨d, ?_, same_grp, same_waves⟩
      simp [execInstructionFetch_of_place hg hw hp, unread]
    · rw [fetch_of_place hp, if_pos met] at hf
      cases hf

end

/-- Settles O53, by the equations of the slot check, of a failed fetch and of the reading of a line. -/
theorem badWordsDetach : Obligations.BadWordsDetach := by
  unfold Obligations.BadWordsDetach
  intro x g w s
  dsimp only
  intro hg hw
  have same : ({ s with grp := some g } : State) = s := by rw [← hg]
  refine ⟨fun hp hu => ?_, fun hpu => ?_, fun cause hf => ⟨fun hp => ⟨fun hn => ?_, fun p hn => ?_⟩, fun d k hp => ?_⟩, fun v hf => ?_⟩
  · obtain ⟨hints, user, program⟩ := hu
    refine (execUnassignedSlot_eq x hg hw).trans ?_
    simp [(privilegedSlot_iff x).mpr hp, hints, user, program]
  · refine (execUnassignedSlot_eq x hg hw).trans ?_
    rw [if_neg]
    rw [← privilegedSlot_iff] at hpu
    simp only [Bool.and_eq_true, Option.isNone_iff_eq_none, Bool.not_eq_true']
    tauto
  · refine (execInstructionFetch_of_error hg hw hp).trans ?_
    rw [fetchFault_of_none hn, same]
  · refine (execInstructionFetch_of_error hg hw hp).trans ?_
    rw [fetchFault_of_some hn]
  · obtain ⟨met, named⟩ := consumes_of_fetch_error hf hp
    have runs := execInstructionFetch_of_place hg hw hp
    rw [if_pos met, ← named] at runs
    refine ⟨met, named.trans (lineCause_eq s d), fun y hy hn => ?_, fun y p hy hn => ?_, fun hy => ?_⟩
    · refine runs.trans ?_
      simp only [hy]
      rw [fetchFault_of_none hn]
    · refine runs.trans ?_
      simp only [hy]
      rw [fetchFault_of_some hn]
    · refine runs.trans ?_
      simp only [hy]
  · obtain ⟨d, runs, same_grp, same_waves⟩ := execInstructionFetch_of_fetch hg hw hf
    refine ⟨_, runs, same_grp, same_waves, consumeLine_mem s d, fun he hs => ?_⟩
    rw [consumeLine_of_clean he hs]

end Sys2Proof.Encoding

end

section

/-! LEMMAS and the obligation O37. The checks of an issue (R39) and an empty guard (R37): every instruction issues under its signature, so what an issue does before
the instruction's own effect is the same for all of them. -/

namespace Sys2Proof.Encoding

open Sys2Proof.Machine Sys2Proof.Safety Sys2Proof.Slice0 Sys2Proof.Laws

/-! ### What an issue does before the instruction's effect -/

/-- A supervisor form at user privilege, with lawful hints, fails the third check. -/
theorem checkGroup_of_user {sg : Sig} {g : Group} {w : Wave} (user : w.sup = false) (program : w.prologue = none) (sup : sg.sup = true)
    (hints : hintsOk sg g = true) : checkGroup sg g w = some Cause.priv := by
  simp [checkGroup, user, program, sup, hints]

/-- With no lane of the group Active, the group is over without its instruction's effect. -/
theorem issueWith_of_empty {sg : Sig} {cmp : Ctx → Nat → List W64} {g : Group} {w : Wave} {s : State} (k : Ctx → State → Res)
    (selected : s.grp = some g) (wave : s.wave? g.wid = some w) (checks : checkGroup sg g w = none) (empty : activeLanes g w = [])
    (clean : s.poisonRead (issueCtx sg g w) sg = none) (able : s.matrixFull sg w = false) :
    issueWith sg cmp s k = .next ((((covered sg g w s).advance (issueCtx sg g w)).over w.wid).countHold w.wid) := by
  have unread : (covered sg g w s).poisonRead (issueCtx sg g w) sg = none := (poisonRead_congr rfl _ _).trans clean
  have none_active : (issueCtx sg g w).act.isEmpty = true := by simp [issueCtx, mkCtx, empty]
  have over_wid : (issueCtx sg g w).w.wid = w.wid := issueCtx_wid sg g w
  unfold issueWith
  simp only [selected, wave, checks]
  unfold issueChecked
  simp only [able, empty, List.isEmpty_nil, Bool.not_true, Bool.and_false, Bool.false_eq_true, if_false, cover_wid]
  unfold covered issueCtx at *
  simp only [unread, none_active, if_true, settle, over_wid]

/-! ### Every form issues under its signature -/

/-- With the group selected, the instruction issues under the signature. -/
def IssuesAs (g : Group) (e : Instr × Sig) : Prop :=
  ∀ s : State, ∃ cmp k, exec e.1 { s with grp := some g } = issueWith e.2 cmp { s with grp := some g } k

section

variable (f : Fields) (g : Group)

theorem flagging_issuesAs : ∀ e ∈ (flagging f).map fun e => (e.1, e.2.1), IssuesAs g e := by
  simp only [flagging, flagged32, float32, float32One, fused32, float64, float64One, floatCompares32, floatCompares64, reductions32, reductions64, List.map_cons,
    List.map_nil, List.flatMap_cons, List.flatMap_nil, List.cons_append, List.nil_append, List.forall_mem_cons, List.not_mem_nil, false_implies, implies_true, and_true]
  and_intros
  all_goals exact fun _ => ⟨_, _, rfl⟩

theorem plainForms_issueAs : ∀ e ∈ plainForms f, IssuesAs g e := by
  simp only [plainForms, integer32, integer64, immediates32, compares32, compares64, scalars, List.map_cons, List.map_nil, List.cons_append, List.nil_append,
    List.forall_mem_cons, List.not_mem_nil, false_implies, implies_true, and_true]
  and_intros
  all_goals exact fun _ => ⟨_, _, rfl⟩

theorem memoryForms_issueAs : ∀ e ∈ memoryForms f g, IssuesAs g e := by
  simp only [memoryForms, List.map_cons, List.map_nil, List.cons_append, List.nil_append, List.forall_mem_cons, List.not_mem_nil, false_implies, implies_true, and_true]
  and_intros
  all_goals exact fun _ => ⟨_, _, rfl⟩

theorem controlForms_issueAs : ∀ e ∈ controlForms f g, IssuesAs g e := by
  simp only [controlForms, List.map_cons, List.map_nil, List.cons_append, List.nil_append, List.forall_mem_cons, List.not_mem_nil, false_implies, implies_true, and_true]
  and_intros
  all_goals exact fun _ => ⟨_, _, rfl⟩

theorem forms_issueAs {e : Instr × Sig} (he : e ∈ forms f g) : IssuesAs g e := by
  simp only [forms, List.mem_append] at he
  obtain ((he | he) | he) | he := he
  · exact flagging_issuesAs f g e he
  · exact plainForms_issueAs f g e he
  · exact memoryForms_issueAs f g e he
  · exact controlForms_issueAs f g e he

end

theorem exec_eq_issueWith {f : Fields} {g : Group} {e : Instr × Sig} {s : State} (he : e ∈ forms f g) (hg : s.grp = some g) :
    ∃ cmp k, exec e.1 s = issueWith e.2 cmp s k := by
  have same : ({ s with grp := some g } : State) = s := by rw [← hg]
  exact same ▸ forms_issueAs f g he s

theorem failedChecksDetach : FailedChecksDetach := by
  intro f g w s hg hw
  refine ⟨fun user program sg sup hints => checkGroup_of_user user program sup hints, fun e he cause failed => ?_⟩
  obtain ⟨cmp, k, issues⟩ := exec_eq_issueWith he hg
  rw [issues, issueWith_stops k hg hw failed]

theorem emptyGuardMovesOn : EmptyGuardMovesOn := by
  intro f g w s e he hg hw checks empty clean able
  obtain ⟨cmp, k, issues⟩ := exec_eq_issueWith he hg
  exact ⟨_, issues.trans (issueWith_of_empty k hg hw checks empty clean able), completes_touches hw (Touches.refl _ _)⟩

/-- Settles O37: every form issues under its signature, so a failed check detaches and an empty guard moves on before the form's effect is asked for. -/
theorem issueChecks : Obligations.IssueChecks := ⟨failedChecksDetach, emptyGuardMovesOn⟩

end Sys2Proof.Encoding

end

section

/-! LEMMAS and the obligations O4, O9 and O38. The instructions that raise flags (R77): each answers by `finishFlags`, so with no enabled exception it writes its
result and raises the union of its lanes' flags, and with one it detaches (R76, R78). -/

namespace Sys2Proof.Laws

open Sys2Proof.Machine Sys2Proof.Safety Sys2Proof.Slice0

/-! ### Instructions that raise flags -/

/-- The instruction issues under the signature, raises the flags `fl` of each lane and, unless they trap, makes the write `wr`. -/
def Raises (i : Instr) (sg : Sig) (fl : Ctx → Nat → BitVec 8) (wr : Ctx → State → State) : Prop :=
  ∀ s, exec i s = issue sg s fun c u => finishFlags c u (fl c) (wr c)

section

variable {i : Instr} {sg : Sig} {g : Group} {w : Wave} {s : State} {fl : Ctx → Nat → BitVec 8} {wr : Ctx → State → State} {f : Ctx → Wave → Wave}

theorem Raises.does (raises : Raises i sg fl wr) (writes : ∀ c u, Touches u (wr c u) c.w.wid (f c)) (h : Issues sg g w s)
    (untrapped : NoTrap (issueCtx sg g w) (fl (issueCtx sg g w))) :
    Does i sg g w s s fun c => getsFlags (flagUnion c.act (fl c)) ∘ f c := by
  unfold Does
  rw [raises s]
  exact issue_flags h untrapped writes

theorem Raises.traps (raises : Raises i sg fl wr) (h : Issues sg g w s) {cause : Nat}
    (enabled : trapCause (issueCtx sg g w).w.fpmode (flagUnion (issueCtx sg g w).act (fl (issueCtx sg g w))) = some cause) :
    exec i s = .next ((((covered sg g w s).raise w.wid (flagUnion (issueCtx sg g w).act (fl (issueCtx sg g w)))).faultBefore (issueCtx sg g w) cause
      ((List.range w.width).map fun k => if (issueCtx sg g w).phys.contains k then fl (issueCtx sg g w) k else 0)).countHold w.wid) := by
  rw [raises s, issue_next h]
  simp only [finishFlags, enabled, settle, laneFlagList, issueCtx_wid, issueCtx_width]

end

/-! ### Integer results with flags (R64, R65, R107) -/

theorem clamp32_eq (x : Int) : clamp32 x = clampS32 x := rfl

theorem divS_eq (x y : W32) :
    divS x y = if y = 0 then (if x.toInt < 0 then 0x80000000#32 else 0x7FFFFFFF#32, 0x20#8)
      else if x = 0x80000000#32 ∧ y = 0xFFFFFFFF#32 then (0x7FFFFFFF#32, 0x80#8) else (BitVec.ofInt 32 (x.toInt.tdiv y.toInt), 0) := by
  simp [divS, BitVec.msb_eq_toInt, flIdz, flSat]

theorem remS_eq (x y : W32) :
    remS x y = if y = 0 then (x, 0x20#8)
      else if x = 0x80000000#32 ∧ y = 0xFFFFFFFF#32 then (0, 0x80#8) else (BitVec.ofInt 32 (x.toInt.tmod y.toInt), 0) := by
  simp [remS, flIdz, flSat]

/-- The fold by which `rdc.add.s32` adds its lanes is their sum. -/
theorem foldl_add_eq_sum (l : List Nat) (v : Nat → Int) : l.foldl (fun t i => t + v i) 0 = (l.map v).sum := by
  rw [List.sum_eq_foldl, List.foldl_map]

/-! ### Every form that raises flags -/

section

variable (n : BitVec 1) (d a b : BitVec 7) (p : BitVec 3)

theorem flagged32_raises : ∀ e ∈ flagged32,
    Raises (e.1 n d a b) (arith true false false [.w32 d (n == 0), .r32 a, .r32 b]) (fun c i => (e.2 (c.src32 i a) (c.src32 i b)).2)
      fun c u => if n = 1 then u else u.put32 c d fun i => (e.2 (c.src32 i a) (c.src32 i b)).1 := by
  simp only [flagged32, List.forall_mem_cons, List.not_mem_nil, false_implies, implies_true, and_true, ← divS_eq, ← remS_eq]
  and_intros
  all_goals exact fun _ => rfl

theorem float32_raises : ∀ e ∈ float32,
    Raises (e.1 n d a b) (arith false e.2.1.1 e.2.1.2 [.w32 d (n == 0), .r32 a, .r32 b]) (fun c i => (e.2.2 c (c.src32 i a) (c.src32 i b)).2)
      fun c u => if n = 1 then u else u.put32 c d fun i => (e.2.2 c (c.src32 i a) (c.src32 i b)).1 := by
  simp only [float32, List.forall_mem_cons, List.not_mem_nil, false_implies, implies_true, and_true]
  and_intros
  all_goals exact fun _ => rfl

theorem float32One_raises : ∀ e ∈ float32One,
    Raises (e.1 n d a) (arith false e.2.1.1 e.2.1.2 [.w32 d (n == 0), .r32 a]) (fun c i => (e.2.2 c (c.src32 i a)).2)
      fun c u => if n = 1 then u else u.put32 c d fun i => (e.2.2 c (c.src32 i a)).1 := by
  have low_half (x : Nat) : x % 65536 = bits x 0 16 := by simp [bits]
  simp only [float32One, low_half, List.forall_mem_cons, List.not_mem_nil, false_implies, implies_true, and_true]
  and_intros
  all_goals exact fun _ => rfl

theorem fused32_raises : ∀ e ∈ fused32,
    Raises (e.1 n d a b) (arith false true e.2.1 [.rw32 d (n == 0), .r32 a, .r32 b])
      (fun c i => (e.2.2 c (c.src32 i a) (c.src32 i b) (c.src32 i d)).2)
      fun c u => if n = 1 then u else u.put32 c d fun i => (e.2.2 c (c.src32 i a) (c.src32 i b) (c.src32 i d)).1 := by
  simp only [fused32, List.forall_mem_cons, List.not_mem_nil, false_implies, implies_true, and_true]
  and_intros
  all_goals exact fun _ => rfl

theorem float64_raises : ∀ e ∈ float64,
    Raises (e.1 n d a b) (arith false e.2.1 false [.w64 d (n == 0), .r64 a, .r64 b]) (fun c i => (e.2.2 c (c.src64 i a) (c.src64 i b)).2)
      fun c u => if n = 1 then u else u.put64 c d fun i => (e.2.2 c (c.src64 i a) (c.src64 i b)).1 := by
  simp only [float64, List.forall_mem_cons, List.not_mem_nil, false_implies, implies_true, and_true]
  and_intros
  all_goals exact fun _ => rfl

theorem float64One_raises : ∀ e ∈ float64One,
    Raises (e.1 n d a) (arith false true false [.w64 d (n == 0), .r64 a]) (fun c i => (e.2 c (c.src64 i a)).2)
      fun c u => if n = 1 then u else u.put64 c d fun i => (e.2 c (c.src64 i a)).1 := by
  simp only [float64One, List.forall_mem_cons, List.not_mem_nil, false_implies, implies_true, and_true]
  and_intros
  all_goals exact fun _ => rfl

theorem fmaF64_raises :
    Raises (.fmaF64 n d a b) (arith false true false [.rw64 d (n == 0), .r64 a, .r64 b])
      (fun c i => (fma64 c (c.src64 i a) (c.src64 i b) (c.src64 i d)).2)
      fun c u => if n = 1 then u else u.put64 c d fun i => (fma64 c (c.src64 i a) (c.src64 i b) (c.src64 i d)).1 := fun _ => rfl

theorem cvtF64F32_raises :
    Raises (.cvtF64F32 n d a) (arith false false false [.w64 d (n == 0), .r32 a])
      (fun c i => (cvtFloat .f32 .f64 (c.fz .f32) (c.env .f64) (c.src32 i a).toNat).2)
      fun c u => if n = 1 then u else u.put64 c d fun i => (as64 (cvtFloat .f32 .f64 (c.fz .f32) (c.env .f64) (c.src32 i a).toNat)).1 := fun _ => rfl

theorem cvtF32F64_raises :
    Raises (.cvtF32F64 n d a) (arith false true true [.w32 d (n == 0), .r64 a])
      (fun c i => (cvtFloat .f64 .f32 (c.fz .f64) (c.env .f32) (c.src64 i a).toNat).2)
      fun c u => if n = 1 then u else u.put32 c d fun i => (as32 (cvtFloat .f64 .f32 (c.fz .f64) (c.env .f32) (c.src64 i a).toNat)).1 := fun _ => rfl

theorem floatCompares32_raises : ∀ e ∈ floatCompares32,
    Raises (e.1 n p a b) (arith false false false [.r32 a, .r32 b])
      (fun c i => (Fmt.f32.compare (c.fz .f32) e.2 (c.src32 i a).toNat (c.src32 i b).toNat).2)
      fun c u => if n = 1 then u else u.putPred c p.toNat fun i => (Fmt.f32.compare (c.fz .f32) e.2 (c.src32 i a).toNat (c.src32 i b).toNat).1 := by
  simp only [floatCompares32, List.forall_mem_cons, List.not_mem_nil, false_implies, implies_true, and_true]
  and_intros
  all_goals exact fun _ => rfl

theorem floatCompares64_raises : ∀ e ∈ floatCompares64,
    Raises (e.1 n p a b) (arith false false false [.r64 a, .r64 b])
      (fun c i => (Fmt.f64.compare (c.fz .f64) e.2 (c.src64 i a).toNat (c.src64 i b).toNat).2)
      fun c u => if n = 1 then u else u.putPred c p.toNat fun i => (Fmt.f64.compare (c.fz .f64) e.2 (c.src64 i a).toNat (c.src64 i b).toNat).1 := by
  simp only [floatCompares64, List.forall_mem_cons, List.not_mem_nil, false_implies, implies_true, and_true]
  and_intros
  all_goals exact fun _ => rfl

theorem reductions32_raises : ∀ e ∈ reductions32,
    Raises (e.1 n d a) (arith false e.2.1 false [.w32 d (n == 0), .r32 a])
      (fun c _ => (treeReduce (e.2.2 c) 6 (laneTree c 0 fun i => c.src32 i a)).2)
      fun c u => if n = 1 then u else u.put32 c d fun i => (treeReduce (e.2.2 c) 6 (laneTree c (i / c.w.plan) fun i => c.src32 i a)).1.getD 0 := by
  simp only [reductions32, List.forall_mem_cons, List.not_mem_nil, false_implies, implies_true, and_true]
  and_intros
  all_goals exact fun _ => rfl

theorem reductions64_raises : ∀ e ∈ reductions64,
    Raises (e.1 n d a) (arith false e.2.1 false [.w64 d (n == 0), .r64 a])
      (fun c _ => (treeReduce (e.2.2 c) 6 (laneTree c 0 fun i => c.src64 i a)).2)
      fun c u => if n = 1 then u else u.put64 c d fun i => (treeReduce (e.2.2 c) 6 (laneTree c (i / c.w.plan) fun i => c.src64 i a)).1.getD 0 := by
  simp only [reductions64, List.forall_mem_cons, List.not_mem_nil, false_implies, implies_true, and_true]
  and_intros
  all_goals exact fun _ => rfl

theorem rdcAddS32_raises :
    Raises (.rdcAddS32 n d a) (arith false false false [.w32 d (n == 0), .r32 a])
      (fun c _ => (clampS32 (c.act.map fun i => (c.src32 i a).toInt).sum).2)
      fun c u => if n = 1 then u else u.put32 c d fun i => (clampS32 (c.act.map fun k => (c.src32 (k + i / c.w.plan * c.w.plan) a).toInt).sum).1 := by
  intro s
  simp only [exec_rdcAddS32, execRdcAddS32, finishUnion, clamp32_eq, foldl_add_eq_sum, Nat.zero_mul, Nat.add_zero]
  rfl

end

/-- The four quantising instructions, at the two group lengths that a code names (R138). -/
theorem quantising_raise (d a : BitVec 7) : ∀ G ∈ [32, 64],
    (∀ e ∈ [(Instr.quantAq8, 8), (Instr.quantAq4, 4)],
      Raises (e.1 d a (BitVec.ofNat 7 G)) { flds := [.range d (1 + G * e.2 / 32) true, .range a (G / 2) false], ends := true }
        (fun c i => if (quantGroup (c.fz .f16) (2 ^ e.2 - 1) (halves (c.srcRange i a (G / 2)))).2.2.2 then 0x40 else 0)
        fun c u => u.putRange c d fun i =>
          let r := quantGroup (c.fz .f16) (2 ^ e.2 - 1) (halves (c.srcRange i a (G / 2)))
          BitVec.ofNat 32 (r.1 + 65536 * r.2.1) :: packCodes e.2 r.2.2.1) ∧
    ∀ e ∈ [(Instr.dquantAq8, 8), (Instr.dquantAq4, 4)],
      Raises (e.1 d a (BitVec.ofNat 7 G)) { flds := [.range d (G / 2) true, .range a (1 + G * e.2 / 32) false], rnd := true, ends := true }
        (fun c i => (dquantGroup (c.env .f16) e.2 G (c.srcRange i a (1 + G * e.2 / 32))).2)
        fun c u => u.putRange c d fun i => (dquantGroup (c.env .f16) e.2 G (c.srcRange i a (1 + G * e.2 / 32))).1 := by
  simp only [List.forall_mem_cons, List.not_mem_nil, false_implies, implies_true, and_true]
  and_intros
  all_goals exact fun _ => rfl

theorem flagging_raises (f : Fields) : ∀ e ∈ flagging f, ∃ wr, Raises e.1 e.2.1 e.2.2 wr := by
  simp only [flagging, List.forall_mem_append, List.forall_mem_map, List.forall_mem_flatMap, and_assoc]
  exact ⟨fun e he => ⟨_, flagged32_raises f.n f.d f.a f.b e he⟩, fun e he => ⟨_, float32_raises f.n f.d f.a f.b e he⟩,
    fun e he => ⟨_, float32One_raises f.n f.d f.a e he⟩, fun e he => ⟨_, fused32_raises f.n f.d f.a f.b e he⟩,
    fun e he => ⟨_, float64_raises f.n f.d f.a f.b e he⟩, fun e he => ⟨_, float64One_raises f.n f.d f.a e he⟩,
    fun e he => ⟨_, floatCompares32_raises f.n f.a f.b f.p e he⟩, fun e he => ⟨_, floatCompares64_raises f.n f.a f.b f.p e he⟩,
    fun e he => ⟨_, reductions32_raises f.n f.d f.a e he⟩, fun e he => ⟨_, reductions64_raises f.n f.d f.a e he⟩,
    List.forall_mem_cons.2 ⟨⟨_, rdcAddS32_raises f.n f.d f.a⟩, List.forall_mem_cons.2 ⟨⟨_, fmaF64_raises f.n f.d f.a f.b⟩,
      List.forall_mem_cons.2 ⟨⟨_, cvtF64F32_raises f.n f.d f.a⟩, List.forall_mem_singleton.2 ⟨_, cvtF32F64_raises f.n f.d f.a⟩⟩⟩⟩,
    fun G hG => ⟨fun e he => ⟨_, (quantising_raise f.d f.a G hG).1 e he⟩, fun e he => ⟨_, (quantising_raise f.d f.a G hG).2 e he⟩⟩⟩

/-! ### The obligations -/

/-- Settles O4: the sums, quotients and remainders of Table 20 are those of the rules, and answer by `finishFlags`. -/
theorem integerResultsWithFlags : Obligations.IntegerResultsWithFlags := by
  intro e he n d a b g w s sg r h untrapped
  exact (flagged32_raises n d a b e he).does (fun c u => Touches.put32 u c n d _) h untrapped

/-- Settles O9: a lane reduction answers by `finishFlags` with one set of flags for all lanes. -/
theorem reductionResults : Obligations.ReductionResults := by
  intro n d a g w s
  and_intros
  · intro e he sg r h untrapped
    exact (reductions32_raises n d a e he).does (fun c u => Touches.put32 u c n d _) h untrapped
  · intro e he sg r h untrapped
    exact (reductions64_raises n d a e he).does (fun c u => Touches.put64 u c n d _) h untrapped
  · simp only [Nat.zero_mul, Nat.add_zero]
    intro h untrapped
    exact (rdcAddS32_raises n d a).does (fun c u => Touches.put32 u c n d _) h untrapped

/-- Settles O38: every form that raises flags answers by `finishFlags`, which makes no write when an enabled exception is among them. -/
theorem enabledExceptionTraps : Obligations.EnabledExceptionTraps := by
  intro f g w s cause e he c fl h enabled
  obtain ⟨wr, raises⟩ := flagging_raises f e he
  exact raises.traps h enabled

end Sys2Proof.Laws

end

section

/-! LEMMAS for O3. Rounding a real number (R68): what it is to be a real rounded to an integer in a mode, that `roundAt` does it for every real that a dyadic
with a sticky bit stands for, and that no value of a coarser or equal grid is a better answer. -/

namespace Sys2Proof.Rounding

open Sys2Proof.Machine

/-! ### A real rounded to an integer -/

/-- The directed modes that leave zero behind, for a sign (R68). -/
def Away (rm : Nat) (neg : Bool) : Prop := (rm = 2 ∧ neg = false) ∨ (rm = 3 ∧ neg = true)

/-- `n` is the magnitude `t` rounded to an integer in a mode, for a sign (R68). -/
structure IsRounding (rm : Nat) (neg : Bool) (t : ℝ) (n : ℕ) : Prop where
  nearest : rm = 0 → |t - n| ≤ 1 / 2 ∧ (|t - n| = 1 / 2 → n % 2 = 0)
  away : rm ≠ 0 → Away rm neg → t ≤ n ∧ n < t + 1
  toward : rm ≠ 0 → ¬Away rm neg → n ≤ t ∧ t < n + 1

section

variable {rm : Nat} {neg : Bool} {t : ℝ} {n : ℕ}

/-- An integer is its own rounding. -/
theorem IsRounding.of_eq (h : t = n) : IsRounding rm neg t n := by
  subst h
  exact ⟨fun _ => by norm_num, fun _ _ => ⟨le_rfl, by linarith⟩, fun _ _ => ⟨le_rfl, by linarith⟩⟩

/-- Between two integers, the lower one is the rounding where the mode takes it. -/
theorem IsRounding.of_lower (low : n < t) (high : t < n + 1) (nearest : rm = 0 → t ≤ n + 1 / 2 ∧ (t = n + 1 / 2 → n % 2 = 0))
    (directed : rm ≠ 0 → ¬Away rm neg) : IsRounding rm neg t n := by
  refine ⟨fun zero => ?_, fun nonzero up => absurd up (directed nonzero), fun _ _ => ⟨low.le, high⟩⟩
  obtain ⟨near, tie⟩ := nearest zero
  rw [abs_of_pos (by linarith)]
  exact ⟨by linarith, fun half => tie (by linarith)⟩

/-- Between two integers, the upper one is the rounding where the mode takes it. -/
theorem IsRounding.of_upper (low : n < t) (high : t < n + 1) (nearest : rm = 0 → n + 1 / 2 ≤ t ∧ (t = n + 1 / 2 → n % 2 = 1))
    (directed : rm ≠ 0 → Away rm neg) : IsRounding rm neg t (n + 1) := by
  refine ⟨fun zero => ?_, fun _ _ => ?_, fun nonzero down => absurd (directed nonzero) down⟩
  · obtain ⟨near, tie⟩ := nearest zero
    push_cast
    rw [abs_of_neg (by linarith)]
    exact ⟨by linarith, fun half => by have := tie (by linarith); omega⟩
  · push_cast
    constructor <;> linarith

/-- A rounding reaches an even integer as soon as the mode says: half a unit before it, just after the integer below, or at it. -/
theorem IsRounding.le_iff (h : IsRounding rm neg t n) {N : ℕ} (even : N % 2 = 0) :
    N ≤ n ↔ (rm = 0 ∧ (N : ℝ) - 1 / 2 ≤ t) ∨ (rm ≠ 0 ∧ Away rm neg ∧ (N : ℝ) - 1 < t) ∨ (rm ≠ 0 ∧ ¬Away rm neg ∧ (N : ℝ) ≤ t) := by
  by_cases nearest : rm = 0
  · obtain ⟨near, tie⟩ := h.nearest nearest
    simp only [nearest, true_and, ne_eq, not_true_eq_false, false_and, or_false]
    constructor
    · intro le
      have : (N : ℝ) ≤ n := by exact_mod_cast le
      have := (abs_le.1 near).1
      linarith
    · intro reach
      by_contra! lt
      have below : (n : ℝ) + 1 ≤ N := by exact_mod_cast lt
      have half : |t - n| = 1 / 2 := le_antisymm near (by rw [abs_of_nonneg (by linarith)]; linarith)
      have last : (n : ℝ) + 1 = N := by linarith [(abs_le.1 near).2]
      have : n + 1 = N := by exact_mod_cast last
      have := tie half
      omega
  · by_cases up : Away rm neg
    · obtain ⟨le, lt⟩ := h.away nearest up
      simp only [nearest, up, ne_eq, not_false_eq_true, true_and, false_and, not_true_eq_false, false_or, or_false]
      refine ⟨fun reach => ?_, fun reach => ?_⟩
      · have : (N : ℝ) ≤ n := by exact_mod_cast reach
        linarith
      · have : (N : ℝ) < n + 1 := by linarith
        exact Nat.lt_succ_iff.1 (by exact_mod_cast this)
    · obtain ⟨le, lt⟩ := h.toward nearest up
      simp only [nearest, up, ne_eq, not_false_eq_true, true_and, false_and, false_or]
      refine ⟨fun reach => ?_, fun reach => ?_⟩
      · have : (N : ℝ) ≤ n := by exact_mod_cast reach
        linarith
      · have : (N : ℝ) < n + 1 := by linarith
        exact Nat.lt_succ_iff.1 (by exact_mod_cast this)

/-- In every mode a rounding lies less than one unit from its argument. -/
theorem IsRounding.bounds (h : IsRounding rm neg t n) : t - 1 < n ∧ (n : ℝ) < t + 1 := by
  by_cases nearest : rm = 0
  · obtain ⟨low, high⟩ := abs_le.1 (h.nearest nearest).1
    constructor <;> linarith
  · by_cases up : Away rm neg
    · obtain ⟨le, lt⟩ := h.away nearest up
      constructor <;> linarith
    · obtain ⟨le, lt⟩ := h.toward nearest up
      constructor <;> linarith

theorem IsRounding.lower_bound (h : IsRounding rm neg t n) {N : ℕ} (le : (N : ℝ) ≤ t) : N ≤ n := by
  have : (N : ℝ) < n + 1 := by linarith [h.bounds.1]
  exact Nat.lt_succ_iff.1 (by exact_mod_cast this)

theorem IsRounding.upper_bound (h : IsRounding rm neg t n) {N : ℕ} (le : t ≤ N) : n ≤ N := by
  have : (n : ℝ) < N + 1 := by linarith [h.bounds.2]
  exact Nat.lt_succ_iff.1 (by exact_mod_cast this)

/-! ### No better answer -/

/-- `z` lies on a grid that has no point inside the unit interval around `t`. -/
def OffInterval (t z : ℝ) : Prop := ∀ k : ℕ, (k : ℝ) ≤ t → t < k + 1 → z ≤ k ∨ (k : ℝ) + 1 ≤ z

theorem IsRounding.nearest_le (h : IsRounding rm neg t n) (pos : 0 ≤ t) (nearest : rm = 0) {z : ℝ} (off : OffInterval t z) :
    |n - t| ≤ |z - t| ∧ (|n - t| = |z - t| → z ≠ n → n % 2 = 0) := by
  obtain ⟨near, tie⟩ := h.nearest nearest
  rw [abs_sub_comm] at near tie
  obtain ⟨low, high⟩ := abs_le.1 near
  have k_le := Nat.floor_le pos
  have lt_k := Nat.lt_floor_add_one t
  generalize ⌊t⌋₊ = k at k_le lt_k
  have around : n = k ∨ n = k + 1 := by
    have : (n : ℝ) < (k + 2 : ℕ) := by push_cast; linarith
    have : (k : ℝ) < (n + 1 : ℕ) := by push_cast; linarith
    norm_cast at *
    omega
  obtain rfl | rfl := around
  · rw [abs_of_nonpos (by linarith)] at *
    obtain below | above := off n k_le lt_k
    · rw [abs_of_nonpos (by linarith)]
      exact ⟨by linarith, fun same other => absurd (by linarith) other⟩
    · rw [abs_of_nonneg (by linarith)]
      exact ⟨by linarith, fun same _ => tie (by linarith)⟩
  · push_cast at *
    rw [abs_of_nonneg (by linarith)] at *
    obtain below | above := off k k_le lt_k
    · rw [abs_of_nonpos (by linarith)]
      exact ⟨by linarith, fun same _ => tie (by linarith)⟩
    · rw [abs_of_nonneg (by linarith)]
      exact ⟨by linarith, fun same other => absurd (by linarith) other⟩

theorem IsRounding.toward_ge (h : IsRounding rm neg t n) (directed : rm ≠ 0) (down : ¬Away rm neg) {z : ℝ} (off : OffInterval t z) (le : z ≤ t) : z ≤ n := by
  obtain ⟨n_le, lt_n⟩ := h.toward directed down
  obtain below | above := off n n_le lt_n
  · exact below
  · linarith

theorem IsRounding.away_le (h : IsRounding rm neg t n) (pos : 0 ≤ t) (directed : rm ≠ 0) (up : Away rm neg) {z : ℝ} (off : OffInterval t z) (ge : t ≤ z) :
    (n : ℝ) ≤ z := by
  obtain ⟨le, lt⟩ := h.away directed up
  cases n with
  | zero => push_cast; linarith
  | succ k =>
    push_cast at *
    by_cases whole : t = k + 1
    · linarith
    · obtain below | above := off k (by linarith) (lt_of_le_of_ne le whole)
      · linarith
      · exact above

end

/-! ### Dyadics with a sticky bit -/

/-- The dyadic m × 2^e stands for the real `a`: it is `a`, or its odd last bit, below all that a rounding to `p` bits looks at, says that `a` lies strictly
between the even neighbours. -/
def StandsFor (p m : ℕ) (e : ℤ) (a : ℝ) : Prop :=
  0 < m ∧ (a = m * 2 ^ e ∨ (2 ^ (p + 2) ≤ m ∧ m % 2 = 1 ∧ ((m : ℝ) - 1) * 2 ^ e < a ∧ a < ((m : ℝ) + 1) * 2 ^ e))

/-- The count `m` of units compares with every number of half quanta, of 2^j units each, as `t` quanta do. -/
def Agrees (j m : ℕ) (t : ℝ) : Prop :=
  ∀ x : ℕ, (x * 2 ^ j < m → (x : ℝ) / 2 < t) ∧ (m < x * 2 ^ j → t < (x : ℝ) / 2) ∧ (m = x * 2 ^ j → t = (x : ℝ) / 2)

theorem StandsFor.agrees {p m j : ℕ} {e : ℤ} {a : ℝ} (h : StandsFor p m e a) (fine : 2 ^ (p + 2) ≤ m → 1 ≤ j) : Agrees j m (a / 2 ^ (e + (j + 1 : ℕ))) := by
  have unit : (0 : ℝ) < 2 ^ e := by positivity
  intro x
  have scaled : (x : ℝ) / 2 = ((x * 2 ^ j : ℕ) : ℝ) * 2 ^ e / 2 ^ (e + (j + 1 : ℕ)) := by
    rw [zpow_add₀ two_ne_zero, zpow_natCast, pow_succ]
    push_cast
    field_simp
  rw [scaled, div_lt_div_iff_of_pos_right (by positivity), div_lt_div_iff_of_pos_right (by positivity), div_left_inj' (by positivity)]
  obtain rfl | ⟨large, odd, low, high⟩ := h.2
  · refine ⟨fun lt => ?_, fun lt => ?_, fun eq => by rw [eq]⟩
    all_goals exact mul_lt_mul_of_pos_right (by exact_mod_cast lt) unit
  · have even : x * 2 ^ j % 2 = 0 := by
      obtain ⟨i, rfl⟩ := Nat.exists_eq_add_of_le' (fine large)
      rw [pow_succ, ← mul_assoc, Nat.mul_mod_left]
    refine ⟨fun lt => lt_of_le_of_lt ?_ low, fun lt => lt_of_lt_of_le high ?_, fun eq => by omega⟩
    · have : ((x * 2 ^ j + 1 : ℕ) : ℝ) ≤ m := by exact_mod_cast lt
      exact mul_le_mul_of_nonneg_right (by push_cast at *; linarith) unit.le
    · have : ((m + 1 : ℕ) : ℝ) ≤ (x * 2 ^ j : ℕ) := by exact_mod_cast lt
      exact mul_le_mul_of_nonneg_right (by push_cast at *; linarith) unit.le

/-- What the quotient by a quantum of 2^(j+1) units and its remainder say of the quanta. -/
theorem Agrees.bounds {n r j : ℕ} {t : ℝ} (h : Agrees j (2 ^ (j + 1) * n + r) t) (rest : r ≠ 0) (small : r < 2 ^ (j + 1)) :
    n < t ∧ t < n + 1 ∧ (2 ^ (j + 1) < 2 * r → (n : ℝ) + 1 / 2 < t) ∧ (2 * r = 2 ^ (j + 1) → t = n + 1 / 2) ∧ (2 * r < 2 ^ (j + 1) → t < n + 1 / 2) := by
  have unit := Nat.two_pow_pos j
  have below := (h (2 * n)).1
  have above := (h (2 * n + 2)).2.1
  obtain ⟨above_half, below_half, half⟩ := h (2 * n + 1)
  rw [pow_succ] at *
  push_cast at *
  refine ⟨?_, ?_, fun gt => ?_, fun eq => ?_, fun lt => ?_⟩
  · linarith [below (by nlinarith [Nat.pos_of_ne_zero rest])]
  · linarith [above (by nlinarith)]
  · linarith [above_half (by nlinarith)]
  · linarith [half (by nlinarith)]
  · linarith [below_half (by nlinarith)]

/-- Whether `roundAt` takes the next integer, `n` quanta and `r` of the `unit` that a quantum has being left. -/
def roundsUp (rm : ℕ) (neg : Bool) (n r unit : ℕ) : Bool :=
  if rm = 0 then decide (2 * r > unit) || (decide (2 * r = unit) && n % 2 == 1) else if rm = 1 then false else if rm = 2 then !neg else neg

theorem roundsUp_nearest {neg : Bool} {n r unit : ℕ} : roundsUp 0 neg n r unit = true ↔ unit < 2 * r ∨ (2 * r = unit ∧ n % 2 = 1) := by
  simp [roundsUp]

theorem roundsUp_directed {rm : ℕ} {neg : Bool} {n r unit : ℕ} (mode : rm < 4) (directed : rm ≠ 0) : roundsUp rm neg n r unit = true ↔ Away rm neg := by
  obtain rfl | rfl | rfl : rm = 1 ∨ rm = 2 ∨ rm = 3 := by omega
  all_goals simp [roundsUp, Away]

theorem roundAt_fine {rm m d : ℕ} {neg : Bool} {q : ℤ} : roundAt rm neg m (q + d) q = (m * 2 ^ d, true) := by
  simp [roundAt]

theorem roundAt_coarse {rm m k : ℕ} {neg : Bool} {e : ℤ} :
    roundAt rm neg m e (e + (k + 1 : ℕ)) =
      if m % 2 ^ (k + 1) = 0 then (m / 2 ^ (k + 1), true)
      else (if roundsUp rm neg (m / 2 ^ (k + 1)) (m % 2 ^ (k + 1)) (2 ^ (k + 1)) then m / 2 ^ (k + 1) + 1 else m / 2 ^ (k + 1), false) := by
  have above : ¬e + ((k + 1 : ℕ) : ℤ) ≤ e := by omega
  simp only [roundAt, above, if_false, add_sub_cancel_left, Int.toNat_natCast]
  rfl

/-- `roundAt` rounds every real that its dyadic stands for, and tells whether the rounding is exact. -/
theorem StandsFor.roundAt {p m : ℕ} {e q : ℤ} {a : ℝ} (h : StandsFor p m e a) (fine : 2 ^ (p + 2) ≤ m → e + 2 ≤ q) {rm : ℕ} (mode : rm < 4) (neg : Bool) :
    IsRounding rm neg (a / 2 ^ q) (roundAt rm neg m e q).1 ∧ ((roundAt rm neg m e q).2 = true ↔ a / 2 ^ q = (roundAt rm neg m e q).1) := by
  by_cases coarse : q ≤ e
  · obtain ⟨d, rfl⟩ := Int.le.dest coarse
    have same : a = m * 2 ^ (q + d) := h.2.resolve_right fun sticky => by have := fine sticky.1; omega
    have count : a / 2 ^ q = (m * 2 ^ d : ℕ) := by
      rw [same, zpow_add₀ two_ne_zero, zpow_natCast]
      push_cast
      field_simp
    rw [roundAt_fine]
    exact ⟨.of_eq count, iff_of_true rfl count⟩
  · obtain ⟨j, rfl⟩ : ∃ j : ℕ, q = e + (j + 1 : ℕ) := ⟨(q - e - 1).toNat, by omega⟩
    have agrees : Agrees j m (a / 2 ^ (e + (j + 1 : ℕ))) := h.agrees fun large => by have := fine large; omega
    have parts := Nat.div_add_mod m (2 ^ (j + 1))
    have small := Nat.mod_lt m (Nat.two_pow_pos (j + 1))
    rw [roundAt_coarse]
    generalize a / 2 ^ (e + ((j + 1 : ℕ) : ℤ)) = t at *
    generalize m / 2 ^ (j + 1) = n at *
    generalize m % 2 ^ (j + 1) = r at *
    subst parts
    by_cases rest : r = 0
    · have count : t = n := by
        have := (agrees (2 * n)).2.2 (by rw [rest, pow_succ]; ring)
        push_cast at this
        linarith
      rw [if_pos rest]
      exact ⟨.of_eq count, iff_of_true rfl count⟩
    · obtain ⟨low, high, above, tie, below⟩ := agrees.bounds rest small
      rw [if_neg rest]
      by_cases up : roundsUp rm neg n r (2 ^ (j + 1)) = true
      · simp only [up, if_true, Bool.false_eq_true, false_iff]
        refine ⟨.of_upper low high (fun nearest => ?_) fun directed => (roundsUp_directed mode directed).1 up, ?_⟩
        · subst nearest
          obtain gt | ⟨half, odd⟩ := roundsUp_nearest.1 up
          · exact ⟨(above gt).le, fun half => absurd half (above gt).ne'⟩
          · exact ⟨(tie half).ge, fun _ => odd⟩
        · push_cast
          exact high.ne
      · simp only [up, Bool.false_eq_true, if_false, false_iff]
        refine ⟨.of_lower low high (fun nearest => ?_) fun directed => mt (roundsUp_directed mode directed).2 up, low.ne'⟩
        subst nearest
        rw [roundsUp_nearest] at up
        obtain lt | half : 2 * r < 2 ^ (j + 1) ∨ 2 * r = 2 ^ (j + 1) := by omega
        · exact ⟨(below lt).le, fun half => absurd half (below lt).ne⟩
        · exact ⟨(tie half).le, fun _ => by omega⟩

/-- The power of two at or below what a dyadic stands for. -/
theorem StandsFor.log2 {p m : ℕ} {e : ℤ} {a : ℝ} (h : StandsFor p m e a) :
    (2 : ℝ) ^ ((Nat.log2 m : ℤ) + e) ≤ a ∧ a < 2 ^ ((Nat.log2 m : ℤ) + e + 1) := by
  have unit : (0 : ℝ) < 2 ^ e := by positivity
  have low := Nat.log2_self_le h.1.ne'
  have high := Nat.lt_log2_self (n := m)
  have reassoc : (Nat.log2 m : ℤ) + e + 1 = (Nat.log2 m + 1 : ℕ) + e := by push_cast; ring
  rw [reassoc, zpow_add₀ two_ne_zero, zpow_add₀ two_ne_zero, zpow_natCast, zpow_natCast]
  obtain rfl | ⟨large, odd, below, above⟩ := h.2
  · exact ⟨mul_le_mul_of_nonneg_right (by exact_mod_cast low) unit.le, mul_lt_mul_of_pos_right (by exact_mod_cast high) unit⟩
  · have log_pos : Nat.log2 m ≠ 0 := by
      intro zero
      rw [zero] at high
      have := Nat.one_lt_two_pow (n := p + 2) (by omega)
      omega
    generalize Nat.log2 m = l at *
    obtain ⟨l, rfl⟩ := Nat.exists_eq_add_one_of_ne_zero log_pos
    have strict : 2 ^ (l + 1) + 1 ≤ m := by omega
    have high' : m + 1 ≤ 2 ^ (l + 1 + 1) := by omega
    refine ⟨(mul_le_mul_of_nonneg_right ?_ unit.le).trans below.le, above.trans_le (mul_le_mul_of_nonneg_right (by exact_mod_cast high') unit.le)⟩
    have : ((2 ^ (l + 1) + 1 : ℕ) : ℝ) ≤ m := by exact_mod_cast strict
    push_cast at this
    linarith

/-! ### Reaching a power of two -/

/-- The magnitude `a`, rounded to `p` bits after the first with no bound on the exponent, reaches 2^E. -/
def Reaches (rm p : ℕ) (neg : Bool) (E : ℤ) (a : ℝ) : Prop :=
  (rm = 0 ∧ (2 : ℝ) ^ E - 2 ^ E / 2 ^ (p + 2) ≤ a) ∨ (rm ≠ 0 ∧ Away rm neg ∧ (2 : ℝ) ^ E - 2 ^ E / 2 ^ (p + 1) < a) ∨
    (rm ≠ 0 ∧ ¬Away rm neg ∧ (2 : ℝ) ^ E ≤ a)

theorem Reaches.of_le {rm p : ℕ} {neg : Bool} {E : ℤ} {a : ℝ} (le : (2 : ℝ) ^ E ≤ a) : Reaches rm p neg E a := by
  have nearest : (0 : ℝ) < 2 ^ E / 2 ^ (p + 2) := by positivity
  have directed : (0 : ℝ) < 2 ^ E / 2 ^ (p + 1) := by positivity
  by_cases zero : rm = 0
  · exact .inl ⟨zero, by linarith⟩
  · by_cases up : Away rm neg
    · exact .inr (.inl ⟨zero, up, by linarith⟩)
    · exact .inr (.inr ⟨zero, up, le⟩)

theorem Reaches.half_le {rm p : ℕ} {neg : Bool} {E : ℤ} {a : ℝ} (h : Reaches rm p neg E a) : (2 : ℝ) ^ E / 2 ≤ a := by
  have half (k : ℕ) : (2 : ℝ) ^ E / 2 ^ (k + 1) ≤ 2 ^ E / 2 := div_le_div_of_nonneg_left (by positivity) two_pos (le_self_pow₀ one_le_two k.succ_ne_zero)
  have nearest := half (p + 1)
  have directed := half p
  obtain ⟨-, le⟩ | ⟨-, -, lt⟩ | ⟨-, -, le⟩ := h <;> linarith [show (0 : ℝ) < 2 ^ E by positivity]

/-- Rounding a magnitude to multiples of 2^q answers at least 2^E where rounding to `p` bits after the first reaches it: for the quantum of a magnitude in full, and
for a larger one that is still below 2^E. -/
theorem IsRounding.reaches_iff {rm p n : ℕ} {neg : Bool} {E q : ℤ} {a : ℝ} (h : IsRounding rm neg (a / 2 ^ q) n) (lt : a < 2 ^ (q + p + 1))
    (full : (2 : ℝ) ^ (q + p) ≤ a ∨ q + p + 1 ≤ E) : (2 : ℝ) ^ E ≤ n * 2 ^ q ↔ Reaches rm p neg E a := by
  have unit : (0 : ℝ) < 2 ^ q := by positivity
  have count (k : ℕ) : (2 : ℝ) ^ (q + k) = (2 ^ k : ℕ) * 2 ^ q := by
    rw [zpow_add₀ two_ne_zero, zpow_natCast]
    push_cast
    ring
  obtain small | rfl | large := lt_trichotomy (q + p + 1) E
  · have half : (2 : ℝ) ^ (q + p + 1) ≤ 2 ^ E / 2 := by
      rw [div_eq_mul_inv, ← zpow_sub_one₀ two_ne_zero]
      exact zpow_le_zpow_right₀ one_le_two (by omega)
    refine iff_of_false (fun reach => ?_) fun reach => absurd (half.trans reach.half_le) lt.not_ge
    have : n ≤ 2 ^ (p + 1) := h.upper_bound (by
      rw [div_le_iff₀ unit, ← count]
      push_cast
      rw [← add_assoc]
      exact lt.le)
    have : (n : ℝ) * 2 ^ q ≤ 2 ^ (q + p + 1) := by
      rw [add_assoc, ← Nat.cast_succ, count]
      exact mul_le_mul_of_nonneg_right (by exact_mod_cast this) unit.le
    linarith [show (0 : ℝ) < 2 ^ E by positivity]
  · have nearest : (((2 ^ (p + 1) : ℕ) : ℝ) - 1 / 2) * 2 ^ q = (2 ^ (p + 1) : ℕ) * 2 ^ q - (2 ^ (p + 1) : ℕ) * 2 ^ q / 2 ^ (p + 2) := by
      push_cast
      field_simp
      ring
    have directed : (((2 ^ (p + 1) : ℕ) : ℝ) - 1) * 2 ^ q = (2 ^ (p + 1) : ℕ) * 2 ^ q - (2 ^ (p + 1) : ℕ) * 2 ^ q / 2 ^ (p + 1) := by
      push_cast
      field_simp
    unfold Reaches
    rw [add_assoc, ← Nat.cast_succ, count, mul_le_mul_iff_left₀ unit, Nat.cast_le, h.le_iff (by rw [pow_succ, Nat.mul_mod_left])]
    simp only [le_div_iff₀ unit, lt_div_iff₀ unit, nearest, directed]
  · have full := full.resolve_right (by omega)
    have le : (2 : ℝ) ^ E ≤ 2 ^ (q + p) := zpow_le_zpow_right₀ one_le_two (by omega)
    refine iff_of_true (le.trans ?_) (.of_le (le.trans full))
    rw [count] at *
    exact mul_le_mul_of_nonneg_right (by exact_mod_cast h.lower_bound ((le_div_iff₀ unit).2 full)) unit.le

end Sys2Proof.Rounding

end

section

/-! LEMMAS for O3. The finite magnitudes of a format (Table 19), in order of their patterns, and the one rounding to them (R68, R69, R73). -/

namespace Sys2Proof.Rounding

open Sys2Proof.Machine Sys2Proof.Slice0

variable {f : Fmt}

/-! ### Magnitudes -/

/-- The value of a pattern without its sign, the exponent that no finite number has counted as one more. -/
noncomputable def magnitude (f : Fmt) (b : ℕ) : ℝ :=
  if b / 2 ^ f.fb = 0 then (b % 2 ^ f.fb : ℕ) * 2 ^ f.qmin else (2 ^ f.fb + b % 2 ^ f.fb : ℕ) * 2 ^ (f.qmin + (b / 2 ^ f.fb - 1 : ℕ))

/-- A significand `n` above exponent place `k` is normal, or subnormal at the lowest place, or the next power of two. -/
def IsCode (f : Fmt) (k n : ℕ) : Prop := n ≤ 2 ^ (f.fb + 1) ∧ (k = 0 ∨ 2 ^ f.fb ≤ n)

theorem magnitude_code {k n : ℕ} (h : IsCode f k n) : magnitude f (k * 2 ^ f.fb + n) = n * 2 ^ (f.qmin + k) := by
  obtain ⟨le, normal⟩ := h
  have unit := Nat.two_pow_pos f.fb
  rw [pow_succ] at le
  unfold magnitude
  by_cases small : n < 2 ^ f.fb
  · obtain rfl : k = 0 := by omega
    simp [Nat.div_eq_of_lt small, Nat.mod_eq_of_lt small]
  · obtain ⟨r, rfl⟩ := Nat.exists_eq_add_of_le (not_lt.1 small)
    have regroup : k * 2 ^ f.fb + (2 ^ f.fb + r) = r + (k + 1) * 2 ^ f.fb := by ring
    rw [regroup, Nat.add_mul_div_right _ _ unit, Nat.add_mul_mod_self_right]
    obtain lt | rfl : r < 2 ^ f.fb ∨ r = 2 ^ f.fb := by omega
    · simp [Nat.div_eq_of_lt lt, Nat.mod_eq_of_lt lt]
    · have next : f.qmin + ((1 + (k + 1) - 1 : ℕ) : ℤ) = f.qmin + k + 1 := by omega
      rw [Nat.div_self unit, Nat.mod_self, if_neg (by omega), next, zpow_add_one₀ two_ne_zero]
      push_cast
      ring

/-- Every pattern is a code with a significand below the next power of two. -/
theorem exists_code (f : Fmt) (b : ℕ) : ∃ k n, b = k * 2 ^ f.fb + n ∧ IsCode f k n ∧ n < 2 ^ (f.fb + 1) := by
  have unit := Nat.two_pow_pos f.fb
  have parts := Nat.div_add_mod b (2 ^ f.fb)
  have small := Nat.mod_lt b unit
  unfold IsCode
  rw [pow_succ]
  cases place : b / 2 ^ f.fb with
  | zero => exact ⟨0, b % 2 ^ f.fb, by rw [← parts, place]; simp, ⟨by omega, .inl rfl⟩, by omega⟩
  | succ k => exact ⟨k, 2 ^ f.fb + b % 2 ^ f.fb, by rw [← parts, place]; simp; ring, ⟨by omega, .inr (by omega)⟩, by omega⟩

theorem magnitude_strictMono (f : Fmt) : StrictMono (magnitude f) := by
  refine strictMono_nat_of_lt_succ fun b => ?_
  obtain ⟨k, n, rfl, code, lt⟩ := exists_code f b
  have next : IsCode f k (n + 1) := ⟨lt, code.2.imp_right fun le => by omega⟩
  rw [add_assoc, magnitude_code code, magnitude_code next]
  exact mul_lt_mul_of_pos_right (by push_cast; linarith) (by positivity)

theorem magnitude_nonneg (f : Fmt) (b : ℕ) : 0 ≤ magnitude f b := by
  unfold magnitude
  split <;> positivity

theorem infBits_eq (exponents : 1 ≤ f.eb) : f.infBits = (2 ^ f.eb - 2) * 2 ^ f.fb + 2 ^ f.fb := by
  have two_le : 2 ^ 1 ≤ 2 ^ f.eb := Nat.pow_le_pow_right two_pos exponents
  have : 2 ^ f.eb - 1 = 2 ^ f.eb - 2 + 1 := by omega
  rw [Fmt.infBits, this, Nat.add_mul, Nat.one_mul]

/-- The infinity has the magnitude that the next exponent would have: 2^(emax+1). -/
theorem magnitude_infBits (exponents : 1 ≤ f.eb) : magnitude f f.infBits = 2 ^ (2 ^ (f.eb - 1)) := by
  rw [infBits_eq exponents, magnitude_code ⟨by rw [pow_succ]; omega, .inr le_rfl⟩]
  obtain ⟨e, eb⟩ := Nat.exists_eq_add_of_le' exponents
  have one_le := Nat.one_le_two_pow (n := e)
  have place : f.qmin + ((2 ^ f.eb - 2 : ℕ) : ℤ) + f.fb = (2 ^ e : ℕ) := by
    rw [Fmt.qmin, Fmt.emin, eb, pow_succ, Nat.add_sub_cancel]
    push_cast [show 2 ≤ 2 ^ e * 2 by omega]
    ring
  rw [eb, Nat.add_sub_cancel, ← zpow_natCast (2 : ℝ) (2 ^ e), ← place, eb, zpow_add₀ two_ne_zero _ (f.fb : ℤ), zpow_natCast]
  push_cast
  ring

/-- Between two neighbouring multiples of a quantum there is no magnitude, where the quantum is the lowest or the multiples have all their bits. -/
theorem magnitude_off {k n : ℕ} (b : ℕ) (normal : k = 0 ∨ 2 ^ f.fb ≤ n) :
    magnitude f b ≤ n * 2 ^ (f.qmin + k) ∨ ((n : ℝ) + 1) * 2 ^ (f.qmin + k) ≤ magnitude f b := by
  have unit : (0 : ℝ) < 2 ^ (f.qmin + k) := by positivity
  obtain ⟨j, m, rfl, code, lt⟩ := exists_code f b
  rw [magnitude_code code]
  obtain le | gt := le_or_gt k j
  · obtain ⟨i, rfl⟩ := Nat.exists_eq_add_of_le le
    have whole : (m : ℝ) * 2 ^ (f.qmin + (k + i : ℕ)) = (m * 2 ^ i : ℕ) * 2 ^ (f.qmin + k) := by
      push_cast
      rw [← add_assoc, zpow_add₀ two_ne_zero, zpow_natCast]
      ring
    rw [whole]
    refine (Nat.lt_or_ge n (m * 2 ^ i)).symm.imp (fun le => ?_) fun lt => ?_
    all_goals exact mul_le_mul_of_nonneg_right (by exact_mod_cast ‹_›) unit.le
  · have full := normal.resolve_left (by omega)
    obtain ⟨i, rfl⟩ := Nat.exists_eq_add_of_lt gt
    have step : (2 : ℝ) ^ (f.qmin + j) * 2 ≤ 2 ^ (f.qmin + (j + i + 1 : ℕ)) := by
      rw [← zpow_add_one₀ two_ne_zero]
      exact zpow_le_zpow_right₀ one_le_two (by push_cast; omega)
    have m_le : (m : ℝ) ≤ 2 * n := by
      have : m ≤ 2 * n := by rw [pow_succ] at lt; omega
      exact_mod_cast this
    left
    calc (m : ℝ) * 2 ^ (f.qmin + j) ≤ 2 * n * 2 ^ (f.qmin + j) := mul_le_mul_of_nonneg_right m_le (by positivity)
      _ = n * (2 ^ (f.qmin + j) * 2) := by ring
      _ ≤ _ := mul_le_mul_of_nonneg_left step (by positivity)

/-! ### Patterns with a sign -/

/-- The factor of a sign. -/
def signFactor (neg : Bool) : ℝ := if neg then -1 else 1

theorem value_fin (neg : Bool) (m : ℕ) (e : ℤ) : ((value (.fin neg m e) : ℚ) : ℝ) = signFactor neg * (m * 2 ^ e) := by
  cases neg <;> simp [value, signFactor]

/-- The pattern of a finite number: neither an infinity nor a NaN. -/
def FinitePattern (f : Fmt) (x : ℕ) : Prop := bits x f.fb f.eb ≠ 2 ^ f.eb - 1

theorem bits_exponent (f : Fmt) (x : ℕ) : bits x f.fb f.eb = x % 2 ^ (f.eb + f.fb) / 2 ^ f.fb := by
  rw [bits, Nat.add_comm, pow_add, Nat.mod_mul_right_div_self]

theorem finite_iff (f : Fmt) (x : ℕ) : FinitePattern f x ↔ x % 2 ^ (f.eb + f.fb) < f.infBits := by
  have small : bits x f.fb f.eb < 2 ^ f.eb := Nat.mod_lt _ (Nat.two_pow_pos _)
  rw [Fmt.infBits, ← Nat.div_lt_iff_lt_mul (Nat.two_pow_pos _), ← bits_exponent, FinitePattern]
  omega

/-- A finite pattern reads as a zero or as a nonzero dyadic. -/
theorem read_finite {x : ℕ} (finite : FinitePattern f x) : (∃ neg, f.read false x = .zero neg) ∨ ∃ neg m e, 0 < m ∧ f.read false x = .fin neg m e := by
  unfold Fmt.read
  simp only [show ¬bits x f.fb f.eb = 2 ^ f.eb - 1 from finite, if_false, Bool.or_false, decide_eq_true_eq]
  split
  · split
    · exact .inl ⟨_, rfl⟩
    · exact .inr ⟨_, _, _, by omega, rfl⟩
  · exact .inr ⟨_, _, _, by positivity, rfl⟩

/-- A finite pattern has the magnitude of its bits below the sign. -/
theorem value_read {x : ℕ} (finite : FinitePattern f x) :
    ((value (f.read false x) : ℚ) : ℝ) = signFactor (decide (bits x (f.eb + f.fb) 1 = 1)) * magnitude f (x % 2 ^ (f.eb + f.fb)) := by
  have fraction : x % 2 ^ (f.eb + f.fb) % 2 ^ f.fb = bits x 0 f.fb := by
    rw [bits, pow_zero, Nat.div_one, Nat.add_comm, pow_add, Nat.mod_mul_right_mod]
  unfold Fmt.read magnitude
  rw [← bits_exponent, fraction]
  simp only [show ¬bits x f.fb f.eb = 2 ^ f.eb - 1 from finite, if_false, Bool.or_false, decide_eq_true_eq]
  by_cases lowest : bits x f.fb f.eb = 0
  · by_cases zero : bits x 0 f.fb = 0
    · simp [lowest, zero, value]
    · simp only [lowest, zero, if_true, if_false, value_fin]
  · simp only [lowest, if_false, value_fin]

theorem infBits_lt (f : Fmt) : f.infBits < f.signBit := by
  rw [Fmt.infBits, Fmt.signBit, pow_add]
  exact Nat.mul_lt_mul_of_pos_right (Nat.sub_lt (Nat.two_pow_pos _) one_pos) (Nat.two_pow_pos _)

theorem sgn_mod {neg : Bool} {b : ℕ} (lt : b < f.signBit) : f.sgn neg b % 2 ^ (f.eb + f.fb) = b := by
  unfold Fmt.sgn Fmt.signBit at *
  split
  · rw [Nat.add_mod_left, Nat.mod_eq_of_lt lt]
  · exact Nat.mod_eq_of_lt lt

theorem sgn_sign {neg : Bool} {b : ℕ} (lt : b < f.signBit) : decide (bits (f.sgn neg b) (f.eb + f.fb) 1 = 1) = neg := by
  unfold bits Fmt.sgn Fmt.signBit at *
  cases neg
  · simp [Nat.div_eq_of_lt lt]
  · simp [Nat.add_div_left, Nat.div_eq_of_lt lt]

theorem finite_sgn {neg : Bool} {b : ℕ} (lt : b < f.infBits) : FinitePattern f (f.sgn neg b) := by
  rwa [finite_iff, sgn_mod (lt.trans (infBits_lt f))]

theorem value_sgn {neg : Bool} {b : ℕ} (lt : b < f.infBits) : ((value (f.read false (f.sgn neg b)) : ℚ) : ℝ) = signFactor neg * magnitude f b := by
  have small := lt.trans (infBits_lt f)
  rw [value_read (finite_sgn lt), sgn_mod small, sgn_sign small]

/-! ### The one rounding -/

/-- What `Fmt.round` finds for a magnitude `a`: the exponent place and the significand, whether they are exact, and whether the result is tiny. -/
structure RoundedTo (f : Fmt) (rm : ℕ) (neg : Bool) (a : ℝ) (k n : ℕ) (isExact tiny : Bool) : Prop where
  code : IsCode f k n
  normal : k = 0 ∨ (2 : ℝ) ^ f.fb ≤ a / 2 ^ (f.qmin + k)
  rounding : IsRounding rm neg (a / 2 ^ (f.qmin + k)) n
  exact_iff : isExact = true ↔ a / 2 ^ (f.qmin + k) = n
  tiny_iff : tiny = true ↔ ¬Reaches rm f.fb neg f.emin a
  overflow_iff : f.infBits ≤ k * 2 ^ f.fb + n ↔ Reaches rm f.fb neg (2 ^ (f.eb - 1) : ℕ) a

theorem IsRounding.pos {rm p n : ℕ} {neg : Bool} {t : ℝ} (h : IsRounding rm neg t n) (le : (2 : ℝ) ^ p ≤ t) : 0 < n :=
  (Nat.two_pow_pos p).trans_le (h.lower_bound (by exact_mod_cast le))

/-- The place of a number's first bit says whether it reaches a power of two. -/
theorem lt_log2_iff {u : ℕ} {q E : ℤ} (pos : 0 < u) : (Nat.log2 u : ℤ) + q < E ↔ ¬(2 : ℝ) ^ E ≤ u * 2 ^ q := by
  obtain ⟨low, high⟩ := StandsFor.log2 (p := 0) (m := u) (e := q) ⟨pos, .inl rfl⟩
  refine ⟨fun lt => ?_, fun below => ?_⟩
  · exact (high.trans_le (zpow_le_zpow_right₀ one_le_two (by omega))).not_ge
  · by_contra! ge
    exact below ((zpow_le_zpow_right₀ one_le_two ge).trans low)

theorem round_eq {rm m : ℕ} {neg : Bool} {e : ℤ} {a : ℝ} (exponents : 2 ≤ f.eb) (mode : rm < 4) (h : StandsFor f.fb m e a) :
    ∃ k n isExact tiny, RoundedTo f rm neg a k n isExact tiny ∧ f.round { rm := rm, fz := false } neg m e =
      if f.infBits ≤ k * 2 ^ f.fb + n then (f.overflow { rm := rm, fz := false } neg, flOf ||| flNx)
      else (f.sgn neg (k * 2 ^ f.fb + n), (if isExact = true then 0 else flNx) ||| if (tiny && !isExact) = true then flUf else 0) := by
  obtain ⟨low, high⟩ := h.log2
  have fine {q : ℤ} (le : (Nat.log2 m : ℤ) + e - f.fb ≤ q) (large : 2 ^ (f.fb + 2) ≤ m) : e + 2 ≤ q := by
    have := (Nat.le_log2 h.1.ne').2 large
    omega
  have below {q : ℤ} (le : (Nat.log2 m : ℤ) + e - f.fb ≤ q) : a < 2 ^ (q + f.fb + 1) :=
    high.trans_le (zpow_le_zpow_right₀ one_le_two (by omega))
  have full {q : ℤ} (eq : (Nat.log2 m : ℤ) + e - f.fb = q) : (2 : ℝ) ^ (q + f.fb) ≤ a := by rwa [← eq, sub_add_cancel]
  have count {q : ℤ} (le : (2 : ℝ) ^ (q + f.fb) ≤ a) : (2 : ℝ) ^ f.fb ≤ a / 2 ^ q := by
    rwa [le_div_iff₀ (by positivity), mul_comm, ← zpow_natCast, ← zpow_add₀ two_ne_zero]
  obtain ⟨k, place⟩ : ∃ k : ℕ, max ((Nat.log2 m : ℤ) + e - f.fb) f.qmin = f.qmin + k := ⟨(max ((Nat.log2 m : ℤ) + e - f.fb) f.qmin - f.qmin).toNat, by omega⟩
  have le_place : (Nat.log2 m : ℤ) + e - f.fb ≤ f.qmin + k := by omega
  have normal : k = 0 ∨ (2 : ℝ) ^ (f.qmin + k + f.fb) ≤ a := (Nat.eq_zero_or_pos k).imp_right fun pos => full (by omega)
  obtain ⟨unbounded, -⟩ := h.roundAt (fine le_rfl) mode neg
  obtain ⟨rounding, exact_iff⟩ := h.roundAt (fine le_place) mode neg
  have pos := unbounded.pos (count (full rfl))
  have code : IsCode f k (roundAt rm neg m e (f.qmin + k)).1 := by
    refine ⟨rounding.upper_bound ?_, normal.imp_right fun le => rounding.lower_bound (by exact_mod_cast count le)⟩
    rw [div_le_iff₀ (by positivity), Nat.cast_pow, ← zpow_natCast, Nat.cast_ofNat, ← zpow_add₀ two_ne_zero]
    exact (below le_place).le.trans_eq (by congr 1; push_cast; ring)
  refine ⟨k, (roundAt rm neg m e (f.qmin + k)).1, (roundAt rm neg m e (f.qmin + k)).2,
    decide ((Nat.log2 (roundAt rm neg m e ((Nat.log2 m : ℤ) + e - f.fb)).1 : ℤ) + ((Nat.log2 m : ℤ) + e - f.fb) < f.emin),
    ⟨code, normal.imp_right count, rounding, exact_iff, ?_, ?_⟩, ?_⟩
  · rw [decide_eq_true_iff, lt_log2_iff pos, unbounded.reaches_iff (below le_rfl) (.inl (full rfl))]
  · rw [← (magnitude_strictMono f).le_iff_le, magnitude_infBits (by omega), magnitude_code code, ← zpow_natCast]
    refine rounding.reaches_iff (below le_place) (normal.symm.imp_right ?_)
    rintro rfl
    have two_le : 2 ^ 1 ≤ 2 ^ (f.eb - 1) := Nat.pow_le_pow_right two_pos (by omega)
    rw [Fmt.qmin, Fmt.emin]
    omega
  · simp only [Fmt.round, place, pos.ne', decide_false, Bool.false_or, Bool.and_false, Bool.false_eq_true, if_false, add_sub_cancel_left, Int.toNat_natCast, ge_iff_le]

/-! ### With a sign -/

@[simp] theorem abs_signFactor_mul (neg : Bool) (x : ℝ) : |signFactor neg * x| = |x| := by cases neg <;> simp [signFactor]

theorem signFactor_mul_self (neg : Bool) (x : ℝ) : signFactor neg * (signFactor neg * x) = x := by cases neg <;> simp [signFactor]

theorem signFactor_neg_iff {neg : Bool} {a : ℝ} (pos : 0 < a) : signFactor neg * a < 0 ↔ neg = true := by
  cases neg <;> simp [signFactor, pos, pos.le]

theorem signFactor_pos_iff {neg : Bool} {a : ℝ} (pos : 0 < a) : 0 < signFactor neg * a ↔ neg = false := by
  cases neg <;> simp [signFactor, pos, pos.le]

/-- What an overflow writes (Table 21). -/
theorem overflow_away {rm : ℕ} {neg : Bool} (up : rm = 0 ∨ Away rm neg) : f.overflow { rm := rm, fz := false } neg = f.sgn neg f.infBits := by
  obtain rfl | ⟨rfl, rfl⟩ | ⟨rfl, rfl⟩ := up <;> simp [Fmt.overflow]

theorem overflow_toward {rm : ℕ} {neg : Bool} (mode : rm < 4) (directed : rm ≠ 0) (down : ¬Away rm neg) :
    f.overflow { rm := rm, fz := false } neg = f.sgn neg (f.infBits - 1) := by
  obtain rfl | rfl | rfl : rm = 1 ∨ rm = 2 ∨ rm = 3 := by omega
  all_goals simp_all [Fmt.overflow, Away]

/-- The flags of a result without overflow: inexact, and underflow when it is tiny too. -/
theorem flags_spec (isExact tiny : Bool) :
    let r : BitVec 8 := (if isExact = true then 0 else flNx) ||| if (tiny && !isExact) = true then flUf else 0
    r &&& ~~~(flNx ||| flUf) = 0 ∧ (r.getLsbD 4 = true ↔ isExact = false) ∧ (r.getLsbD 3 = true ↔ tiny = true ∧ isExact = false) := by
  revert isExact tiny
  decide

section

variable {rm k n : ℕ} {neg isExact tiny : Bool} {a : ℝ}

/-- With a sign, a rounding of `t` quanta `u` is the best answer of a grid that has no point inside the quantum around `t`. -/
theorem IsRounding.best {t u y : ℝ} (h : IsRounding rm neg t n) (unit : 0 < u) (pos : 0 < t) (off : ∀ s, OffInterval t (signFactor s * y / u)) :
    let v := signFactor neg * (t * u)
    let r := signFactor neg * (n * u)
    (rm = 0 → |r - v| ≤ |y - v| ∧ (|r - v| = |y - v| → y ≠ r → n % 2 = 0)) ∧
    (rm = 1 → |r| ≤ |v| ∧ 0 ≤ r * v ∧ (|y| ≤ |v| → |y| ≤ |r|)) ∧
    (rm = 2 → v ≤ r ∧ (v ≤ y → r ≤ y)) ∧ (rm = 3 → r ≤ v ∧ (y ≤ v → y ≤ r)) := by
  dsimp only
  have y_eq (s : Bool) : y = signFactor s * (signFactor s * y / u * u) := by rw [div_mul_cancel₀ _ unit.ne', signFactor_mul_self]
  have sub_abs (x z : ℝ) : |signFactor neg * (x * u) - signFactor neg * (z * u)| = |x - z| * u := by
    rw [← mul_sub, abs_signFactor_mul, ← sub_mul, abs_mul, abs_of_pos unit]
  have le_pos (x z : ℝ) : signFactor false * (x * u) ≤ signFactor false * (z * u) ↔ x ≤ z := by simp [signFactor, unit]
  have le_neg (x z : ℝ) : signFactor true * (x * u) ≤ signFactor true * (z * u) ↔ z ≤ x := by simp [signFactor, unit]
  refine ⟨fun nearest => ?_, fun zero => ?_, fun up => ?_, fun down => ?_⟩
  · obtain ⟨le, tie⟩ := h.nearest_le pos.le nearest (off neg)
    rw [y_eq neg, sub_abs, sub_abs, mul_le_mul_iff_left₀ unit, mul_left_inj' unit.ne']
    exact ⟨le, fun same other => tie same fun eq => other (by rw [eq])⟩
  · subst zero
    have down : ¬Away 1 neg := by simp [Away]
    obtain ⟨s, same⟩ : ∃ s, signFactor s * y = |y| := by
      obtain eq | eq := abs_choice y
      · exact ⟨false, by simp [signFactor, eq]⟩
      · exact ⟨true, by simp [signFactor, eq]⟩
    have nonneg : 0 ≤ (n : ℝ) * u := by positivity
    have product : signFactor neg * (n * u) * (signFactor neg * (t * u)) = n * u * (t * u) := by rw [mul_comm, mul_assoc, mul_left_comm, signFactor_mul_self, mul_comm]
    rw [product, abs_signFactor_mul, abs_signFactor_mul, abs_of_nonneg nonneg, abs_of_pos (by positivity), mul_le_mul_iff_left₀ unit, ← same, ← div_le_iff₀ unit,
      ← div_le_iff₀ unit]
    exact ⟨(h.toward one_ne_zero down).1, by positivity, h.toward_ge one_ne_zero down (off s)⟩
  · subst up
    cases neg with
    | false =>
      rw [y_eq false, le_pos, le_pos, le_pos]
      exact ⟨(h.away two_ne_zero (by simp [Away])).1, h.away_le pos.le two_ne_zero (by simp [Away]) (off false)⟩
    | true =>
      rw [y_eq true, le_neg, le_neg, le_neg]
      exact ⟨(h.toward two_ne_zero (by simp [Away])).1, h.toward_ge two_ne_zero (by simp [Away]) (off true)⟩
  · subst down
    cases neg with
    | false =>
      rw [y_eq false, le_pos, le_pos, le_pos]
      exact ⟨(h.toward three_ne_zero (by simp [Away])).1, h.toward_ge three_ne_zero (by simp [Away]) (off false)⟩
    | true =>
      rw [y_eq true, le_neg, le_neg, le_neg]
      exact ⟨(h.away three_ne_zero (by simp [Away])).1, h.away_le pos.le three_ne_zero (by simp [Away]) (off true)⟩

/-- No finite number of the format, whatever sign it is given, lies inside the quantum around a rounded magnitude. -/
theorem RoundedTo.off (h : RoundedTo f rm neg a k n isExact tiny) (s : Bool) {x : ℕ} (finite : FinitePattern f x) :
    OffInterval (a / 2 ^ (f.qmin + k)) (signFactor s * (value (f.read false x) : ℚ) / 2 ^ (f.qmin + k)) := by
  have unit : (0 : ℝ) < 2 ^ (f.qmin + k) := by positivity
  intro i le lt
  have normal : k = 0 ∨ 2 ^ f.fb ≤ i := h.normal.imp_right fun full => by
    have : ((2 ^ f.fb : ℕ) : ℝ) < (i + 1 : ℕ) := by push_cast; exact full.trans_lt lt
    exact Nat.lt_succ_iff.1 (by exact_mod_cast this)
  rw [value_read finite, div_le_iff₀ unit, le_div_iff₀ unit]
  generalize decide (bits x (f.eb + f.fb) 1 = 1) = r
  by_cases same : s = r
  · rw [same, signFactor_mul_self]
    exact magnitude_off _ normal
  · have other : signFactor s * (signFactor r * magnitude f (x % 2 ^ (f.eb + f.fb))) = -magnitude f (x % 2 ^ (f.eb + f.fb)) := by
      cases s <;> cases r <;> simp_all [signFactor]
    rw [other]
    left
    have := magnitude_nonneg f (x % 2 ^ (f.eb + f.fb))
    have : 0 ≤ (i : ℝ) * 2 ^ (f.qmin + k) := by positivity
    linarith

end

/-- `Fmt.round` of a magnitude with a sign is the one rounding of the signed number. -/
theorem rounds_round {rm m : ℕ} {neg : Bool} {e : ℤ} {a : ℝ} (exponents : 2 ≤ f.eb) (fractions : 1 ≤ f.fb) (mode : rm < 4) (pos : 0 < a)
    (h : StandsFor f.fb m e a) : Rounds f rm (signFactor neg * a) (f.round { rm := rm, fz := false } neg m e) := by
  obtain ⟨k, n, isExact, tiny, rounded, eq⟩ := round_eq exponents mode (neg := neg) h
  unfold Rounds
  extract_lets finite real top least ulp away overflows tiny' sign
  have magnitude_eq : |signFactor neg * a| = a := by rw [abs_signFactor_mul, abs_of_pos pos]
  have away_iff : away ↔ Away rm neg := by simp only [away, signFactor_neg_iff pos, signFactor_pos_iff pos, Away]
  have sign_eq (x : ℕ) : sign x = f.sgn neg x := by simp only [sign, signFactor_neg_iff pos, Fmt.sgn]
  have over_iff : overflows ↔ Reaches rm f.fb neg (2 ^ (f.eb - 1) : ℕ) a := by
    simp only [overflows, away_iff, magnitude_eq, Reaches, zpow_natCast, ulp, top, div_div, ← pow_succ]
  have tiny_iff : tiny' ↔ ¬Reaches rm f.fb neg f.emin a := by
    simp only [tiny', away_iff, magnitude_eq, Reaches, least]
    by_cases nearest : rm = 0
    · simp [nearest, lt_sub_iff_add_lt]
    · by_cases up : Away rm neg <;> simp [nearest, up]
  clear_value away overflows tiny' sign
  rw [eq]
  by_cases large : f.infBits ≤ k * 2 ^ f.fb + n
  · have reached := over_iff.2 (rounded.overflow_iff.1 large)
    simp only [large, if_true, sign_eq, away_iff]
    exact ⟨fun _ => ⟨trivial, overflow_away, overflow_toward mode⟩, fun no => absurd reached no⟩
  · have unreached : ¬overflows := mt (fun reach => rounded.overflow_iff.2 (over_iff.1 reach)) large
    have unit : (0 : ℝ) < 2 ^ (f.qmin + k) := by positivity
    obtain ⟨others, inexact, underflow⟩ := flags_spec isExact tiny
    have real_eq : real (f.sgn neg (k * 2 ^ f.fb + n)) = signFactor neg * (n * 2 ^ (f.qmin + k)) := by
      rw [← magnitude_code rounded.code]
      exact value_sgn (not_le.1 large)
    have exact_iff : isExact = false ↔ signFactor neg * (n * 2 ^ (f.qmin + k)) ≠ signFactor neg * a := by
      rw [Ne, mul_right_inj' (by cases neg <;> simp [signFactor]), @eq_comm ℝ, ← div_eq_iff unit.ne', ← rounded.exact_iff, Bool.not_eq_true]
    have parity : f.sgn neg (k * 2 ^ f.fb + n) % 2 = n % 2 := by
      have sign_even : 2 ∣ f.signBit := dvd_pow_self 2 (by omega)
      have place_even : 2 ∣ k * 2 ^ f.fb := (dvd_pow_self 2 (by omega)).mul_left k
      unfold Fmt.sgn
      split <;> omega
    simp only [large, if_false, real_eq, ← exact_iff, tiny_iff, ← rounded.tiny_iff, parity]
    refine ⟨fun reach => absurd reach unreached, fun _ => ⟨finite_sgn (not_le.1 large), others, inexact, underflow, fun x finite => ?_⟩⟩
    have best := rounded.rounding.best unit (div_pos pos unit) fun s => rounded.off s finite
    rwa [div_mul_cancel₀ _ unit.ne'] at best

/-- The same for any nonzero number, its sign given. -/
theorem rounds_of_abs {rm m : ℕ} {neg : Bool} {e : ℤ} {v : ℝ} (exponents : 2 ≤ f.eb) (fractions : 1 ≤ f.fb) (mode : rm < 4) (nonzero : v ≠ 0)
    (sign : neg = true ↔ v < 0) (h : StandsFor f.fb m e |v|) : Rounds f rm v (f.round { rm := rm, fz := false } neg m e) := by
  have eq : signFactor neg * |v| = v := by
    cases neg
    · simp_all [signFactor, abs_of_nonneg]
    · simp_all [signFactor, abs_of_neg]
  have := rounds_round exponents fractions mode (abs_pos.2 nonzero) h (neg := neg)
  rwa [eq] at this

end Sys2Proof.Rounding
end

section

/-! LEMMAS and the obligation O3. Quotients and roots stand for their exact values by a sticky bit; each operation rounds the exact value of its operands once
(R68, R69). -/

namespace Sys2Proof.Rounding

open Sys2Proof.Machine Sys2Proof.Slice0

/-! ### Quotients and roots -/

/-- An integer part and a sticky bit stand for a real that is large enough. -/
theorem standsFor_sticky {p q : ℕ} {e : ℤ} {t : ℝ} {isExact : Prop} [Decidable isExact] (large : (2 : ℝ) ^ (p + 1) ≤ t) (low : q ≤ t) (high : t < q + 1)
    (exact_iff : isExact ↔ t = q) : StandsFor p (2 * q + if isExact then 0 else 1) (e - 1) (t * 2 ^ e) := by
  have unit : (0 : ℝ) < 2 ^ e := by positivity
  have large' : 2 ^ (p + 1) ≤ q := by
    have : ((2 ^ (p + 1) : ℕ) : ℝ) < (q + 1 : ℕ) := by push_cast; exact large.trans_lt high
    exact Nat.lt_succ_iff.1 (by exact_mod_cast this)
  have pos := (Nat.two_pow_pos (p + 1)).trans_le large'
  have halve (x : ℝ) : 2 * x * 2 ^ (e - 1) = x * 2 ^ e := by
    rw [zpow_sub_one₀ two_ne_zero]
    ring
  refine ⟨by omega, ?_⟩
  by_cases h : isExact
  · left
    rw [exact_iff.1 h]
    simp [h, halve]
  · right
    have lt : (q : ℝ) < t := lt_of_le_of_ne low fun eq => h (exact_iff.2 eq.symm)
    simp only [h, if_false]
    push_cast
    refine ⟨by rw [pow_succ]; omega, by omega, ?_, ?_⟩
    · rw [show 2 * (q : ℝ) + 1 - 1 = 2 * q by ring, halve]
      exact mul_lt_mul_of_pos_right lt unit
    · rw [show 2 * (q : ℝ) + 1 + 1 = 2 * (q + 1) by ring, halve]
      exact mul_lt_mul_of_pos_right high unit

theorem quotient_standsFor {p m n : ℕ} (e : ℤ) (hm : 0 < m) (hn : 0 < n) :
    StandsFor p (quotient (p + 4) m n e).1 (quotient (p + 4) m n e).2 (m / n * 2 ^ e) := by
  unfold quotient
  dsimp only
  generalize sh_eq : p + 4 + Nat.log2 n + 1 - Nat.log2 m = sh
  have n_pos : (0 : ℝ) < n := by exact_mod_cast hn
  have value_eq : (m / n * 2 ^ e : ℝ) = ((m * 2 ^ sh : ℕ) : ℝ) / n * 2 ^ (e - sh) := by
    rw [zpow_sub₀ two_ne_zero, zpow_natCast]
    push_cast
    field_simp
  have large : 2 ^ (p + 1) * n ≤ m * 2 ^ sh := by
    calc 2 ^ (p + 1) * n ≤ 2 ^ (p + 1) * 2 ^ (Nat.log2 n + 1) := Nat.mul_le_mul_left _ Nat.lt_log2_self.le
      _ = 2 ^ (p + 1 + (Nat.log2 n + 1)) := (pow_add _ _ _).symm
      _ ≤ 2 ^ (Nat.log2 m + sh) := Nat.pow_le_pow_right two_pos (by omega)
      _ = 2 ^ Nat.log2 m * 2 ^ sh := pow_add _ _ _
      _ ≤ m * 2 ^ sh := Nat.mul_le_mul_right _ (Nat.log2_self_le hm.ne')
  rw [value_eq]
  generalize m * 2 ^ sh = M at *
  have parts := Nat.div_add_mod M n
  have small := Nat.mod_lt M hn
  refine standsFor_sticky ?_ Nat.cast_div_le ?_ ?_
  · rw [le_div_iff₀ n_pos]
    exact_mod_cast large
  · rw [div_lt_iff₀ n_pos]
    exact_mod_cast show M < (M / n + 1) * n by rw [Nat.add_mul, Nat.one_mul, Nat.mul_comm]; omega
  · rw [div_eq_iff n_pos.ne', mul_comm]
    norm_cast
    omega

theorem isqrtFrom_spec (k n : ℕ) : ∀ r, r * r ≤ n → n < (r + 2 ^ (k + 1)) * (r + 2 ^ (k + 1)) →
    isqrtFrom k n r * isqrtFrom k n r ≤ n ∧ n < (isqrtFrom k n r + 1) * (isqrtFrom k n r + 1) := by
  induction k with
  | zero =>
    intro r low high
    unfold isqrtFrom
    split
    · exact ⟨‹_›, high⟩
    · exact ⟨low, by omega⟩
  | succ k ih =>
    intro r low high
    unfold isqrtFrom
    split
    · refine ih _ ‹_› ?_
      rwa [add_assoc, ← two_mul, ← pow_succ']
    · exact ih _ low (by omega)

theorem isqrt_eq_sqrt (n : ℕ) : isqrt n = Nat.sqrt n := by
  have high : n < 2 ^ (Nat.log2 n / 2 + 1 + 1) * 2 ^ (Nat.log2 n / 2 + 1 + 1) := by
    rw [← pow_add]
    exact Nat.lt_log2_self.trans_le (Nat.pow_le_pow_right two_pos (by omega))
  exact Nat.eq_sqrt.2 (isqrtFrom_spec _ n 0 (Nat.zero_le _) (by rwa [Nat.zero_add]))

theorem rootOf_standsFor {p m : ℕ} (e : ℤ) (hm : 0 < m) : StandsFor p (rootOf (p + 4) m e).1 (rootOf (p + 4) m e).2 √(m * 2 ^ e) := by
  unfold rootOf
  dsimp only
  generalize sh_eq : (if (e - ((2 * (p + 4) + 2 : ℕ) : ℤ)) % 2 = 0 then 2 * (p + 4) + 2 else 2 * (p + 4) + 2 + 1) = sh
  obtain ⟨h, rfl⟩ : ∃ h : ℤ, e = 2 * h + sh := ⟨(e - sh) / 2, by split at sh_eq <;> omega⟩
  have sh_ge : 2 * (p + 1) ≤ sh := by split at sh_eq <;> omega
  have value_eq : √((m : ℝ) * 2 ^ (2 * h + sh)) = √((m * 2 ^ sh : ℕ) : ℝ) * 2 ^ h := by
    rw [← Real.sqrt_mul_self (show (0 : ℝ) ≤ 2 ^ h by positivity), ← Real.sqrt_mul (Nat.cast_nonneg _), ← zpow_add₀ two_ne_zero, ← two_mul,
      zpow_add₀ two_ne_zero, zpow_natCast]
    push_cast
    ring_nf
  have half : (2 * h + (sh : ℤ) - sh) / 2 = h := by omega
  have large : 2 ^ (2 * (p + 1)) ≤ m * 2 ^ sh := (Nat.pow_le_pow_right two_pos sh_ge).trans (Nat.le_mul_of_pos_left _ hm)
  rw [value_eq, half, isqrt_eq_sqrt]
  generalize m * 2 ^ sh = n at *
  refine standsFor_sticky (Real.le_sqrt_of_sq_le ?_) ?_ ?_ ?_
  · rw [← pow_mul, mul_comm (p + 1)]
    exact_mod_cast large
  · exact Real.nat_sqrt_le_real_sqrt
  · exact Real.real_sqrt_lt_nat_sqrt_succ
  · rw [Real.sqrt_eq_iff_mul_self_eq (Nat.cast_nonneg _) (Nat.cast_nonneg _)]
    norm_cast
    exact eq_comm

theorem invRoot_standsFor {p m : ℕ} (e : ℤ) (hm : 0 < m) : StandsFor p (invRoot (p + 4) m e).1 (invRoot (p + 4) m e).2 (1 / √(m * 2 ^ e)) := by
  unfold invRoot
  dsimp only
  generalize m2_eq : (if e % 2 = 0 then m else 2 * m) = m2
  generalize h_eq : (if e % 2 = 0 then e / 2 else (e - 1) / 2) = h
  generalize sh_eq : p + 4 + Nat.log2 m2 / 2 + 2 = sh
  have m2_pos : 0 < m2 := by split at m2_eq <;> omega
  have pos : (0 : ℝ) < m2 := by exact_mod_cast m2_pos
  have radicand : (m : ℝ) * 2 ^ e = m2 * (2 ^ h * 2 ^ h) := by
    rw [← zpow_add₀ two_ne_zero, ← two_mul]
    split at m2_eq <;> rename_i parity
    · rw [if_pos parity] at h_eq
      rw [← m2_eq, show 2 * h = e by omega]
    · rw [if_neg parity] at h_eq
      rw [← m2_eq, show e = 2 * h + 1 by omega, zpow_add_one₀ two_ne_zero]
      push_cast
      ring
  have value_eq : 1 / √((m : ℝ) * 2 ^ e) = √(((2 ^ (2 * sh) : ℕ) : ℝ) / m2) * 2 ^ (-h - sh) := by
    rw [radicand, Real.sqrt_mul pos.le, Real.sqrt_mul_self (by positivity), Real.sqrt_div (Nat.cast_nonneg _), two_mul, pow_add, Nat.cast_mul,
      Real.sqrt_mul_self (Nat.cast_nonneg _), zpow_sub₀ two_ne_zero, zpow_neg, zpow_natCast]
    push_cast
    field_simp
  have large : 2 ^ (2 * (p + 1)) * m2 ≤ 2 ^ (2 * sh) := by
    calc 2 ^ (2 * (p + 1)) * m2 ≤ 2 ^ (2 * (p + 1)) * 2 ^ (Nat.log2 m2 + 1) := Nat.mul_le_mul_left _ Nat.lt_log2_self.le
      _ = 2 ^ (2 * (p + 1) + (Nat.log2 m2 + 1)) := (pow_add _ _ _).symm
      _ ≤ 2 ^ (2 * sh) := Nat.pow_le_pow_right two_pos (by omega)
  rw [value_eq, isqrt_eq_sqrt]
  generalize 2 ^ (2 * sh) = M at *
  have whole : ((M / m2 : ℕ) : ℝ) ≤ (M : ℝ) / m2 := Nat.cast_div_le
  have next : (M : ℝ) / m2 < (M / m2 : ℕ) + 1 := by
    rw [div_lt_iff₀ pos]
    exact_mod_cast Nat.lt_mul_of_div_lt (Nat.lt_succ_self _) m2_pos
  refine standsFor_sticky (Real.le_sqrt_of_sq_le ?_) (Real.le_sqrt_of_sq_le ?_) ?_ ?_
  · rw [← pow_mul, mul_comm (p + 1), le_div_iff₀ pos]
    exact_mod_cast large
  · refine le_trans ?_ whole
    exact_mod_cast Nat.sqrt_le' _
  · rw [Real.sqrt_lt' (by positivity)]
    refine next.trans_le ?_
    exact_mod_cast Nat.succ_le_succ_sqrt' _
  · rw [Real.sqrt_eq_iff_mul_self_eq (by positivity) (Nat.cast_nonneg _), div_eq_iff pos.ne']
    norm_cast
    exact eq_comm

/-! ### Operands -/

/-- A zero or a nonzero dyadic: what a finite pattern reads as. -/
def IsNumber : FVal → Prop
  | .zero _ => True
  | .fin _ m _ => 0 < m
  | _ => False

/-- The real number of an operand. -/
noncomputable def realOf (x : FVal) : ℝ := (value x : ℚ)

@[simp] theorem realOf_zero (neg : Bool) : realOf (.zero neg) = 0 := by simp [realOf, value]

@[simp] theorem realOf_fin (neg : Bool) (m : ℕ) (e : ℤ) : realOf (.fin neg m e) = signFactor neg * (m * 2 ^ e) := value_fin neg m e

theorem IsNumber.zero_or_fin {x : FVal} (h : IsNumber x) : (∃ neg, x = .zero neg) ∨ ∃ neg m e, 0 < m ∧ x = .fin neg m e := by
  cases x with
  | fin neg m e => exact .inr ⟨neg, m, e, h, rfl⟩
  | zero neg => exact .inl ⟨neg, rfl⟩
  | nan s => exact h.elim
  | inf neg => exact h.elim

theorem isNumber_read {f : Fmt} {x : ℕ} (finite : FinitePattern f x) : IsNumber (f.read false x) := by
  obtain ⟨neg, eq⟩ | ⟨neg, m, e, pos, eq⟩ := read_finite finite
  · rw [eq]
    trivial
  · rw [eq]
    exact pos

/-- A number that is not zero is a nonzero dyadic. -/
theorem IsNumber.exists_fin {x : FVal} (h : IsNumber x) (nonzero : realOf x ≠ 0) : ∃ neg m e, 0 < m ∧ x = .fin neg m e :=
  h.zero_or_fin.resolve_left fun ⟨neg, eq⟩ => nonzero (eq ▸ realOf_zero neg)

theorem IsNumber.isNan {x : FVal} (h : IsNumber x) : x.isNan = false := by
  obtain ⟨neg, rfl⟩ | ⟨neg, m, e, -, rfl⟩ := h.zero_or_fin <;> rfl

theorem IsNumber.isInf {x : FVal} (h : IsNumber x) : x.isInf = false := by
  obtain ⟨neg, rfl⟩ | ⟨neg, m, e, -, rfl⟩ := h.zero_or_fin <;> rfl

theorem IsNumber.flip {x : FVal} (h : IsNumber x) : IsNumber x.flip := by
  obtain ⟨neg, rfl⟩ | ⟨neg, m, e, -, rfl⟩ := h.zero_or_fin <;> exact h

theorem realOf_flip {x : FVal} (h : IsNumber x) : realOf x.flip = -realOf x := by
  obtain ⟨neg, rfl⟩ | ⟨neg, m, e, -, rfl⟩ := h.zero_or_fin
  · simp [FVal.flip]
  · cases neg <;> simp [FVal.flip, signFactor]

theorem signFactor_bne (r s : Bool) : signFactor (r != s) = signFactor r * signFactor s := by cases r <;> cases s <;> simp [signFactor]

theorem inv_signFactor (s : Bool) : (signFactor s)⁻¹ = signFactor s := by cases s <;> simp [signFactor, inv_neg]

/-- The exact product of two numbers is a number, and exact. -/
theorem IsNumber.mulExact {x y : FVal} (hx : IsNumber x) (hy : IsNumber y) :
    IsNumber (mulExact x y) ∧ realOf (Machine.mulExact x y) = realOf x * realOf y := by
  obtain ⟨r, rfl⟩ | ⟨r, m, e, m_pos, rfl⟩ := hx.zero_or_fin
  · obtain ⟨s, rfl⟩ | ⟨s, n, k, n_pos, rfl⟩ := hy.zero_or_fin
    all_goals exact ⟨trivial, by rw [realOf_zero, zero_mul]; exact realOf_zero _⟩
  · obtain ⟨s, rfl⟩ | ⟨s, n, k, n_pos, rfl⟩ := hy.zero_or_fin
    · exact ⟨trivial, by rw [realOf_zero, mul_zero]; exact realOf_zero _⟩
    · refine ⟨Nat.mul_pos m_pos n_pos, ?_⟩
      rw [show Machine.mulExact (.fin r m e) (.fin s n k) = .fin (r != s) (m * n) (e + k) from rfl]
      simp only [realOf_fin, signFactor_bne, zpow_add₀ (two_ne_zero' ℝ)]
      push_cast
      ring

/-- A number in quanta that its exponent is a multiple of. -/
theorem IsNumber.units {x : FVal} {q : ℤ} (h : IsNumber x) (le : x.isZero = true ∨ q ≤ x.exp) : realOf x = x.units q * 2 ^ q := by
  obtain ⟨neg, rfl⟩ | ⟨neg, m, e, -, rfl⟩ := h.zero_or_fin
  · simp [FVal.units]
  · obtain ⟨d, rfl⟩ := Int.le.dest (le.resolve_left Bool.false_ne_true)
    have up : (2 : ℝ) ^ (q + d) = 2 ^ d * 2 ^ q := by rw [zpow_add₀ two_ne_zero, zpow_natCast, mul_comm]
    cases neg <;> simp [FVal.units, signFactor, up, mul_assoc]

/-! ### Operations -/

section

variable {f : Fmt} {rm : ℕ} (exponents : 2 ≤ f.eb) (fractions : 1 ≤ f.fb) (mode : rm < 4)
include exponents fractions mode

theorem roundInt_rounds {x q : ℤ} (nonzero : (x : ℝ) * 2 ^ q ≠ 0) : Rounds f rm (x * 2 ^ q) (f.roundInt { rm := rm, fz := false } x q) := by
  have x_ne : x ≠ 0 := by
    rintro rfl
    simp at nonzero
  have unit : (0 : ℝ) < 2 ^ q := by positivity
  rw [Fmt.roundInt, if_neg x_ne]
  refine rounds_of_abs exponents fractions mode nonzero ?_ ⟨Int.natAbs_pos.2 x_ne, .inl ?_⟩
  · simp [mul_neg_iff, unit, unit.not_gt]
  · rw [abs_mul, abs_of_pos unit, Nat.cast_natAbs, Int.cast_abs]

theorem addV_rounds {x y : FVal} (hx : IsNumber x) (hy : IsNumber y) (nonzero : realOf x + realOf y ≠ 0) :
    Rounds f rm (realOf x + realOf y) (f.addV { rm := rm, fz := false } x y) := by
  obtain ⟨q, x_le, y_le, eq⟩ : ∃ q, (x.isZero = true ∨ q ≤ x.exp) ∧ (y.isZero = true ∨ q ≤ y.exp) ∧
      f.addV { rm := rm, fz := false } x y = f.roundInt { rm := rm, fz := false } (x.units q + y.units q) q := by
    obtain ⟨r, rfl⟩ | ⟨r, m, e, -, rfl⟩ := hx.zero_or_fin
    · obtain ⟨s, rfl⟩ | ⟨s, n, k, -, rfl⟩ := hy.zero_or_fin
      · simp at nonzero
      · exact ⟨k, .inl rfl, .inr le_rfl, rfl⟩
    · obtain ⟨s, rfl⟩ | ⟨s, n, k, -, rfl⟩ := hy.zero_or_fin
      · exact ⟨e, .inr le_rfl, .inl rfl, rfl⟩
      · exact ⟨min e k, .inr (min_le_left _ _), .inr (min_le_right _ _), rfl⟩
  have sum : realOf x + realOf y = (x.units q + y.units q : ℤ) * 2 ^ q := by
    rw [hx.units x_le, hy.units y_le]
    push_cast
    ring
  rw [sum] at nonzero ⊢
  rw [eq]
  exact roundInt_rounds exponents fractions mode nonzero

theorem subV_rounds {x y : FVal} (hx : IsNumber x) (hy : IsNumber y) (nonzero : realOf x - realOf y ≠ 0) :
    Rounds f rm (realOf x - realOf y) (f.subV { rm := rm, fz := false } x y) := by
  rw [sub_eq_add_neg, ← realOf_flip hy] at nonzero ⊢
  exact addV_rounds exponents fractions mode hx hy.flip nonzero

theorem mulV_rounds {x y : FVal} (hx : IsNumber x) (hy : IsNumber y) (nonzero : realOf x * realOf y ≠ 0) :
    Rounds f rm (realOf x * realOf y) (f.mulV { rm := rm, fz := false } x y) := by
  obtain ⟨r, m, e, m_pos, rfl⟩ := hx.exists_fin (left_ne_zero_of_mul nonzero)
  obtain ⟨s, n, k, n_pos, rfl⟩ := hy.exists_fin (right_ne_zero_of_mul nonzero)
  rw [← (hx.mulExact hy).2, show mulExact (.fin r m e) (.fin s n k) = .fin (r != s) (m * n) (e + k) from rfl, realOf_fin]
  exact rounds_round exponents fractions mode (by positivity) ⟨Nat.mul_pos m_pos n_pos, .inl rfl⟩

theorem fmaV_rounds {x y z : FVal} (hx : IsNumber x) (hy : IsNumber y) (hz : IsNumber z) (nonzero : realOf x * realOf y + realOf z ≠ 0) :
    Rounds f rm (realOf x * realOf y + realOf z) (f.fmaV { rm := rm, fz := false } x y z) := by
  obtain ⟨number, product⟩ := hx.mulExact hy
  have eq : f.fmaV { rm := rm, fz := false } x y z = f.addV { rm := rm, fz := false } (mulExact x y) z := by
    simp [Fmt.fmaV, zeroTimesInf, hx.isInf, hy.isInf, hx.isNan, hy.isNan, hz.isNan]
  rw [← product] at nonzero ⊢
  rw [eq]
  exact addV_rounds exponents fractions mode number hz nonzero

theorem divV_rounds {x y : FVal} (hx : IsNumber x) (hy : IsNumber y) (x_ne : realOf x ≠ 0) (y_ne : realOf y ≠ 0) :
    Rounds f rm (realOf x / realOf y) (f.divV { rm := rm, fz := false } x y) := by
  obtain ⟨r, m, e, m_pos, rfl⟩ := hx.exists_fin x_ne
  obtain ⟨s, n, k, n_pos, rfl⟩ := hy.exists_fin y_ne
  have eq : realOf (.fin r m e) / realOf (.fin s n k) = signFactor (r != s) * (m / n * 2 ^ (e - k)) := by
    rw [realOf_fin, realOf_fin, mul_div_mul_comm, div_eq_mul_inv (signFactor r), inv_signFactor, signFactor_bne, mul_div_mul_comm, zpow_sub₀ two_ne_zero]
  rw [eq]
  exact rounds_round exponents fractions mode (by positivity) (quotient_standsFor _ m_pos n_pos)

theorem rcpV_rounds {x : FVal} (hx : IsNumber x) (x_ne : realOf x ≠ 0) : Rounds f rm (1 / realOf x) (f.rcpV { rm := rm, fz := false } x) := by
  have one : realOf (.fin false 1 0) = 1 := by simp [signFactor]
  rw [← one]
  exact divV_rounds exponents fractions mode (x := .fin false 1 0) Nat.one_pos hx (by simp [one]) x_ne

theorem roots_round {x : FVal} (hx : IsNumber x) (pos : 0 < realOf x) :
    Rounds f rm √(realOf x) (f.sqrtV { rm := rm, fz := false } x) ∧ Rounds f rm (1 / √(realOf x)) (f.rsqV { rm := rm, fz := false } x) := by
  obtain ⟨s, m, e, m_pos, rfl⟩ := hx.exists_fin pos.ne'
  rw [realOf_fin, signFactor_pos_iff (by positivity)] at pos
  subst pos
  have plus (a : ℝ) : signFactor false * a = a := by simp [signFactor]
  rw [realOf_fin, plus]
  constructor
  · rw [← plus √_]
    exact rounds_round exponents fractions mode (by positivity) (rootOf_standsFor e m_pos)
  · rw [← plus (1 / _)]
    exact rounds_round exponents fractions mode (by positivity) (invRoot_standsFor e m_pos)

theorem cvtFloat_rounds {src : Fmt} {x : ℕ} (finite : FinitePattern src x) (nonzero : realOf (src.read false x) ≠ 0) :
    Rounds f rm (realOf (src.read false x)) (cvtFloat src f false { rm := rm, fz := false } x) := by
  obtain ⟨s, m, e, pos, eq⟩ := (isNumber_read finite).exists_fin nonzero
  rw [cvtFloat, eq, realOf_fin]
  exact rounds_round exponents fractions mode (by positivity) ⟨pos, .inl rfl⟩

theorem cvtFromInt_rounds {i : ℤ} (nonzero : i ≠ 0) : Rounds f rm i (cvtFromInt f { rm := rm, fz := false } i) := by
  have same : cvtFromInt f { rm := rm, fz := false } i = f.roundInt { rm := rm, fz := false } i 0 := by simp [cvtFromInt, Fmt.roundInt, nonzero]
  have value_eq : (i : ℝ) = i * 2 ^ (0 : ℤ) := by simp
  rw [same, value_eq]
  exact roundInt_rounds exponents fractions mode (by simpa using nonzero)

end

/-- Settles O3: the magnitude of every result is found by `Fmt.round` from a dyadic that stands for the exact magnitude. -/
theorem roundedOnce : Obligations.RoundedOnce := by
  intro f hf rm mode x y z env val real finite hx hy hz
  have lawful : ∀ f ∈ [Fmt.f64, Fmt.f32, Fmt.f16, Fmt.bf16], 2 ≤ f.eb ∧ 1 ≤ f.fb := by decide
  obtain ⟨exponents, fractions⟩ := lawful f hf
  have nx := isNumber_read hx
  have ny := isNumber_read hy
  have nz := isNumber_read hz
  exact ⟨addV_rounds exponents fractions mode nx ny, subV_rounds exponents fractions mode nx ny, mulV_rounds exponents fractions mode nx ny,
    fmaV_rounds exponents fractions mode nx ny nz, divV_rounds exponents fractions mode nx ny, rcpV_rounds exponents fractions mode nx,
    roots_round exponents fractions mode nx, fun g hg => cvtFloat_rounds (lawful g hg).1 (lawful g hg).2 mode hx,
    fun i => cvtFromInt_rounds exponents fractions mode⟩

end Sys2Proof.Rounding
end

section

/-! The obligations O6 and O7 and the floating-point half of O8. The floating-point forms answer by `finishFlags` (R77): with no enabled exception each writes its
destination and raises the union of its lanes' flags. -/

namespace Sys2Proof.Laws

open Sys2Proof.Machine Sys2Proof.Safety Sys2Proof.Slice0

/-- Settles O6: each form of `float32`, `float32One` and `fused32` raises its lanes' flags and writes a 32-bit destination. -/
theorem floatResults32 : Obligations.FloatResults32 := by
  intro n d a b g w s
  and_intros
  · intro e he sg r h untrapped
    exact (float32_raises n d a b e he).does (fun c u => Touches.put32 u c n d _) h untrapped
  · intro e he sg r h untrapped
    exact (float32One_raises n d a e he).does (fun c u => Touches.put32 u c n d _) h untrapped
  · intro e he sg r h untrapped
    exact (fused32_raises n d a b e he).does (fun c u => Touches.put32 u c n d _) h untrapped

/-- Settles O7: each FP64 form raises its lanes' flags and writes a pair, as the widening conversion does; the narrowing one writes a register. -/
theorem floatResults64 : Obligations.FloatResults64 := by
  intro n d a b g w s
  and_intros
  · intro e he sg r h untrapped
    exact (float64_raises n d a b e he).does (fun c u => Touches.put64 u c n d _) h untrapped
  · intro e he sg r h untrapped
    exact (float64One_raises n d a e he).does (fun c u => Touches.put64 u c n d _) h untrapped
  · intro sg r h untrapped
    exact (fmaF64_raises n d a b).does (fun c u => Touches.put64 u c n d _) h untrapped
  · intro sg r h untrapped
    exact (cvtF64F32_raises n d a).does (fun c u => Touches.put64 u c n d _) h untrapped
  · intro sg r h untrapped
    exact (cvtF32F64_raises n d a).does (fun c u => Touches.put32 u c n d _) h untrapped

theorem floatComparisons : FloatComparisons := by
  intro n p a b g w s
  and_intros
  · intro e he sg r h untrapped
    exact (floatCompares32_raises n a b p e he).does (fun c u => Touches.putPred u c n p _) h untrapped
  · intro e he sg r h untrapped
    exact (floatCompares64_raises n a b p e he).does (fun c u => Touches.putPred u c n p _) h untrapped

end Sys2Proof.Laws

end

section

/-! LEMMAS and the obligations O1, O2, O5, O8 and O10. The arithmetic that raises no flag (R92-R99, R108): each instruction issues and makes one write. What it
writes is shown to be what the rules say, once per function of the model; the tables of forms then say which instruction writes what. -/

namespace Sys2Proof.Laws

open Sys2Proof.Machine Sys2Proof.Safety Sys2Proof.Slice0

/-! ### Instructions that raise no flag -/

/-- The instruction issues under the signature and makes the write `wr`. -/
def Writes (i : Instr) (sg : Sig) (wr : Ctx → State → State) : Prop :=
  ∀ s, exec i s = issue sg s fun c u => .done (wr c u)

theorem finishFlags_zero (c : Ctx) (u : State) (wr : State → State) : finishFlags c u (fun _ => 0) wr = .done (wr u) := by
  have no_flags : flagUnion c.act (fun _ => 0) = 0 := by simp [flagUnion]
  have untrapped : trapCause c.w.fpmode 0 = none := by simp [trapCause]
  simp only [finishFlags, no_flags, untrapped, State.raise, if_true]

section

variable {i : Instr} {sg : Sig} {g : Group} {w : Wave} {s : State} {wr : Ctx → State → State} {f : Ctx → Wave → Wave}

theorem Writes.does (writes : Writes i sg wr) (touches : ∀ u, Touches u (wr (issueCtx sg g w) u) (issueCtx sg g w).w.wid (f (issueCtx sg g w)))
    (h : Issues sg g w s) : Does i sg g w s s f := by
  unfold Does
  rw [writes s]
  exact issueWith_done h rfl (touches _)

/-- A scalar register gets the value of the context at issue, the wave's own scalars included. -/
theorem Writes.does_scalar {d : BitVec 5} {v : Ctx → W64} (writes : Writes i sg fun c u => u.putScalar c d.toNat (v c)) (h : Issues sg g w s) :
    Does i sg g w s s fun _ => getsScalar d (v (issueCtx sg g w)) :=
  writes.does (fun u => Touches.putScalar u _ d _) h

/-- Some forms that raise no flag are built of the shapes that can (comparisons, `bfi`): their lanes raise 0. -/
theorem Raises.writes (raises : Raises i sg (fun _ _ => 0) wr) : Writes i sg wr := fun s => by
  rw [raises s]
  simp only [finishFlags_zero]

end

/-! ### Counts of bits (Table 28) -/

theorem popcount_eq (x : W32) : popcount x = BitVec.ofNat 32 ((List.range 32).countP fun k => x.getLsbD k) := by
  rw [popcount, List.countP_eq_length_filter]

/-- Of the first n numbers, n - 1 - m lie above m. -/
theorem countP_range_gt (m n : Nat) : (List.range n).countP (fun k => decide (m < k)) = n - 1 - m := by
  induction n with
  | zero => simp
  | succ n ih =>
    rw [List.range_succ, List.countP_append, ih, List.countP_singleton]
    simp only [decide_eq_true_eq]
    split <;> omega

/-- Bit k and those above are zero for every k above the highest one bit, and for every k when there is none. -/
theorem leadingZeros_eq (x : W32) : leadingZeros x = BitVec.ofNat 32 ((List.range 32).countP fun k => decide (x.toNat < 2 ^ k)) := by
  unfold leadingZeros
  split
  · next zero => subst zero; decide
  · next nonzero =>
    have toNat_ne : x.toNat ≠ 0 := fun h => nonzero (BitVec.eq_of_toNat_eq h)
    simp only [← Nat.log2_lt toNat_ne, countP_range_gt]

/-! ### Shifts (R93) -/

section

variable {w : Nat} (x y : BitVec w) (n : Nat)

theorem shlN_eq : shlN x n = if n < w then x <<< n else 0 := by simp only [shlN, ge_iff_le, ← Nat.not_lt, ite_not]

theorem shrZN_eq : shrZN x n = if n < w then x >>> n else 0 := by simp only [shrZN, ge_iff_le, ← Nat.not_lt, ite_not]

theorem shiftLeft_eq_ofNat : x <<< n = BitVec.ofNat w (x.toNat * 2 ^ n) :=
  BitVec.eq_of_toNat_eq (by simp [Nat.shiftLeft_eq])

theorem shiftLeft_eq : shiftLeft x y = shlN x y.toNat := by rw [shlN_eq, shiftLeft, shiftLeft_eq_ofNat]

theorem ushiftRight_eq_ofNat : x >>> n = BitVec.ofNat w (x.toNat / 2 ^ n) :=
  BitVec.eq_of_toNat_eq (by
    rw [BitVec.toNat_ofNat, BitVec.toNat_ushiftRight, Nat.shiftRight_eq_div_pow, Nat.mod_eq_of_lt ((Nat.div_le_self _ _).trans_lt x.isLt)])

theorem shiftRight_eq : shiftRight x y = shrZN x y.toNat := by rw [shrZN_eq, shiftRight, ushiftRight_eq_ofNat]

theorem shiftSigned_eq : shiftSigned x y = shrSN x y.toNat := by
  have quotient : x.sshiftRight y.toNat = BitVec.ofInt w (x.toInt / 2 ^ y.toNat) := by
    rw [BitVec.sshiftRight, Int.shiftRight_eq_div_pow]
    norm_cast
  simp only [shrSN, shiftSigned, quotient, ge_iff_le, ← Nat.not_lt, ite_not]

end

/-! ### Bit fields (R94) -/

section

variable (x y b : W32)

theorem fieldLo_eq : fieldLo b = fieldBit b := by simp [fieldLo, fieldBit, bits]

theorem fieldW_eq : fieldW b = fieldWidth b := by simp [fieldW, fieldWidth, fieldLo_eq, bits]

theorem bits_field : bits x.toNat (fieldLo b) (fieldW b) = fieldOf x b := by rw [fieldLo_eq, fieldW_eq]; rfl

theorem bfxZ_eq : bfxZ x b = BitVec.ofNat 32 (fieldOf x b) := by rw [bfxZ, bits_field]

theorem bfxS_eq : bfxS x b = if fieldWidth b = 0 then 0 else
    if fieldOf x b < 2 ^ (fieldWidth b - 1) then BitVec.ofNat 32 (fieldOf x b) else BitVec.ofInt 32 ((fieldOf x b : Int) - 2 ^ fieldWidth b) := by
  have small : fieldOf x b % 2 ^ fieldWidth b = fieldOf x b := Nat.mod_mod _ _
  rw [bfxS, bits_field, fieldW_eq, signed, small]
  split
  · rfl
  · split <;> simp

theorem bfi_eq : bfi y x b =
    (y &&& ~~~(BitVec.ofNat 32 ((2 ^ fieldWidth b - 1) * 2 ^ fieldBit b))) |||
      (BitVec.ofNat 32 (x.toNat * 2 ^ fieldBit b) &&& BitVec.ofNat 32 ((2 ^ fieldWidth b - 1) * 2 ^ fieldBit b)) := by
  rw [bfi, fieldMask, fieldLo_eq, fieldW_eq, shiftLeft_eq_ofNat]

end

/-! ### Comparisons as scalars, and random numbers (R98, R108) -/

theorem truth64_decide (p : Prop) [Decidable p] : truth64 (decide p) = if p then 1 else 0 := by simp [truth64]

/-- One round of RngF, as the model shifts. -/
def randomRound (k x : W64) (j : Nat) : W64 :=
  let x := x + k.rotateLeft (16 * j) + BitVec.ofNat 64 (j * 0x9E3779B97F4A7C15)
  let x := (x ^^^ (x >>> 30)) * 0xBF58476D1CE4E5B9#64
  let x := (x ^^^ (x >>> 27)) * 0x94D049BB133111EB#64
  x ^^^ (x >>> 31)

theorem rngF_eq_foldl (k c : W64) : rngF k c = (List.range 4).foldl (randomRound k) c := rfl

theorem randomOf_eq_foldl (k c : W64) : randomOf k c = (List.range 4).foldl (randomRound k) c := by
  simp only [randomOf, funext₂ (randomRound.eq_def k), ushiftRight_eq_ofNat, BitVec.ofNat_eq_ofNat]

theorem randomOf_eq (k c : W64) : randomOf k c = rngF k c := by rw [randomOf_eq_foldl, rngF_eq_foldl]

/-! ### Which form writes what -/

section

variable (n : BitVec 1) (d a b : BitVec 7) (p : BitVec 3)

theorem integer32_writes : ∀ e ∈ integer32, Writes (e.1 n d a b) (arith true false false [.w32 d (n == 0), .r32 a, .r32 b])
    fun c u => if n = 1 then u else u.put32 c d fun i => e.2 (c.src32 i a) (c.src32 i b) := by
  simp only [integer32, List.forall_mem_cons, List.not_mem_nil, false_implies, implies_true, and_true, ← BitVec.slt_iff_toInt_lt, ← BitVec.ult_iff_toNat_lt]
  and_intros
  all_goals exact fun _ => rfl

theorem integer64_writes : ∀ e ∈ integer64, Writes (e.1 n d a b) (arith true false false [.w64 d (n == 0), .r64 a, .r64 b])
    fun c u => if n = 1 then u else u.put64 c d fun i => e.2 (c.src64 i a) (c.src64 i b) := by
  simp only [integer64, List.forall_mem_cons, List.not_mem_nil, false_implies, implies_true, and_true]
  and_intros
  all_goals exact fun _ => rfl

theorem immediates32_writes : ∀ e ∈ immediates32, Writes (e.1 n d a b) { flds := [.w32 d (n == 0), .r32 a], scalar := true, wides := 2, pro := true }
    fun c u => if n = 1 then u else u.put32 c d fun i => e.2 (c.src32 i a) (BitVec.ofInt 32 (wideValue c.g 7 b.toNat)) := by
  simp only [immediates32, List.forall_mem_cons, List.not_mem_nil, false_implies, implies_true, and_true]
  and_intros
  all_goals exact fun _ => rfl

theorem popcB32_writes : Writes (.popcB32 n d a) (arith true false false [.w32 d (n == 0), .r32 a])
    fun c u => if n = 1 then u else u.put32 c d fun i => popcount (c.src32 i a) := fun _ => rfl

theorem clzB32_writes : Writes (.clzB32 n d a) (arith true false false [.w32 d (n == 0), .r32 a])
    fun c u => if n = 1 then u else u.put32 c d fun i => leadingZeros (c.src32 i a) := fun _ => rfl

theorem shifts32_writes : ∀ e ∈ [(Instr.shlB32, shiftLeft), (Instr.shrZ32, shiftRight), (Instr.shrS32, shiftSigned)],
    Writes (e.1 n d a b) (arith true false false [.w32 d (n == 0), .r32 a, .r32 b])
      fun c u => if n = 1 then u else u.put32 c d fun i => e.2 (c.src32 i a) (c.src32 i b) := by
  simp only [List.forall_mem_cons, List.not_mem_nil, false_implies, implies_true, and_true, shiftLeft_eq, shiftRight_eq, shiftSigned_eq]
  and_intros
  all_goals exact fun _ => rfl

theorem shifts64_writes : ∀ e ∈ [(Instr.shlB64, shiftLeft), (Instr.shrZ64, shiftRight), (Instr.shrS64, shiftSigned)],
    Writes (e.1 n d a b) (arith true false false [.w64 d (n == 0), .r64 a, .r64 b])
      fun c u => if n = 1 then u else u.put64 c d fun i => e.2 (c.src64 i a) (c.src64 i b) := by
  simp only [List.forall_mem_cons, List.not_mem_nil, false_implies, implies_true, and_true, shiftLeft_eq, shiftRight_eq, shiftSigned_eq]
  and_intros
  all_goals exact fun _ => rfl

theorem immediateShifts_writes : ∀ e ∈ [(Instr.shlB32Imm, shiftLeft), (Instr.shrZ32Imm, shiftRight)],
    Writes (e.1 n d a b) { flds := [.w32 d (n == 0), .r32 a], scalar := true, wides := 2, pro := true }
      fun c u => if n = 1 then u else u.put32 c d fun i => e.2 (c.src32 i a) (BitVec.ofInt 32 (wideValue c.g 7 b.toNat)) := by
  simp only [List.forall_mem_cons, List.not_mem_nil, false_implies, implies_true, and_true, shiftLeft_eq, shiftRight_eq]
  and_intros
  all_goals exact fun _ => rfl

theorem bfxZ32_writes : Writes (.bfxZ32 n d a b) (arith true false false [.w32 d (n == 0), .r32 a, .r32 b])
    fun c u => if n = 1 then u else u.put32 c d fun i => bfxZ (c.src32 i a) (c.src32 i b) := fun _ => rfl

theorem bfxS32_writes : Writes (.bfxS32 n d a b) (arith true false false [.w32 d (n == 0), .r32 a, .r32 b])
    fun c u => if n = 1 then u else u.put32 c d fun i => bfxS (c.src32 i a) (c.src32 i b) := fun _ => rfl

theorem bfiB32_writes : Writes (.bfiB32 n d a b) (arith true false false [.rw32 d (n == 0), .r32 a, .r32 b])
    fun c u => if n = 1 then u else u.put32 c d fun i => bfi (c.src32 i d) (c.src32 i a) (c.src32 i b) :=
  Raises.writes fun _ => rfl

theorem compares32_writes : ∀ e ∈ compares32, Writes (e.1 n p a b) (arith true false false [.r32 a, .r32 b])
    fun c u => if n = 1 then u else u.putPred c p.toNat fun i => e.2 (c.src32 i a) (c.src32 i b) := by
  simp only [compares32, List.forall_mem_cons, List.not_mem_nil, false_implies, implies_true, and_true, ne_eq, decide_not]
  and_intros
  all_goals exact Raises.writes fun _ => rfl

theorem compares64_writes : ∀ e ∈ compares64, Writes (e.1 n p a b) (arith true false false [.r64 a, .r64 b])
    fun c u => if n = 1 then u else u.putPred c p.toNat fun i => e.2 (c.src64 i a) (c.src64 i b) := by
  simp only [compares64, List.forall_mem_cons, List.not_mem_nil, false_implies, implies_true, and_true]
  and_intros
  all_goals exact Raises.writes fun _ => rfl

theorem rngxB32_writes : Writes (.rngxB32 n d a b) (arith false false false [.w32 d (n == 0), .r64 a, .r64 b])
    fun c u => if n = 1 then u else u.put32 c d fun i => lo32 (rngF (c.src64 i a) (c.src64 i b)) := fun _ => rfl

theorem rngxB64_writes : Writes (.rngxB64 n d a b) (arith false false false [.w64 d (n == 0), .r64 a, .r64 b])
    fun c u => if n = 1 then u else u.put64 c d fun i => rngF (c.src64 i a) (c.src64 i b) := fun _ => rfl

end

section

variable (d a b : BitVec 5) (v : BitVec 11)

theorem scalars_writes : ∀ e ∈ scalars, Writes (e.1 d a b) { flds := [.sreg a, .sreg b], pro := true }
    fun c u => u.putScalar c d.toNat (e.2.2 (c.w.sregs.getD a.toNat 0) (c.w.sregs.getD b.toNat 0)) := by
  simp only [scalars, List.forall_mem_cons, List.not_mem_nil, false_implies, implies_true, and_true, ← shlN_eq, ← shrZN_eq, ← truth64_decide]
  and_intros
  all_goals exact fun _ => rfl

theorem scalarImmediates_writes : ∀ e ∈ scalars, Writes (e.2.1 d a v) { flds := [.sreg a], wides := 2, pro := true }
    fun c u => u.putScalar c d.toNat (e.2.2 (c.w.sregs.getD a.toNat 0) (BitVec.ofInt 64 (wideValue c.g 11 v.toNat))) := by
  simp only [scalars, List.forall_mem_cons, List.not_mem_nil, false_implies, implies_true, and_true, ← shlN_eq, ← shrZN_eq, ← truth64_decide]
  and_intros
  all_goals exact fun _ => rfl

theorem smovB64_writes : Writes (.smovB64 d a) { flds := [.sreg a], pro := true }
    fun c u => u.putScalar c d.toNat (c.w.sregs.getD a.toNat 0) := fun _ => rfl

theorem smovB64Imm_writes : Writes (.smovB64Imm d v) { flds := [], wides := 2, pro := true }
    fun c u => u.putScalar c d.toNat (BitVec.ofInt 64 (wideValue c.g 11 v.toNat)) := fun _ => rfl

end

/-! ### The obligations -/

/-- Settles O1: each form makes one write, of the function that the table names; the counts are those of Table 28. -/
theorem integerResults : Obligations.IntegerResults := by
  intro n d a b g w s
  simp only [← popcount_eq, ← leadingZeros_eq]
  exact ⟨fun h e he => (integer32_writes n d a b e he).does (fun u => Touches.put32 u _ n d _) h,
    fun h e he => (integer64_writes n d a b e he).does (fun u => Touches.put64 u _ n d _) h,
    fun h e he => (immediates32_writes n d a b e he).does (fun u => Touches.put32 u _ n d _) h,
    fun h => ⟨(popcB32_writes n d a).does (fun u => Touches.put32 u _ n d _) h, (clzB32_writes n d a).does (fun u => Touches.put32 u _ n d _) h⟩⟩

theorem shiftResults : ShiftResults := by
  intro n d a b g w s
  exact ⟨fun h e he => (shifts32_writes n d a b e he).does (fun u => Touches.put32 u _ n d _) h,
    fun h e he => (shifts64_writes n d a b e he).does (fun u => Touches.put64 u _ n d _) h,
    fun h e he => (immediateShifts_writes n d a b e he).does (fun u => Touches.put32 u _ n d _) h⟩

theorem bitFieldResults : BitFieldResults := by
  intro n d a b g w s
  simp only [← bfxS_eq]
  simp only [← bfxZ_eq, ← bfi_eq]
  exact ⟨fun h => ⟨(bfxZ32_writes n d a b).does (fun u => Touches.put32 u _ n d _) h, (bfxS32_writes n d a b).does (fun u => Touches.put32 u _ n d _) h⟩,
    fun h => (bfiB32_writes n d a b).does (fun u => Touches.put32 u _ n d _) h⟩

/-- Settles O2: the model's shifts and fields are those of R93 and R94, and each form makes one write of its own. -/
theorem shiftAndFieldResults : Obligations.ShiftAndFieldResults := ⟨shiftResults, bitFieldResults⟩

/-- Settles O5: each scalar form makes one write, of its function of the scalar registers as they stand at issue. -/
theorem scalarResults : Obligations.ScalarResults := by
  intro d a b v g w s
  exact ⟨fun h e he => (scalars_writes d a b e he).does_scalar h,
    fun h e he => (scalarImmediates_writes d a v e he).does_scalar h,
    fun h => (smovB64_writes d a).does_scalar h,
    fun h => (smovB64Imm_writes d v).does_scalar h⟩

theorem integerComparisons : IntegerComparisons := by
  intro n p a b g w s
  exact ⟨fun h e he => (compares32_writes n a b p e he).does (fun u => Touches.putPred u _ n p _) h,
    fun h e he => (compares64_writes n a b p e he).does (fun u => Touches.putPred u _ n p _) h⟩

/-- Settles O8: an integer comparison raises no flag, a floating-point one answers by `finishFlags`; both write one predicate. -/
theorem comparisonResults : Obligations.ComparisonResults := ⟨integerComparisons, floatComparisons⟩

/-- Settles O10: the model's four rounds are those of R108, and `rngx` writes their value, or its low half. -/
theorem randomResults : Obligations.RandomResults := by
  intro n d a b g w s
  simp only [randomOf_eq]
  exact ⟨fun h => (rngxB32_writes n d a b).does (fun u => Touches.put32 u _ n d _) h,
    fun h => (rngxB64_writes n d a b).does (fun u => Touches.put64 u _ n d _) h⟩

end Sys2Proof.Laws

end

section

/-! The obligation O14. Quantising and dequantising raise flags (R139, R140): with no enabled exception each writes its range of registers. -/

namespace Sys2Proof.Laws

open Sys2Proof.Machine Sys2Proof.Safety Sys2Proof.Slice0

/-- Settles O14: the code of the group length is the length itself, and each form answers by `finishFlags` with one range of registers. -/
theorem quantiseResults : Obligations.QuantiseResults := by
  intro d a v g w s G hG hv
  obtain rfl : v = BitVec.ofNat 7 G := by rw [← hv, BitVec.ofNat_toNat, BitVec.setWidth_eq]
  obtain ⟨quantises, dequantises⟩ := quantising_raise d a G hG
  constructor
  · intro e he sg r fl h untrapped
    exact (quantises e he).does (fun c u => Touches.putRange u c d _) h untrapped
  · intro e he sg r h untrapped
    exact (dequantises e he).does (fun c u => Touches.putRange u c d _) h untrapped

end Sys2Proof.Laws

end

section

/-! LEMMAS for O11 to O13. What an instruction of the matrix engine reads besides its wave's registers (rows, cassette, tables, view) stands in the covered state
as it stood before, and how a meaning that ends in `done` or in a fault settles. -/

namespace Sys2Proof.Laws

open Sys2Proof.Machine Sys2Proof.Safety Sys2Proof.Slice0

/-! ### The covered state -/

section

variable (sg : Sig) (g : Group) (w : Wave) (s : State) (x : Wave)

@[simp] theorem covered_rowPoison (r from_ n : Nat) : (covered sg g w s).rowPoison x r from_ n = s.rowPoison x r from_ n := rfl
@[simp] theorem covered_block? (team blk : Nat) : (covered sg g w s).block? team blk = s.block? team blk := rfl
@[simp] theorem covered_owned (team blk r : Nat) : (covered sg g w s).owned team blk r = s.owned team blk r := rfl
@[simp] theorem covered_mmas : (covered sg g w s).mmas = s.mmas := rfl
@[simp] theorem covered_resvs : (covered sg g w s).resvs = s.resvs := rfl

end

@[simp] theorem issueCtx_rowWait (sg : Sig) (g : Group) (w : Wave) : (issueCtx sg g w).w.rowWait = w.rowWait := by
  obtain ⟨h, l, n, q, b, e⟩ := issueCtx_wave sg g w; rw [e]

/-! ### Fields of an operand (R128, R129, R131) -/

theorem rowOf_eq (x : W32) : rowOf x = x.toNat % 8192 := by simp [rowOf, bits]

theorem colOf_eq (x : W32) : colOf x = x.toNat / 65536 % 8 := by simp [colOf, bits]

theorem bits_0_4 (x : Nat) : bits x 0 4 = x % 16 := by simp [bits]

theorem bits_0_13 (x : Nat) : bits x 0 13 = x % 8192 := by simp [bits]

theorem bits_16_13 (x : Nat) : bits x 16 13 = x / 65536 % 8192 := by simp [bits]

/-! ### How a meaning settles -/

section

variable {i : Instr} {sg : Sig} {g : Group} {w : Wave} {s : State} {k : Ctx → State → Res}

theorem traps_of_fault (meaning : exec i s = issue sg s k) (h : Issues sg g w s) {cause : Nat}
    (fault : k (issueCtx sg g w) (covered sg g w s) = .fault cause) : Traps i sg g w s cause :=
  meaning.trans (issueWith_fault h fault)

/-- The base is the state before, with what the instruction changes outside the issuing wave. -/
theorem does_of_done (meaning : exec i s = issue sg s k) (h : Issues sg g w s) {base u : State} {f : Ctx → Wave → Wave} (wave : base.waves = s.waves)
    (done : k (issueCtx sg g w) (covered sg g w s) = .done u)
    (touches : Touches (covered sg g w base) u (issueCtx sg g w).w.wid (f (issueCtx sg g w))) : Does i sg g w s base f := by
  unfold Does
  rw [meaning]
  exact issueWith_done_base base ((wave?_congr wave _).trans h.wave) h done touches

end

/-- A change of a block beside changes of one wave. -/
theorem Touches.updBlock {s u : State} {wid : Nat} {f : Wave → Wave} (h : Touches s u wid f) (team blk : Nat) (b : Block → Block) :
    Touches (s.updBlock team blk b) (u.updBlock team blk b) wid f :=
  ⟨congrArg (State.updBlock · team blk b) h.rest, h.marks, h.softMarks, h.waves⟩

/-- An instruction that changes its wave's block beside its wave. -/
theorem does_of_done_block {i : Instr} {sg : Sig} {g : Group} {w : Wave} {s u : State} {k : Ctx → State → Res} {f : Ctx → Wave → Wave} {team blk : Nat}
    {b : Block → Block} (meaning : exec i s = issue sg s k) (h : Issues sg g w s)
    (done : k (issueCtx sg g w) (covered sg g w s) = .done (u.updBlock team blk b))
    (touches : Touches (covered sg g w s) u (issueCtx sg g w).w.wid (f (issueCtx sg g w))) : Does i sg g w s (s.updBlock team blk b) f :=
  does_of_done meaning h rfl done (touches.updBlock team blk b)

end Sys2Proof.Laws

end

section

/-! LEMMAS and the obligation O12. Accesses to accumulator rows (R113, R117, R128-R130). -/

namespace Sys2Proof.Laws

open Sys2Proof.Machine Sys2Proof.Safety Sys2Proof.Slice0

/-! ### Which rows -/

section

variable {sg : Sig} {g : Group} {w : Wave} {s : State}

theorem mayReach_of_window {first : W57} {r : Nat} (above : w.winBase ≤ r) (below : r < w.winLimit) : w.mayReach first r = true := by
  simp [Wave.mayReach, Wave.inWindow, above, below]

/-- Only a group that already waits for its rows reaches one outside the window (R131). -/
theorem mayReach_of_outside {first : W57} {r : Nat} (unwaited : w.rowWait = none) (outside : r < w.winBase ∨ w.winLimit ≤ r) : w.mayReach first r = false := by
  have : ¬(w.winBase ≤ r ∧ r < w.winLimit) := by omega
  simpa [Wave.mayReach, Wave.inWindow, unwaited] using this

/-- Covering an issue changes no wave's block, nor the rows that it waits for. -/
theorem exists_of_mem_covered (wave : s.wave? g.wid = some w) {x : Wave} (hx : x ∈ (covered sg g w s).waves) :
    ∃ y ∈ s.waves, x.team = y.team ∧ x.blk = y.blk ∧ x.rowWait = y.rowWait := by
  obtain ⟨y, hy, rfl⟩ := List.mem_map.1 hx
  split
  · exact ⟨w, List.mem_of_find?_eq_some wave, issueCtx_team sg g w, issueCtx_blk sg g w, issueCtx_rowWait sg g w⟩
  · exact ⟨y, hy, rfl, rfl, rfl⟩

theorem rowAwaited_covered (wave : s.wave? g.wid = some w) {team blk r n : Nat} (free : s.rowAwaited team blk r n = false) :
    (covered sg g w s).rowAwaited team blk r n = false := by
  refine List.any_eq_false.2 fun x hx => ?_
  obtain ⟨y, hy, same_team, same_blk, same_rows⟩ := exists_of_mem_covered wave hx
  rw [same_team, same_blk, same_rows]
  exact List.any_eq_false.1 free y hy

theorem rowBusy_covered (wave : s.wave? g.wid = some w) {x : Wave} {first : W57} {r : Nat} (free : s.rowBusy x first r = false) :
    (covered sg g w s).rowBusy x first r = false := by
  obtain ⟨unowned, unawaited⟩ := Bool.or_eq_false_iff.1 free
  exact Bool.or_eq_false_iff.2 ⟨unowned, rowAwaited_covered wave unawaited⟩

/-- A row that an issue may access: in the window, and no one's before it (R113, R117). -/
def RowFree (s : State) (c : Ctx) (r : Nat) : Prop := c.w.winBase ≤ r ∧ r < c.w.winLimit ∧ s.rowBusy c.w c.g.first r = false

variable {α : Type} {l : List α} {row : α → Nat}

theorem not_any_of_eq_false {p : α → Bool} (none : ∀ i ∈ l, p i = false) : ¬l.any p = true := by simpa using none

theorem not_any_unreached {c : Ctx} (free : ∀ i ∈ l, RowFree s c (row i)) : ¬(l.any fun i => !c.w.mayReach c.g.first (row i)) = true :=
  not_any_of_eq_false fun i hi => by
    obtain ⟨above, below, _⟩ := free i hi
    rw [mayReach_of_window above below]
    rfl

theorem not_any_busy (wave : s.wave? g.wid = some w) {c : Ctx} (free : ∀ i ∈ l, RowFree s c (row i)) :
    ¬(l.any fun i => (covered sg g w s).rowBusy c.w c.g.first (row i)) = true :=
  not_any_of_eq_false fun i hi => by
    obtain ⟨_, _, unowned⟩ := free i hi
    exact rowBusy_covered wave unowned

theorem any_unreached_of_outside (unwaited : w.rowWait = none) {first : W57} (outside : ∃ r ∈ l.map row, r < w.winBase ∨ w.winLimit ≤ r) :
    (l.any fun i => !(issueCtx sg g w).w.mayReach first (row i)) = true := by
  obtain ⟨_, hr, out⟩ := outside
  obtain ⟨i, hi, rfl⟩ := List.mem_map.1 hr
  have unreached := mayReach_of_outside (w := (issueCtx sg g w).w) (first := first) (by simpa using unwaited) (by simpa using out)
  exact List.any_eq_true.2 ⟨i, hi, by rw [unreached]; rfl⟩

end

/-! ### The obligation -/

/-- Settles O12: a row outside the window stops each access; rows that are free let it through to its one write, of registers or of its block. -/
theorem rowAccessResults : Obligations.RowAccessResults := by
  intro d a b g w s k
  simp only [← rowOf_eq, ← colOf_eq, ← bits_16_13]
  refine ⟨fun h unwaited out => traps_of_fault rfl h (if_pos (any_unreached_of_outside unwaited out)),
    fun h unwaited out => traps_of_fault rfl h (if_pos (any_unreached_of_outside unwaited out)),
    fun h unwaited out => traps_of_fault rfl h (if_pos (any_unreached_of_outside (row := id) unwaited (by simpa only [List.map_id] using out))),
    fun h unwaited out => traps_of_fault rfl h (if_pos (any_unreached_of_outside unwaited out)), fun block => ⟨?_, ?_, ?_, ?_⟩⟩
  · intro h free
    have rows := fun i hi => (free i hi).1
    have sound := not_any_of_eq_false fun i hi => (free i hi).2
    refine does_of_done rfl h rfl ?_ (Touches.putRange _ _ _ _)
    simp only [not_any_unreached rows, not_any_busy h.wave rows, covered_rowPoison, sound, covered_block?, issueCtx_team, issueCtx_blk, block,
      Bool.false_eq_true, if_false]
  · intro h rows
    exact does_of_done_block rfl h ((if_neg (not_any_unreached rows)).trans (if_neg (not_any_busy h.wave rows))) (Touches.forget _ _ _)
  · intro h rows
    exact does_of_done_block rfl h ((if_neg (not_any_unreached (row := id) rows)).trans (if_neg (not_any_busy (row := id) h.wave rows))) (Touches.forget _ _ _)
  · intro h free
    have rows := fun i hi => (free i hi).1
    have sound := not_any_of_eq_false fun i hi => (free i hi).2
    refine does_of_done_block rfl h ?_ (Touches.put32' _ _ _ _)
    simp only [not_any_unreached rows, not_any_busy h.wave rows, covered_rowPoison, sound, covered_block?, covered_owned, issueCtx_team, issueCtx_blk, block,
      Bool.false_eq_true, if_false]
    rfl

end Sys2Proof.Laws

end

section

/-! LEMMAS and the obligation O11. The issue of `mma` (R124, R125, R127). -/

namespace Sys2Proof.Laws

open Sys2Proof.Machine Sys2Proof.Safety Sys2Proof.Slice0

theorem inOwnView_iff {view va n : Nat} : inOwnView view va n = true ↔ va + n ≤ 0x200000 ∧ va + n ≤ view := by simp [inOwnView]

/-- What `mma` and `crsv` ask of a parameter block's address: aligned, in the wave's own window, in the team's view (R124, R132). -/
theorem badBlock_iff {view va n : Nat} :
    (decide (va % n ≠ 0) || !inOwnView view va n) = true ↔ va % n ≠ 0 ∨ 0x200000 < va + n ∨ view < va + n := by
  have out : inOwnView view va n = false ↔ 0x200000 < va + n ∨ view < va + n := by
    rw [← Bool.not_eq_true, inOwnView_iff, not_and_or, not_le, not_le]
  simp [out]

/-- How `mma` and `crsv` read a parameter block of n bytes before they go on with it (R124, R132). -/
def readsBlock (c : Ctx) (s : State) (va n : Nat) (next : List Byte → Res) : Res :=
  if va % n ≠ 0 || !inOwnView (s.viewSize c.w) va n then .fault Cause.illegal
  else if s.guarded c.w.team (toTeam c.w.core va) n false then .stall
  else match s.viewPoison c.w va n with
    | some k => .poisoned k
    | none => next (s.viewBytes c.w va n)

theorem readsBlock_of_bad {c : Ctx} {s : State} {va n : Nat} (next : List Byte → Res)
    (bad : va % n ≠ 0 ∨ 0x200000 < va + n ∨ s.viewSize c.w < va + n) : readsBlock c s va n next = .fault Cause.illegal :=
  if_pos (badBlock_iff.2 bad)

theorem readsBlock_of_good {c : Ctx} {s : State} {va n : Nat} (next : List Byte → Res) (aligned : va % n = 0) (own : va + n ≤ 0x200000)
    (inside : va + n ≤ s.viewSize c.w) (unguarded : s.guarded c.w.team (toTeam c.w.core va) n false = false) (sound : s.viewPoison c.w va n = none) :
    readsBlock c s va n next = next (s.viewBytes c.w va n) := by
  have lawful : ¬(decide (va % n ≠ 0) || !inOwnView (s.viewSize c.w) va n) = true := by
    rw [badBlock_iff]
    omega
  unfold readsBlock
  rw [if_neg lawful, unguarded, sound]
  rfl

/-- The latch that a parameter block gives (R127). -/
def mmaLatch (p : List Byte) (r : Resv) : MLatch :=
  { areg := leAt p 0 1, ameta := leAt p 1 1, chunks := leAt p 2 1, scales := groupsIn r.fmt r.grp (leAt p 2 1) }

/-- The operation that `mma` enters (R125, R127). -/
def mmaOp (c : Ctx) (s : State) (p : List Byte) (r : Resv) : MmaOp :=
  { id := s.nextId, core := c.w.core, team := c.w.team, blk := c.w.blk, wid := c.w.wid, widx := c.w.idx, width := c.w.width, grade := c.w.grade,
    asid := c.w.asid, param := p, resv := r, fpmode := c.w.fpmode, phase := .issued, flags := 0, launch := s.launchOf c.w.team
    snap := c.w.mlatch.map fun _ => c.w.lanes.map fun l => aRegs l (mmaLatch p r).areg (mmaLatch p r).ameta (mmaLatch p r).chunks (mmaLatch p r).scales }

/-- What becomes of the wave: its latch is taken, kept or released, and it has waited for A's registers (R127, R111). -/
def mmaTakes (c : Ctx) (p : List Byte) (r : Resv) (w : Wave) : Wave :=
  ({ w with mlatch := if c.reuse then some (w.mlatch.getD (mmaLatch p r)) else none } : Wave).awaits (mmaLatch p r).regs

/-- What `mma` does with its parameter block (R125). -/
def mmaEnters (c : Ctx) (s : State) (p : List Byte) : Res :=
  let r := s.liveResv c.w (leAt p 4 2)
  if s.tablePoison c.w (isResvNo (leAt p 4 2)) then .poisoned 4
  else match mmaCheck c.w p r with
    | some cause => .fault cause
    | none => match r with
      | none => .fault Cause.cassRange
      | some r =>
        if s.engineUse c.w.core ≥ Config.mmaDepth then .stall
        else .done (({ s with mmas := s.mmas ++ [mmaOp c s p r], nextId := s.nextId + 1 } : State).updWave c.w.wid (mmaTakes c p r))

theorem exec_mma_eq (a : BitVec 7) (s : State) :
    exec (.mma a) s = issue { flds := [.unused 0x7C, .r32 a, .unused 0x7C], reuse := true, scalar := true, ends := true, matrix := true } s fun c s =>
      readsBlock c s (c.src32 c.elected a).toNat 32 (mmaEnters c s) := rfl

theorem mmaEnters_of_failed {c : Ctx} {s : State} {p : List Byte} {cause : Nat} (sound : s.tablePoison c.w (isResvNo (leAt p 4 2)) = false)
    (failed : mmaCheck c.w p (s.liveResv c.w (leAt p 4 2)) = some cause) : mmaEnters c s p = .fault cause := by
  simp only [mmaEnters, sound, failed, Bool.false_eq_true, if_false]

theorem mmaEnters_of_passed {c : Ctx} {s : State} {p : List Byte} {r : Resv} (sound : s.tablePoison c.w (isResvNo (leAt p 4 2)) = false)
    (live : s.liveResv c.w (leAt p 4 2) = some r) (passed : mmaCheck c.w p (some r) = none) (room : s.engineUse c.w.core < 16) :
    mmaEnters c s p = .done (({ s with mmas := s.mmas ++ [mmaOp c s p r], nextId := s.nextId + 1 } : State).updWave c.w.wid (mmaTakes c p r)) := by
  simp only [mmaEnters, sound, live, passed, Bool.false_eq_true, if_false]
  exact if_neg room.not_ge

/-- Settles O11: a parameter block that can be read goes through the checks of R125 into the engine. -/
theorem mmaEntersEngine : Obligations.MmaEntersEngine := by
  intro a g w s r sg c va p scales latch op
  refine ⟨fun h bad => traps_of_fault (exec_mma_eq a s) h (readsBlock_of_bad _ bad), fun h aligned own inside unguarded sound untabled => ?_⟩
  have reads : readsBlock c (covered sg g w s) va 32 (mmaEnters c (covered sg g w s)) = mmaEnters c (covered sg g w s) p :=
    readsBlock_of_good _ aligned own inside unguarded sound
  exact ⟨fun cause failed => traps_of_fault (exec_mma_eq a s) h (reads.trans (mmaEnters_of_failed untabled failed)), fun live passed room =>
    does_of_done (exec_mma_eq a s) h rfl (reads.trans (mmaEnters_of_passed untabled live passed room)) (Touches.updWave _ _ (mmaTakes c p r) fun _ h => h)⟩

end Sys2Proof.Laws

end

section

/-! LEMMAS and the obligation O13. `mwin` sets windows of its block's waves (R131); `crsv` and `crel` give and end cassette reservations (R132, R133). -/

namespace Sys2Proof.Laws

open Sys2Proof.Machine Sys2Proof.Safety Sys2Proof.Slice0

/-! ### Changes of many waves -/

/-- `u` is `s` with each wave changed by F, which keeps the numbers, and perhaps marks of replaced words gone. -/
structure MapsWaves (s u : State) (F : Wave → Wave) : Prop where
  rest : { u with waves := s.waves, errors := s.errors, softs := s.softs } = s
  marks : ∀ e ∈ u.errors, e ∈ s.errors
  softMarks : ∀ e ∈ u.softs, e ∈ s.softs
  waves : u.waves = s.waves.map F
  wid : ∀ x, (F x).wid = x.wid

section

variable {s u t : State} {F G : Wave → Wave}

theorem MapsWaves.refl (s : State) : MapsWaves s s id :=
  ⟨rfl, fun _ h => h, fun _ h => h, (List.map_id _).symm, fun _ => rfl⟩

theorem MapsWaves.trans (h : MapsWaves s u F) (k : MapsWaves u t G) : MapsWaves s t (G ∘ F) where
  rest := (congrArg (fun y : State => ({ y with waves := s.waves, errors := s.errors, softs := s.softs } : State)) k.rest).trans h.rest
  marks e he := h.marks e (k.marks e he)
  softMarks e he := h.softMarks e (k.softMarks e he)
  waves := by rw [k.waves, h.waves, List.map_map]
  wid x := (k.wid (F x)).trans (h.wid x)

theorem MapsWaves.ofWaves {waves : List Wave} (h : waves = s.waves.map F) (keeps : ∀ x, (F x).wid = x.wid) : MapsWaves s { s with waves := waves } F :=
  ⟨rfl, fun _ h => h, fun _ h => h, h, keeps⟩

theorem MapsWaves.foldl {step : State → Nat → State} {F : Nat → Wave → Wave} (h : ∀ u i, MapsWaves u (step u i) (F i)) (l : List Nat) :
    ∀ s, MapsWaves s (l.foldl step s) fun x => l.foldl (fun x i => F i x) x := by
  induction l with
  | nil => exact MapsWaves.refl
  | cons i l ih => exact fun s => (h s i).trans (ih _)

theorem MapsWaves.wave? (h : MapsWaves s u F) (v : Nat) : u.wave? v = (s.wave? v).map F := by
  have same : (fun x : Wave => x.wid == v) ∘ F = fun x => x.wid == v := by funext x; simp [h.wid]
  rw [State.wave?, h.waves, List.find?_map, same]
  rfl

/-- Forgetting marks changes no wave. -/
theorem MapsWaves.forget (s : State) (p : StoreLoc → Bool) : MapsWaves s (s.forget p) id := by
  unfold State.forget
  split
  · exact MapsWaves.refl s
  · exact ⟨rfl, fun e he => (List.mem_filter.1 he).1, fun e he => (List.mem_filter.1 he).1, (List.map_id _).symm, fun _ => rfl⟩

end

/-- An instruction that changes many waves, and then writes a destination of its own. -/
theorem does_of_maps {i : Instr} {sg : Sig} {g : Group} {w : Wave} {s u t : State} {k : Ctx → State → Res} {F : Wave → Wave} {f : Ctx → Wave → Wave}
    (meaning : exec i s = issue sg s k) (h : Issues sg g w s) (done : k (issueCtx sg g w) (covered sg g w s) = .done t)
    (maps : MapsWaves (covered sg g w s) u F) (touches : Touches u t (issueCtx sg g w).w.wid (f (issueCtx sg g w))) :
    Does i sg g w s { s with waves := s.waves.map F } fun c x => f c (F x) := by
  have base_wave (v : Nat) : ({ s with waves := s.waves.map F } : State).wave? v = (s.wave? v).map F :=
    (MapsWaves.ofWaves rfl maps.wid).wave? v
  have wave (v : Nat) : t.wave? v = if v = w.wid then some (f (issueCtx sg g w) (F (issueCtx sg g w).w)) else (s.wave? v).map F := by
    rw [touches.waves, maps.wave?, wave?_covered h.wave, issueCtx_wid]
    split <;> rfl
  refine ⟨_, meaning.trans (issueWith_done_eq h done), ?_⟩
  rw [← issueCtx_wid sg g w]
  refine completes_done ?_ (fun e he => maps.marks e (touches.marks e he)) (fun e he => maps.softMarks e (touches.softMarks e he)) (fun v hv => ?_) ?_
  · have changed := congrArg (fun y : State => ({ y with waves := (covered sg g w s).waves, errors := s.errors, softs := s.softs } : State)) touches.rest
    exact congrArg (fun y : State => ({ y with grp := s.grp, waves := s.waves.map F } : State)) (changed.trans maps.rest)
  · rw [wave, if_neg (issueCtx_wid sg g w ▸ hv), base_wave]
  · rw [wave, if_pos (issueCtx_wid sg g w)]

/-! ### Windows (R113, R131, Table 44) -/

/-- A resident wave of a block: launched, and not parked in a record. -/
def residentIn (team blk : Nat) (x : Wave) : Bool := x.team == team && x.blk == blk && !x.isRack && x.parkedIn?.isNone

theorem isLeader_iff (s : State) (w : Wave) : s.isLeader w = false ↔ ∃ x ∈ s.waves, residentIn w.team w.blk x = true ∧ x.idx < w.idx := by
  simp only [State.isLeader, State.blockWaves, List.all_eq_false, List.mem_filter, residentIn, Bool.and_eq_true, Bool.or_eq_true, not_or, decide_eq_true_eq, not_le,
    Bool.not_eq_true', Bool.not_eq_true, Option.isSome_eq_false_iff, and_assoc]

theorem find?_target (s : State) (team blk t : Nat) :
    ((s.blockWaves team blk).find? fun x => x.idx == t && !x.isRack && x.parkedIn?.isNone) = s.waves.find? fun x => residentIn team blk x && x.idx == t := by
  have order (x : Wave) : (x.team == team && x.blk == blk && (x.idx == t && !x.isRack && x.parkedIn?.isNone)) = (residentIn team blk x && x.idx == t) := by
    simp only [residentIn, Bool.and_assoc, Bool.and_comm, Bool.and_left_comm]
  simp only [State.blockWaves, List.find?_filter, Bool.decide_and, Bool.decide_eq_true, order]

/-- Whether a wave is the one whose window lane i of `mwin` names (R131). -/
def windowOf (c : Ctx) (t : Nat → Nat) (i : Nat) (x : Wave) : Bool := x.team == c.w.team && x.blk == c.w.blk && x.idx == t i && !x.isRack

/-- What a lane of `mwin` makes of each wave. -/
def withWindow (c : Ctx) (t lo hi : Nat → Nat) (st : Nat → W32) (i : Nat) (x : Wave) : Wave :=
  if st i = 0 ∧ windowOf c t i x = true then { x with winBase := lo i, winLimit := hi i } else x

/-- A lane of `mwin`: with status 0 its wave's window is replaced, and a mark on it clears (R131, R315). -/
def setWindow (s : State) (c : Ctx) (t lo hi : Nat → Nat) (st : Nat → W32) (u : State) (i : Nat) : State :=
  if st i = 0 then
    let u := u.forget fun e => match e with | .waveReg w k => k == 2 && s.waves.any fun x => windowOf c t i x && x.wid == w | _ => false
    { u with waves := updWhere u.waves (windowOf c t i) fun x => { x with winBase := lo i, winLimit := hi i } }
  else u

theorem exec_mwin_eq (d a b : BitVec 7) (s : State) :
    exec (.mwin d a b) s = issue (waiting [.w32 d true, .r32 a, .r32 b]) s fun c s =>
      let t (i : Nat) := (c.src32 i a).toNat % 16
      let lo (i : Nat) := (c.src32 i b).toNat % 8192
      let hi (i : Nat) := (c.src32 i b).toNat / 65536 % 8192
      let st (i : Nat) := s.mwinStatus c.w (t i) (lo i) (hi i)
      .done ((c.act.foldl (setWindow s c t lo hi st) s).put32 c d st) := by
  simp only [← bits_16_13]
  simp only [← bits_0_4, ← bits_0_13]
  rfl

theorem MapsWaves.setWindow (s : State) (c : Ctx) (t lo hi : Nat → Nat) (st : Nat → W32) (u : State) (i : Nat) :
    MapsWaves u (setWindow s c t lo hi st u i) (withWindow c t lo hi st i) := by
  have keeps (x : Wave) : (withWindow c t lo hi st i x).wid = x.wid := by
    unfold withWindow
    split <;> rfl
  unfold Laws.setWindow
  by_cases given : st i = 0
  · rw [if_pos given]
    refine (MapsWaves.forget u _).trans (MapsWaves.ofWaves ?_ keeps)
    simp only [updWhere, funext (withWindow.eq_1 c t lo hi st i), given, true_and]
  · have same : withWindow c t lo hi st i = id := by
      funext x
      exact if_neg fun h => given h.1
    rw [if_neg given, same]
    exact MapsWaves.refl u

/-- The statuses are those of Table 44, and each lane with status 0 sets one window. -/
theorem windowResults : WindowResults := by
  intro d a b g w s sg c cs t lo hi resident rows st windows h
  have status : (fun i => cs.mwinStatus c.w (t i) (lo i) (hi i)) = st := by
    funext i
    have same : residentIn c.w.team c.w.blk = resident := by simp only [c, issueCtx_team, issueCtx_blk]; rfl
    have leader : cs.isLeader c.w = false ↔ ∃ x ∈ cs.waves, resident x = true ∧ x.idx < w.idx := by
      simpa only [same, c, issueCtx_idx] using isLeader_iff cs c.w
    have target := find?_target cs c.w.team c.w.blk (t i)
    have locked (x : Wave) : cs.locked x.wid = true ↔ ∃ m ∈ s.mmas, m.wid = x.wid := by simp [State.locked, cs]
    have allotted : ((cs.block? c.w.team c.w.blk).map (·.acc)).getD 0 = rows := by simp only [c, cs, covered_block?, issueCtx_team, issueCtx_blk]; rfl
    simp only [State.mwinStatus, target, Bool.not_eq_true', leader, same, locked, allotted, gt_iff_lt, Bool.or_eq_true, decide_eq_true_eq]
    rfl
  have folds : windows = fun x => c.act.foldl (fun x i => withWindow c t lo hi st i x) x := by
    simp only [windows, withWindow, windowOf, Bool.and_eq_true, beq_iff_eq, Bool.not_eq_true', c, issueCtx_team, issueCtx_blk, and_assoc]
  rw [folds]
  have maps := MapsWaves.foldl (MapsWaves.setWindow cs c t lo hi st) c.act cs
  refine does_of_maps (f := fun c => gets32 c 0 d st) (exec_mwin_eq d a b s) h ?_ maps (Touches.put32' _ _ _ _)
  rw [← status]

/-! ### Reservations (R132, R133, Table 41) -/

/-- The descriptor in a block that `crsv` reads, as the reservation of a handle (Table 41). -/
def resvOf (c : Ctx) (p : List Byte) (i : Nat) : Resv :=
  { core := c.w.core, idx := i, team := c.w.team, blk := c.w.blk, off := leAt p 0 4, len := leAt p 4 4, fmt := leAt p 8 1, grp := leAt p 9 1,
    sclo := leAt p 12 2, zpo := leAt p 14 2, live := true }

/-- What `crsv` does with its descriptor (R132). -/
def crsvAnswers (d : BitVec 7) (c : Ctx) (s : State) (p : List Byte) : Res :=
  if s.tablePoison c.w isResv then .poisoned 4
  else if s.crsvReason c.w p ≠ 0 then .done (s.put32 c d fun _ => BitVec.ofNat 32 (s.crsvReason c.w p * 65536 + 0xFFFF))
  else match (List.range Config.reservations).find? fun i => !s.resvs.any fun r => r.core == c.w.core && r.idx == i with
    | none => .done (s.put32 c d fun _ => 0x4FFFF)
    | some i => .done (({ s with resvs := s.resvs ++ [resvOf c p i] } : State).put32 c d fun _ => BitVec.ofNat 32 i)

theorem exec_crsv_eq (d a : BitVec 7) (s : State) :
    exec (.crsv d a) s = issue (waiting [.w32 d true, .r32 a]) s fun c s => readsBlock c s (c.src32 c.elected a).toNat 16 (crsvAnswers d c s) := rfl

theorem crsvAnswers_of_refused {d : BitVec 7} {c : Ctx} {s : State} {p : List Byte} (sound : s.tablePoison c.w isResv = false) (refused : s.crsvReason c.w p ≠ 0) :
    crsvAnswers d c s p = .done (s.put32 c d fun _ => BitVec.ofNat 32 (s.crsvReason c.w p * 65536 + 0xFFFF)) := by
  simp only [crsvAnswers, sound, refused, Bool.false_eq_true, if_false, ne_eq, not_false_eq_true, if_true]

/-- The lowest handle of the core that no reservation has. -/
theorem find?_handle {rs : List Resv} {core i : Nat} (bound : i < 64) (taken : ∀ j < i, ∃ r ∈ rs, r.core = core ∧ r.idx = j)
    (free : ∀ r ∈ rs, ¬(r.core = core ∧ r.idx = i)) :
    ((List.range Config.reservations).find? fun i => !rs.any fun r => r.core == core && r.idx == i) = some i := by
  rw [List.find?_range_eq_some]
  simpa [Config.reservations, bound] using ⟨fun r hr hc hi => free r hr ⟨hc, hi⟩, taken⟩

theorem crsvAnswers_of_accepted {d : BitVec 7} {c : Ctx} {s : State} {p : List Byte} {i : Nat} (sound : s.tablePoison c.w isResv = false)
    (stands : s.crsvReason c.w p = 0) (bound : i < 64) (taken : ∀ j < i, ∃ r ∈ s.resvs, r.core = c.w.core ∧ r.idx = j)
    (free : ∀ r ∈ s.resvs, ¬(r.core = c.w.core ∧ r.idx = i)) :
    crsvAnswers d c s p = .done (({ s with resvs := s.resvs ++ [resvOf c p i] } : State).put32 c d fun _ => BitVec.ofNat 32 i) := by
  simp only [crsvAnswers, sound, stands, find?_handle bound taken free, Bool.false_eq_true, if_false, ne_eq, not_true_eq_false]

/-- With no reservation's entry poisoned, no one handle's is. -/
theorem tablePoison_of_resv {s : State} {x : Wave} (sound : s.tablePoison x isResv = false) (n : Nat) : s.tablePoison x (isResvNo n) = false := by
  have one_of_all (e : TableEntry) : isResvNo n e = true → isResv e = true := by cases e <;> simp [isResvNo, isResv]
  rw [← Bool.not_eq_true, State.tablePoison, List.any_eq_true] at sound ⊢
  rintro ⟨e, he, poisoned⟩
  refine sound ⟨e, he, ?_⟩
  cases e
  case table t b k =>
    rw [Bool.and_eq_true] at poisoned ⊢
    exact poisoned.imp_right (one_of_all k)
  all_goals exact poisoned

/-- What `crel` does with a handle (R133). -/
def crelAnswers (d : BitVec 7) (c : Ctx) (s : State) (h : Nat) : Res :=
  if s.tablePoison c.w (isResvNo h) then .poisoned 4
  else match s.liveResv c.w h with
    | none => .done (s.put32 c d fun _ => 1)
    | some r =>
      .done (({ s with resvs := updWhere s.resvs (fun x => x.core == r.core && x.idx == r.idx && x.team == r.team && x.blk == r.blk) fun x =>
        { x with live := false } } : State).freeResvs.put32 c d fun _ => 0)

theorem exec_crel_eq (d a : BitVec 7) (s : State) :
    exec (.crel d a) s = issue (waiting [.w32 d true, .r32 a]) s fun c s => crelAnswers d c s ((c.src32 c.elected a).toNat % 65536) := by
  have low (x : Nat) : x % 65536 = bits x 0 16 := by simp [bits]
  simp only [low]
  rfl

/-- The reasons of R132 in their order. -/
theorem crsvReason_eq (s : State) (w : Wave) (p : List Byte) : s.crsvReason w p =
    let off := leAt p 0 4
    let len := leAt p 4 4
    let fmt := leAt p 8 1
    let grp := leAt p 9 1
    let allot : Nat := ((s.block? w.team w.blk).map (·.cassLen)).getD 0
    if off % 256 ≠ 0 ∨ len % 256 ≠ 0 ∨ len < 256 ∨ 3 < fmt ∨ (fmt ≤ 1 ∧ grp ≠ 0) ∨ (2 ≤ fmt ∧ (grp = 0 ∨ 3 < grp)) ∨ leAt p 10 2 ≠ 0 ∨
      (fmt ≤ 1 ∧ (leAt p 12 2 ≠ 0 ∨ leAt p 14 2 ≠ 0)) then 1
    else if allot ≤ off ∨ allot < off + len then 2
    else if ∃ r ∈ s.resvs, r.team = w.team ∧ r.blk = w.blk ∧ r.off < off + len ∧ off < r.off + r.len then 3
    else if 64 ≤ (s.resvs.filter fun r => r.core == w.core).length then 4
    else 0 := by
  unfold State.crsvReason
  dsimp only
  refine if_congr ?_ rfl (if_congr ?_ rfl (if_congr ?_ rfl (if_congr ?_ rfl rfl)))
  · by_cases plain : leAt p 8 1 ≤ 1
    · have := plain.trans_lt (by decide : 1 < 2)
      simp [plain, this.not_ge, or_assoc]
    · have := not_le.1 plain
      simp [plain, Nat.succ_le_of_lt this, or_assoc]
  · simp
  · simp [overlap, and_assoc]
  · rfl

theorem crelAnswers_of_none {d : BitVec 7} {c : Ctx} {s : State} {h : Nat} (sound : s.tablePoison c.w (isResvNo h) = false) (dead : s.liveResv c.w h = none) :
    crelAnswers d c s h = .done (s.put32 c d fun _ => 1) := by
  simp only [crelAnswers, sound, dead, Bool.false_eq_true, if_false]

/-- The reservations with one given up (R133). -/
def released (rs : List Resv) (r : Resv) : List Resv :=
  rs.map fun x => if x.core = r.core ∧ x.idx = r.idx ∧ x.team = r.team ∧ x.blk = r.blk then { x with live := false } else x

theorem crelAnswers_of_live {d : BitVec 7} {c : Ctx} {s : State} {h : Nat} {r : Resv} (sound : s.tablePoison c.w (isResvNo h) = false)
    (live : s.liveResv c.w h = some r) : crelAnswers d c s h = .done (({ s with resvs := released s.resvs r } : State).freeResvs.put32 c d fun _ => 0) := by
  simp only [crelAnswers, sound, live, Bool.false_eq_true, if_false, updWhere, released, Bool.and_eq_true, beq_iff_eq, and_assoc]

theorem reservationResults : ReservationResults := by
  intro d a g w s sg c va p h off len fmt grp allot reason resv issues sound
  have answered : (covered sg g w s).crsvReason c.w p = reason := by
    rw [crsvReason_eq]
    simp only [c, covered_block?, covered_resvs, issueCtx_team, issueCtx_blk, issueCtx_core]
    rfl
  refine ⟨fun aligned own inside unguarded clean => ?_, fun dead => ?_, fun r live => ?_⟩
  · have reads : readsBlock c (covered sg g w s) va 16 (crsvAnswers d c (covered sg g w s)) = crsvAnswers d c (covered sg g w s) p :=
      readsBlock_of_good _ aligned own inside unguarded clean
    refine ⟨fun refused => ?_, fun i stands bound taken free => ?_⟩
    · refine does_of_done (exec_crsv_eq d a s) issues rfl (reads.trans (crsvAnswers_of_refused sound ?_)) ?_
      · rwa [answered]
      · rw [answered]
        exact Touches.put32' _ _ _ _
    · exact does_of_done (exec_crsv_eq d a s) issues rfl (reads.trans (crsvAnswers_of_accepted sound (answered.trans stands) bound taken free))
        (Touches.put32' _ _ _ _)
  · exact does_of_done (exec_crel_eq d a s) issues rfl (crelAnswers_of_none (tablePoison_of_resv sound h) dead) (Touches.put32' _ _ _ _)
  · exact does_of_done (exec_crel_eq d a s) issues rfl (crelAnswers_of_live (tablePoison_of_resv sound h) live) (Touches.put32' _ _ _ _)

/-- Settles O13: windows and reservations, apart. -/
theorem windowAndReservationResults : Obligations.WindowAndReservationResults := ⟨windowResults, reservationResults⟩

end Sys2Proof.Laws

end

section

/-! LEMMAS and the obligation O41. The matrix engine (R117, R125-R127, R134, R135): where no word in error stands, an operation starts as soon as its rows and
its cassette bytes are free, and on completion it leaves the engine or parks in a record. -/

namespace Sys2Proof.Laws

open Sys2Proof.Machine Sys2Proof.Safety Sys2Proof.Slice0

/-! ### States without errors -/

theorem mmaPoison_of_no_errors {s : State} (clean : s.errors = []) (o : MmaOp) : s.mmaPoison o = none := by
  simp [State.mmaPoison, clean]

theorem forget_of_no_marks {s : State} (clean : s.errors = []) (sound : s.softs = []) (p : StoreLoc → Bool) : s.forget p = s := by
  simp [State.forget, clean, sound]

/-! ### Starting -/

theorem active_of_phase {t : Team} (h : t.phase = .running ∨ t.phase = .ending) : t.active = true := by
  obtain h | h := h <;> rw [Team.active, h] <;> rfl

/-- The A operand of an operation that starts: its held latch's, else what its wave's registers held as it parked, else what they hold (R127, R289). -/
theorem execMmaStart_eq {s : State} {o : MmaOp} {t : Team} {w : Wave} (found : s.mma? o.id = some o) (team : s.team? o.team = some t)
    (wave : s.wave? o.wid = some w) (clean : s.errors = []) (issued : o.phase = .issued) (rows : s.rowsFree o = true) (cass : s.cassFilling o = false)
    (active : t.active = true) :
    execMmaStart o.id s = .next (s.setMma { o with phase := .started (o.snap.getD (o.kept.getD (o.aOf w.lanes))) }).wakeRetry := by
  unfold execMmaStart
  simp only [found, team, wave, issued, rows, cass, active, mmaPoison_of_no_errors clean, bne_self_eq_false, Option.map_some,
    Option.getD_some, Bool.not_true, Bool.or_false, Bool.false_eq_true, if_false]
  cases o.snap <;> cases o.kept <;> rfl

/-! ### Completing -/

/-- The rows from the program lanes' operands, and those from their shadows', which stand M lanes above (R134). -/
theorem mmaResult_eq (o : MmaOp) (b : Block) (a : List (List W32)) (shadow : Bool) :
    mmaResult o b a shadow = (List.range o.m).map fun i => mmaRow o b (a.getD ((if shadow then o.m else 0) + i) []) (b.row (o.row + i)) := by
  cases shadow <;> simp [mmaResult, Nat.add_comm]

/-- The union of the flags of an operation's rows. -/
def rowFlags (rows : List (List W32 × BitVec 8)) : BitVec 8 := rows.foldl (fun f r => f ||| r.2) 0

/-- A block with an operation's rows written, their flags joined to the rows' status (R126). -/
def withRows (o : MmaOp) (b : Block) (rows : List (List W32 × BitVec 8)) : Block :=
  (rows.mapIdx fun i r => (i, r)).foldl (fun (b : Block) e =>
    b.setRow (o.row + e.1) { entries := e.2.1, status := (b.row (o.row + e.1)).status ||| e.2.2.setWidth 32 }) b

/-- The state once an operation's results stand: its rows, its wave's flags, its own flags (R126). -/
def withResults (s : State) (o : MmaOp) (b : Block) (rows : List (List W32 × BitVec 8)) : State :=
  ((s.setBlock (withRows o b rows)).orWaveFlags o.wid (rowFlags rows)).setMma { o with flags := rowFlags rows }

/-- The cause with which a completed operation parks: that of an enabled exception, else REDUNDANCY_LANE where the shadows' rows differ (R134). -/
def parkCause (o : MmaOp) (b : Block) (a : List (List W32)) : Option Nat :=
  (trapCause o.fpmode (rowFlags (mmaResult o b a false) &&& 0x7F)).or
    (if o.grade = 1 ∧ mmaResult o b a false ≠ mmaResult o b a true then some Cause.lane else none)

section

variable {s : State} {o : MmaOp} {b : Block} {a : List (List W32)} (found : s.mma? o.id = some o) (block : s.block? o.team o.blk = some b)
  (clean : s.errors = []) (sound : s.softs = []) (started : o.phase = .started a)

include found block clean sound started

/-- With nothing to park for, an operation leaves the engine. -/
theorem execMmaComplete_leaves (nothing : parkCause o b a = none) :
    execMmaComplete o.id s = .next ((withResults s o b (mmaResult o b a false)).endMma o.id false).wakeRetry := by
  obtain ⟨untrapped, same⟩ := Option.or_eq_none_iff.1 nothing
  have agree : (decide (o.grade = 1) && mmaResult o b a false != mmaResult o b a true) = false := by simpa using same
  unfold rowFlags at untrapped
  unfold execMmaComplete withResults withRows rowFlags
  simp only [found, block, started, mmaPoison_of_no_errors clean, forget_of_no_marks clean sound, ite_self, untrapped, agree, Bool.false_eq_true, if_false]

/-- With something to park for, it detaches with that cause. -/
theorem execMmaComplete_parks {cause : Nat} (something : parkCause o b a = some cause) :
    execMmaComplete o.id s =
      .next (((withResults s o b (mmaResult o b a false)).detachMma { o with flags := rowFlags (mmaResult o b a false) } cause).tryFinish o.wid).wakeRetry := by
  have which := Option.or_eq_some_iff.1 something
  unfold rowFlags at which
  unfold execMmaComplete withResults withRows rowFlags
  simp only [found, block, started, mmaPoison_of_no_errors clean, forget_of_no_marks clean sound, ite_self]
  obtain trapped | ⟨untrapped, lanes⟩ := which
  · simp only [trapped]
  · obtain ⟨differ, named⟩ := Option.ite_none_right_eq_some.1 lanes
    have disagree : (decide (o.grade = 1) && mmaResult o b a false != mmaResult o b a true) = true := by simpa using differ
    simp only [untrapped, disagree, if_true, Option.some.inj named]

end

/-! ### The record of an operation that parks (R134, R296) -/

theorem setMma_record? (s : State) (o : MmaOp) (rid : Nat) : (s.setMma o).record? rid = s.record? rid := rfl

/-- A posted task changes no record. -/
theorem serveParked_records {s : State} {rid : Nat} {r : Record} (found : s.record? rid = some r) (posts : r.pkind = 1 ∨ r.pkind = 2) :
    (s.serveParked rid).records = s.records := by
  have posted : (s.postFault rid).records = s.records := by
    unfold State.postFault
    simp only [found]
    rw [if_pos (by simpa using posts)]
    rfl
  have serves : ¬(r.pkind = 0 ∨ r.pkind = 3 ∧ s.linkOpen r.vf r.link = false) := by omega
  unfold State.serveParked
  simp only [found]
  split
  · rfl
  · unfold State.serveRecord
    simp only [found]
    rw [if_neg (by simpa using serves), posted]

/-- What the record of a unit says of it, of its place and of its policy entry (R291, R293, R296). -/
structure RecordOf (r : Record) (rid : Nat) (u : UnitAt) (cause depth : Nat) (place : Nat × Nat) (e : PolEntry) : Prop where
  id : r.id = rid
  kind : r.kind = u.kind
  state : r.state = .parked
  cause : r.cause = cause
  unit : r.unit = u.id
  depth : r.depth = depth
  place : (r.extent, r.slot) = place
  queue : r.queue = e.queue
  pkind : r.pkind = e.kind

/-- The new record is found under the number it takes, which no other record has. -/
theorem makeRecord_record? {s : State} (u : UnitAt) (cause depth : Nat) (parent : W32) (place : Nat × Nat) (flags : BitVec 8) (faddr amask : W64)
    (body pan : List Byte) (deadline : Nat) {e : PolEntry} (entry : s.polEntry u.launch cause = some e) (fresh : ∀ r ∈ s.records, r.id ≠ s.nextId) :
    ∃ r, (s.makeRecord u cause depth parent place flags faddr amask body pan deadline).record? s.nextId = some r ∧
      RecordOf r s.nextId u cause depth place e := by
  have others : s.records.find? (fun r => r.id == s.nextId) = none := by simpa using fresh
  unfold State.makeRecord State.record?
  simp only [List.find?_append, others, Option.none_or, List.find?_singleton, beq_self_eq_true, if_true, entry, Option.map_some, Option.getD_some]
  exact ⟨_, rfl, rfl, rfl, rfl, rfl, rfl, rfl, rfl, rfl, rfl⟩

/-- An operation that detaches with a place in its pool and an entry of kind 1 or 2 parks in a record of its own there. -/
theorem detachMma_record {s : State} {o : MmaOp} {cause depth : Nat} {parent : W32} {place : Nat × Nat} {e : PolEntry}
    (bound : s.recordDepth o.team (partOfCore o.core) = some (depth, parent)) (room : s.placeFor (partOfCore o.core) depth false = some place)
    (kept : s.lostExtent (partOfCore o.core) place = false) (entry : s.polEntry o.launch cause = some e) (posts : e.kind = 1 ∨ e.kind = 2)
    (fresh : ∀ r ∈ s.records, r.id ≠ s.nextId) :
    ∃ r ∈ (s.detachMma o cause).records, RecordOf r s.nextId (s.mmaUnit o) cause depth place e := by
  have part : (s.mmaUnit o).part = partOfCore o.core := rfl
  unfold State.detachMma
  simp only [part, bound, room]
  unfold State.parkMma
  simp only [part, kept, Bool.false_eq_true, if_false]
  obtain ⟨r, made, states⟩ := makeRecord_record? (s.mmaUnit o) cause depth parent place 1 0 0 (s.mmaBodyOf o) []
    (s.faultDeadline (s.mmaUnit o) cause) entry fresh
  refine ⟨r, ?_, states⟩
  rw [serveParked_records ((setMma_record? _ _ _).trans made) (states.pkind ▸ posts)]
  exact List.mem_of_find?_eq_some made

/-! ### What stands when an operation's results do -/

theorem raise_records (s : State) (wid : Nat) (f : BitVec 8) : (s.raise wid f).records = s.records := by
  unfold State.raise
  split <;> rfl

theorem raise_nextId (s : State) (wid : Nat) (f : BitVec 8) : (s.raise wid f).nextId = s.nextId := by
  unfold State.raise
  split <;> rfl

theorem orWaveFlags_nextId (s : State) (wid : Nat) (f : BitVec 8) : (s.orWaveFlags wid f).nextId = s.nextId := by
  unfold State.orWaveFlags
  dsimp only
  split <;> simp [raise_nextId]

/-- Flags may be written into a record, under the number it has. -/
theorem orWaveFlags_record_ids (s : State) (wid : Nat) (f : BitVec 8) : (s.orWaveFlags wid f).records.map (·.id) = s.records.map (·.id) := by
  unfold State.orWaveFlags
  dsimp only
  split
  · simp only [State.updRecord, raise_records, updWhere, List.map_map]
    refine List.map_congr_left fun r _ => ?_
    simp only [Function.comp_apply]
    split <;> rfl
  · rw [raise_records]

theorem withResults_nextId (s : State) (o : MmaOp) (b : Block) (rows : List (List W32 × BitVec 8)) : (withResults s o b rows).nextId = s.nextId := by
  simp [withResults, orWaveFlags_nextId]

theorem withResults_fresh {s : State} (o : MmaOp) (b : Block) (rows : List (List W32 × BitVec 8)) (numbered : ∀ r ∈ s.records, r.id < s.nextId) :
    ∀ r ∈ (withResults s o b rows).records, r.id ≠ (withResults s o b rows).nextId := by
  have ids : (withResults s o b rows).records.map (·.id) = s.records.map (·.id) := orWaveFlags_record_ids _ _ _
  intro r hr
  obtain ⟨q, hq, same⟩ := List.mem_map.1 (ids ▸ List.mem_map_of_mem hr)
  rw [withResults_nextId, ← same]
  exact (numbered q hq).ne

/-! ### The obligation -/

/-- Settles O41: an operation starts where nothing keeps it back, its results stand before it leaves or parks, and `parkCause` says which of the two it does. -/
theorem matrixEngineRuns : Obligations.MatrixEngineRuns := by
  intro s o t b w a found team block wave clean
  refine ⟨fun issued rows cass active => execMmaStart_eq found team wave clean issued rows cass (active_of_phase active), ?_⟩
  intro from_ rows fl b1 op done part parks started sound
  have program : mmaResult o b a false = from_ 0 := mmaResult_eq o b a false
  have shadows : mmaResult o b a true = from_ o.m := mmaResult_eq o b a true
  have leaves (nothing : parkCause o b a = none) : exec (.mmaComplete o.id) s = .next (done.endMma o.id false).wakeRetry := by
    have := execMmaComplete_leaves found block clean sound started nothing
    rwa [program] at this
  have parked (cause : Nat) (something : parkCause o b a = some cause) : parks cause := by
    refine ⟨?_, fun depth parent place e bound room kept entry posts numbered => ?_⟩
    · have := execMmaComplete_parks found block clean sound started something
      rwa [program] at this
    · obtain ⟨r, made, states⟩ := detachMma_record (s := done) (o := op) bound room kept entry posts (withResults_fresh o b rows numbered)
      exact ⟨r, made, states.id.trans (withResults_nextId s o b rows), states.kind, states.state, states.cause, states.unit, states.depth,
        states.queue, states.place⟩
  simp only [parkCause, program, shadows] at leaves parked
  refine ⟨fun untrapped same => leaves ?_, fun cause trapped => parked cause ?_, fun untrapped twins differ => parked _ ?_⟩
  · exact Option.or_eq_none_iff.2 ⟨untrapped, if_neg fun h => same.elim (absurd h.1) h.2⟩
  · exact Option.or_eq_some_iff.2 (.inl trapped)
  · exact Option.or_eq_some_iff.2 (.inr ⟨untrapped, if_pos ⟨twins, differ⟩⟩)

end Sys2Proof.Laws

end

section

/-! LEMMAS and the obligation O29. `opn.w`, `fence` and `nop` end in `done` with changes of their own wave, `yield` moves its lanes itself (R147, R166, R228). -/

namespace Sys2Proof.Laws

open Sys2Proof.Machine Sys2Proof.Safety Sys2Proof.Slice0

/-- The address of a level may lose its mark; of the wave, its address and recorded depths change (R147). -/
theorem Touches.openLevel (s : State) (wid kind : Nat) (a : W57) : Touches s (s.openLevel wid kind a) wid fun w => w.openAt kind a :=
  (Touches.forget s _ wid).trans (Touches.updWave _ _ _ fun x h => by unfold Wave.openAt; split_ifs <;> exact h)

theorem openSig_eq {s : State} {g : Group} (selected : s.grp = some g) (o : BitVec 20) : openSig s o = openForm g o := by
  simp only [openSig, selected, openForm]

theorem scopeAllowed_covered (sg : Sig) (g : Group) (w : Wave) (s : State) (scope : Nat) :
    (covered sg g w s).scopeAllowed ((covered sg g w s).vfOf (issueCtx sg g w).w) scope = s.scopeAllowed (s.vfOf w) scope := by
  rw [State.vfOf, issueCtx_team]
  rfl

theorem openAndFence : OpenAndFence := by
  intro o scope g w s
  refine ⟨fun h => ?_, fun h allowed => ?_⟩
  · have meaning : exec (.opnW o) s = issue (openForm g o) s fun c s => .done (s.openLevel c.w.wid 0 (BitVec.ofInt 57 (targetOf c.g o))) := by
      rw [exec_opnW, execOpnW, openSig_eq h.selected]
    exact does_of_done meaning h rfl rfl (Touches.openLevel _ _ 0 _)
  · exact does_of_done (exec_fence scope s) h rfl (if_neg (by simp [scopeAllowed_covered, allowed])) (Touches.updWave _ _ _ fun _ h => h)

theorem yieldAndNop : YieldAndNop := by
  intro g w s
  refine ⟨fun h => ?_, fun h => ?_⟩
  · exact issueWith_moved_base s h.wave h rfl (Touches.steer _ _ _)
  · exact does_of_done (exec_nop s) h rfl rfl (Touches.refl _ _)

/-- Settles O29: each of the four forms changes its own wave alone. -/
theorem openFenceYieldNop : Obligations.OpenFenceYieldNop := ⟨openAndFence, yieldAndNop⟩

end Sys2Proof.Laws

end

section

/-! LEMMAS and the obligation O21. `cmt.b` and `cmt.b.lw`: the publication of a pannier into its block's overlay, or the report of a conflict (R149, R150, Table 51). -/

namespace Sys2Proof.Laws

open Sys2Proof.Machine Sys2Proof.Safety Sys2Proof.Slice0

/-! ### What a publication leaves -/

/-- The report that a wave's commit makes of the bytes its siblings have published (Table 51). -/
def waveReport (w : Wave) : W64 := conflictReport (conflicting w.core w.pan w.foreign)

/-- The wave level reopens with an empty pannier (R150). -/
def emptied (x : Wave) : Wave := { x with pan := [], reds := [], foreign := [] }

/-- What the publication of `w` makes of another wave: the launched ones of its block note the bytes (R149). -/
def noting (w x : Wave) : Wave := if x.team = w.team ∧ x.blk = w.blk ∧ x.isRack = false then { x with foreign := addForeign x.foreign w.pan } else x

/-- `w` has published: its bytes and reductions stand in its block, its copies pend at the block's level (R150, R159), each other wave is as `noting` says, and
its own waves are as `own` says. -/
def published (s : State) (w : Wave) (own : Wave → Wave) : State :=
  { s with
    blocks := updWhere s.blocks (fun b => b.team == w.team && b.idx == w.blk) fun b => { b with ovl := Held.over w.pan b.ovl, reds := b.reds ++ w.reds }
    copies := s.copies.map fun c => if c.wid = w.wid ∧ c.level = .wave then { c with level := .block } else c
    waves := s.waves.map fun x => if x.wid = w.wid then own x else noting w x }

theorem noting_wid (w x : Wave) : (noting w x).wid = x.wid := by
  unfold noting
  split <;> rfl

section

variable {s : State} {w : Wave}

theorem commitWave_of_conflict (found : s.wave? w.wid = some w) {r : W64} (report : waveReport w = r) (conflict : r ≠ 0) : s.commitWave w.wid false = (s, r) := by
  subst report
  unfold State.commitWave
  rw [found]
  exact if_pos (by simpa [waveReport] using conflict)

theorem commitWave_of_clear (found : s.wave? w.wid = some w) {lw : Bool} (clear : lw = true ∨ waveReport w = 0) :
    s.commitWave w.wid lw = (published s w emptied, 0) := by
  have goes : ¬(!lw && decide (waveReport w ≠ 0)) = true := by
    rcases clear with rfl | none
    · simp
    · simp [none]
  unfold State.commitWave
  rw [found]
  refine (if_neg goes).trans ?_
  simp only [published, noting, emptied, Bool.and_eq_true, decide_eq_true_eq, Bool.not_eq_true', and_assoc]
  rfl

theorem published_wave? (own : Wave → Wave) (keeps : ∀ x, (own x).wid = x.wid) (v : Nat) :
    (published s w own).wave? v = (s.wave? v).map (if v = w.wid then own else noting w) := by
  have maps := (MapsWaves.ofWaves (s := s) rfl (F := fun x => if x.wid = w.wid then own x else noting w x)
    (fun x => by split; exacts [keeps x, noting_wid w x])).wave? v
  refine Eq.trans maps ?_
  cases found : s.wave? v with
  | none => rfl
  | some x =>
    rw [Option.map_some, Option.map_some, wave?_wid found]
    split <;> rfl

end

/-! ### The instructions -/

section

variable {sg : Sig} {g : Group} {w : Wave} {s : State}

theorem waveReport_issueCtx : waveReport (issueCtx sg g w).w = waveReport w := by simp only [waveReport, issueCtx_core, issueCtx_pan, issueCtx_foreign]

theorem wave?_issueCtx (wave : s.wave? g.wid = some w) : (covered sg g w s).wave? (issueCtx sg g w).w.wid = some (issueCtx sg g w).w := by
  rw [issueCtx_wid, wave?_covered wave, if_pos rfl]

theorem published_wave?_id (wave : s.wave? g.wid = some w) : (published s w id).wave? g.wid = some w := by
  rw [published_wave? id fun _ => rfl, wave, if_pos (wave?_wid wave).symm]
  rfl

/-- The publication of the issuing wave, over the state in which its pannier is still full. -/
theorem published_touches (wave : s.wave? g.wid = some w) :
    Touches (covered sg g w (published s w id)) (published (covered sg g w s) (issueCtx sg g w).w emptied) w.wid emptied := by
  have base := published_wave?_id wave
  refine ⟨?_, fun _ h => h, fun _ h => h, fun v => ?_⟩
  · simp only [published, issueCtx_team, issueCtx_blk, issueCtx_pan, issueCtx_reds, issueCtx_wid]
    rfl
  · have same : noting (issueCtx sg g w).w = noting w := by
      funext x
      simp only [noting, issueCtx_team, issueCtx_blk, issueCtx_pan]
    rw [published_wave? emptied fun _ => rfl, wave?_covered base, wave?_covered wave, published_wave? id fun _ => rfl, issueCtx_wid, same]
    split <;> rfl

variable {n : BitVec 1} {d : BitVec 7} {lw : Bool}

/-- With its accesses performed and no poisoned byte in its pannier, a commit whose outcome fits the overlay stores leaves that outcome, and its report in the
destination (R150, R153, R166). -/
theorem does_of_commit {i : Instr} (meaning : exec i s = commitB lw n d s) (h : Issues (commitForm n d) g w s) (quiet : s.accessOut w.wid = false)
    (sound : s.pannierPoison w.wid = false) {base u : State} {r : W64} {f : Wave → Wave}
    (commits : (covered (commitForm n d) g w s).commitWave (issueCtx (commitForm n d) g w).w.wid lw = (u, r)) (fits : u.overlaysFit (w.core / 2) = true)
    (wave : base.wave? g.wid = some w) (touches : Touches (covered (commitForm n d) g w base) u w.wid f) :
    Does i (commitForm n d) g w s base fun c x => gets64 c n d (fun _ => r) (f x) := by
  have performed : (covered (commitForm n d) g w s).accessOut (issueCtx (commitForm n d) g w).w.wid = false := by rw [issueCtx_wid]; exact quiet
  have clean : (covered (commitForm n d) g w s).pannierPoison (issueCtx (commitForm n d) g w).w.wid = false := by rw [issueCtx_wid]; exact sound
  unfold Does
  rw [meaning]
  refine issueWith_done_base base wave h (u := if n = 1 then u else u.put64 (issueCtx (commitForm n d) g w) d fun _ => r) ?_
    ((issueCtx_wid (commitForm n d) g w ▸ touches).trans (Touches.put64 u _ n d _))
  simp only [performed, clean, commits, issueCtx_core, fits, Bool.not_true, Bool.false_eq_true, if_false]

end

/-- Settles O21: a conflict leaves everything but the report as it was; without one the pannier is published. -/
theorem waveCommit : Obligations.WaveCommit := by
  intro n d g w s sg report base h quiet sound
  have found := wave?_issueCtx (sg := sg) h.wave
  have same : waveReport (issueCtx sg g w).w = report := waveReport_issueCtx
  refine ⟨fun conflict fits => ?_, fun i form fits => ?_⟩
  · exact does_of_commit (exec_cmtB n d s) h quiet sound (commitWave_of_conflict found same conflict) fits h.wave (Touches.refl _ _)
  · obtain ⟨lw, meaning, clear⟩ : ∃ lw, exec i s = commitB lw n d s ∧ (lw = true ∨ waveReport (issueCtx sg g w).w = 0) := by
      rcases form with rfl | ⟨none, rfl⟩
      · exact ⟨true, rfl, .inl rfl⟩
      · exact ⟨false, rfl, .inr (same.trans none)⟩
    have touches := published_touches (sg := sg) h.wave
    have fits := (congrArg (State.overlaysFit · (w.core / 2)) touches.rest).trans fits
    exact does_of_commit meaning h quiet sound (commitWave_of_clear found clear) fits (published_wave?_id h.wave) touches

end Sys2Proof.Laws

end

section

/-! LEMMAS and the obligation O43. The device commit (R150-R154, R330-R332): where no error stands its pending data is sound, so that it is published, or reports its
conflict; that of twins after their comparison. -/

namespace Sys2Proof.Laws

open Sys2Proof.Machine

/-! ### Pending data (R317, R320) -/

theorem withSound_of_clean {s : State} (clean : s.errors = []) (sound : s.softs = []) (t : Team) (cs : List Copy) (go : State → State) :
    s.withSound t cs go = go s := by
  have kept : cs.any s.sourceLost = false := by simp [State.sourceLost, clean]
  have read : s.reread cs = s := by simp [State.reread, State.repairAt, clean, sound]
  rw [State.withSound, kept, read]
  rfl

theorem withSound_of_lost {s : State} {t : Team} (team : s.team? t.id = some t) {cs : List Copy} (lost : cs.any s.sourceLost = true) (go : State → State) :
    s.withSound t cs go = (s.logCore (2 * t.pair) 1 2 t.vf t.asid).killTeam t.id true 1 7 := by
  rw [State.withSound, if_pos lost, State.poisonKill, team]
  rfl

/-! ### Publication (R150, R152) -/

/-- The other teams of the launch, but for the twin, note the bytes of a publication (R149). -/
def sharedBytes (t : Team) (h : Held) (s : State) : State :=
  { s with teams := s.teams.map fun y =>
      if y.launch = t.launch ∧ y.id ≠ t.id ∧ some y.id ≠ t.twin then { y with foreign := addForeign y.foreign h } else y }

/-- A team's pending bytes reach memory, and its write set leaves its holders. -/
def publishedBytes (t : Team) (h : Held) (s : State) : State := (sharedBytes t h (s.publishBytes t h)).clearWriteSet t.id true

section

variable {s : State} {t : Team} {x : Gather}

theorem publish_of_conflict (checked : x.checked = true) (conflict : deviceReport (s.carried t.id) t.foreign ≠ 0) :
    s.publish t x = t.pairUp.foldl (fun u i => u.endGather i (deviceReport (s.carried t.id) t.foreign)) s := by
  simp only [State.publish, checked, if_true, if_pos conflict, Team.pairUp]
  cases t.twin <;> rfl

theorem publish_of_clear (clear : x.checked = false ∨ deviceReport (s.carried t.id) t.foreign = 0) :
    s.publish t x = (t.pairUp.foldl (fun u i => u.endGather i 0)
      (t.twin.toList.foldl (fun u i => u.clearWriteSet i false) (publishedBytes t (pendingBytes (s.carried t.id)) s))).applied t.id := by
  have unreported : (if x.checked then deviceReport (s.carried t.id) t.foreign else 0) = 0 := by rcases clear with h | h <;> simp [h]
  simp only [State.publish, unreported, ne_eq, not_true_eq_false, if_false, Team.pairUp, publishedBytes, sharedBytes, Bool.and_eq_true, decide_eq_true_eq, and_assoc]
  cases t.twin <;> rfl

/-! ### The event -/

theorem execDeviceCommitPublish_single (found : s.team? t.id = some t) (gathers : t.gather = some x) (gathered : s.gathered t = true)
    (primary : t.secondary = false) (alone : t.twin = none) :
    exec (.deviceCommitPublish t.id) s = .next (s.withSound t (s.carried t.id) fun u => u.publish t x).wakeRetry := by
  show execDeviceCommitPublish t.id s = _
  simp only [execDeviceCommitPublish, found, gathers, gathered, primary, alone, Bool.not_true, Bool.or_self, Bool.false_eq_true, if_false]

/-- The comparison of twins, counted in both (R332). -/
def comparedTwins (t t2 : Team) (s : State) : State :=
  (s.updTeam t.id fun y => y.compared (s.signature t) (s.signature t2)).updTeam t2.id fun y => y.compared (s.signature t2) (s.signature t)

theorem execDeviceCommitPublish_twins {t2 : Team} (found : s.team? t.id = some t) (gathers : t.gather = some x) (gathered : s.gathered t = true)
    (primary : t.secondary = false) (twin : t.twin = some t2.id) (found2 : s.team? t2.id = some t2) (gathered2 : s.gathered t2 = true)
    (clean : s.errors = []) (sound : s.softs = []) :
    exec (.deviceCommitPublish t.id) s = .next (if s.signature t = s.signature t2 then (comparedTwins t t2 s).publish t x
      else (comparedTwins t t2 s).twinsDiffer t t2 (s.signature t) (s.signature t2)).wakeRetry := by
  show execDeviceCommitPublish t.id s = _
  simp only [execDeviceCommitPublish, found, gathers, gathered, primary, twin, found2, gathered2, withSound_of_clean clean sound, Bool.not_true, Bool.or_self,
    Bool.false_eq_true, if_false]
  rfl

end

theorem twinsDiffer_of_no_notice {s : State} {t t2 : Team} (own other : W64)
    (unasked : (∀ w ∈ s.teamWaves t.id, w.abtT = none) ∨ s.wantsNotice t.launch Cause.twin = false) :
    s.twinsDiffer t t2 own other = s.killTeam t.id true 0 7 := by
  unfold State.twinsDiffer
  refine if_neg ?_
  rcases unasked with unset | silent
  · simp +contextual [unset]
  · simp [silent]

/-- Settles O43: the cases of a gathered commit, alone and of twins. -/
theorem deviceCommitPublishes : Obligations.DeviceCommitPublishes := by
  intro s t t2 x cs report h shared publishes found gathers gathered primary
  refine ⟨fun alone clean sound => ?_, fun alone lost => ?_, ?_⟩
  · rw [execDeviceCommitPublish_single found gathers gathered primary alone, withSound_of_clean clean sound]
    refine ⟨fun checked conflict => ?_, fun clear => ?_⟩
    · rw [publish_of_conflict checked conflict, Team.pairUp, alone]
      rfl
    · rw [publish_of_clear clear, Team.pairUp, alone]
      rfl
  · rw [execDeviceCommitPublish_single found gathers gathered primary alone, withSound_of_lost found lost]
  · intro twin found2 gathered2 clean sound own other compared u
    have counted : comparedTwins t t2 s = u := by
      simp only [comparedTwins, Team.compared, Bool.or_eq_true, decide_eq_true_eq]
      rfl
    rw [execDeviceCommitPublish_twins found gathers gathered primary twin found2 gathered2 clean sound, counted]
    refine ⟨fun same checked conflict => ?_, fun same clear => ?_, fun differ unasked => ?_, fun differ _ _ => ?_⟩
    · rw [if_pos same, publish_of_conflict (s := u) checked conflict, Team.pairUp, twin]
      rfl
    · rw [if_pos same, publish_of_clear (s := u) clear, Team.pairUp, twin]
      rfl
    · rw [if_neg differ, twinsDiffer_of_no_notice _ _ unasked]
    · rw [if_neg differ]

end Sys2Proof.Laws

end

section

/-! The obligation O23. An abort ends each wave of its unit whose address is not set, and with a parked one its matrix operations; an operation is found by its number.
The statement is about every state, one in which two operations have one number among them, which the part never reaches: there the operation of another wave leaves
the engine, and that wave ends with it although its address is set. -/

namespace Sys2Proof.Laws

open Sys2Proof.Machine Sys2Proof.Safety Sys2Proof.Slice0

/-- A wave that issues `abt.b`, with the block's abort address set. -/
def abortingWave : Wave := { launchWave placedLaunch placedTeam 0 0 3 0 with abtB := some 0x20040 }

/-- A wave of its block whose lanes have all ended, with the address set too: it waits for its matrix operation (R136). -/
def drainingWave : Wave :=
  let w := launchWave placedLaunch placedTeam 0 1 4 1
  { w with abtB := some 0x20040, lanes := w.lanes.map fun l => { l with live := false } }

/-- A wave of its block that is parked, in a record without an address. -/
def parkedWave : Wave := { launchWave placedLaunch placedTeam 0 2 5 2 with status := .parked 4 }

/-- An operation of a wave that has issued, under number 9. -/
def ninthOp (wid : Nat) : MmaOp :=
  { id := 9, core := 0, team := 2, blk := 0, wid := wid, widx := 0, width := 16, grade := 0, asid := 1, param := [],
    resv := { core := 0, idx := 0, team := 2, blk := 0, off := 0, len := 0, fmt := 0, grp := 0, sclo := 0, zpo := 0, live := true },
    fpmode := 0, snap := none, phase := .issued, flags := 0, launch := 1 }

/-- The three waves on one core, where two operations have the number 9. -/
def twoNinths : State :=
  let s : State := { State.reset.withFetchWord 32 0 with waves := [abortingWave, drainingWave, parkedWave], mmas := [ninthOp 4, ninthOp 5] }
  s.makeRecord (s.waveUnit parkedWave) Cause.trap 0 0xFFFFFFFF (0, 0) 0 0 0 [] [] 0

/-- The group of the wave that aborts. -/
def abortingGroup : Group :=
  { wid := 3, lanes := List.range 16, first := 0x20000, at_ := 0x20000, wides := [], modifier := none, sched := none }

theorem twoNinths_issues : Issues (bare false) abortingGroup abortingWave twoNinths := ⟨rfl, rfl, rfl, rfl, rfl, rfl, rfl, rfl, rfl⟩

theorem twoNinths_drops {t : State} (aborts : exec .abtB twoNinths = .next t) : t.wave? drainingWave.wid = none := by
  have gone : (match exec .abtB twoNinths with | .next t => t.wave? drainingWave.wid | _ => none) = none := rfl
  rwa [aborts] at gone

/-- Refutes O23: in `twoNinths` the wave numbered 4 has its address set, and after the abort there is no such wave. -/
theorem not_abortResults : ¬ Obligations.AbortResults := by
  intro h
  obtain ⟨t, aborts, -, redirected, -⟩ := (h abortingGroup abortingWave twoNinths (.abtB, 7) (by simp) twoNinths_issues).2 rfl rfl
  obtain ⟨y, found, -⟩ := (redirected drainingWave rfl ⟨rfl, rfl, .inr rfl⟩ (by rintro ⟨r, ⟨⟩⟩)).1 0x20040 rfl
  exact absurd (found.symm.trans (twoNinths_drops aborts)) (Option.some_ne_none y)

end Sys2Proof.Laws

end

section

/-! The obligation O16. A store acts for the lanes of Active in the order in which the group lists them. The statement takes the highest lane's bytes to remain
in every state, one whose selected group lists its lanes downwards among them, which `step` never selects: there the last lane written is the lowest. -/

namespace Sys2Proof.Laws

open Sys2Proof.Machine Sys2Proof.Safety Sys2Proof.Slice0

/-- A wave whose lanes hold their own numbers in register 2. -/
def numberedWave : Wave :=
  let w := launchWave placedLaunch placedTeam 0 0 3 0
  { w with lanes := w.lanes.mapIdx fun i l => { l with regs := l.regs.set 2 (BitVec.ofNat 32 i) } }

/-- A group of its lanes 1 and 0, in this order. -/
def descendingGroup : Group := { wid := 3, lanes := [1, 0], first := 0x20000, at_ := 0x20000, wides := [], modifier := none, sched := none }

/-- The wave on its core, with that group selected. -/
def descendingStore : State := { State.reset.withFetchWord 32 0 with waves := [numberedWave], grp := some descendingGroup }

/-- The form of `st.b8 r2, [z+0]`. -/
def byteStore : Sig := { flds := [.st32 2, .r32 0x7C], scalar := true, wides := 2, ends := true, pro := true }

theorem descendingStore_issues : IssuesWith byteStore
    (fun c i => [BitVec.ofNat 64 (c.ea i 0x7C 0 1), BitVec.ofNat 64 (leNat (storeData 1 2 c i))]) descendingGroup numberedWave descendingStore :=
  ⟨rfl, rfl, rfl, rfl, rfl, rfl, rfl, rfl, rfl⟩

/-- Refutes O16: both lanes of `descendingStore` store a byte at address 0, and lane 0's stays in the pannier. -/
theorem not_storeResults : ¬ Obligations.StoreResults := by
  intro h
  have lawful := ((h 2 0x7C 0 descendingGroup numberedWave descendingStore).1 (.stB8, 1) (by simp [stores]) descendingStore_issues).2 (by decide) rfl
  obtain ⟨-, -, highest⟩ := lawful.2.1 rfl rfl (by decide)
  exact absurd (highest 1 (by decide) 0 (by decide) (by decide)) (by decide)

end Sys2Proof.Laws

end

section

/-! The obligation O42. A layout record has 64 bytes, the last eight of them its fill (R181, R182). The statement is about every list of bytes, a shorter one
among them, which the engine never reads as a record: it has no fill, so that an element outside its extents leaves the byte at its place as it was. -/

namespace Sys2Proof.Laws

open Sys2Proof.Machine Sys2Proof.Safety Sys2Proof.Slice0

/-- Eight bytes of a record of rank 1: they give no extent, so that every element lies outside. -/
def shortRecord : List Byte := leBytes 8 (2 ^ 57)

/-- A copy of one byte to address 0 that has started with them. -/
def shortCopy : Copy :=
  { id := 9, kind := .inward, core := 0, team := 2, blk := 0, wid := 3, widx := 0, handle := 0, scal := [0, 0, 0, 0, 0], a := 0, dig := 0, start := 0, len := 1,
    cassette := false, data := [], recs := some (shortRecord, []), segs := [.todo], level := .wave, lines := [], vlines := [], kil := false, rdr := false,
    digested := false, gbase := 0 }

/-- Its team, with the byte 5 at address 0 of the scratchpad base. -/
def markedTeam : Team := { placedTeam with base := [(0, 5)] }

def shortCopyState : State := { State.reset.withFetchWord 32 0 with teams := [markedTeam], copies := [shortCopy] }

/-- The byte stands after the segment's run. -/
theorem shortCopyState_keeps {u : State} (runs : exec (.copySegmentRun 9 0) shortCopyState = .next u) : (u.team? 2).map (·.base) = some [(0, 5)] := by
  have kept : (match exec (.copySegmentRun 9 0) shortCopyState with | .next u => (u.team? 2).map (·.base) | _ => none) = some [(0, 5)] := rfl
  rwa [runs] at kept

/-- Refutes O42: its second part has the byte at address 0 of `shortCopyState` become 0. -/
theorem not_copySegmentsRun : ¬ Obligations.CopySegmentsRun := by
  rintro ⟨-, h⟩
  obtain ⟨inward, -⟩ := h shortCopyState shortCopy markedTeam 0 shortRecord [] rfl rfl rfl rfl rfl rfl rfl rfl rfl rfl
  obtain ⟨u, m, runs, -, image, moved, -⟩ := inward rfl rfl (fun _ => 0) (fun k hk => by
    obtain rfl := Nat.lt_one_iff.1 hk
    trivial) [(0, 5)] rfl rfl
  have marked : m = [(0, 5)] := Option.some.inj (image.symm.trans (shortCopyState_keeps runs))
  have zero := moved 0 (by decide) 0 (by decide)
  rw [marked] at zero
  exact absurd zero (by decide)

end Sys2Proof.Laws

end

section

/-! The obligation O45. A monitor is taken for the lane and its shadow (R236, R328), in every wave of the number given, each by its own grade. The statement is
about every state, one in which two waves have one number among them, which the part never reaches: there it has the second wave's lanes armed by the grade of
the first. -/

namespace Sys2Proof.Laws

open Sys2Proof.Machine Sys2Proof.Safety Sys2Proof.Slice0

/-- A lane's sleep on the word at address 0, which is 0. -/
def sleepAtZero : Asleep := { addr := 0, dpa := 0, cmp := 0, dst := 6, next := 0x20004, epoch := 0, armed := false, hit := false }

/-- A wave of 16 lanes, all asleep. -/
def sleepingWave : Wave :=
  let w := launchWave placedLaunch placedTeam 0 0 3 0
  { w with lanes := w.lanes.map fun l => { l with sleep := some sleepAtZero } }

/-- It, and a wave of the same number under grade 1, whose lane 8 is the shadow of lane 0. -/
def twoThirds : State := { State.reset.withFetchWord 32 0 with waves := [sleepingWave, { sleepingWave with grade := 1 }] }

/-- The lanes with an armed monitor, by wave. -/
def armedLanes (s : State) : List (List Bool) := s.waves.map fun w => w.lanes.map fun l => l.sleep.any (·.armed)

theorem twoThirds_arms {t : State} (arms : exec (.monitorArm 3 0) twoThirds = .next t) :
    armedLanes t = [(List.range 16).map (· == 0), (List.range 16).map fun i => i == 0 || i == 8] := by
  have armed : (match exec (.monitorArm 3 0) twoThirds with | .next t => armedLanes t | _ => []) =
    [(List.range 16).map (· == 0), (List.range 16).map fun i => i == 0 || i == 8] := rfl
  rwa [arms] at armed

/-- Refutes O45: in `twoThirds` its second part leaves lane 8 of the second wave without a monitor. -/
theorem not_banksMonitorsRacks : ¬ Obligations.BanksMonitorsRacks := by
  rintro ⟨-, h⟩
  obtain ⟨taken, -⟩ := (h twoThirds twoThirds sleepingWave 0 0 0 _ sleepAtZero 0 0).1 rfl rfl rfl rfl rfl rfl
  have arms := ((taken rfl rfl (by decide) rfl rfl rfl rfl).1 rfl).1 rfl (by decide)
  exact absurd (twoThirds_arms arms) (by decide)

end Sys2Proof.Laws

end

section

/-! LEMMAS for O15 and O17 to O20. How a meaning that compares twins of a lane (R328) settles, and when a word's fields break the view's checks. -/

namespace Sys2Proof.Laws

open Sys2Proof.Machine Sys2Proof.Safety Sys2Proof.Slice0

/-! ### How a meaning settles -/

section

variable {i : Instr} {sg : Sig} {cmp : Ctx → Nat → List W64} {g : Group} {w : Wave} {s : State} {k : Ctx → State → Res}

theorem traps_of_fault_compared (meaning : exec i s = issueWith sg cmp s k) (h : IssuesWith sg cmp g w s) {cause : Nat}
    (fault : k (issueCtx sg g w) (covered sg g w s) = .fault cause) : Traps i sg g w s cause :=
  meaning.trans (issueWith_fault h fault)

/-- The base is the state before, with what the instruction changes outside the issuing wave. -/
theorem does_of_done_compared (meaning : exec i s = issueWith sg cmp s k) (h : IssuesWith sg cmp g w s) {base u : State} {f : Ctx → Wave → Wave}
    (wave : base.waves = s.waves) (done : k (issueCtx sg g w) (covered sg g w s) = .done u)
    (touches : Touches (covered sg g w base) u (issueCtx sg g w).w.wid (f (issueCtx sg g w))) : Does i sg g w s base f := by
  unfold Does
  rw [meaning]
  exact issueWith_done_base base ((wave?_congr wave _).trans h.wave) h done touches

end

/-! ### The view -/

theorem inView_eq_false_iff {view va n : Nat} : inView view va n = false ↔ 0x400000 ≤ va ∨ view < va % 0x200000 + n := by
  simp only [inView, Bool.and_eq_false_iff, decide_eq_false_iff_not, not_lt, not_le]

/-- The check of R174, and of R245 in a prologue. -/
theorem badAccess_iff {s : State} {w : Wave} {ea n : Nat} : s.badAccess w ea n = true ↔ broken w (s.viewSize w) ea n := by
  unfold State.badAccess broken
  cases w.prologue <;> simp [inView_eq_false_iff]

theorem badAccess_issueCtx (sg : Sig) (g : Group) (w : Wave) (s : State) (ea n : Nat) :
    (covered sg g w s).badAccess (issueCtx sg g w).w ea n = s.badAccess w ea n := by
  unfold State.badAccess State.viewSize
  rw [issueCtx_prologue, issueCtx_team]
  rfl

/-- Of a poisoned table no entry of some sort stands, so none of a narrower sort does. -/
theorem tablePoison_mono {s : State} {x : Wave} {p q : TableEntry → Bool} (narrower : ∀ e, q e = true → p e = true) (sound : s.tablePoison x p = false) :
    s.tablePoison x q = false := by
  rw [← Bool.not_eq_true, State.tablePoison, List.any_eq_true] at sound ⊢
  rintro ⟨e, he, poisoned⟩
  refine sound ⟨e, he, ?_⟩
  cases e
  case table t b k =>
    rw [Bool.and_eq_true] at poisoned ⊢
    exact poisoned.imp_right (narrower k)
  all_goals exact poisoned

theorem tablePoison_issueCtx (sg : Sig) (g : Group) (w : Wave) (s : State) (p : TableEntry → Bool) :
    (covered sg g w s).tablePoison (issueCtx sg g w).w p = s.tablePoison w p := by
  unfold State.tablePoison
  rw [issueCtx_team, issueCtx_blk]
  rfl

end Sys2Proof.Laws

end

section

/-! LEMMAS and the obligation O15. Scratchpad loads (R142, R173-R175). -/

namespace Sys2Proof.Laws

open Sys2Proof.Machine Sys2Proof.Safety Sys2Proof.Slice0

/-- A load of n bytes: every lane is checked before any is read, and `write` takes the lanes' numbers (R173-R175). -/
def loadAnswers (n : Nat) (a o : BitVec 7) (write : Ctx → State → (Nat → Nat) → State) (c : Ctx) (s : State) : Res :=
  if c.act.any fun i => s.badAccess c.w (c.ea i a o n) n then .fault Cause.illegal
  else if s.anyGuarded c (fun i => c.ea i a o n) n false then .stall
  else match c.act.findSome? fun i => s.viewPoison c.w (c.ea i a o n) n with
    | some k => .poisoned k
    | none => .done (write c s fun i => leNat (s.loadBytes c.w (c.ea i a o n) n))

/-- The signature of the loads. -/
def loadForm (a : BitVec 7) (f : Fld) : Sig := { flds := [f, .r32 a], scalar := true, wides := 2, ends := true, pro := true }

/-- A loaded number as 32 bits, with its sign where the name says so. -/
def extended (n : Nat) (sext : Bool) (v : Nat) : W32 := if sext then BitVec.ofInt 32 (signed (8 * n) v) else BitVec.ofNat 32 v

theorem exec_load_eq {e : (BitVec 7 → BitVec 7 → BitVec 7 → Instr) × Nat × Bool} (he : e ∈ loads) (d a o : BitVec 7) (s : State) :
    exec (e.1 d a o) s = issue (loadForm a (.w32 d true)) s (loadAnswers e.2.1 a o fun c s v => s.put32 c d fun i => extended e.2.1 e.2.2 (v i)) := by
  fin_cases he <;> rfl

theorem exec_ldB64_eq (d a o : BitVec 7) (s : State) :
    exec (.ldB64 d a o) s = issue (loadForm a (.w64 d true)) s (loadAnswers 8 a o fun c s v => s.put64 c d fun i => BitVec.ofNat 64 (v i)) := rfl

section

variable {i : Instr} {n : Nat} {d a o : BitVec 7} {f : Fld} {g : Group} {w : Wave} {s : State} {write : Ctx → State → (Nat → Nat) → State}

theorem load_traps (meaning : exec i s = issue (loadForm a f) s (loadAnswers n a o write)) (h : Issues (loadForm a f) g w s)
    (bad : ∃ j ∈ (issueCtx (loadForm a f) g w).act, broken w (s.viewSize w) ((issueCtx (loadForm a f) g w).ea j a o n) n) :
    Traps i (loadForm a f) g w s Cause.illegal := by
  obtain ⟨j, hj, breaks⟩ := bad
  refine traps_of_fault meaning h (if_pos (List.any_eq_true.2 ⟨j, hj, ?_⟩))
  rw [badAccess_issueCtx]
  exact badAccess_iff.2 breaks

theorem loadAnswers_of_lawful {c : Ctx} (lawful : ∀ j ∈ c.act, s.badAccess c.w (c.ea j a o n) n = false ∧ s.viewPoison c.w (c.ea j a o n) n = none)
    (unguarded : s.anyGuarded c (fun j => c.ea j a o n) n false = false) :
    loadAnswers n a o write c s = .done (write c s fun j => leNat (s.loadBytes c.w (c.ea j a o n) n)) := by
  have good := not_any_of_eq_false fun j hj => (lawful j hj).1
  have sound := List.findSome?_eq_none_iff.2 fun j hj => (lawful j hj).2
  simp only [loadAnswers, good, unguarded, sound, Bool.false_eq_true, if_false]

end

/-- Settles O15: a lane that breaks the checks stops the load; with none the bytes of the view reach the destination, and the wave alone changes. -/
theorem loadResults : Obligations.LoadResults := by
  intro d a o g w s sg reads breaks
  refine ⟨fun e he h bad => load_traps (exec_load_eq he d a o s) h bad, fun h bad => load_traps (exec_ldB64_eq d a o s) h bad, fun e he h lawful => ?_,
    fun h lawful => ?_⟩
  · exact does_of_done (exec_load_eq he d a o s) h rfl (loadAnswers_of_lawful (s := covered _ g w s) lawful.1 lawful.2) (Touches.put32' _ _ _ _)
  · exact does_of_done (exec_ldB64_eq d a o s) h rfl (loadAnswers_of_lawful (s := covered _ g w s) lawful.1 lawful.2) (Touches.put64' _ _ _ _)

end Sys2Proof.Laws

end

section

/-! LEMMAS and the obligation O17. The issue of a copy (R159, R178-R180, R189). -/

namespace Sys2Proof.Laws

open Sys2Proof.Machine Sys2Proof.Safety Sys2Proof.Slice0

/-! ### Step 1 of R180 -/

theorem handleOf?_issueCtx (sg : Sig) (g : Group) (w : Wave) (s : State) (n : Nat) : s.handleOf? (issueCtx sg g w).w n = s.handleOf? w n := by
  rw [State.handleOf?, issueCtx_team, issueCtx_blk]
  rfl

theorem viewSize_issueCtx (sg : Sig) (g : Group) (w : Wave) (s : State) : s.viewSize (issueCtx sg g w).w = s.viewSize w := by
  rw [State.viewSize, issueCtx_team]
  rfl

theorem copyIllegal_issueCtx (sg : Sig) (g : Group) (w : Wave) (s : State) (k : CopyKind) (n : Nat) (av : W32) (sc : List W64) (dig : W32) :
    (covered sg g w s).copyIllegal (issueCtx sg g w).w k n av sc dig = s.copyIllegal w k n av sc dig := by
  simp only [State.copyIllegal, viewSize_issueCtx, handleOf?_issueCtx]
  rfl

theorem bits_top {x lo n : Nat} (h : x < 2 ^ (lo + n)) : bits x lo n = x / 2 ^ lo := by
  rw [bits, Nat.mod_eq_of_lt]
  rwa [Nat.div_lt_iff_lt_mul (by positivity), ← Nat.pow_add, Nat.add_comm]

theorem bits_low (x n : Nat) : bits x 0 n = x % 2 ^ n := by rw [bits, pow_zero, Nat.div_one]

theorem scalCassette_iff (sc : List W64) : scalCassette sc = true ↔ (sc.getD 0 0).toNat / 2 ^ 59 % 2 = 1 := by simp [scalCassette, scal, bits]

theorem copyIllegal_iff (s : State) (w : Wave) (k : CopyKind) (n : Nat) (sc : List W64) (av dig : W32) :
    s.copyIllegal w k n av sc dig = true ↔ copyBroken s w k n sc av dig := by
  have top0 : bits (scal sc 0) 60 4 = (sc.getD 0 0).toNat / 2 ^ 60 := bits_top (sc.getD 0 0).isLt
  have top3 : bits (scal sc 3) 48 16 = (sc.getD 3 0).toNat / 2 ^ 48 := bits_top (sc.getD 3 0).isLt
  have record : scalRecord sc = (sc.getD 0 0).toNat % 2 ^ 57 := bits_low ..
  have image : copyImage av = av.toNat % 2 ^ 22 := bits_low ..
  have handle : s.handleOf? w (av.toNat / 2 ^ 22 % 256) = s.handleOf? w (copyHandle av) := rfl
  simp only [State.copyIllegal, copyBroken, Bool.or_eq_true, Bool.and_eq_true, Bool.not_eq_true', decide_eq_true_eq, ← scalCassette_iff, top0, top3, record,
    image, handle, inView_eq_false_iff, digestLen, or_assoc, gt_iff_lt, beq_iff_eq, Bool.not_eq_true, ne_eq]
  cases s.handleOf? w (copyHandle av) <;> simp

/-! ### The instruction -/

/-- The signature of the copies (R178). -/
def copyForm (a d : BitVec 7) (f : Fld) : Sig := { flds := [f, .r32 a, .code 0x7E true], scalar := true, ends := true, ok := a != 0x7E && d != 0x7E }

/-- The register of its five scalars, and the scalars. -/
def blockReg (g : Group) : Nat := match g.modifier with | some m => modSreg m | none => 0
def blockOf (c : Ctx) : List W64 := (List.range 5).map fun j => c.w.sregs.getD (blockReg c.g + j) 0

/-- A live reservation of the wave's block covers the range of a copy to the cassette (R180 step 2). -/
def coversCopy (s : State) (w : Wave) (av : W32) (sc : List W64) : Bool :=
  s.resvs.any fun r => r.team == w.team && r.blk == w.blk && r.live && decide (r.off ≤ copyImage av) && decide (copyImage av + scalBytes sc ≤ r.off + r.len)

/-- The copy of wave x that enters the engine. -/
def copyEntry (k : CopyKind) (c : Ctx) (x : Wave) (s : State) (av dv : W32) (sc : List W64) : Copy :=
  { id := s.nextId, kind := k, core := x.core, team := x.team, blk := x.blk, wid := x.wid, widx := x.idx, handle := copyHandle av, scal := sc, a := av,
    dig := dv, start := if scalCassette sc then copyImage av else toTeam x.core (copyImage av), len := scalBytes sc, cassette := scalCassette sc,
    data := if k = .inward then [] else s.viewBytes c.w (copyImage av) (scalBytes sc), recs := none,
    segs := List.replicate ((scalBytes sc + 4095) / 4096) .todo, level := .wave, lines := [], vlines := [], kil := false, rdr := false,
    digested := false, gbase := 0, stored := decide (s.pendingKept x.core + scalBytes sc ≤ 524288) }

/-- The state with it in the engine, and its handle in use (R185). -/
def copyEntered (k : CopyKind) (c : Ctx) (x : Wave) (s : State) (av dv : W32) (sc : List W64) : State :=
  ({ s with copies := s.copies ++ [copyEntry k c x s av dv sc], nextId := s.nextId + 1 } : State).setHandle x.team x.blk (copyHandle av) fun h =>
    { h with state := if k = .inward then .filling else .draining, kil := false, rdr := false }

/-- What a copy does with its operands (R180, R189). -/
def copyAnswers (k : CopyKind) (av dv : W32) (sc : List W64) (c : Ctx) (s : State) : Res :=
  if (List.range 5).any fun j => s.errors.contains (.sreg c.w.wid (blockReg c.g + j)) then .poisoned 5
  else if s.tablePoison c.w (isHandleNo (copyHandle av)) || s.tablePoison c.w isScore then .poisoned 4
  else if s.copyIllegal c.w k (blockReg c.g) av sc dv then .fault Cause.illegal
  else if scalCassette sc && !coversCopy s c.w av sc then .fault Cause.cassRange
  else if s.copyHeld c.w k av sc dv || decide (s.scoreUse c.w.core + (if k = .digest then 2 else 1) > 64) then .stall
  else match if k = .inward then none else s.viewPoison c.w (copyImage av) (scalBytes sc) with
    | some code => .poisoned code
    | none => .done (copyEntered k c c.w s av dv sc)

/-- The three copies, with what they read of field d. -/
def copyMeans (i : Instr) (k : CopyKind) (f : Fld) (a d : BitVec 7) : Prop :=
  ∀ s, exec i s = issueWith (copyForm a d f) (fun c i => [(c.src32 i a).setWidth 64, (c.src32 i d).setWidth 64]) s fun c s =>
    copyAnswers k (c.src32 c.elected a) (c.src32 c.elected d) (blockOf c) c s

theorem copyIn_means (a : BitVec 7) : copyMeans (.copyIn a) .inward (.unused 0x7C) a 0x7C := fun _ => rfl
theorem copyOut_means (a : BitVec 7) : copyMeans (.copyOut a) .outward (.unused 0x7C) a 0x7C := fun _ => rfl
theorem copyOutDigest_means (d a : BitVec 7) : copyMeans (.copyOutDigest d a) .digest (.r32 d) a d := fun _ => rfl

/-! ### How a copy settles -/

/-- A live reservation of the block covers the range (R180 step 2). -/
def Covered (s : State) (w : Wave) (av : W32) (sc : List W64) : Prop :=
  ∃ r ∈ s.resvs, r.team = w.team ∧ r.blk = w.blk ∧ r.live = true ∧ r.off ≤ copyImage av ∧ copyImage av + scalBytes sc ≤ r.off + r.len

theorem coversCopy_iff {s : State} {w : Wave} {av : W32} {sc : List W64} : coversCopy s w av sc = true ↔ Covered s w av sc := by
  simp [coversCopy, Covered, and_assoc]

theorem coversCopy_issueCtx (sg : Sig) (g : Group) (w : Wave) (s : State) (av : W32) (sc : List W64) :
    coversCopy (covered sg g w s) (issueCtx sg g w).w av sc = coversCopy s w av sc := by
  rw [coversCopy, issueCtx_team, issueCtx_blk]
  rfl

theorem copyEntered_issueCtx (sg : Sig) (g : Group) (w : Wave) (s : State) (k : CopyKind) (av dv : W32) (sc : List W64) :
    copyEntered k (issueCtx sg g w) (issueCtx sg g w).w s av dv sc = copyEntered k (issueCtx sg g w) w s av dv sc := by
  simp only [copyEntered, copyEntry, issueCtx_core, issueCtx_team, issueCtx_blk, issueCtx_wid, issueCtx_idx]

section

variable {k : CopyKind} {av dv : W32} {sc : List W64} {c : Ctx} {s : State}

/-- What the copy reads of its wave is sound: the five scalars, the handle, the scoreboard. -/
structure SoundCopy (av : W32) (c : Ctx) (s : State) : Prop where
  scalars : ∀ j < 5, StoreLoc.sreg c.w.wid (blockReg c.g + j) ∉ s.errors
  handle : s.tablePoison c.w (isHandleNo (copyHandle av)) = false
  score : s.tablePoison c.w isScore = false

theorem copyAnswers_of_sound (sound : SoundCopy av c s) :
    copyAnswers k av dv sc c s =
      if s.copyIllegal c.w k (blockReg c.g) av sc dv then .fault Cause.illegal
      else if scalCassette sc && !coversCopy s c.w av sc then .fault Cause.cassRange
      else if s.copyHeld c.w k av sc dv || decide (s.scoreUse c.w.core + (if k = .digest then 2 else 1) > 64) then .stall
      else match if k = .inward then none else s.viewPoison c.w (copyImage av) (scalBytes sc) with
        | some code => .poisoned code
        | none => .done (copyEntered k c c.w s av dv sc) := by
  have scalars : ((List.range 5).any fun j => s.errors.contains (.sreg c.w.wid (blockReg c.g + j))) = false :=
    Bool.eq_false_iff.2 <| not_any_of_eq_false fun j hj => by simpa using sound.scalars j (List.mem_range.1 hj)
  rw [copyAnswers, scalars, sound.handle, sound.score]
  rfl

theorem copyAnswers_of_illegal (sound : SoundCopy av c s) (bad : s.copyIllegal c.w k (blockReg c.g) av sc dv = true) :
    copyAnswers k av dv sc c s = .fault Cause.illegal := by rw [copyAnswers_of_sound sound, if_pos bad]

theorem copyAnswers_of_unreserved (sound : SoundCopy av c s) (good : s.copyIllegal c.w k (blockReg c.g) av sc dv = false) (cassette : scalCassette sc = true)
    (bare : coversCopy s c.w av sc = false) : copyAnswers k av dv sc c s = .fault Cause.cassRange := by
  rw [copyAnswers_of_sound sound, good, cassette, bare]
  rfl

theorem copyAnswers_of_passed (sound : SoundCopy av c s) (good : s.copyIllegal c.w k (blockReg c.g) av sc dv = false)
    (reserved : scalCassette sc = true → coversCopy s c.w av sc = true) (free : s.copyHeld c.w k av sc dv = false)
    (room : s.scoreUse c.w.core + (if k = .digest then 2 else 1) ≤ 64) (readable : k ≠ .inward → s.viewPoison c.w (copyImage av) (scalBytes sc) = none) :
    copyAnswers k av dv sc c s = .done (copyEntered k c c.w s av dv sc) := by
  have passes : (scalCassette sc && !coversCopy s c.w av sc) = false := by
    cases cassette : scalCassette sc
    · rfl
    · simp [reserved cassette]
  have sourced : (if k = .inward then none else s.viewPoison c.w (copyImage av) (scalBytes sc)) = none := by
    split
    · rfl
    · exact readable ‹_›
  simp [copyAnswers_of_sound sound, good, passes, free, Nat.not_lt.2 room, sourced]

end

section

variable {i : Instr} {k : CopyKind} {f : Fld} {a d : BitVec 7} {g : Group} {w : Wave} {s : State}

/-- A copy that issues, and its operands. -/
theorem copy_settles (means : copyMeans i k f a d) {c : Ctx} (hc : c = issueCtx (copyForm a d f) g w) {av dv : W32} (hav : av = c.src32 c.elected a)
    (hdv : dv = c.src32 c.elected d) {sc : List W64} (hsc : sc = blockOf c)
    (h : IssuesWith (copyForm a d f) (fun c i => [(c.src32 i a).setWidth 64, (c.src32 i d).setWidth 64]) g w s)
    (scalars : ∀ j < 5, StoreLoc.sreg w.wid (blockReg g + j) ∉ s.errors) (handle : s.tablePoison c.w (isHandleNo (copyHandle av)) = false)
    (score : s.tablePoison c.w isScore = false) :
    (copyBroken s w k (blockReg g) sc av dv → Traps i (copyForm a d f) g w s Cause.illegal) ∧
      (¬copyBroken s w k (blockReg g) sc av dv → scalCassette sc = true → ¬Covered s w av sc → Traps i (copyForm a d f) g w s Cause.cassRange) ∧
      (¬copyBroken s w k (blockReg g) sc av dv → (scalCassette sc = true → Covered s w av sc) → s.copyHeld c.w k av sc dv = false →
        s.scoreUse w.core + (if k = .digest then 2 else 1) ≤ 64 → (k ≠ .inward → s.viewPoison c.w (copyImage av) (scalBytes sc) = none) →
        Does i (copyForm a d f) g w s (copyEntered k c w s av dv sc) fun _ => id) := by
  subst hc hav hdv hsc
  have sound : SoundCopy ((issueCtx (copyForm a d f) g w).src32 (issueCtx (copyForm a d f) g w).elected a) (issueCtx (copyForm a d f) g w)
      (covered (copyForm a d f) g w s) := ⟨by rw [issueCtx_wid]; exact scalars, handle, score⟩
  refine ⟨fun broken => ?_, fun lawful cassette bare => ?_, fun lawful reserved free room readable => ?_⟩
  · exact traps_of_fault_compared (means s) h (copyAnswers_of_illegal sound ((copyIllegal_issueCtx ..).trans ((copyIllegal_iff ..).2 broken)))
  all_goals have good := (copyIllegal_issueCtx (copyForm a d f) g w s ..).trans (Bool.eq_false_iff.2 (mt (copyIllegal_iff ..).1 lawful))
  · exact traps_of_fault_compared (means s) h (copyAnswers_of_unreserved sound good cassette
      ((coversCopy_issueCtx ..).trans (Bool.eq_false_iff.2 (mt coversCopy_iff.1 bare))))
  · refine does_of_done_compared (means s) h rfl (copyAnswers_of_passed sound good ?_ free ?_ readable) ?_
    · exact fun cassette => (coversCopy_issueCtx ..).trans (coversCopy_iff.2 (reserved cassette))
    · rw [issueCtx_core]
      exact room
    · rw [copyEntered_issueCtx]
      exact Touches.refl _ _

end

/-- Settles O17: the checks of R180 in their order, and past them the entry of the engine and the move of the handle. -/
theorem copyIssue : Obligations.CopyIssue := by
  intro d a g w s does
  exact ⟨copy_settles (copyIn_means a) rfl rfl rfl rfl, copy_settles (copyOut_means a) rfl rfl rfl rfl, copy_settles (copyOutDigest_means d a) rfl rfl rfl rfl⟩

end Sys2Proof.Laws

end

section

/-! LEMMAS and the obligation O18. The block's tags (R176, R177, Table 57) and its handles (R186, Table 63). -/

namespace Sys2Proof.Laws

open Sys2Proof.Machine Sys2Proof.Safety Sys2Proof.Slice0

/-! ### The tables of the issuing wave's block -/

section

variable {sg : Sig} {g : Group} {w : Wave} {s : State} {k : Block} {t : Team}

theorem block?_issueCtx (block : s.block? w.team w.blk = some k) :
    (covered sg g w s).block? (issueCtx sg g w).w.team (issueCtx sg g w).w.blk = some k := by
  rw [issueCtx_team, issueCtx_blk]
  exact block

theorem team?_issueCtx (team : s.team? w.team = some t) : (covered sg g w s).team? (issueCtx sg g w).w.team = some t := by
  rw [issueCtx_team]
  exact team

theorem handleOf?_covered (block : s.block? w.team w.blk = some k) (n : Nat) : (covered sg g w s).handleOf? (issueCtx sg g w).w n = k.handle? n := by
  rw [State.handleOf?, block?_issueCtx block]
  rfl

end

/-! ### Tags -/

section

variable {i : Instr} {sg : Sig} {d : BitVec 7} {f : Ctx → Nat → List (W64 × W16) → Nat → List (W64 × W16) × W32} {g : Group} {w : Wave} {s : State}
  {k : Block} {t : Team}

/-- A tag instruction folds its lanes over the block's table, with the share of the block's team. -/
theorem tagWith_does (meaning : exec i s = tagWith sg d f s) (block : s.block? w.team w.blk = some k) (team : s.team? w.team = some t)
    (sound : s.tablePoison w isTag = false) (h : Issues sg g w s) {c : Ctx} (hc : c = issueCtx sg g w) {r : List (W64 × W16) × List (Nat × W32)}
    (hr : r = tagFold c.act (f c (128 * t.nwaves)) k.tags) :
    Does i sg g w s (s.updBlock c.w.team c.w.blk fun x => { x with tags := r.1 }) fun c => gets32 c 0 d fun i => (assoc r.2 (c.index i)).getD 0 := by
  subst hc hr
  refine does_of_done meaning h rfl ?_ (Touches.put32' _ _ _ _)
  simp only [tablePoison_issueCtx, sound, block?_issueCtx block, team?_issueCtx team, Option.map_some, Option.getD_some]
  rfl

end

theorem taginv_does {d : BitVec 7} {g : Group} {w : Wave} {s : State} {k : Block} (block : s.block? w.team w.blk = some k)
    (h : Issues (waiting [.w32 d true]) g w s) :
    Does (.taginv d) (waiting [.w32 d true]) g w s (s.updBlock w.team w.blk fun x => { x with tags := [] }) fun c =>
      gets32 c 0 d fun _ => BitVec.ofNat 32 k.tags.length := by
  refine does_of_done (exec_taginv d s) h rfl rfl ?_
  rw [block?_issueCtx block, issueCtx_team, issueCtx_blk]
  exact ((Touches.forget (covered _ g w s) _ _).updBlock _ _ _).trans (Touches.put32' _ _ _ _)

theorem tagResults : TagResults := by
  intro d a b g w s k t does two three one block team sound
  exact ⟨fun h => tagWith_does (exec_tagq d a s) block team sound h rfl rfl, fun h => tagWith_does (exec_tagset d a b s) block team sound h rfl rfl,
    fun h => tagWith_does (exec_tagclr d a s) block team sound h rfl rfl, fun h => taginv_does block h⟩

/-! ### Handles -/

/-- The number of the handle that a lane names (R186). -/
def handleNo (a : BitVec 7) (c : Ctx) (i : Nat) : Nat := (c.src32 i a).toNat % 256

theorem bits_zero_eight (x : Nat) : bits x 0 8 = x % 256 := bits_low x 8
theorem bits_eight_two (x : Nat) : bits x 8 2 = x / 256 % 4 := rfl

/-- A number is not allocated when no handle has it. -/
theorem handle?_isNone_iff {k : Block} {n : Nat} : (k.handle? n).isNone = true ↔ ∀ h ∈ k.handles, h.num ≠ n := by
  simp [Block.handle?]

theorem handle?_isNone_eq_false_iff {k : Block} {n : Nat} : (k.handle? n).isNone = false ↔ ∃ h ∈ k.handles, h.num = n := by
  rw [← Bool.not_eq_true, handle?_isNone_iff]
  simp

/-- What `hfree` does with the handle that its elected lane names. -/
def hfreeAnswers (d a : BitVec 7) (c : Ctx) (s : State) : Res :=
  if s.tablePoison c.w (isHandleNo (handleNo a c c.elected)) then .poisoned 4
  else match s.handleOf? c.w (handleNo a c c.elected) with
    | none => .done (s.put32 c d fun _ => 2)
    | some x =>
      if x.state = .free || x.state = .full then
        .done ((s.updBlock c.w.team c.w.blk fun b => { b with handles := b.handles.filter fun y => y.num != handleNo a c c.elected }).put32 c d fun _ => 0)
      else .done (s.put32 c d fun _ => 1)

theorem exec_hfree_eq (d a : BitVec 7) (s : State) : exec (.hfree d a) s = issue (waiting [.w32 d true, .r32 a]) s (hfreeAnswers d a) := by
  simp only [exec_hfree, execHfree, bits_zero_eight]
  rfl

/-- What `hwait` does with the handles that the lanes name. -/
def hwaitAnswers (d a : BitVec 7) (c : Ctx) (s : State) : Res :=
  if c.act.any fun i => s.tablePoison c.w (isHandleNo (handleNo a c i)) then .poisoned 4
  else if c.act.any fun i => match s.handleOf? c.w (handleNo a c i) with | some x => x.state.code != (c.src32 i a).toNat / 256 % 4 | none => false then .wait
  else .done (s.put32 c d fun i => handleStatus (s.handleOf? c.w (handleNo a c i)))

theorem exec_hwait_eq (d a : BitVec 7) (s : State) : exec (.hwait d a) s = issue (waiting [.w32 d true, .r32 a]) s (hwaitAnswers d a) := by
  simp only [exec_hwait, execHwait, bits_zero_eight, bits_eight_two]
  rfl

/-- The form of `hfree` and `hwait`, and the handle that a lane names of a block. -/
abbrev handleForm (d a : BitVec 7) : Sig := waiting [.w32 d true, .r32 a]
def namedHandle (k : Block) (a : BitVec 7) (c : Ctx) (i : Nat) : Option Handle := k.handle? (handleNo a c i)

theorem handleOf?_named {sg : Sig} {g : Group} {w : Wave} {s : State} {k : Block} (block : s.block? w.team w.blk = some k) (a : BitVec 7) (i : Nat) :
    (covered sg g w s).handleOf? (issueCtx sg g w).w (handleNo a (issueCtx sg g w) i) = namedHandle k a (issueCtx sg g w) i :=
  handleOf?_covered block _

section

variable {d a : BitVec 7} {g : Group} {w : Wave} {s : State} {k : Block} {t : Team}

theorem hget_none_left (block : s.block? w.team w.blk = some k) (team : s.team? w.team = some t) (sound : s.tablePoison w isHandle = false)
    (h : Issues (waiting [.w32 d true]) g w s) (full : ∀ m < 8 * t.nwaves, ∃ h ∈ k.handles, h.num = m) :
    Does (.hget d) (waiting [.w32 d true]) g w s s fun c => gets32 c 0 d fun _ => 0xFFFF := by
  have none_free : ((List.range (8 * t.nwaves)).find? fun n => (k.handle? n).isNone) = none :=
    List.find?_eq_none.2 fun n hn => by rw [handle?_isNone_eq_false_iff.2 (full n (List.mem_range.1 hn))]; simp
  refine does_of_done (exec_hget d s) h rfl ?_ (Touches.put32' _ _ _ _)
  simp only [tablePoison_issueCtx, sound, block?_issueCtx block, team?_issueCtx team, Option.map_some, Option.getD_some, none_free]
  rfl

theorem hget_lowest (block : s.block? w.team w.blk = some k) (team : s.team? w.team = some t) (sound : s.tablePoison w isHandle = false) {m : Nat}
    (share : m < 8 * t.nwaves) (h : Issues (waiting [.w32 d true]) g w s) (below : ∀ j < m, ∃ h ∈ k.handles, h.num = j)
    (free : ∀ h ∈ k.handles, h.num ≠ m) :
    Does (.hget d) (waiting [.w32 d true]) g w s
      (s.updBlock w.team w.blk fun b => { b with handles := b.handles ++ [{ num := m, state := .free, kil := false, rdr := false }] }) fun c =>
        gets32 c 0 d fun _ => BitVec.ofNat 32 m := by
  have lowest : ((List.range (8 * t.nwaves)).find? fun n => (k.handle? n).isNone) = some m :=
    List.find?_range_eq_some.2 ⟨handle?_isNone_iff.2 free, List.mem_range.2 share, fun j hj => by rw [handle?_isNone_eq_false_iff.2 (below j hj)]; rfl⟩
  refine does_of_done (exec_hget d s) h rfl ?_ (Touches.put32' _ _ _ _)
  simp only [tablePoison_issueCtx, sound, block?_issueCtx block, team?_issueCtx team, Option.map_some, Option.getD_some, lowest]
  rw [issueCtx_team, issueCtx_blk]
  rfl

/-- No handle of a sound table is poisoned. -/
theorem isHandleNo_sound (sound : s.tablePoison w isHandle = false) (n : Nat) : s.tablePoison w (isHandleNo n) = false :=
  tablePoison_mono (fun e poisoned => by cases e with | handle => rfl | _ => exact poisoned) sound

variable {x : Handle} (block : s.block? w.team w.blk = some k) (sound : s.tablePoison w isHandle = false) (h : Issues (handleForm d a) g w s)
include block sound h

theorem hfree_of_not_allocated (absent : namedHandle k a (issueCtx (handleForm d a) g w) (issueCtx (handleForm d a) g w).elected = none) :
    Does (.hfree d a) (handleForm d a) g w s s fun c => gets32 c 0 d fun _ => 2 := by
  refine does_of_done (exec_hfree_eq d a s) h rfl ?_ (Touches.put32' _ _ _ _)
  rw [hfreeAnswers, tablePoison_issueCtx, isHandleNo_sound sound, handleOf?_named block, absent]
  rfl

theorem hfree_of_idle (found : namedHandle k a (issueCtx (handleForm d a) g w) (issueCtx (handleForm d a) g w).elected = some x)
    (idle : x.state = .free ∨ x.state = .full) :
    Does (.hfree d a) (handleForm d a) g w s
      (s.updBlock w.team w.blk fun b =>
        { b with handles := b.handles.filter fun y => y.num != handleNo a (issueCtx (handleForm d a) g w) (issueCtx (handleForm d a) g w).elected })
      fun c => gets32 c 0 d fun _ => 0 := by
  refine does_of_done (exec_hfree_eq d a s) h rfl ?_ (Touches.put32' _ _ _ _)
  rw [hfreeAnswers, tablePoison_issueCtx, isHandleNo_sound sound, handleOf?_named block, found, issueCtx_team, issueCtx_blk]
  have idle : (decide (x.state = .free) || decide (x.state = .full)) = true := by simpa using idle
  rw [if_neg Bool.false_ne_true]
  exact if_pos idle

theorem hfree_of_busy (found : namedHandle k a (issueCtx (handleForm d a) g w) (issueCtx (handleForm d a) g w).elected = some x)
    (busy : x.state = .filling ∨ x.state = .draining) : Does (.hfree d a) (handleForm d a) g w s s fun c => gets32 c 0 d fun _ => 1 := by
  refine does_of_done (exec_hfree_eq d a s) h rfl ?_ (Touches.put32' _ _ _ _)
  rw [hfreeAnswers, tablePoison_issueCtx, isHandleNo_sound sound, handleOf?_named block, found]
  have busy : ¬(decide (x.state = .free) || decide (x.state = .full)) = true := by obtain busy | busy := busy <;> simp [busy]
  rw [if_neg Bool.false_ne_true]
  exact if_neg busy

theorem hwait_of_named
    (named : ∀ i ∈ (issueCtx (handleForm d a) g w).act, ∀ x, namedHandle k a (issueCtx (handleForm d a) g w) i = some x →
      x.state.code = ((issueCtx (handleForm d a) g w).src32 i a).toNat / 256 % 4) :
    Does (.hwait d a) (handleForm d a) g w s s fun c => gets32 c 0 d fun i => handleStatus (namedHandle k a c i) := by
  refine does_of_done (exec_hwait_eq d a s) h rfl ?_ (Touches.put32' _ _ _ _)
  simp only [hwaitAnswers, tablePoison_issueCtx, isHandleNo_sound sound, handleOf?_named block]
  rw [if_neg (by simp)]
  refine if_neg ?_
  refine not_any_of_eq_false fun i hi => ?_
  cases found : namedHandle k a (issueCtx (handleForm d a) g w) i with
  | none => rfl
  | some x => simpa using named i hi x found

end

theorem handleResults : HandleResults := by
  intro d a g w s k t one two c n at_ named block team sound
  refine ⟨fun h => hget_none_left block team sound h, fun m share h => hget_lowest block team sound share h, fun h => ⟨fun absent => ?_, fun x found =>
    ⟨fun idle => ?_, fun busy => ?_⟩, fun states => ?_⟩⟩
  · exact hfree_of_not_allocated block sound h absent
  · exact hfree_of_idle block sound h found idle
  · exact hfree_of_busy block sound h found busy
  · exact hwait_of_named block sound h states

/-- Settles O18: the tables of the issuing wave's block answer the lanes. -/
theorem tagAndHandleResults : Obligations.TagAndHandleResults := ⟨tagResults, handleResults⟩

end Sys2Proof.Laws

end

section

/-! LEMMAS for O19, O20 and O24. What the translations a group used (R271) and a twin's signature (R329) leave alone, and the addresses of Table 65. -/

namespace Sys2Proof.Laws

open Sys2Proof.Machine Sys2Proof.Safety Sys2Proof.Slice0

/-! ### Translations remembered -/

/-- Remembering a translation changes the translation stores alone. -/
theorem noteTlb_eq (s : State) (core vf asid va : Nat) : s.noteTlb core vf asid va = { s with tlb := (s.noteTlb core vf asid va).tlb } := by
  unfold State.noteTlb
  repeat' split
  all_goals rfl

theorem noteTlb_updWave (s : State) (v : Nat) (f : Wave → Wave) (core vf asid va : Nat) :
    (s.updWave v f).noteTlb core vf asid va = (s.noteTlb core vf asid va).updWave v f := by
  have tlb : (s.updWave v f).tlb = s.tlb := rfl
  have root : (s.updWave v f).rootOf vf asid = s.rootOf vf asid := rfl
  have first (r va : Nat) : (s.updWave v f).walk1 vf r va = s.walk1 vf r va := rfl
  have second (a : Nat) : (s.updWave v f).walk2 vf a = s.walk2 vf a := rfl
  have frame (l : Leaf) : (s.updWave v f).frameOk l = s.frameOk l := rfl
  simp only [State.noteTlb, tlb, root, first, second, frame]
  repeat' split
  all_goals rfl

theorem noteAll_eq (s : State) (w : Wave) (vas : List Nat) : s.noteAll w vas = { s with tlb := (s.noteAll w vas).tlb } := by
  induction vas generalizing s with
  | nil => rfl
  | cons va vas ih =>
    have rest := ih (s.noteTlb w.core (s.vfOf w) w.asid (bits va 0 57))
    exact rest.trans (congrArg (fun t : State => { t with tlb := (s.noteAll w (va :: vas)).tlb }) (noteTlb_eq ..))

theorem noteAll_updWave (s : State) (v : Nat) (f : Wave → Wave) (w : Wave) (vas : List Nat) :
    (s.updWave v f).noteAll w vas = (s.noteAll w vas).updWave v f := by
  induction vas generalizing s with
  | nil => rfl
  | cons va vas ih =>
    rw [State.noteAll, List.foldl_cons, noteTlb_updWave]
    exact ih _

/-- The issue's context notes what its wave would. -/
theorem noteAll_issueCtx (sg : Sig) (g : Group) (w : Wave) (s : State) (vas : List Nat) :
    (covered sg g w s).noteAll (issueCtx sg g w).w vas = covered sg g w (s.noteAll w vas) := by
  have same : (covered sg g w s).noteAll (issueCtx sg g w).w vas = (covered sg g w s).noteAll w vas := by
    unfold State.noteAll State.vfOf
    rw [issueCtx_core, issueCtx_team, issueCtx_asid]
  exact same.trans (noteAll_updWave ..)

/-! ### The signature of a twin (R329, R330) -/

/-- The teams after an access of one of them. -/
def foldedTeams (team : Nat) (teams : List Team) (addr x y : W64) (fn : Nat) : List Team :=
  updWhere teams (fun t => t.id == team) fun t =>
    if t.twin.isSome then { t with sigRun := t.sigRun + sigItem 3 addr.toNat (le64 x ++ le64 y ++ [BitVec.ofNat 8 fn]) 0 } else t

/-- The teams after an access of each lane of a list. -/
def foldedOver (team : Nat) (addr x y : Nat → W64) (fn : Nat) (lanes : List Nat) (teams : List Team) : List Team :=
  lanes.foldl (fun ts i => foldedTeams team ts (addr i) (x i) (y i) fn) teams

theorem foldAccess_eq (s : State) (team : Nat) (addr x y : W64) (fn : Nat) :
    s.foldAccess team addr x y fn = { s with teams := foldedTeams team s.teams addr x y fn } := rfl

theorem foldAccess_foldl_eq (s : State) (team : Nat) (addr x y : Nat → W64) (fn : Nat) (lanes : List Nat) :
    lanes.foldl (fun u i => u.foldAccess team (addr i) (x i) (y i) fn) s = { s with teams := foldedOver team addr x y fn lanes s.teams } := by
  induction lanes generalizing s with
  | nil => rfl
  | cons i lanes ih => exact ih _

/-! ### The addresses of Table 65 -/

theorem remoteAlign_eq (fn : Nat) : remoteAlign fn = if fn = 0 ∨ fn = 2 ∨ fn = 3 ∨ fn = 5 then 4 else if fn ≤ 6 then 8 else 64 := by
  simp only [remoteAlign, Bool.or_eq_true, decide_eq_true_eq, or_assoc]

/-- The first check of an address of Table 65. -/
def illegalAddr (fn x : Nat) : Prop :=
  x / 2 ^ 62 ≠ 0 ∨ 6 ≤ x / 2 ^ 57 % 8 ∨ (x / 2 ^ 60 % 4 ≠ 0 ∧ (fn ≤ 4 ∨ fn = 9)) ∨
    x % (if fn = 0 ∨ fn = 2 ∨ fn = 3 ∨ fn = 5 then 4 else if fn ≤ 6 then 8 else 64) ≠ 0

theorem illegalAddr_iff (fn : Nat) (a : W64) :
    (decide (bits a.toNat 62 2 ≠ 0) || decide (bits a.toNat 57 3 ≥ 6) || (decide (bits a.toNat 60 2 ≠ 0) && (decide (fn ≤ 4) || decide (fn = 9))) ||
      decide (a.toNat % remoteAlign fn ≠ 0)) = true ↔ illegalAddr fn a.toNat := by
  have top : bits a.toNat 62 2 = a.toNat / 2 ^ 62 := bits_top a.isLt
  have scope : bits a.toNat 57 3 = a.toNat / 2 ^ 57 % 8 := rfl
  have control : bits a.toNat 60 2 = a.toNat / 2 ^ 60 % 4 := rfl
  rw [illegalAddr, top, scope, control]
  simp only [remoteAlign_eq, Bool.or_eq_true, Bool.and_eq_true, decide_eq_true_eq, or_assoc, ge_iff_le]

section

variable {s : State} {core vf asid fn : Nat} {a : W64}

theorem remoteAddr_of_illegal (bad : illegalAddr fn a.toNat) : s.remoteAddr core vf asid fn a = .error Cause.illegal :=
  if_pos ((illegalAddr_iff fn a).2 bad)

theorem remoteAddr_of_denied (good : ¬illegalAddr fn a.toNat) (denied : s.scopeAllowed vf (a.toNat / 2 ^ 57 % 8) = false) :
    s.remoteAddr core vf asid fn a = .error Cause.scope :=
  (if_neg (mt (illegalAddr_iff fn a).1 good)).trans (if_pos (congrArg not denied))

theorem remoteAddr_of_allowed (good : ¬illegalAddr fn a.toNat) (allowed : s.scopeAllowed vf (a.toNat / 2 ^ 57 % 8) = true) :
    s.remoteAddr core vf asid fn a = (s.translate core vf asid (a.toNat % 2 ^ 57) (remoteNeed fn)).map Prod.fst := by
  have passed : ¬(!s.scopeAllowed vf (bits a.toNat 57 3)) = true := by
    rw [show bits a.toNat 57 3 = a.toNat / 2 ^ 57 % 8 from rfl, allowed]
    exact Bool.false_ne_true
  refine ((if_neg (mt (illegalAddr_iff fn a).1 good)).trans (if_neg passed)).trans ?_
  rw [bits_low]
  cases s.translate core vf asid (a.toNat % 2 ^ 57) (remoteNeed fn) <;> rfl

end

/-- An address fails with a cause when its check says so. -/
theorem addressFails_iff {s : State} {w : Wave} {fn : Nat} {a : W64} {cause : Nat} :
    addressFails s w fn a cause ↔ s.remoteAddr w.core (s.vfOf w) w.asid fn a = .error cause := by
  change (illegalAddr fn a.toNat ∧ _) ∨ (¬illegalAddr fn a.toNat ∧ _) ∨ (¬illegalAddr fn a.toNat ∧ _) ↔ _
  by_cases bad : illegalAddr fn a.toNat
  · rw [remoteAddr_of_illegal bad]
    simp only [bad, eq_comm, true_and, not_true, false_and, or_false, Except.error.injEq]
  · simp only [bad, false_and, not_false_iff, true_and, false_or]
    cases allowed : s.scopeAllowed (s.vfOf w) (a.toNat / 2 ^ 57 % 8) with
    | false =>
      rw [remoteAddr_of_denied bad allowed]
      simp only [true_and, Bool.false_eq_true, false_and, or_false, Except.error.injEq, eq_comm]
    | true =>
      rw [remoteAddr_of_allowed bad allowed]
      cases s.translate w.core (s.vfOf w) w.asid (a.toNat % 2 ^ 57) (remoteNeed fn) <;> simp [Except.map]

/-! ### The failure over the lanes (R171, R165, R172) -/

/-- The causes of the lanes that fail, in ascending order. -/
def causes (rs : List (Except Nat Nat)) : List Nat := rs.filterMap fun r => match r with | .error c => some c | .ok _ => none

theorem mem_causes {rs : List (Except Nat Nat)} {cause : Nat} : cause ∈ causes rs ↔ .error cause ∈ rs := by
  rw [causes, List.mem_filterMap]
  constructor
  · rintro ⟨r, hr, found⟩
    cases r with
    | error c => rwa [Option.some.inj found] at hr
    | ok => cases found
  · exact fun h => ⟨_, h, rfl⟩

section

variable {rs : List (Except Nat Nat)}

theorem firstCause_of_illegal (h : .error Cause.illegal ∈ rs) : firstCause rs = some Cause.illegal := 
  if_pos (List.contains_iff_mem.2 (mem_causes.2 h))

theorem firstCause_of_scope (legal : .error Cause.illegal ∉ rs) (h : .error Cause.scope ∈ rs) : firstCause rs = some Cause.scope := by
  have legal : ¬(causes rs).contains Cause.illegal = true := mt (mem_causes.1 ∘ List.contains_iff_mem.1) legal
  exact (if_neg legal).trans (if_pos (List.contains_iff_mem.2 (mem_causes.2 h)))

theorem firstCause_of_neither (legal : .error Cause.illegal ∉ rs) (allowed : .error Cause.scope ∉ rs) : firstCause rs = (causes rs).head? := by
  have legal : ¬(causes rs).contains Cause.illegal = true := mt (mem_causes.1 ∘ List.contains_iff_mem.1) legal
  have allowed : ¬(causes rs).contains Cause.scope = true := mt (mem_causes.1 ∘ List.contains_iff_mem.1) allowed
  exact (if_neg legal).trans (if_neg allowed)

theorem firstCause_of_ok (ok : ∀ cause, .error cause ∉ rs) : firstCause rs = none := by
  have empty : causes rs = [] := List.eq_nil_iff_forall_not_mem.2 fun c hc => ok c (mem_causes.1 hc)
  rw [firstCause_of_neither (ok _) (ok _), empty]
  rfl

theorem causes_append_error {before after : List (Except Nat Nat)} {cause : Nat} (ok : ∀ c, .error c ∉ before) :
    (causes (before ++ .error cause :: after)).head? = some cause := by
  have empty : causes before = [] := List.eq_nil_iff_forall_not_mem.2 fun c hc => ok c (mem_causes.1 hc)
  rw [causes, List.filterMap_append, ← causes, empty]
  rfl

end

end Sys2Proof.Laws

end

section

/-! LEMMAS and the obligation O19. Requests of Table 65 (R190, R191) and deferred reductions (R192). -/

namespace Sys2Proof.Laws

open Sys2Proof.Machine Sys2Proof.Safety Sys2Proof.Slice0

/-! ### Addresses that are turned away -/

/-- What becomes of the lanes' addresses (R171, R165, R172). -/
def placesOf (fn : Nat) (addr : Nat → W64) (c : Ctx) (s : State) : List (Except Nat Nat) :=
  c.act.map fun i => s.remoteAddr c.w.core (s.vfOf c.w) c.w.asid fn (addr i)

section

variable {i : Instr} {sg : Sig} {cmp : Ctx → Nat → List W64} {g : Group} {w : Wave} {s : State} {k : Ctx → State → Res} {fn : Nat} {a : BitVec 7}
  {addr : Nat → W64}

theorem remoteAddr_issueCtx (sg : Sig) (g : Group) (w : Wave) (s : State) (fn : Nat) (x : W64) :
    (covered sg g w s).remoteAddr (issueCtx sg g w).w.core ((covered sg g w s).vfOf (issueCtx sg g w).w) (issueCtx sg g w).w.asid fn x =
      s.remoteAddr w.core (s.vfOf w) w.asid fn x := by
  rw [State.vfOf, issueCtx_team, issueCtx_core, issueCtx_asid]
  rfl

theorem placesOf_issueCtx : placesOf fn addr (issueCtx sg g w) (covered sg g w s) =
    (issueCtx sg g w).act.map fun i => s.remoteAddr w.core (s.vfOf w) w.asid fn (addr i) :=
  List.map_congr_left fun _ _ => remoteAddr_issueCtx ..

theorem error_mem_placesOf {cause : Nat} : .error cause ∈ placesOf fn addr (issueCtx sg g w) (covered sg g w s) ↔
    ∃ i ∈ (issueCtx sg g w).act, addressFails s w fn (addr i) cause := by
  simp only [placesOf_issueCtx, List.mem_map, addressFails_iff]

/-- An instruction that faults with the failure over its lanes refuses their addresses. -/
theorem refusesAddresses (meaning : exec i s = issueWith sg cmp s k)
    (refuses : ∀ cause, firstCause (placesOf fn ((issueCtx sg g w).src64 · a) (issueCtx sg g w) (covered sg g w s)) = some cause →
      k (issueCtx sg g w) (covered sg g w s) = .fault cause) : RefusesAddresses i sg cmp fn a g w s := by
  intro h
  have traps {cause : Nat} (first : firstCause (placesOf fn ((issueCtx sg g w).src64 · a) (issueCtx sg g w) (covered sg g w s)) = some cause) :
      Traps i sg g w s cause :=
    traps_of_fault_compared meaning h (refuses cause first)
  refine ⟨fun bad => ?_, fun legal denied => ?_, fun passed before j after cause split ok bad => ?_⟩
  · exact traps (firstCause_of_illegal (error_mem_placesOf.2 bad))
  · exact traps (firstCause_of_scope (fun bad => by obtain ⟨i, hi, bad⟩ := error_mem_placesOf.1 bad; exact legal i hi bad) (error_mem_placesOf.2 denied))
  · refine traps ((firstCause_of_neither ?_ ?_).trans ?_)
    · exact fun bad => by obtain ⟨i, hi, bad⟩ := error_mem_placesOf.1 bad; exact (passed i hi).1 bad
    · exact fun bad => by obtain ⟨i, hi, bad⟩ := error_mem_placesOf.1 bad; exact (passed i hi).2 bad
    · rw [placesOf_issueCtx, split, List.map_append, List.map_cons, addressFails_iff.1 bad]
      refine causes_append_error fun x hx => ?_
      obtain ⟨i, hi, failed⟩ := List.mem_map.1 hx
      exact ok i hi x (addressFails_iff.2 failed)

end

/-! ### The requests of a group -/

/-- A lane's request (R190). -/
def requestOf (c : Ctx) (vf launch fn : Nat) (r : RemoteArgs) (dst : Option Nat) (places : Nat → Nat) (n i : Nat) : RemoteOp :=
  { id := n, wid := c.w.wid, lane := i, fn := fn, addr := r.addr c i, dpa := places i, val := r.val c i, cmp := r.cmp c i, dst := dst, vf := vf,
    asid := c.w.asid, team := c.w.team, epoch := c.w.epoch, failed := false, core := c.w.core, launch := launch,
    group := c.w.physical c.g.lanes, act := c.act, yielded := (c.lane (c.g.lanes.headD 0)).yielded }

/-- A lane sends its request, and a twin folds it into its signature. -/
def sendOne (op : Nat → Nat → RemoteOp) (c : Ctx) (fn : Nat) (r : RemoteArgs) (u : State) (i : Nat) : State :=
  ({ u with remotes := u.remotes ++ [op u.nextId i], nextId := u.nextId + 1 } : State).foldAccess c.w.team (r.addr c i) (r.val c i) (r.cmp c i) fn

theorem sendOne_foldl (op : Nat → Nat → RemoteOp) (c : Ctx) (fn : Nat) (r : RemoteArgs) (lanes : List Nat) (s : State) :
    lanes.foldl (sendOne op c fn r) s =
      { s with
        remotes := s.remotes ++ lanes.mapIdx fun k i => op (s.nextId + k) i
        nextId := s.nextId + lanes.length
        teams := foldedOver c.w.team (r.addr c) (r.val c) (r.cmp c) fn lanes s.teams } := by
  induction lanes generalizing s with
  | nil => simp [foldedOver]
  | cons i lanes ih =>
    rw [List.foldl_cons, ih]
    simp [sendOne, foldAccess_eq, foldedOver, List.mapIdx_cons, Nat.add_assoc, Nat.add_comm 1]

/-- The place of a lane's address, which the check has passed. -/
def placeOf (fn : Nat) (addr : Nat → W64) (c : Ctx) (s : State) (i : Nat) : Nat :=
  (s.remoteAddr c.w.core (s.vfOf c.w) c.w.asid fn (addr i)).toOption.getD 0

/-- What an immediate operation does with its addresses, and once they have passed. -/
def remoteAnswers (fn : Nat) (r : RemoteArgs) (dst : Option Nat) (c : Ctx) (s : State) : Res :=
  match firstCause (placesOf fn (r.addr c) c s) with
  | some cause => .fault cause
  | none =>
    let t := s.noteAll c.w (c.act.map fun i => (r.addr c i).toNat)
    let t := c.act.foldl (sendOne (requestOf c (s.vfOf c.w) (t.launchOf c.w.team) fn r dst (placeOf fn (r.addr c) c s)) c fn r) t
    match dst with
    | none => .done t
    | some _ =>
      let far := c.act.any fun i => stackOf (placeOf fn (r.addr c) c s i) != hoodOfCore c.w.core
      .moved ((t.advance c).updWave c.w.wid fun w => { (w.delayLast (if far then 160 else 0) 0) with wait := .replies c.act.length c.g.first })

theorem remoteWith_eq (fn : Nat) (sg : Sig) (r : RemoteArgs) (dst : Option Nat) (s : State) :
    remoteWith fn sg r dst s = issueWith sg (fun c i => [r.addr c i, r.val c i, r.cmp c i]) s (remoteAnswers fn r dst) := rfl

/-- The state with the requests of a group sent. -/
def sent (c : Ctx) (w : Wave) (s : State) (fn : Nat) (r : RemoteArgs) (dst : Option Nat) (places : Nat → Nat) : State :=
  { s with
    remotes := s.remotes ++ requests s c fn places (r.addr c) (r.val c) (r.cmp c) dst
    nextId := s.nextId + c.act.length
    teams := (c.act.foldl (fun (u : State) i => u.foldAccess w.team (r.addr c i) (r.val c i) (r.cmp c i) fn) s).teams
    tlb := (s.noteAll w (c.act.map fun i => (r.addr c i).toNat)).tlb }

/-- A group's translations noted, as a change of the stores alone. -/
theorem noted_issueCtx (sg : Sig) (g : Group) (w : Wave) (s : State) (vas : List Nat) :
    (covered sg g w s).noteAll (issueCtx sg g w).w vas = covered sg g w { s with tlb := (s.noteAll w vas).tlb } :=
  (noteAll_issueCtx ..).trans (congrArg (covered sg g w) (noteAll_eq ..))

section

variable {i : Instr} {sg : Sig} {g : Group} {w : Wave} {s : State} {fn : Nat} {r : RemoteArgs} {dst : Option Nat} {places : Nat → Nat}

theorem firstCause_of_places (ok : ∀ i ∈ (issueCtx sg g w).act, s.remoteAddr w.core (s.vfOf w) w.asid fn (r.addr (issueCtx sg g w) i) = .ok (places i)) :
    firstCause (placesOf fn (r.addr (issueCtx sg g w)) (issueCtx sg g w) (covered sg g w s)) = none := by
  refine firstCause_of_ok fun cause bad => ?_
  obtain ⟨i, hi, bad⟩ := error_mem_placesOf.1 bad
  cases (ok i hi).symm.trans (addressFails_iff.1 bad)

theorem placeOf_eq (ok : ∀ i ∈ (issueCtx sg g w).act, s.remoteAddr w.core (s.vfOf w) w.asid fn (r.addr (issueCtx sg g w) i) = .ok (places i)) {i : Nat}
    (hi : i ∈ (issueCtx sg g w).act) : placeOf fn (r.addr (issueCtx sg g w)) (issueCtx sg g w) (covered sg g w s) i = places i := by
  rw [placeOf, remoteAddr_issueCtx, ok i hi]
  rfl

/-- The requests made lane by lane are those of the statement, when each lane's address has its place. -/
theorem sendOne_sent (ok : ∀ i ∈ (issueCtx sg g w).act, s.remoteAddr w.core (s.vfOf w) w.asid fn (r.addr (issueCtx sg g w) i) = .ok (places i))
    {c : Ctx} (hc : c = issueCtx sg g w) {t : State} (ht : t = (covered sg g w s).noteAll c.w (c.act.map fun i => (r.addr c i).toNat)) :
    c.act.foldl (sendOne (requestOf c ((covered sg g w s).vfOf c.w) (t.launchOf c.w.team) fn r dst (placeOf fn (r.addr c) c (covered sg g w s))) c fn r) t =
      covered sg g w (sent c w s fn r dst places) := by
  subst hc
  rw [noted_issueCtx] at ht
  generalize hc : issueCtx sg g w = c at ok ht ⊢
  have steps : c.act.foldl (sendOne (requestOf c ((covered sg g w s).vfOf c.w) (t.launchOf c.w.team) fn r dst (placeOf fn (r.addr c) c (covered sg g w s))) c fn r) t =
      c.act.foldl (sendOne (requestOf c (s.vfOf c.w) (s.launchOf c.w.team) fn r dst places) c fn r) t :=
    List.foldl_ext _ _ _ fun u i hi => by
      subst hc ht
      simp only [sendOne, requestOf, placeOf_eq ok hi]
      rfl
  subst hc ht
  rw [steps, sendOne_foldl, sent, foldAccess_foldl_eq, ← issueCtx_team sg g w]
  rfl

theorem remoteAnswers_done (ok : ∀ i ∈ (issueCtx sg g w).act, s.remoteAddr w.core (s.vfOf w) w.asid fn (r.addr (issueCtx sg g w) i) = .ok (places i)) :
    remoteAnswers fn r none (issueCtx sg g w) (covered sg g w s) = .done (covered sg g w (sent (issueCtx sg g w) w s fn r none places)) := by
  unfold remoteAnswers
  rw [firstCause_of_places ok, ← sendOne_sent ok rfl rfl]

theorem remoteAnswers_moved (ok : ∀ i ∈ (issueCtx sg g w).act, s.remoteAddr w.core (s.vfOf w) w.asid fn (r.addr (issueCtx sg g w) i) = .ok (places i))
    (d : Nat) :
    ∃ late, remoteAnswers fn r (some d) (issueCtx sg g w) (covered sg g w s) =
      .moved (((covered sg g w (sent (issueCtx sg g w) w s fn r (some d) places)).advance (issueCtx sg g w)).updWave (issueCtx sg g w).w.wid fun x =>
        { (x.delayLast late 0) with wait := .replies (issueCtx sg g w).act.length (issueCtx sg g w).g.first }) := by
  unfold remoteAnswers
  rw [firstCause_of_places ok, ← sendOne_sent ok rfl rfl]
  exact ⟨_, rfl⟩

/-- An immediate operation refuses the addresses that fail. -/
theorem remote_refuses {a : BitVec 7} (meaning : exec i s = remoteWith fn sg r dst s) (addr : r.addr = fun c i => c.src64 i a) :
    RefusesAddresses i sg (fun c i => [r.addr c i, r.val c i, r.cmp c i]) fn a g w s := by
  refine refusesAddresses (meaning.trans (remoteWith_eq ..)) fun cause failed => ?_
  rw [remoteAnswers, addr, failed]

end

/-! ### The issuing wave afterwards -/

/-- The end of an issue changes no state of waiting but the one that tries again. -/
theorem wait_ended {u : State} {wid : Nat} {x y : Wave} (before : u.wave? wid = some y) (after : (ended u wid).wave? wid = some x)
    (steady : y.wait ≠ .retry) : x.wait = y.wait := by
  have again (v : Wave) (h : v.wait = y.wait) : v.again.wait = y.wait := by
    unfold Wave.again
    split
    · next retry => exact absurd (h.symm.trans retry) steady
    · exact h
  have idle (v : State) : ({ v with grp := none } : State).wave? wid = v.wave? wid := rfl
  rw [ended, State.countHold, wave?_updWave _ _ _ _ (by intro v hv; exact hv), if_pos rfl, State.over, wave?_wakeRetry, idle,
    wave?_updWave _ _ _ _ (by intro v hv; exact hv), if_pos rfl, before] at after
  cases after
  exact again _ rfl

theorem completes_wait {base t : State} {c : Ctx} {target : Wave} (h : Completes base t c target) (r : Wait) :
    Completes base t c { target with wait := r } := by
  obtain ⟨x, found, same⟩ := h.self
  exact { h with self := ⟨x, found, congrArg (fun y : Wave => { y with wait := r }) same⟩ }

/-! ### Immediate operations -/

section

variable {i : Instr} {sg : Sig} {g : Group} {w : Wave} {s : State} {fn : Nat} {r : RemoteArgs} {dst : Option Nat} {places : Nat → Nat}

/-- The issue is over, and the issuing wave waits for `dst`'s replies. -/
def Sends (i : Instr) (c : Ctx) (w : Wave) (s base : State) (dst : Option Nat) : Prop :=
  ∃ t q, exec i s = .next t ∧ Completes base t c { pastGroup c c.w with slow := q } ∧
    ∀ x, t.wave? w.wid = some x → (dst.isSome = true → x.wait = .replies c.act.length c.g.first) ∧ (dst = none → w.wait = .ready → x.wait = .ready)

theorem issueCtx_wait (sg : Sig) (g : Group) (w : Wave) : (issueCtx sg g w).w.wait = w.wait := by
  obtain ⟨h, l, n, q, b, e⟩ := issueCtx_wave sg g w
  rw [e]

theorem sends_of_done {cmp : Ctx → Nat → List W64} {k : Ctx → State → Res} {base : State} (meaning : exec i s = issueWith sg cmp s k)
    (h : IssuesWith sg cmp g w s) (waves : base.waves = s.waves) (done : k (issueCtx sg g w) (covered sg g w s) = .done (covered sg g w base)) :
    Sends i (issueCtx sg g w) w s base none := by
  have stands : base.wave? g.wid = some w := (wave?_congr waves _).trans h.wave
  refine ⟨_, (pastGroup (issueCtx sg g w) (issueCtx sg g w).w).slow, meaning.trans (issueWith_done_eq h done),
    completes_touches stands (Touches.refl _ _), fun x after => ⟨fun some => ?_, fun _ ready => ?_⟩⟩
  · cases some
  · have before : ((covered sg g w base).advance (issueCtx sg g w)).wave? w.wid = some (pastGroup (issueCtx sg g w) (issueCtx sg g w).w) := by
      rw [(Touches.advance ..).waves, issueCtx_wid, if_pos rfl, wave?_covered stands, if_pos rfl]
      rfl
    have same : (pastGroup (issueCtx sg g w) (issueCtx sg g w).w).wait = .ready := (issueCtx_wait sg g w).trans ready
    rw [wait_ended before after (by rw [same]; exact Wait.noConfusion), same]

theorem sends_of_moved {cmp : Ctx → Nat → List W64} {k : Ctx → State → Res} {base : State} {late d : Nat} (meaning : exec i s = issueWith sg cmp s k)
    (h : IssuesWith sg cmp g w s) (waves : base.waves = s.waves)
    (moved : k (issueCtx sg g w) (covered sg g w s) =
      .moved (((covered sg g w base).advance (issueCtx sg g w)).updWave (issueCtx sg g w).w.wid fun x =>
        { (x.delayLast late 0) with wait := .replies (issueCtx sg g w).act.length (issueCtx sg g w).g.first })) :
    Sends i (issueCtx sg g w) w s base (some d) := by
  have stands : base.wave? g.wid = some w := (wave?_congr waves _).trans h.wave
  have touches := (Touches.advance (covered sg g w base) (issueCtx sg g w)).trans (Touches.updWave _ (issueCtx sg g w).w.wid (fun x : Wave =>
    { (x.delayLast late 0) with wait := .replies (issueCtx sg g w).act.length (issueCtx sg g w).g.first }) fun _ h => h)
  rw [issueCtx_wid] at touches moved
  refine ⟨_, ((pastGroup (issueCtx sg g w) (issueCtx sg g w).w).delayLast late 0).slow, meaning.trans (issueWith_moved h moved),
    completes_wait (completes_over stands touches) _, fun x after => ⟨fun _ => ?_, fun none => ?_⟩⟩
  · have before := touches.waves w.wid
    rw [if_pos rfl, wave?_covered stands, if_pos rfl] at before
    exact wait_ended before after Wait.noConfusion
  · cases none

theorem remote_sends (meaning : exec i s = remoteWith fn sg r dst s)
    (h : IssuesWith sg (fun c i => [r.addr c i, r.val c i, r.cmp c i]) g w s)
    (ok : ∀ i ∈ (issueCtx sg g w).act, s.remoteAddr w.core (s.vfOf w) w.asid fn (r.addr (issueCtx sg g w) i) = .ok (places i)) :
    Sends i (issueCtx sg g w) w s (sent (issueCtx sg g w) w s fn r dst places) dst := by
  cases dst with
  | none => exact sends_of_done (meaning.trans (remoteWith_eq ..)) h rfl (remoteAnswers_done ok)
  | some d =>
    obtain ⟨late, moved⟩ := remoteAnswers_moved ok d
    exact sends_of_moved (meaning.trans (remoteWith_eq ..)) h rfl moved

end

/-- The operands of a returning atomic (Table 65). -/
def atomArgs (pair cas : Bool) (d a b : BitVec 7) : RemoteArgs where
  addr c i := c.src64 i a
  val c i := if pair then c.src64 i b else (c.src32 i b).setWidth 64
  cmp c i := if cas then (if pair then c.src64 i d else (c.src32 i d).setWidth 64) else 0

/-- The form of a returning atomic. -/
def atomForm (pair cas : Bool) (n : BitVec 1) (d a b : BitVec 7) : Sig :=
  let fd : Fld := match pair, cas with
    | false, false => .w32 d (n == 0)
    | true, false => .w64 d (n == 0)
    | false, true => .rw32 d (n == 0)
    | true, true => .rw64 d (n == 0)
  { flds := [fd, .r64 a, if pair then .r64 b else .r32 b], scalar := true, ends := true }

theorem exec_atomics {e : (BitVec 1 → BitVec 7 → BitVec 7 → BitVec 7 → Instr) × Nat × Bool × Bool} (he : e ∈ atomics) (n : BitVec 1) (d a b : BitVec 7)
    (s : State) :
    exec (e.1 n d a b) s =
      remoteWith e.2.1 (atomForm e.2.2.1 e.2.2.2 n d a b) (atomArgs e.2.2.1 e.2.2.2 d a b) (if n = 1 then none else some d.toNat) s := by
  fin_cases he <;> rfl

/-- `xseal` and `xzero` read their address alone. -/
def cellArgs (a : BitVec 7) : RemoteArgs where
  addr c i := c.src64 i a
  val _ _ := 0
  cmp _ _ := 0

theorem exec_xseal_eq (d a : BitVec 7) (s : State) : exec (.xseal d a) s = remoteWith 8 (waiting [.w64 d true, .r64 a]) (cellArgs a) (some d.toNat) s := rfl
theorem exec_xzero_eq (a : BitVec 7) (s : State) : exec (.xzero a) s = remoteWith 9 (waiting [.r64 a]) (cellArgs a) none s := rfl

theorem remoteRequests : RemoteRequests := by
  intro n d a b g w s at_ does
  refine ⟨fun e he => ⟨?_, fun h ok => ?_⟩, ⟨?_, fun h ok => ?_⟩, ⟨?_, fun h ok => ?_⟩⟩
  · have refuses := remote_refuses (g := g) (w := w) (exec_atomics he n d a b s) rfl
    exact refuses
  · have sends := remote_sends (places := at_) (exec_atomics he n d a b s) h ok
    exact sends
  · have refuses := remote_refuses (g := g) (w := w) (exec_xseal_eq d a s) rfl
    exact refuses
  · have sends := remote_sends (places := at_) (exec_xseal_eq d a s) h ok
    exact sends
  · have refuses := remote_refuses (g := g) (w := w) (exec_xzero_eq a s) rfl
    exact refuses
  · have sends := remote_sends (places := at_) (exec_xzero_eq a s) h ok
    exact sends

/-! ### Deferred reductions -/

/-- The operations of a group's lanes, as they stand in the pannier. -/
def heldReds (fn : Nat) (r : RemoteArgs) (c : Ctx) (core place : Nat) (places : Nat → Nat) : List Red :=
  c.act.map fun i => { fn := fn, addr := r.addr c i, value := r.val c i, dpa := places i, ord := place, odd := decide (core % 2 = 1) }

/-- What a deferred reduction does with its addresses, and once they have passed. -/
def deferAnswers (fn : Nat) (r : RemoteArgs) (c : Ctx) (s : State) : Res :=
  match firstCause (placesOf fn (r.addr c) c s) with
  | some cause => .fault cause
  | none =>
    if c.w.sectors + c.act.length > Config.pannierSectors then .fault Cause.pannierFull
    else
      .done (({ s.noteAll c.w (c.act.map fun i => (r.addr c i).toNat) with nextId := s.nextId + 1 } : State).updWave c.w.wid fun w =>
        { w with reds := w.reds ++ heldReds fn r c c.w.core s.nextId (placeOf fn (r.addr c) c s) })

theorem deferWith_eq (fn : Nat) (sg : Sig) (r : RemoteArgs) (s : State) :
    deferWith fn sg r s = issueWith sg (fun c i => [r.addr c i, r.val c i]) s (deferAnswers fn r) := rfl

section

variable {i : Instr} {sg : Sig} {g : Group} {w : Wave} {s : State} {fn : Nat} {r : RemoteArgs} {places : Nat → Nat}

theorem defer_refuses {a : BitVec 7} (meaning : exec i s = deferWith fn sg r s) (addr : r.addr = fun c i => c.src64 i a) :
    RefusesAddresses i sg (fun c i => [r.addr c i, r.val c i]) fn a g w s := by
  refine refusesAddresses (meaning.trans (deferWith_eq ..)) fun cause failed => ?_
  rw [deferAnswers, addr, failed]

variable (meaning : exec i s = deferWith fn sg r s) (h : IssuesWith sg (fun c i => [r.addr c i, r.val c i]) g w s)
  (ok : ∀ i ∈ (issueCtx sg g w).act, s.remoteAddr w.core (s.vfOf w) w.asid fn (r.addr (issueCtx sg g w) i) = .ok (places i))
include meaning h ok

theorem defer_traps (full : 256 < w.sectors + (issueCtx sg g w).act.length) : Traps i sg g w s Cause.pannierFull := by
  refine traps_of_fault_compared (meaning.trans (deferWith_eq ..)) h ?_
  rw [deferAnswers, firstCause_of_places ok, issueCtx_sectors]
  exact if_pos full

theorem defer_holds (room : w.sectors + (issueCtx sg g w).act.length ≤ 256) :
    Does i sg g w s { s with tlb := (s.noteAll w ((issueCtx sg g w).act.map fun i => (r.addr (issueCtx sg g w) i).toNat)).tlb, nextId := s.nextId + 1 }
      fun c x => { x with reds := x.reds ++ heldReds fn r c c.w.core s.nextId places } := by
  have held (core place : Nat) : heldReds fn r (issueCtx sg g w) core place (placeOf fn (r.addr (issueCtx sg g w)) (issueCtx sg g w) (covered sg g w s)) =
      heldReds fn r (issueCtx sg g w) core place places := List.map_congr_left fun i hi => by rw [placeOf_eq ok hi]
  refine does_of_done_compared (meaning.trans (deferWith_eq ..)) h rfl ?_ (Touches.updWave _ _ _ fun _ h => h)
  rw [deferAnswers, firstCause_of_places ok, issueCtx_sectors, held, noted_issueCtx]
  exact if_neg (Nat.not_lt.2 room)

end

theorem exec_reductions {e : (BitVec 7 → BitVec 7 → Instr) × Nat × Bool}
    (he : e ∈ [(Instr.redAddF32, 5, false), (Instr.redAddF64, 6, true), (Instr.xaddF32, 7, false)]) (a b : BitVec 7) (s : State) :
    exec (e.1 a b) s = deferWith e.2.1 (waiting [.r64 a, if e.2.2 then .r64 b else .r32 b]) (atomArgs e.2.2 false 0 a b) s := by
  fin_cases he <;> rfl

theorem deferredReductions : DeferredReductions := by
  intro a b g w s at_ e he
  refine ⟨defer_refuses (exec_reductions he a b s) rfl, fun h ok => ⟨fun full => ?_, fun room => ?_⟩⟩
  · exact defer_traps (places := at_) (exec_reductions he a b s) h ok full
  · exact defer_holds (places := at_) (exec_reductions he a b s) h ok room

/-- Settles O19: the addresses are checked over the lanes, and past the check each lane's operation is sent, or held in the pannier. -/
theorem remoteRequestsAndReductions : Obligations.RemoteRequestsAndReductions := ⟨remoteRequests, deferredReductions⟩

end Sys2Proof.Laws

end

section

/-! LEMMAS and the obligation O20. The issue of a bank operation (R194, R189). -/

namespace Sys2Proof.Laws

open Sys2Proof.Machine Sys2Proof.Safety Sys2Proof.Slice0

/-- The form of the bank operations (Table 66). -/
def bankForm (a b : BitVec 7) : Sig := { flds := [.unused 0x7C, .r64 a, .r32 b], scalar := true, ends := true }

/-- The context of its issue. -/
abbrev bankCtx (a b : BitVec 7) (g : Group) (w : Wave) : Ctx := issueCtx (bankForm a b) g w

/-- The bank operation of wave x that enters the engine. -/
def bankEntry (fn : Nat) (c : Ctx) (x : Wave) (s : State) (b : W32) (dpa : Nat) : BankOp :=
  { id := s.nextId, core := x.core, wid := x.wid, team := x.team, fn := fn, dpa := dpa, b := b,
    data := if fn = 1 then s.viewBytes c.w (bkSpad b.toNat) (bkldBytes b.toNat) else [], dst := toTeam x.core (bkSpad b.toNat), epoch := x.epoch,
    launch := s.launchOf x.team }

/-- The state with it in the engine, its access noted. -/
def bankEntered (fn : Nat) (c : Ctx) (x : Wave) (s t : State) (addr : W64) (b : W32) (dpa : Nat) : State :=
  let t := t.foldAccess x.team addr (b.setWidth 64) 0 fn
  { t with bankOps := t.bankOps ++ [bankEntry fn c x s b dpa], nextId := t.nextId + 1 }

/-- What a bank operation does with its operands (R194). -/
def bankAnswers (fn : Nat) (addr : W64) (b : W32) (c : Ctx) (s : State) : Res :=
  if s.bankIllegal c.w fn addr.toNat b.toNat then .fault Cause.illegal
  else match s.translate c.w.core (s.vfOf c.w) c.w.asid (bits addr.toNat 0 57) (bankNeed fn) with
    | .error cause => .fault cause
    | .ok (dpa, _) =>
      if s.bankHeld c.w fn b.toNat then .stall
      else match if fn = 1 then s.viewPoison c.w (bkSpad b.toNat) (bkldBytes b.toNat) else none with
        | some code => .poisoned code
        | none => .done (bankEntered fn c c.w s (s.noteAll c.w [addr.toNat]) addr b dpa)

theorem bkSpad_eq (n : Nat) : bkSpad n = n % 2 ^ 22 := bits_low n 22

theorem bankWith_eq (fn : Nat) (a b : BitVec 7) (s : State) :
    bankWith fn a b s = issueWith (bankForm a b) (fun c i => [c.src64 i a, (c.src32 i b).setWidth 64]) s fun c =>
      bankAnswers fn (c.src64 c.elected a) (c.src32 c.elected b) c := rfl

theorem exec_bankOps {e : (BitVec 7 → BitVec 7 → Instr) × Nat}
    (he : e ∈ [(Instr.bkmode, 0), (Instr.bkld, 1), (Instr.bkmac, 2), (Instr.bkrd, 3), (Instr.bkzero, 4)]) (a b : BitVec 7) (s : State) :
    exec (e.1 a b) s = bankWith e.2 a b s := by
  fin_cases he <;> rfl

/-! ### The checks as the issue sees them -/

section

variable (sg : Sig) (g : Group) (w : Wave) (s : State)

theorem bankIllegal_issueCtx (fn x b : Nat) : (covered sg g w s).bankIllegal (issueCtx sg g w).w fn x b = s.bankIllegal w fn x b := by
  unfold State.bankIllegal State.viewSize
  rw [issueCtx_team]
  rfl

theorem bankHeld_issueCtx (fn b : Nat) : (covered sg g w s).bankHeld (issueCtx sg g w).w fn b = s.bankHeld w fn b := by
  unfold State.bankHeld
  rw [issueCtx_team, issueCtx_core]
  rfl

theorem translate_issueCtx (va : Nat) (need : Need) :
    (covered sg g w s).translate (issueCtx sg g w).w.core ((covered sg g w s).vfOf (issueCtx sg g w).w) (issueCtx sg g w).w.asid va need =
      s.translate w.core (s.vfOf w) w.asid va need := by
  rw [State.vfOf, issueCtx_team, issueCtx_core, issueCtx_asid]
  rfl

end

section

variable {i : Instr} {fn : Nat} {a b : BitVec 7} {g : Group} {w : Wave} {s : State} {addr : W64} {y : W32} {dpa kind : Nat}

theorem bankEntered_issueCtx (fn : Nat) (addr : W64) (y : W32) (dpa : Nat) :
    bankEntered fn (bankCtx a b g w) (bankCtx a b g w).w (covered (bankForm a b) g w s)
        ((covered (bankForm a b) g w s).noteAll (bankCtx a b g w).w [addr.toNat]) addr y dpa =
      covered (bankForm a b) g w (bankEntered fn (bankCtx a b g w) w s { s with tlb := (s.noteAll w [addr.toNat]).tlb } addr y dpa) := by
  rw [noted_issueCtx]
  unfold bankEntered bankEntry
  rw [issueCtx_core, issueCtx_wid, issueCtx_team, issueCtx_epoch]
  rfl

theorem bankAnswers_of_illegal (bad : s.bankIllegal w fn addr.toNat y.toNat = true) :
    bankAnswers fn addr y (bankCtx a b g w) (covered (bankForm a b) g w s) = .fault Cause.illegal :=
  if_pos ((bankIllegal_issueCtx ..).trans bad)

theorem bankAnswers_of_legal (good : s.bankIllegal w fn addr.toNat y.toNat = false) :
    bankAnswers fn addr y (bankCtx a b g w) (covered (bankForm a b) g w s) =
      match s.translate w.core (s.vfOf w) w.asid (addr.toNat % 2 ^ 57) (bankNeed fn) with
      | .error cause => .fault cause
      | .ok (dpa, _) =>
        if s.bankHeld w fn y.toNat then .stall
        else match if fn = 1 then s.viewPoison (bankCtx a b g w).w (bkSpad y.toNat) (bkldBytes y.toNat) else none with
          | some code => .poisoned code
          | none => .done (covered (bankForm a b) g w
              (bankEntered fn (bankCtx a b g w) w s { s with tlb := (s.noteAll w [addr.toNat]).tlb } addr y dpa)) := by
  rw [bankAnswers, bankIllegal_issueCtx, good, translate_issueCtx, bankHeld_issueCtx, bits_low]
  simp only [bankEntered_issueCtx]
  rfl

/-! ### How a bank operation settles -/

variable (meaning : exec i s = bankWith fn a b s) (h : IssuesWith (bankForm a b) (fun c i => [c.src64 i a, (c.src32 i b).setWidth 64]) g w s)
include meaning h

theorem bank_illegal
    (bad : s.bankIllegal w fn ((bankCtx a b g w).src64 (bankCtx a b g w).elected a).toNat
      ((bankCtx a b g w).src32 (bankCtx a b g w).elected b).toNat = true) :
    Traps i (bankForm a b) g w s Cause.illegal :=
  traps_of_fault_compared (meaning.trans (bankWith_eq ..)) h (bankAnswers_of_illegal bad)

variable (hx : addr = (bankCtx a b g w).src64 (bankCtx a b g w).elected a)
  (hy : y = (bankCtx a b g w).src32 (bankCtx a b g w).elected b) (good : s.bankIllegal w fn addr.toNat y.toNat = false)
include hx hy good

theorem bank_untranslated {cause : Nat} (failed : s.translate w.core (s.vfOf w) w.asid (addr.toNat % 2 ^ 57) (bankNeed fn) = .error cause) :
    Traps i (bankForm a b) g w s cause := by
  subst hx hy
  refine traps_of_fault_compared (meaning.trans (bankWith_eq ..)) h ((bankAnswers_of_legal good).trans ?_)
  rw [failed]

theorem bank_enters (found : s.translate w.core (s.vfOf w) w.asid (addr.toNat % 2 ^ 57) (bankNeed fn) = .ok (dpa, kind))
    (free : s.bankHeld w fn y.toNat = false) (readable : fn = 1 → s.viewPoison (bankCtx a b g w).w (y.toNat % 2 ^ 22) (bkldBytes y.toNat) = none) :
    Does i (bankForm a b) g w s (bankEntered fn (bankCtx a b g w) w s { s with tlb := (s.noteAll w [addr.toNat]).tlb } addr y dpa) fun _ => id := by
  have sound : (if fn = 1 then s.viewPoison (bankCtx a b g w).w (bkSpad y.toNat) (bkldBytes y.toNat) else none) = none := by
    split
    · rw [bkSpad_eq]
      exact readable ‹_›
    · rfl
  subst hx hy
  refine does_of_done_compared (meaning.trans (bankWith_eq ..)) h rfl ((bankAnswers_of_legal good).trans ?_) (Touches.refl _ _)
  simp only [found, free, sound, Bool.false_eq_true, if_false]

end

theorem bkwait_does {g : Group} {w : Wave} {s : State} (h : Issues { flds := [.unused 0x7C, .unused 0x7C, .unused 0x7C], ends := true } g w s)
    (left : ∀ o ∈ s.bankOps, o.wid ≠ w.wid) :
    Does .bkwait { flds := [.unused 0x7C, .unused 0x7C, .unused 0x7C], ends := true } g w s s fun _ => id := by
  refine does_of_done (exec_bkwait s) h rfl (if_neg ?_) (Touches.refl _ _)
  rw [issueCtx_wid]
  exact not_any_of_eq_false fun o ho => beq_eq_false_iff_ne.2 (left o ho)

/-- Settles O20: the first set of checks, the translation, and the entry of the engine. -/
theorem bankIssue : Obligations.BankIssue := by
  intro a b g w s dpa kind
  refine ⟨fun e he h => ⟨fun bad => bank_illegal (exec_bankOps he a b s) h bad, fun good => ⟨fun cause failed => ?_, fun found free readable => ?_⟩⟩,
    bkwait_does⟩
  · exact bank_untranslated (exec_bankOps he a b s) h rfl rfl good failed
  · have enters := bank_enters (exec_bankOps he a b s) h rfl rfl good found free readable
    simp only [bankEntered, bankEntry, bkSpad_eq] at enters
    exact enters

end Sys2Proof.Laws

end

section

/-! LEMMAS and the obligation O24. Cache maintenance (R200, R319, R329). -/

namespace Sys2Proof.Laws

open Sys2Proof.Machine Sys2Proof.Safety Sys2Proof.Slice0

/-! ### What a twin's signature leaves alone -/

section

variable {α : Type} (π : Team → α) (keeps : ∀ (t : Team) (r : W64), π { t with sigRun := r } = π t)
include keeps

/-- Folding an access changes the running signature of a team alone. -/
theorem foldAccess_team?_map (s : State) (team : Nat) (addr x y : W64) (fn id : Nat) :
    ((s.foldAccess team addr x y fn).team? id).map π = (s.team? id).map π := by
  have same (t : Team) : (if t.id == team then
      (if t.twin.isSome then { t with sigRun := t.sigRun + sigItem 3 addr.toNat (le64 x ++ le64 y ++ [BitVec.ofNat 8 fn]) 0 } else t) else t).id = t.id := by
    repeat' split
    all_goals rfl
  rw [State.team?, State.foldAccess, State.updTeam, updWhere, List.find?_map, Option.map_map]
  simp only [Function.comp_def, same]
  refine congrArg (Option.map · (s.teams.find? fun t => t.id == id)) (funext fun t => ?_)
  repeat' split
  · exact keeps t _
  all_goals rfl

theorem foldAccess_foldl_team?_map (s : State) (team : Nat) (addr x y : Nat → W64) (fn id : Nat) (lanes : List Nat) :
    ((lanes.foldl (fun u i => u.foldAccess team (addr i) (x i) (y i) fn) s).team? id).map π = (s.team? id).map π := by
  induction lanes generalizing s with
  | nil => rfl
  | cons i lanes ih => exact (ih _).trans (foldAccess_team?_map π keeps ..)

end

/-! ### Lines while nothing is in error -/

/-- Nothing is in error, and memory, requests and copies are those of s. -/
structure LinesOnly (s t : State) : Prop where
  clean : t.errors = []
  mem : t.mem = s.mem
  remotes : t.remotes = s.remotes
  copies : t.copies = s.copies

theorem LinesOnly.refl {s : State} (clean : s.errors = []) : LinesOnly s s := ⟨clean, rfl, rfl, rfl⟩
theorem LinesOnly.trans {s t u : State} (h : LinesOnly s t) (k : LinesOnly t u) : LinesOnly s u :=
  ⟨k.clean, k.mem.trans h.mem, k.remotes.trans h.remotes, k.copies.trans h.copies⟩

theorem linesOnly_foldl {α : Type} {f : State → α → State} (step : ∀ (u : State) (e : α), u.errors = [] → LinesOnly u (f u e)) (l : List α) {s : State}
    (clean : s.errors = []) : LinesOnly s (l.foldl f s) := by
  induction l generalizing s with
  | nil => exact .refl clean
  | cons e l ih => exact (step s e clean).trans (ih (step s e clean).clean)

section

variable {s : State} (clean : s.errors = []) (e : Line) (level : Nat)
include clean

theorem lineBad_eq_false : s.lineBad e = false := by rw [State.lineBad, clean]; rfl

theorem storeLine_linesOnly : LinesOnly s (s.storeLine e) := ⟨by rw [State.storeLine, clean]; rfl, rfl, rfl, rfl⟩
theorem leaveCache_linesOnly : LinesOnly s (s.leaveCache e) := ⟨by rw [State.leaveCache, clean]; rfl, rfl, rfl, rfl⟩

theorem expelLine_linesOnly : LinesOnly s (s.expelLine e) := by
  unfold State.expelLine
  split
  · have stored := storeLine_linesOnly clean e
    exact stored.trans (leaveCache_linesOnly stored.clean e)
  · exact leaveCache_linesOnly clean e

theorem roomBelow_linesOnly (unit line : Nat) : LinesOnly s (s.roomBelow unit line) := by
  unfold State.roomBelow
  split
  · exact .refl clean
  · split
    · exact ⟨clean, rfl, rfl, rfl⟩
    · exact expelLine_linesOnly clean _

theorem sinkLine_linesOnly : LinesOnly s (s.sinkLine e) := by
  have room := roomBelow_linesOnly clean (stackOf e.dpa) (e.dpa / 64)
  exact ⟨by rw [State.sinkLine, room.clean]; rfl, room.mem, room.remotes, room.copies⟩

theorem writeBack_linesOnly : LinesOnly s (s.writeBack e level) := by
  rw [State.writeBack, lineBad_eq_false clean, Bool.and_false, if_neg Bool.false_ne_true]
  unfold State.cleanLine
  repeat' split
  · exact .refl clean
  · exact sinkLine_linesOnly clean e
  · exact .refl clean
  · exact storeLine_linesOnly clean e

theorem dropLine_linesOnly : LinesOnly s (s.dropLine e level) := by
  unfold State.dropLine
  split
  · exact .refl clean
  split
  · exact .refl clean
  · exact ⟨by rw [clean]; rfl, rfl, rfl, rfl⟩

theorem maintain_linesOnly (fn lo n : Nat) : LinesOnly s (s.maintain fn level lo n) := by
  refine linesOnly_foldl (fun u e clean => ?_) _ clean
  have written : LinesOnly u (if fn = 1 then u else u.writeBack e level) := by
    split
    · exact .refl clean
    · exact writeBack_linesOnly clean e level
  dsimp only
  split
  · exact written
  · exact written.trans (dropLine_linesOnly written.clean e level)

end

/-! ### The ranges of the lanes -/

/-- The pieces of a lane's range, each with its place or the cause of its failure. -/
def piecesOf (x y : Nat → Nat) (c : Ctx) (s : State) (i : Nat) : List (Nat × Nat × Except Nat Nat) :=
  (pagePieces (x i) (bits (y i) 0 27)).map fun p =>
    (p.1, p.2, if p.1 ≥ 2 ^ 57 then .error Cause.notPresent else (s.translate c.w.core (s.vfOf c.w) c.w.asid p.1 Need.maintain).map (·.1))

/-- A maintenance instruction acts on the pieces of each lane in turn. -/
def actOn (fn : Nat) (y : Nat → Nat) (pieces : Nat → List (Nat × Nat × Except Nat Nat)) (act : List Nat) (s : State) : State :=
  act.foldl (fun s i => (pieces i).foldl (fun s p => match p.2.2 with | .ok d => s.maintain fn (bits (y i) 31 1) d p.2.1 | .error _ => s) s) s

/-- Some piece of a lane, from its place on, satisfies a test. -/
def somePiece (pieces : Nat → List (Nat × Nat × Except Nat Nat)) (act : List Nat) (test : Nat → Nat → Bool) : Bool :=
  act.any fun i => (pieces i).any fun p => match p.2.2 with | .ok d => test d p.2.1 | .error _ => false

section

variable {pieces : Nat → List (Nat × Nat × Except Nat Nat)} {ranges : Nat → List (Nat × Nat)} {dpa : Nat → Nat} {act : List Nat}
  (placed : ∀ i ∈ act, pieces i = (ranges i).map fun p => (p.1, p.2, .ok (dpa p.1)))
include placed

theorem actOn_eq (fn : Nat) (y : Nat → Nat) (s : State) :
    actOn fn y pieces act s = act.foldl (fun u i => (ranges i).foldl (fun u p => u.maintain fn (y i / 2 ^ 31 % 2) (dpa p.1) p.2) u) s :=
  List.foldl_ext _ _ _ fun u i hi => by
    rw [placed i hi, List.foldl_map]
    rfl

theorem somePiece_iff (test : Nat → Nat → Bool) : somePiece pieces act test = true ↔ ∃ i ∈ act, ∃ p ∈ ranges i, test (dpa p.1) p.2 = true := by
  rw [somePiece, List.any_eq_true]
  refine exists_congr fun i => and_congr_right fun hi => ?_
  rw [placed i hi, List.any_map, List.any_eq_true]
  rfl

end

/-! ### What a maintenance instruction does -/

/-- The form of `cln`, `inv` and `cinv`. -/
def maintainForm (a b : BitVec 7) : Sig := { flds := [.unused 0x7C, .r64 a, .r32 b], scalar := true, ends := true }

/-- The context of its issue. -/
abbrev maintainCtx (a b : BitVec 7) (g : Group) (w : Wave) : Ctx := issueCtx (maintainForm a b) g w

/-- An access of the wave from before its fence is outstanding (R166). -/
def earlierAccess (c : Ctx) (s : State) : Bool :=
  (s.remotes.any fun o => o.wid == c.w.wid && decide (o.epoch < c.w.epoch)) || (s.bankOps.any fun o => o.wid == c.w.wid && decide (o.epoch < c.w.epoch))

/-- The accesses noted before the instruction acts (R271, R329). -/
def maintainNoted (fn : Nat) (a b : BitVec 7) (c : Ctx) (s : State) : State :=
  c.act.foldl (fun s i => s.foldAccess c.w.team (c.src64 i a) (BitVec.ofNat 64 (c.src32 i b).toNat) 0 fn) (s.noteAll c.w (c.act.map fun i => (c.src64 i a).toNat))

/-- What it does once its ranges have passed. -/
def maintainActs (fn : Nat) (y : Nat → Nat) (pieces : Nat → List (Nat × Nat × Except Nat Nat)) (c : Ctx) (s : State) : Res :=
  if ((s.team? c.w.team).map (·.secondary)).getD false then .done s
  else
    let bad := somePiece pieces c.act fun d n => (s.othersBad c.w d n).any fun e => s.mismatch.contains (e.dpa / 64)
    if fn ≠ 1 && somePiece pieces c.act fun d n => s.meetsOther c.w d n then
      .moved ((actOn fn y pieces c.act s).faultBefore c (if bad then Cause.checkValue else Cause.ecc) [])
    else .done (actOn fn y pieces c.act s)

def maintainAnswers (fn : Nat) (a b : BitVec 7) (c : Ctx) (s : State) : Res :=
  let x (i : Nat) : Nat := (c.src64 i a).toNat
  let y (i : Nat) : Nat := (c.src32 i b).toNat
  if c.act.any fun i => !plainAddr (x i) || x i % 64 ≠ 0 || !rangeOk (y i) then .fault Cause.illegal
  else match firstCause (c.act.flatMap fun i => (piecesOf x y c s i).map (·.2.2)) with
    | some cause => .fault cause
    | none => if earlierAccess c s then .wait else maintainActs fn y (piecesOf x y c s) c (maintainNoted fn a b c s)

theorem maintainWith_eq (fn : Nat) (a b : BitVec 7) (s : State) : maintainWith fn a b s = issue (maintainForm a b) s (maintainAnswers fn a b) := rfl

theorem exec_maintenance {e : (BitVec 7 → BitVec 7 → Instr) × Nat} (he : e ∈ [(Instr.cln, 0), (Instr.inv, 1), (Instr.cinv, 2)]) (a b : BitVec 7) (s : State) :
    exec (e.1 a b) s = maintainWith e.2 a b s := by
  fin_cases he <;> rfl

/-! ### Lawful ranges -/

section

variable {a b : BitVec 7} {g : Group} {w : Wave} {s : State} {dpa : Nat → Nat}

/-- Each lane's range is lawful, and its pages are translated (R200). -/
def LawfulRanges (a b : BitVec 7) (c : Ctx) (w : Wave) (s : State) (dpa : Nat → Nat) : Prop :=
  ∀ i ∈ c.act, plainAddr (c.src64 i a).toNat = true ∧ (c.src64 i a).toNat % 64 = 0 ∧ rangeOk (c.src32 i b).toNat = true ∧
    ∀ p ∈ pagePieces (c.src64 i a).toNat ((c.src32 i b).toNat % 2 ^ 27),
      p.1 < 2 ^ 57 ∧ ∃ k, s.translate w.core (s.vfOf w) w.asid p.1 Need.maintain = .ok (dpa p.1, k)

variable (lawful : LawfulRanges a b (maintainCtx a b g w) w s dpa)
include lawful

theorem piecesOf_eq {i : Nat} (hi : i ∈ (maintainCtx a b g w).act) :
    piecesOf (fun i => ((maintainCtx a b g w).src64 i a).toNat) (fun i => ((maintainCtx a b g w).src32 i b).toNat)
        (maintainCtx a b g w) (covered (maintainForm a b) g w s) i =
      (pagePieces ((maintainCtx a b g w).src64 i a).toNat (((maintainCtx a b g w).src32 i b).toNat % 2 ^ 27)).map fun p =>
        (p.1, p.2, .ok (dpa p.1)) := by
  rw [piecesOf, bits_low]
  refine List.map_congr_left fun p hp => ?_
  obtain ⟨-, -, -, pages⟩ := lawful i hi
  obtain ⟨small, k, found⟩ := pages p hp
  rw [translate_issueCtx, found, if_neg (Nat.not_le.2 small)]
  rfl

theorem maintainAnswers_of_lawful (fn : Nat) (remotes : ∀ o ∈ s.remotes, o.wid = w.wid → w.epoch ≤ o.epoch)
    (banks : ∀ o ∈ s.bankOps, o.wid = w.wid → w.epoch ≤ o.epoch) {c : Ctx} (hc : c = maintainCtx a b g w) {t : State}
    (ht : t = covered (maintainForm a b) g w s) :
    maintainAnswers fn a b c t =
      maintainActs fn (fun i => (c.src32 i b).toNat) (piecesOf (fun i => (c.src64 i a).toNat) (fun i => (c.src32 i b).toNat) c t) c
        (maintainNoted fn a b c t) := by
  subst hc ht
  have legal : ¬((maintainCtx a b g w).act.any fun i => !plainAddr ((maintainCtx a b g w).src64 i a).toNat ||
      decide (((maintainCtx a b g w).src64 i a).toNat % 64 ≠ 0) || !rangeOk ((maintainCtx a b g w).src32 i b).toNat) = true :=
    not_any_of_eq_false fun i hi => by
      obtain ⟨plain, aligned, range, -⟩ := lawful i hi
      simp [plain, aligned, range]
  have first : firstCause ((maintainCtx a b g w).act.flatMap fun i =>
      (piecesOf (fun i => ((maintainCtx a b g w).src64 i a).toNat) (fun i => ((maintainCtx a b g w).src32 i b).toNat)
        (maintainCtx a b g w) (covered (maintainForm a b) g w s) i).map (·.2.2)) = none := by
    refine firstCause_of_ok fun cause bad => ?_
    obtain ⟨i, hi, bad⟩ := List.mem_flatMap.1 bad
    rw [piecesOf_eq lawful hi, List.map_map] at bad
    obtain ⟨p, -, bad⟩ := List.mem_map.1 bad
    cases bad
  have settled : earlierAccess (maintainCtx a b g w) (covered (maintainForm a b) g w s) = false := by
    rw [earlierAccess, issueCtx_wid, issueCtx_epoch, Bool.or_eq_false_iff]
    refine ⟨Bool.eq_false_iff.2 (not_any_of_eq_false fun o ho => ?_), Bool.eq_false_iff.2 (not_any_of_eq_false fun o ho => ?_)⟩
    · simpa using remotes o ho
    · simpa using banks o ho
  unfold maintainAnswers
  dsimp only
  rw [if_neg legal, first, settled]
  rfl

end

/-! ### The noted accesses -/

section

variable {fn : Nat} {a b : BitVec 7} {g : Group} {w : Wave} {s : State}

/-- The state with the accesses noted, as the statement gives it. -/
def notedState (fn : Nat) (a b : BitVec 7) (g : Group) (w : Wave) (s : State) : State :=
  (maintainCtx a b g w).act.foldl
    (fun u i => u.foldAccess w.team ((maintainCtx a b g w).src64 i a) (BitVec.ofNat 64 ((maintainCtx a b g w).src32 i b).toNat) 0 fn)
    ((covered (maintainForm a b) g w s).noteAll w ((maintainCtx a b g w).act.map fun i => ((maintainCtx a b g w).src64 i a).toNat))

theorem maintainNoted_eq :
    maintainNoted fn a b (maintainCtx a b g w) (covered (maintainForm a b) g w s) = notedState fn a b g w s := by
  rw [maintainNoted, noteAll_issueCtx, issueCtx_team, notedState, covered, ← noteAll_updWave]
  rfl

/-- Only the translation stores and the teams' signatures differ from the covered state. -/
theorem notedState_rest : ∃ tlb teams, notedState fn a b g w s = { covered (maintainForm a b) g w s with tlb := tlb, teams := teams } := by
  rw [notedState, foldAccess_foldl_eq (x := fun i => BitVec.ofNat 64 ((maintainCtx a b g w).src32 i b).toNat) (y := fun _ => 0), noteAll_eq]
  exact ⟨_, _, rfl⟩

theorem notedState_team?_map {α : Type} (π : Team → α) (keeps : ∀ (t : Team) (r : W64), π { t with sigRun := r } = π t) (id : Nat) :
    ((notedState fn a b g w s).team? id).map π = (s.team? id).map π := by
  have folded := foldAccess_foldl_team?_map π keeps
    ((covered (maintainForm a b) g w s).noteAll w ((maintainCtx a b g w).act.map fun i => ((maintainCtx a b g w).src64 i a).toNat))
    w.team (fun i => (maintainCtx a b g w).src64 i a) (fun i => BitVec.ofNat 64 ((maintainCtx a b g w).src32 i b).toNat) (fun _ => 0)
    fn id (maintainCtx a b g w).act
  refine folded.trans ?_
  rw [noteAll_eq]
  rfl

theorem vfOf_notedState : (notedState fn a b g w s).vfOf (maintainCtx a b g w).w = s.vfOf w := by
  rw [State.vfOf, issueCtx_team, notedState_team?_map (·.vf) fun _ _ => rfl]
  rfl

theorem secondary_notedState : (((notedState fn a b g w s).team? (maintainCtx a b g w).w.team).map (·.secondary)).getD false = true ↔
    ∃ t, s.team? w.team = some t ∧ t.secondary = true := by
  rw [issueCtx_team, notedState_team?_map (·.secondary) fun _ _ => rfl]
  cases s.team? w.team <;> simp

/-- A line in error of another context, or of a host, that a write-back of the range meets (R319). -/
def OthersLine (s : State) (w : Wave) (lo n : Nat) (l : Line) : Prop :=
  (lo ≤ l.dpa ∧ l.dpa < lo + n) ∧ l.dirty = true ∧ s.recalled l.dpa = false ∧ s.lineBad l = true ∧ (l.host = true ∨ l.vf ≠ s.vfOf w ∨ l.asid ≠ w.asid)

theorem mem_othersBad_notedState {lo n : Nat} {l : Line} :
    l ∈ (notedState fn a b g w s).othersBad (maintainCtx a b g w).w lo n ↔ l ∈ s.lines ∧ OthersLine s w lo n l := by
  obtain ⟨tlb, teams, rest⟩ := notedState_rest (fn := fn) (a := a) (b := b) (g := g) (w := w) (s := s)
  have lines : (notedState fn a b g w s).lines = s.lines := by rw [rest]; rfl
  have recalled : (notedState fn a b g w s).recalled l.dpa = s.recalled l.dpa := by rw [rest]; rfl
  have bad : (notedState fn a b g w s).lineBad l = s.lineBad l := by rw [rest]; rfl
  rw [State.othersBad, List.mem_filter, lines, recalled, bad, vfOf_notedState, issueCtx_asid]
  simp [OthersLine, and_assoc, or_assoc]

end

/-! ### How a maintenance instruction settles -/

section

variable {i : Instr} {fn : Nat} {a b : BitVec 7} {g : Group} {w : Wave} {s : State} {dpa : Nat → Nat}

/-- The ranges of the lanes, page by page. -/
def rangesOf (a b : BitVec 7) (g : Group) (w : Wave) (i : Nat) : List (Nat × Nat) :=
  pagePieces ((maintainCtx a b g w).src64 i a).toNat (((maintainCtx a b g w).src32 i b).toNat % 2 ^ 27)

/-- The state with the instruction's acts, as the statement gives it. -/
def maintained (fn : Nat) (a b : BitVec 7) (g : Group) (w : Wave) (s : State) (dpa : Nat → Nat) : State :=
  (maintainCtx a b g w).act.foldl
    (fun u i => (rangesOf a b g w i).foldl
      (fun u p => u.maintain fn (((maintainCtx a b g w).src32 i b).toNat / 2 ^ 31 % 2) (dpa p.1) p.2) u)
    (notedState fn a b g w s)

/-- A line that some lane's range meets (R319). -/
def MeetsLine (a b : BitVec 7) (g : Group) (w : Wave) (s : State) (dpa : Nat → Nat) (l : Line) : Prop :=
  ∃ i ∈ (maintainCtx a b g w).act, ∃ p ∈ rangesOf a b g w i, OthersLine s w (dpa p.1) p.2 l

variable (lawful : LawfulRanges a b (maintainCtx a b g w) w s dpa)
include lawful

/-- A test of the lines that the ranges meet. -/
theorem somePiece_othersBad_iff (test : Line → Bool) :
    somePiece (piecesOf (fun i => ((maintainCtx a b g w).src64 i a).toNat) (fun i => ((maintainCtx a b g w).src32 i b).toNat)
      (maintainCtx a b g w) (covered (maintainForm a b) g w s)) (maintainCtx a b g w).act
      (fun d n => ((notedState fn a b g w s).othersBad (maintainCtx a b g w).w d n).any test) = true ↔
    ∃ l ∈ s.lines, MeetsLine a b g w s dpa l ∧ test l = true := by
  rw [somePiece_iff (ranges := rangesOf a b g w) fun i hi => piecesOf_eq lawful hi]
  simp only [List.any_eq_true, mem_othersBad_notedState, MeetsLine]
  constructor
  · rintro ⟨i, hi, p, hp, l, ⟨hl, meets⟩, passes⟩
    exact ⟨l, hl, ⟨i, hi, p, hp, meets⟩, passes⟩
  · rintro ⟨l, hl, ⟨i, hi, p, hp, meets⟩, passes⟩
    exact ⟨i, hi, p, hp, l, ⟨hl, meets⟩, passes⟩

/-- Some range meets a line in error of another context, or of a host. -/
def Foreign (a b : BitVec 7) (g : Group) (w : Wave) (s : State) (dpa : Nat → Nat) : Prop := ∃ l ∈ s.lines, MeetsLine a b g w s dpa l
/-- The error of such a line shows as a mismatch of its check value (R313). -/
def Mismatched (a b : BitVec 7) (g : Group) (w : Wave) (s : State) (dpa : Nat → Nat) : Prop :=
  ∃ l ∈ s.lines, MeetsLine a b g w s dpa l ∧ l.dpa / 64 ∈ s.mismatch

omit lawful in
theorem meetsOther_eq (u : State) (x : Wave) (lo n : Nat) : u.meetsOther x lo n = (u.othersBad x lo n).any fun _ => true := by
  rw [State.meetsOther]
  cases u.othersBad x lo n <;> rfl

theorem foreign_iff :
    somePiece (piecesOf (fun i => ((maintainCtx a b g w).src64 i a).toNat) (fun i => ((maintainCtx a b g w).src32 i b).toNat)
      (maintainCtx a b g w) (covered (maintainForm a b) g w s)) (maintainCtx a b g w).act
      (fun d n => (notedState fn a b g w s).meetsOther (maintainCtx a b g w).w d n) = true ↔ Foreign a b g w s dpa := by
  simp only [meetsOther_eq, somePiece_othersBad_iff lawful, and_true]
  rfl

theorem mismatched_iff :
    somePiece (piecesOf (fun i => ((maintainCtx a b g w).src64 i a).toNat) (fun i => ((maintainCtx a b g w).src32 i b).toNat)
      (maintainCtx a b g w) (covered (maintainForm a b) g w s)) (maintainCtx a b g w).act
      (fun d n => ((notedState fn a b g w s).othersBad (maintainCtx a b g w).w d n).any fun e =>
        (notedState fn a b g w s).mismatch.contains (e.dpa / 64)) = true ↔ Mismatched a b g w s dpa := by
  obtain ⟨tlb, teams, rest⟩ := notedState_rest (fn := fn) (a := a) (b := b) (g := g) (w := w) (s := s)
  have mismatch : (notedState fn a b g w s).mismatch = s.mismatch := by rw [rest]; rfl
  simp only [somePiece_othersBad_iff lawful, mismatch, List.contains_iff_mem]
  rfl

variable (remotes : ∀ o ∈ s.remotes, o.wid = w.wid → w.epoch ≤ o.epoch) (banks : ∀ o ∈ s.bankOps, o.wid = w.wid → w.epoch ≤ o.epoch)
include remotes banks

/-- A secondary twin's is not performed (R329). -/
theorem maintainAnswers_secondary (second : ∃ t, s.team? w.team = some t ∧ t.secondary = true) :
    maintainAnswers fn a b (maintainCtx a b g w) (covered (maintainForm a b) g w s) = .done (notedState fn a b g w s) := by
  rw [maintainAnswers_of_lawful lawful fn remotes banks rfl rfl, maintainNoted_eq]
  exact if_pos (secondary_notedState.2 second)

variable (first : ¬∃ t, s.team? w.team = some t ∧ t.secondary = true)
include first

open Classical in
theorem maintainAnswers_first :
    maintainAnswers fn a b (maintainCtx a b g w) (covered (maintainForm a b) g w s) =
      if fn ≠ 1 ∧ Foreign a b g w s dpa then
        .moved ((maintained fn a b g w s dpa).faultBefore (maintainCtx a b g w)
          (if Mismatched a b g w s dpa then Cause.checkValue else Cause.ecc) [])
      else .done (maintained fn a b g w s dpa) := by
  have acts := actOn_eq (ranges := rangesOf a b g w) (fun i hi => piecesOf_eq lawful hi) fn (fun i => ((maintainCtx a b g w).src32 i b).toNat)
    (notedState fn a b g w s)
  rw [maintainAnswers_of_lawful lawful fn remotes banks rfl rfl, maintainNoted_eq, maintainActs, if_neg (mt secondary_notedState.1 first), acts]
  simp only [mismatched_iff lawful, foreign_iff lawful, Bool.and_eq_true, decide_eq_true_eq]
  rfl

end

section

variable {i : Instr} {fn : Nat} {a b : BitVec 7} {g : Group} {w : Wave} {s u : State}

theorem maintenance_leaves (meaning : exec i s = maintainWith fn a b s) (h : Issues (maintainForm a b) g w s)
    (done : maintainAnswers fn a b (maintainCtx a b g w) (covered (maintainForm a b) g w s) = .done u) :
    Leaves i (maintainForm a b) g w s fun c => u.advance c :=
  meaning.trans (issueWith_done_eq h done)

theorem maintenance_detaches (meaning : exec i s = maintainWith fn a b s) (h : Issues (maintainForm a b) g w s) {cause : Nat}
    (moved : maintainAnswers fn a b (maintainCtx a b g w) (covered (maintainForm a b) g w s) =
      .moved (u.faultBefore (maintainCtx a b g w) cause [])) :
    Leaves i (maintainForm a b) g w s fun c => u.faultBefore c cause [] :=
  meaning.trans (issueWith_moved h moved)

end

/-! ### With nothing in error -/

theorem notedState_linesOnly {fn : Nat} {a b : BitVec 7} {g : Group} {w : Wave} {s : State} (clean : s.errors = []) :
    LinesOnly s (notedState fn a b g w s) := by
  obtain ⟨tlb, teams, rest⟩ := notedState_rest (fn := fn) (a := a) (b := b) (g := g) (w := w) (s := s)
  rw [rest]
  exact ⟨clean, rfl, rfl, rfl⟩

theorem maintained_linesOnly {fn : Nat} {a b : BitVec 7} {g : Group} {w : Wave} {s : State} {dpa : Nat → Nat} (clean : s.errors = []) :
    LinesOnly s (maintained fn a b g w s dpa) := by
  have noted := notedState_linesOnly (fn := fn) (a := a) (b := b) (g := g) (w := w) clean
  exact noted.trans (linesOnly_foldl (fun u i clean => linesOnly_foldl (fun u p clean => maintain_linesOnly clean ..) _ clean) _ noted.clean)

theorem not_foreign_of_clean {a b : BitVec 7} {g : Group} {w : Wave} {s : State} {dpa : Nat → Nat} (clean : s.errors = []) : ¬Foreign a b g w s dpa := by
  rintro ⟨l, -, i, -, p, -, -, -, -, bad, -⟩
  rw [lineBad_eq_false clean] at bad
  cases bad

/-- Settles O24: the ranges' lines are acted on, and a line in error of another context detaches the wave. -/
theorem maintenanceResults : Obligations.MaintenanceResults := by
  intro a b g w s dpa sg c x y pieces secondary h ranges remotes banks e he u done other foreign mismatched
  have lawful : LawfulRanges a b c w s dpa := ranges
  have meaning := exec_maintenance he a b s
  have met (l : Line) : other l ↔ MeetsLine a b g w s dpa l := by
    constructor
    · rintro ⟨⟨i, hi, p, hp, inside⟩, bad⟩
      exact ⟨i, hi, p, hp, inside, bad⟩
    · rintro ⟨i, hi, p, hp, inside, bad⟩
      exact ⟨⟨i, hi, p, hp, inside⟩, bad⟩
  have foreign_eq : foreign ↔ Foreign a b g w s dpa := exists_congr fun l => and_congr_right fun _ => met l
  have mismatched_eq : mismatched ↔ Mismatched a b g w s dpa := exists_congr fun l => and_congr_right fun _ => and_congr_left fun _ => met l
  refine ⟨fun second => ?_, fun first passed => ?_, fun first inv bad shows => ?_, fun first inv bad hidden => ?_, fun clean => ?_⟩
  · exact maintenance_leaves meaning h (maintainAnswers_secondary lawful remotes banks second)
  · refine maintenance_leaves meaning h ((maintainAnswers_first lawful remotes banks first).trans (if_neg ?_))
    rintro ⟨inv, bad⟩
    exact passed.elim inv fun good => good (foreign_eq.2 bad)
  · refine maintenance_detaches meaning h ((maintainAnswers_first lawful remotes banks first).trans ((if_pos ⟨inv, foreign_eq.1 bad⟩).trans ?_))
    rw [if_pos (mismatched_eq.1 shows)]
    rfl
  · refine maintenance_detaches meaning h ((maintainAnswers_first lawful remotes banks first).trans ((if_pos ⟨inv, foreign_eq.1 bad⟩).trans ?_))
    rw [if_neg (mt mismatched_eq.2 hidden)]
    rfl
  · by_cases second : secondary
    · have quiet : LinesOnly s (notedState e.2 a b g w s) := notedState_linesOnly clean
      exact ⟨_, maintenance_leaves meaning h (maintainAnswers_secondary lawful remotes banks second), quiet.mem, quiet.remotes, quiet.copies⟩
    · have quiet : LinesOnly s (maintained e.2 a b g w s dpa) := maintained_linesOnly clean
      have acts := (maintainAnswers_first (fn := e.2) lawful remotes banks second).trans (if_neg fun bad => not_foreign_of_clean clean bad.2)
      exact ⟨_, maintenance_leaves meaning h acts, quiet.mem, quiet.remotes, quiet.copies⟩

end Sys2Proof.Laws

end

section

/-! LEMMAS and the obligation O44. Remote operations at their lines' homes (R191, R83, R86) and deferred reductions applied (R192). -/

namespace Sys2Proof.Laws

open Sys2Proof.Machine Sys2Proof.Safety Sys2Proof.Slice0

/-- The width of an operation's word, in bytes (Table 65). -/
theorem remoteSize_eq (fn : Nat) : remoteSize fn = if fn = 1 ∨ fn = 4 ∨ fn = 6 then 8 else 4 := by
  simp only [remoteSize, Bool.or_eq_true, decide_eq_true_eq, or_assoc]

/-! ### Atomics -/

theorem exec_perform {s : State} {o : RemoteOp} {t : Team} (found : s.remotes.find? (fun x => x.id == o.id) = some o) (team : s.team? o.team = some t)
    (first : t.secondary = false) (ready : s.remoteReady o = true) : exec (.remoteOpPerform o.id) s = .next (s.performRemote o).wakeRetry := by
  have own : s.isSecondary o.team = false := by rw [State.isSecondary, team]; exact first
  simp only [exec_remoteOpPerform, execRemoteOpPerform, found, own, ready, Bool.false_eq_true, if_false, if_true]

section

variable {s : State} {o : RemoteOp} (atomic : o.fn ≤ 4) (readable : s.consumeLine o.dpa = (s, false))
include atomic readable

theorem performRemote_of_atomic :
    s.performRemote o =
      ((if atomWrites o.fn (s.readNat o.dpa (remoteSize o.fn)) o.cmp.toNat then
          s.writeMem { vf := o.vf, asid := o.asid, host := false, l2 := none } (cellsAt o.dpa (leBytes (remoteSize o.fn)
            (atomNew o.fn (s.readNat o.dpa (remoteSize o.fn)) o.val.toNat o.cmp.toNat)))
        else s).answer o (BitVec.ofNat 64 (s.readNat o.dpa (remoteSize o.fn)))) := by
  have isSeal : o.fn ≠ 8 := by omega
  have isZero : o.fn ≠ 9 := by omega
  rw [State.performRemote, if_neg isSeal, if_neg isZero, readable]
  rfl

theorem performRemote_of_written (writes : o.fn ≤ 2 ∨ s.readNat o.dpa (remoteSize o.fn) = o.cmp.toNat) :
    s.performRemote o =
      (s.writeMem { vf := o.vf, asid := o.asid, host := false, l2 := none } (cellsAt o.dpa (leBytes (remoteSize o.fn)
        (atomNew o.fn (s.readNat o.dpa (remoteSize o.fn)) o.val.toNat o.cmp.toNat)))).answer o (BitVec.ofNat 64 (s.readNat o.dpa (remoteSize o.fn))) := by
  have passes : atomWrites o.fn (s.readNat o.dpa (remoteSize o.fn)) o.cmp.toNat = true := by simpa [atomWrites] using writes
  rw [performRemote_of_atomic atomic readable, if_pos passes]

theorem performRemote_of_unequal (compares : 3 ≤ o.fn) (differs : s.readNat o.dpa (remoteSize o.fn) ≠ o.cmp.toNat) :
    s.performRemote o = s.answer o (BitVec.ofNat 64 (s.readNat o.dpa (remoteSize o.fn))) := by
  have fails : ¬atomWrites o.fn (s.readNat o.dpa (remoteSize o.fn)) o.cmp.toNat = true := by simp [atomWrites, differs]; omega
  rw [performRemote_of_atomic atomic readable, if_neg fails]

end

/-- The new value of an atomic that writes. -/
theorem atomNew_eq {fn old val cmp : Nat} (writes : fn ≤ 2 ∨ old = cmp) :
    atomNew fn old val cmp =
      if fn = 0 then (old + val) % 2 ^ 32 else if fn = 1 then (old + val) % 2 ^ 64 else if fn = 2 then val % 2 ^ 32 else val := by
  unfold atomNew
  repeat' split
  all_goals omega

/-! ### Cells (R84-R86) -/

theorem repairAt_of_no_softs {s : State} (sound : s.softs = []) (p : StoreLoc → Bool) : s.repairAt p = s := by
  rw [State.repairAt, sound]
  rfl

theorem findCellError_of_no_marks {s : State} (clean : s.errors = []) (sound : s.softs = []) (dpa : Nat) : s.findCellError dpa = s := by
  rw [State.findCellError, repairAt_of_no_softs sound, clean]
  rfl

section

variable {c : ExactCell} {flush sat : Bool} {v : W64}

theorem sealWith_of_nan (nan : c.poison = true ∨ c.nan = true ∨ (c.pinf = true ∧ c.ninf = true)) : c.sealWith flush sat v = 0x17FC00000 := by
  unfold ExactCell.sealWith
  split
  · rfl
  · next sound => exact if_pos (by simpa using nan.resolve_left sound)

theorem sealWith_of_pinf (poison : c.poison = false) (nan : c.nan = false) (pinf : c.pinf = true) (ninf : c.ninf = false) :
    c.sealWith flush sat v = 0x7F800000 := by
  rw [ExactCell.sealWith, poison, nan, pinf, ninf]
  rfl

theorem sealWith_of_ninf (poison : c.poison = false) (nan : c.nan = false) (pinf : c.pinf = false) (ninf : c.ninf = true) :
    c.sealWith flush sat v = 0xFF800000 := by
  rw [ExactCell.sealWith, poison, nan, pinf, ninf]
  rfl

theorem cast_two_pow (n : Nat) : ((2 ^ n : Nat) : Int) = 2 ^ n := by rw [Nat.cast_pow, Nat.cast_ofNat]

theorem sealWith_of_sum (poison : c.poison = false) (nan : c.nan = false) (pinf : c.pinf = false) (ninf : c.ninf = false) (low : -(2 ^ 314 : Int) ≤ c.sum)
    (high : c.sum < 2 ^ 314) :
    c.sealWith flush sat v =
      BitVec.ofNat 64 ((Fmt.f32.roundInt { rm := 0, fz := flush, sat := sat } c.sum (-149)).1 +
        sealStatus (Fmt.f32.roundInt { rm := 0, fz := flush, sat := sat } c.sum (-149)).2 * 2 ^ 32) := by
  have cast : ((2 ^ 314 : Nat) : Int) = 2 ^ 314 := cast_two_pow 314
  have inside : ¬(decide (c.sum < -(2 ^ 314 : Nat)) || decide (c.sum ≥ (2 ^ 314 : Nat))) = true := by
    rw [cast, Bool.or_eq_true, decide_eq_true_eq, decide_eq_true_eq]
    exact fun out => out.elim (not_lt.2 low) (not_le.2 high)
  rw [ExactCell.sealWith, poison, nan, pinf, ninf, if_neg Bool.false_ne_true, Bool.and_false, Bool.or_false, if_neg Bool.false_ne_true,
    if_neg Bool.false_ne_true, if_neg Bool.false_ne_true, if_neg inside]

end

/-! ### Deferred reductions -/

theorem exec_reductionApply {s : State} {t : Team} {r : Red} {rest : List Red} (team : s.team? t.id = some t) (queue : t.applyQ = r :: rest)
    (free : r.fn = 7 ∨ s.lineHeld r.dpa = false) :
    exec (.deferredReductionApply t.id) s =
      .next (((s.applyRed t.vf t.asid r).updTeam t.id fun t => { t with applyQ := rest }).applied t.id).wakeRetry := by
  simp only [exec_deferredReductionApply, execDeferredReductionApply, team, queue]
  refine if_neg fun held => ?_
  rw [Bool.and_eq_true, decide_eq_true_eq] at held
  obtain free | free := free
  · exact held.1 free
  · exact Bool.false_ne_true (free.symm.trans held.2)

/-- A reduction of a float is added with one rounding (R83). -/
theorem applyRed_of_float {s : State} {r : Red} (vf asid : Nat) (stays : s.pageGone (r.dpa / 65536) = false) (float : r.fn ≠ 7)
    (readable : s.consumeLine r.dpa = (s, false)) :
    s.applyRed vf asid r = s.writeMem { vf := vf, asid := asid, host := false, l2 := none } (cellsAt r.dpa (leBytes (remoteSize r.fn)
      (redNew r.fn r.addr (s.readNat r.dpa (remoteSize r.fn)) (r.value.toNat % 2 ^ (8 * remoteSize r.fn))))) := by
  rw [State.applyRed, stays, if_neg Bool.false_ne_true, if_neg float, readable]
  rfl

/-- A cell takes its addend. -/
theorem applyRed_of_cell {s : State} {r : Red} (vf asid : Nat) (stays : s.pageGone (r.dpa / 65536) = false) (cell : r.fn = 7) (clean : s.errors = [])
    (sound : s.softs = []) :
    s.applyRed vf asid r = s.setCell r.dpa ((s.cell r.dpa).add (r.addr.getLsbD 60) (r.value.toNat % 2 ^ 32)) := by
  rw [State.applyRed, stays, if_neg Bool.false_ne_true, if_pos cell, findCellError_of_no_marks clean sound]

/-- Settles O44: an operation that is ready is performed at its line's home. -/
theorem remotePerforms : Obligations.RemotePerforms := by
  intro s o t r rest size home old new
  refine ⟨fun found team first ready readable => ?_, fun team queue stays => ?_⟩
  · have performs := exec_perform found team first ready
    have width : remoteSize o.fn = size o.fn := remoteSize_eq o.fn
    refine ⟨fun writes => ?_, fun compares differs => ?_, fun isSeal clean sound => ?_, fun zero clean sound => ?_⟩
    · have written : o.fn ≤ 2 ∨ old = o.cmp.toNat := writes.imp_right And.right
      have atomic : o.fn ≤ 4 := writes.elim (fun h => h.trans (by decide)) And.left
      rw [performs, performRemote_of_written atomic readable (by rw [width]; exact written), width, atomNew_eq written]
    · have fails := performRemote_of_unequal (o := o) (by omega) readable (by omega) (by rw [width]; exact differs)
      rw [performs, fails, width]
    · intro cell env sum status
      refine ⟨cell.sealWith (o.addr.getLsbD 60) (o.addr.getLsbD 61) (Config.freeValue s.free), ?_, sealWith_of_nan, sealWith_of_pinf, sealWith_of_ninf,
        sealWith_of_sum⟩
      rw [performs, State.performRemote, if_pos isSeal, findCellError_of_no_marks clean sound]
      rfl
    · have cell : o.fn ≠ 8 := by omega
      rw [performs, State.performRemote, if_neg cell, if_pos zero, forget_of_no_marks clean sound]
  · have width : remoteSize r.fn = size r.fn := remoteSize_eq r.fn
    refine ⟨fun float free readable => ?_, fun cell clean sound => ?_⟩
    · rw [exec_reductionApply team queue (.inr free), applyRed_of_float t.vf t.asid stays (by omega) readable, width]
    · rw [exec_reductionApply team queue (.inl cell), applyRed_of_cell t.vf t.asid stays cell clean sound]

end Sys2Proof.Laws

end

section

/-! LEMMAS and the obligation O27. The return stack of a lane (R208, R209): the last four entries stand on chip, those below in the spill area. A push at depth 4 or
more moves the oldest entry on chip to the spill area, and the pop after it reads that entry back. -/

namespace Sys2Proof.Laws

open Sys2Proof.Machine

section

variable {l : Lane} {ra : W57}

/-! ### One push, one pop -/

theorem push_of_shallow (shallow : l.depth < 4) : l.push ra = { l with depth := l.depth + 1, chip := l.chip ++ [ra] } :=
  if_neg (by omega)

theorem push_of_deep (deep : 4 ≤ l.depth) :
    l.push ra = { l with
      depth := l.depth + 1, spill := l.spill.set (l.depth - 4) ((l.chip.headD 0).setWidth 64), chip := l.chip.drop 1 ++ [ra] } := by
  have place : l.depth + 1 - 5 = l.depth - 4 := by omega
  rw [← place]
  exact if_pos (by omega)

theorem pop_of_shallow (shallow : l.depth < 5) : l.pop = { l with depth := l.depth - 1, chip := l.chip.dropLast } :=
  if_neg (by omega)

theorem pop_of_deep (deep : 5 ≤ l.depth) :
    l.pop = { l with depth := l.depth - 1, chip := (l.spill.getD (l.depth - 5) 0).setWidth 57 :: l.chip.dropLast } := by
  have place : l.depth - 1 - 4 = l.depth - 5 := by omega
  rw [← place]
  exact if_pos (by omega)

@[simp] theorem push_depth : (l.push ra).depth = l.depth + 1 := by
  obtain shallow | deep := Nat.lt_or_ge l.depth 4
  · rw [push_of_shallow shallow]
  · rw [push_of_deep deep]

theorem exists_push_chip_eq_concat : ∃ below, (l.push ra).chip = below ++ [ra] := by
  obtain shallow | deep := Nat.lt_or_ge l.depth 4
  · exact ⟨_, congrArg Lane.chip (push_of_shallow shallow)⟩
  · exact ⟨_, congrArg Lane.chip (push_of_deep deep)⟩

/-! ### What the pop reads back -/

/-- The deepest entry is the last one on chip. -/
theorem top_of_chip_eq_concat {below : List W57} (last : l.chip = below ++ [ra]) : l.top = ra := by
  have place : l.depth + (below.length + 1) - l.depth - 1 = below.length := by omega
  rw [Lane.top, Lane.entry, if_pos (by omega), last, List.length_append, List.length_singleton, place]
  simp

theorem top_push : (l.push ra).top = ra := by
  obtain ⟨_, last⟩ := exists_push_chip_eq_concat (l := l) (ra := ra)
  exact top_of_chip_eq_concat last

/-- A word of the spill area holds an entry of 57 bits unchanged. -/
theorem spilled_entry_read_back (x : W57) : (x.setWidth 64).setWidth 57 = x := by
  rw [BitVec.setWidth_setWidth_of_le _ (by decide), BitVec.setWidth_eq]

theorem pop_push_of_shallow (shallow : l.depth < 4) : (l.push ra).pop = l := by
  rw [push_of_shallow shallow, pop_of_shallow (Nat.succ_lt_succ shallow)]
  simp

/-- The entry that the push moved to the spill area stays there in a word of its own. -/
theorem pop_push_of_deep (deep : 4 ≤ l.depth) (room : l.depth - 4 < l.spill.length) (full : l.chip.length = 4) :
    (l.push ra).pop = { l with spill := l.spill.set (l.depth - 4) ((l.chip.headD 0).setWidth 64) } := by
  obtain ⟨oldest, rest, chip⟩ : ∃ x xs, l.chip = x :: xs := List.exists_cons_of_length_eq_add_one full
  have place : l.depth + 1 - 5 = l.depth - 4 := by omega
  have back : (l.spill.set (l.depth - 4) (oldest.setWidth 64)).getD (l.depth - 4) 0 = oldest.setWidth 64 := by simp [room]
  rw [push_of_deep deep, pop_of_deep (Nat.succ_le_succ deep)]
  simp only [chip, List.headD_cons, List.drop_one, List.tail_cons, List.dropLast_concat, place, back, spilled_entry_read_back, Nat.add_sub_cancel]

/-- A pop after a push gives the lane back, but for words of the spill area above the entries that stand there. -/
theorem pop_push (depth : l.depth < 32) (last : l.chip.length = min l.depth 4) (area : l.spill.length = 28) :
    ∃ spill, (l.push ra).pop = { l with spill := spill } ∧ ∀ k, k + 4 < l.depth → spill.getD k 0 = l.spill.getD k 0 := by
  obtain shallow | deep := Nat.lt_or_ge l.depth 4
  · exact ⟨l.spill, pop_push_of_shallow shallow, fun _ _ => rfl⟩
  · refine ⟨_, pop_push_of_deep deep (by omega) (by omega), fun k below => ?_⟩
    have other : l.depth - 4 ≠ k := by omega
    simp [List.getD_eq_getElem?_getD, List.getElem?_set_ne other]

/-- An entry below those on chip is read from its own word of the spill area. -/
theorem entry_of_spill {spill : List W64} (stands : ∀ k, k + 4 < l.depth → spill.getD k 0 = l.spill.getD k 0) {e : Nat} (positive : 1 ≤ e) :
    ({ l with spill := spill } : Lane).entry e = l.entry e := by
  by_cases onChip : e + 4 > l.depth
  · rw [Lane.entry, Lane.entry, if_pos onChip, if_pos onChip]
  · rw [Lane.entry, Lane.entry, if_neg onChip, if_neg onChip, stands (e - 1) (by omega)]

end

/-- Settles O27: the pop gives the lane back but for words of the spill area that hold no entry. -/
theorem returnStackRoundTrip : Obligations.ReturnStackRoundTrip := by
  intro l ra depth last area
  obtain ⟨spill, popped, stands⟩ := pop_push (ra := ra) depth last area
  rw [popped]
  exact ⟨top_push, push_depth, rfl, rfl, fun e positive _ => entry_of_spill stands positive⟩

end Sys2Proof.Laws

end

section

/-! LEMMAS and the obligation O31. `regroup` moves its lanes itself (R213, R214): those that found a place leave the wave, those that did not go to their target; a
wave that all have left ends. -/

namespace Sys2Proof.Laws

open Sys2Proof.Machine Sys2Proof.Safety Sys2Proof.Slice0

/-! ### Operands and lanes -/

theorem codeAddr_eq_true_iff {x : W64} : codeAddr x = true ↔ x.toNat % 4 = 0 ∧ x.toNat < 2 ^ 57 := by simp [codeAddr]

theorem physical_nil (w : Wave) : w.physical [] = [] := by simp [Wave.physical]

/-- Each lane of Active has a lawful target, carries no more registers than the wave has, and has an empty return stack (R222, R234). -/
def RegroupLawful (a b : BitVec 7) (c : Ctx) : Prop :=
  ∀ i ∈ c.act, (c.src64 i a).toNat % 4 = 0 ∧ (c.src64 i a).toNat < 2 ^ 57 ∧ (c.src32 i b).toNat % 128 ≤ c.w.nregs ∧ (c.lane i).depth = 0

/-- The lanes of `stay` go to their targets as normal, the others leave (R214). -/
def parted (a : BitVec 7) (c : Ctx) (stay : List Nat) (x : Wave) : Wave :=
  { x with
    lanes := x.lanes.mapIdx fun i l =>
      if (c.w.physical stay).contains i then { l with pc := (c.src64 i a).setWidth 57, yielded := false } else { l with live := false, sleep := none } }

theorem parted_nil (a : BitVec 7) (c : Ctx) :
    parted a c [] = fun x => { x with lanes := x.lanes.map fun l => { l with live := false, sleep := none } } := by
  funext x
  have leaves (l : List Lane) : l.mapIdx (fun _ l => { l with live := false, sleep := none }) = l.map fun l => { l with live := false, sleep := none } :=
    List.ext_getElem (by simp) (by simp)
  simp [parted, physical_nil, leaves]

/-! ### The instruction -/

/-- The wave's commit has been made and its held latch released (R213 steps 1 and 3). -/
def committedUnlatched (u : State) (wid : Nat) : State := (u.commitWave wid true).1.updWave wid fun x => { x with mlatch := none }

/-- What the placing of the lanes leaves, and the lanes that stay (R213 step 4): with the wave's own slot free where all its lanes then find a place, with it
taken otherwise (notes/assumptions/13). -/
def regroupPlaced (a b : BitVec 7) (c : Ctx) (u : State) : State × List Nat :=
  if (u.placeAll c true a b).2 = [] then u.placeAll c true a b else u.placeAll c false a b

theorem regroupPlaced_of_all {a b : BitVec 7} {c : Ctx} {u t : State} (all : u.placeAll c true a b = (t, [])) : regroupPlaced a b c u = (t, []) := by
  rw [regroupPlaced, if_pos (congrArg Prod.snd all), all]

theorem regroupPlaced_of_stay {a b : BitVec 7} {c : Ctx} {u : State} (stay : ∀ t, u.placeAll c true a b ≠ (t, [])) :
    regroupPlaced a b c u = u.placeAll c false a b :=
  if_neg fun all => stay _ (Prod.ext rfl all)

/-- The lanes that found a place leave the wave `wid`, those that did not go to their targets; the wave ends when none stays. -/
def regrouped (a : BitVec 7) (c : Ctx) (wid : Nat) (r : State × List Nat) : State :=
  if r.2 = [] then (r.1.updWave wid (parted a c r.2)).finishWave wid else r.1.updWave wid (parted a c r.2)

theorem regrouped_of_none {a : BitVec 7} {c : Ctx} {wid : Nat} {r : State × List Nat} (empty : r.2 = []) :
    regrouped a c wid r =
      (r.1.updWave wid fun x => { x with lanes := x.lanes.map fun l => { l with live := false, sleep := none } }).finishWave wid := by
  rw [regrouped, if_pos empty, empty, parted_nil]

theorem regrouped_of_stay {a : BitVec 7} {c : Ctx} {wid : Nat} {r : State × List Nat} (stay : r.2 ≠ []) :
    regrouped a c wid r = r.1.updWave wid (parted a c r.2) :=
  if_neg stay

theorem regrouped_eq {a : BitVec 7} {c : Ctx} {wid : Nat} {r placed : State × List Nat} (same : placed = r) :
    (if placed.2.isEmpty = true then (placed.1.updWave wid (parted a c placed.2)).finishWave wid else placed.1.updWave wid (parted a c placed.2)) =
      regrouped a c wid r := by
  simp only [same, regrouped, List.isEmpty_iff]

/-- The form of `regroup`, and what R328 compares of it. -/
abbrev regroupForm (a b : BitVec 7) : Sig := { flds := [.unused 0x7C, .r64 a, .r32 b], guard := false, scalar := true, ends := true }
abbrev regroupCompares (a b : BitVec 7) : Ctx → Nat → List W64 := fun c i => [c.src64 i a, (c.src32 i b).setWidth 64]

section

variable {a b : BitVec 7} {c : Ctx} {g : Group} {w : Wave} {s : State}

theorem not_any_unlawful (lawful : RegroupLawful a b c) :
    ¬(c.act.any fun i => !codeAddr (c.src64 i a) || decide (bits (c.src32 i b).toNat 0 7 > c.w.nregs) || decide ((c.lane i).depth > 0)) = true :=
  not_any_of_eq_false fun i hi => by
    obtain ⟨aligned, short, carried, empty⟩ := lawful i hi
    have target : codeAddr (c.src64 i a) = true := codeAddr_eq_true_iff.2 ⟨aligned, short⟩
    simp [target, bits_low, carried, empty]

theorem not_any_unstarted {ops : List MmaOp} {wid : Nat} (started : ∀ m ∈ ops, m.wid = wid → m.phase ≠ .issued) :
    ¬(ops.any fun m => m.wid == wid && m.phase == .issued) = true :=
  not_any_of_eq_false fun m hm => by simpa using started m hm

/-- With lawful operands, no access and no unstarted operation outstanding, and a commit that fits, the wave commits and its lanes are regrouped. -/
theorem regroup_moves (h : IssuesWith (regroupForm a b) (regroupCompares a b) g w s) (lawful : RegroupLawful a b (issueCtx (regroupForm a b) g w))
    (quiet : s.accessOut w.wid = false) (sound : s.pannierPoison w.wid = false)
    (fits : ((covered (regroupForm a b) g w s).commitWave w.wid true).1.overlaysFit (w.core / 2) = true)
    (started : ∀ m ∈ s.mmas, m.wid = w.wid → m.phase ≠ .issued) :
    Leaves (.regroup a b) (regroupForm a b) g w s fun c =>
      regrouped a c w.wid (regroupPlaced a b c (committedUnlatched (covered (regroupForm a b) g w s) w.wid)) := by
  have wid := issueCtx_wid (regroupForm a b) g w
  have core := issueCtx_core (regroupForm a b) g w
  refine (exec_regroup a b s).trans (issueWith_moved h ?_)
  refine (if_neg (not_any_unlawful lawful)).trans ?_
  rw [wid, core]
  refine (if_neg (ne_true_of_eq_false quiet)).trans ((if_neg (ne_true_of_eq_false sound)).trans ?_)
  refine (if_neg (by rw [fits]; exact Bool.false_ne_true)).trans ((if_neg (not_any_unstarted started)).trans ?_)
  refine congrArg Res.moved (regrouped_eq ?_)
  split
  next t all => exact (regroupPlaced_of_all all).symm
  next stay => exact (regroupPlaced_of_stay stay).symm

end

/-- Settles O31: the wave commits, its lanes are placed, and those that stay are the lanes of `regroupPlaced`. -/
theorem regroupResults : Obligations.RegroupResults := by
  intro a b g w s sg c s1 s2 r h lawful quiet sound fits started
  have operands : RegroupLawful a b c := by simpa only [RegroupLawful, c, issueCtx_nregs] using lawful
  have moves := regroup_moves h operands quiet sound fits started
  refine ⟨fun empty => moves.trans ?_, fun stay => moves.trans ?_⟩
  · exact congrArg (fun u => Host.Outcome.next (ended u w.wid)) (regrouped_of_none empty)
  · exact congrArg (fun u => Host.Outcome.next (ended u w.wid)) (regrouped_of_stay stay)

end Sys2Proof.Laws

end

section

/-! LEMMAS for O22, O25, O26, O28 and O32. How an instruction settles that moves its lanes itself, or acts on other waves beside its own. -/

namespace Sys2Proof.Laws

open Sys2Proof.Machine Sys2Proof.Safety Sys2Proof.Slice0

section

variable {i : Instr} {sg : Sig} {cmp : Ctx → Nat → List W64} {g : Group} {w : Wave} {s : State} {k : Ctx → State → Res}

theorem leaves_of_moved (meaning : exec i s = issueWith sg cmp s k) (h : IssuesWith sg cmp g w s) {u : Ctx → State}
    (moved : k (issueCtx sg g w) (covered sg g w s) = .moved (u (issueCtx sg g w))) : Leaves i sg g w s u :=
  meaning.trans (issueWith_moved h moved)

theorem leaves_of_done (meaning : exec i s = issueWith sg cmp s k) (h : IssuesWith sg cmp g w s) {u : Ctx → State}
    (done : k (issueCtx sg g w) (covered sg g w s) = .done (u (issueCtx sg g w))) : Leaves i sg g w s fun c => (u c).advance c :=
  meaning.trans (issueWith_done_eq h done)

/-- The base is the state before, with what the instruction changes outside the issuing wave. -/
theorem moves_of_moved (meaning : exec i s = issueWith sg cmp s k) (h : IssuesWith sg cmp g w s) {base u : State} {f : Ctx → Wave → Wave}
    (wave : base.waves = s.waves) (moved : k (issueCtx sg g w) (covered sg g w s) = .moved u)
    (touches : Touches (covered sg g w base) u (issueCtx sg g w).w.wid (f (issueCtx sg g w) ∘ pastGroup (issueCtx sg g w))) : Moves i sg g w s base f := by
  unfold Moves
  rw [meaning]
  exact issueWith_moved_base base ((wave?_congr wave _).trans h.wave) h moved touches

end

/-- Lanes that a transfer moves, the marks of the return-stack words it replaces gone (R315). -/
theorem Touches.cleanStacks_steer (s : State) (c : Ctx) (f : Nat → Lane → Lane) :
    Touches s ((s.cleanStacks c).steer c f) c.w.wid (onActive c f ∘ pastGroup c) :=
  (Touches.forget s _ _).trans (Touches.steer _ c f)

end Sys2Proof.Laws

end

section

/-! LEMMAS and the obligation O25. Branches and calls to the target in their word (R224, R208). -/

namespace Sys2Proof.Laws

open Sys2Proof.Machine Sys2Proof.Safety Sys2Proof.Slice0

/-- The form of a branch of a kind: 0 `br`, 1 `bry`, 2 `call`. -/
def branchForm (kind : Nat) (g : Group) (o : BitVec 20) : Sig :=
  { flds := [], guard := false, wides := 1, bfmt := true, ends := kind == 1,
    ok := targetOk g o && (kind ≠ 1 || decide (wideValue g 20 o.toNat ≤ 0)), pro := kind == 0 }

/-- What R328 compares of a branch: whether the lane takes it. -/
def branchCompares (taken : Ctx → Nat → Bool) (c : Ctx) (i : Nat) : List W64 := [if taken c i then 1 else 0]

/-- What a branch makes of a lane of Active. -/
def branched (kind : Nat) (taken : Ctx → Nat → Bool) (o : BitVec 20) (c : Ctx) (i : Nat) (l : Lane) : Lane :=
  if taken c i then { (if kind = 2 then l.push c.next else l) with pc := BitVec.ofInt 57 (targetOf c.g o), yielded := kind == 1 } else l

def branchAnswers (kind : Nat) (taken : Ctx → Nat → Bool) (o : BitVec 20) (c : Ctx) (s : State) : Res :=
  if kind = 2 && c.act.any fun i => taken c i && decide ((c.lane i).depth ≥ 32) then .fault Cause.stackOvf
  else .moved ((s.cleanStacks c).steer c (branched kind taken o c))

theorem branchWith_eq {s : State} {g : Group} (selected : s.grp = some g) (kind : Nat) (taken : Ctx → Nat → Bool) (o : BitVec 20) :
    branchWith kind taken o s = issueWith (branchForm kind g o) (branchCompares taken) s (branchAnswers kind taken o) := by
  unfold branchWith
  rw [selected]
  rfl

theorem exec_branches {e : (BitVec 20 → Instr) × Nat} (he : e ∈ [(Instr.br, 0), (Instr.bry, 1), (Instr.call, 2)]) (o : BitVec 20) (s : State) :
    exec (e.1 o) s = branchWith e.2 (fun _ _ => true) o s := by
  fin_cases he <;> rfl

theorem exec_guardedBranches {x : (BitVec 3 → BitVec 1 → BitVec 20 → Instr) × Nat}
    (hx : x ∈ [(Instr.brGuarded, 0), (Instr.bryGuarded, 1), (Instr.callGuarded, 2)]) (p : BitVec 3) (e : BitVec 1) (o : BitVec 20) (s : State) :
    exec (x.1 p e o) s = branchWith x.2 (guardTaken p e) o s := by
  fin_cases hx <;> rfl

section

variable {i : Instr} {kind : Nat} {taken : Ctx → Nat → Bool} {o : BitVec 20} {g : Group} {w : Wave} {s : State}

theorem branch_moves (meaning : exec i s = branchWith kind taken o s) (h : IssuesWith (branchForm kind g o) (branchCompares taken) g w s)
    (room : kind = 2 → ∀ j ∈ (issueCtx (branchForm kind g o) g w).act,
      taken (issueCtx (branchForm kind g o) g w) j = true → ((issueCtx (branchForm kind g o) g w).lane j).depth < 32) :
    Moves i (branchForm kind g o) g w s s fun c => onActive c (branched kind taken o c) := by
  have fits : ¬(kind = 2 && (issueCtx (branchForm kind g o) g w).act.any fun j =>
      taken (issueCtx (branchForm kind g o) g w) j && decide (((issueCtx (branchForm kind g o) g w).lane j).depth ≥ 32)) = true := by
    simpa using room
  exact moves_of_moved (meaning.trans (branchWith_eq h.selected kind taken o)) h rfl (if_neg fits) (Touches.cleanStacks_steer _ _ _)

theorem call_traps (meaning : exec i s = branchWith 2 taken o s) (h : IssuesWith (branchForm 2 g o) (branchCompares taken) g w s)
    (full : ∃ j ∈ (issueCtx (branchForm 2 g o) g w).act,
      taken (issueCtx (branchForm 2 g o) g w) j = true ∧ 32 ≤ ((issueCtx (branchForm 2 g o) g w).lane j).depth) :
    Traps i (branchForm 2 g o) g w s Cause.stackOvf :=
  traps_of_fault_compared (meaning.trans (branchWith_eq h.selected 2 taken o)) h (if_pos (by simpa using full))

end

/-- Settles O25: with room on the stacks the lanes that take the branch stand at its target, and without it the wave detaches. -/
theorem branchResults : Obligations.BranchResults := by
  intro p e o g w s target sg does full guarded
  exact ⟨fun x hx h room => branch_moves (exec_branches hx o s) h room, fun x hx h room => branch_moves (exec_guardedBranches hx p e o s) h room,
    fun h deep => call_traps rfl h deep, fun h deep => call_traps rfl h deep⟩

end Sys2Proof.Laws

end

section

/-! LEMMAS and the obligation O26. Transfers to an address that each lane holds (R225): in its registers, or on its return stack (R208). -/

namespace Sys2Proof.Laws

open Sys2Proof.Machine Sys2Proof.Safety Sys2Proof.Slice0

/-- The form of `jmpr` and `callr`, and what R328 compares of them. -/
abbrev targetForm (a : BitVec 7) : Sig := { flds := [.unused 0x7C, .r64 a, .unused 0x7C], scalar := true }
abbrev targetCompares (a : BitVec 7) (c : Ctx) (i : Nat) : List W64 := [c.src64 i a]

/-- The form of `ret`, and what R328 compares of it. -/
abbrev returnForm : Sig := { flds := [.unused 0x7C, .unused 0x7C, .unused 0x7C] }
abbrev returnCompares (c : Ctx) (i : Nat) : List W64 := [(c.lane i).top.setWidth 64]

/-- Each lane of Active holds a lawful code address (R222). -/
def LawfulTargets (a : BitVec 7) (c : Ctx) : Prop := ∀ i ∈ c.act, (c.src64 i a).toNat % 4 = 0 ∧ (c.src64 i a).toNat < 2 ^ 57

theorem any_unlawful_iff {a : BitVec 7} {c : Ctx} : (c.act.any fun i => !codeAddr (c.src64 i a)) = true ↔ ¬LawfulTargets a c := by
  simp only [LawfulTargets, ← codeAddr_eq_true_iff, List.any_eq_true, Bool.not_eq_true', not_forall, Bool.not_eq_true, exists_prop]

theorem any_full_iff {c : Ctx} : (c.act.any fun i => decide ((c.lane i).depth ≥ 32)) = true ↔ ∃ i ∈ c.act, 32 ≤ (c.lane i).depth := by
  simp

theorem any_empty_iff {c : Ctx} : (c.act.any fun i => (c.lane i).depth == 0) = true ↔ ∃ i ∈ c.act, (c.lane i).depth = 0 := by
  simp

section

variable {a : BitVec 7} {g : Group} {w : Wave} {s : State}

section

variable (h : IssuesWith (targetForm a) (targetCompares a) g w s)
include h

theorem jmpr_traps (unlawful : ¬LawfulTargets a (issueCtx (targetForm a) g w)) : Traps (.jmpr a) (targetForm a) g w s Cause.illegal :=
  traps_of_fault_compared (exec_jmpr a s) h (if_pos (any_unlawful_iff.2 unlawful))

theorem callr_traps (unlawful : ¬LawfulTargets a (issueCtx (targetForm a) g w)) : Traps (.callr a) (targetForm a) g w s Cause.illegal :=
  traps_of_fault_compared (exec_callr a s) h (if_pos (any_unlawful_iff.2 unlawful))

variable (lawful : LawfulTargets a (issueCtx (targetForm a) g w))
include lawful

theorem jmpr_moves : Moves (.jmpr a) (targetForm a) g w s s fun c => onActive c fun i l => { l with pc := (c.src64 i a).setWidth 57, yielded := false } :=
  moves_of_moved (exec_jmpr a s) h rfl (if_neg fun bad => any_unlawful_iff.1 bad lawful) (Touches.steer _ _ _)

theorem callr_moves (room : ∀ i ∈ (issueCtx (targetForm a) g w).act, ((issueCtx (targetForm a) g w).lane i).depth < 32) :
    Moves (.callr a) (targetForm a) g w s s fun c => onActive c fun i l => { l.push (g.at_ + 4) with pc := (c.src64 i a).setWidth 57, yielded := false } := by
  have fits : ¬((issueCtx (targetForm a) g w).act.any fun i => decide (((issueCtx (targetForm a) g w).lane i).depth ≥ 32)) = true :=
    not_any_of_eq_false fun i hi => by simpa using room i hi
  exact moves_of_moved (exec_callr a s) h rfl ((if_neg fun bad => any_unlawful_iff.1 bad lawful).trans (if_neg fits)) (Touches.cleanStacks_steer _ _ _)

theorem callr_overflows (full : ∃ i ∈ (issueCtx (targetForm a) g w).act, 32 ≤ ((issueCtx (targetForm a) g w).lane i).depth) :
    Traps (.callr a) (targetForm a) g w s Cause.stackOvf :=
  traps_of_fault_compared (exec_callr a s) h ((if_neg fun bad => any_unlawful_iff.1 bad lawful).trans (if_pos (any_full_iff.2 full)))

end

variable (h : IssuesWith returnForm returnCompares g w s)
include h

theorem ret_moves (entries : ∀ i ∈ (issueCtx returnForm g w).act, ((issueCtx returnForm g w).lane i).depth ≠ 0) :
    Moves .ret returnForm g w s s fun c => onActive c fun _ l => { l.pop with pc := l.top, yielded := false } := by
  have filled : ¬((issueCtx returnForm g w).act.any fun i => ((issueCtx returnForm g w).lane i).depth == 0) = true :=
    not_any_of_eq_false fun i hi => by simpa using entries i hi
  exact moves_of_moved (exec_ret s) h rfl (if_neg filled) (Touches.cleanStacks_steer _ _ _)

theorem ret_traps (empty : ∃ i ∈ (issueCtx returnForm g w).act, ((issueCtx returnForm g w).lane i).depth = 0) : Traps .ret returnForm g w s Cause.illegal :=
  traps_of_fault_compared (exec_ret s) h (if_pos (any_empty_iff.2 empty))

end

/-- Settles O26: the check of the targets comes first, then that of the stacks; past them each lane of Active stands at its own address. -/
theorem indirectTransfers : Obligations.IndirectTransfers := by
  intro a g w s sg ra c lawful
  exact ⟨fun h bad => ⟨jmpr_traps h bad, callr_traps h bad⟩, fun h good => ⟨jmpr_moves h good, callr_moves h good, callr_overflows h good⟩,
    fun h => ⟨ret_moves h, ret_traps h⟩⟩

end Sys2Proof.Laws

end

section

/-! LEMMAS and the obligation O30. Votes, ballots, shuffles and `sget` (R230-R232): each reads across the lanes of Active and makes one write. -/

namespace Sys2Proof.Laws

open Sys2Proof.Machine Sys2Proof.Safety Sys2Proof.Slice0

/-! ### Which form writes what -/

theorem lany_writes (p q : BitVec 3) : Writes (.lany p q) { flds := [.unused 0x7C] }
    fun c u => u.putPred c p.toNat fun _ => c.act.any fun i => c.predOf i q.toNat := fun _ => rfl

theorem lall_writes (p q : BitVec 3) : Writes (.lall p q) { flds := [.unused 0x7C] }
    fun c u => u.putPred c p.toNat fun _ => c.act.all fun i => c.predOf i q.toNat := fun _ => rfl

theorem lbits_writes (d : BitVec 7) (q : BitVec 3) : Writes (.lbits d q) { flds := [.w64 d true, .unused 0x7C] }
    fun c u => u.put64 c d fun _ => maskOf 64 fun i => c.act.contains i && c.predOf i q.toNat := fun _ => rfl

section

variable (src : Nat → Nat → Nat → Option Nat) (d a b : BitVec 7)

/-- What a shuffle gives a lane (R231): a of the source lane where that is Active, and d otherwise; a shadow reads the shadow of the source. -/
def shuffled (c : Ctx) (i : Nat) : W32 :=
  match (src c.w.plan (c.index i) (c.src32 i b).toNat).filter (c.act.contains ·) with
  | some j => c.src32 (j + (i - c.index i)) a
  | none => c.src32 i d

theorem shuffle_eq (s : State) : shuffle src d a b s =
    issue { flds := [.rw32 d true, .r32 a, .r32 b], scalar := true } s fun c u => .done (u.put32 c d (shuffled src d a b c)) := by
  unfold shuffle
  congr 1
  funext c u
  refine congrArg (fun v => Res.done (u.put32 c d v)) (funext fun i => ?_)
  unfold shuffled
  dsimp only
  cases src c.w.plan (c.index i) (c.src32 i b).toNat with
  | none => rfl
  | some j =>
    by_cases active : c.act.contains j = true
    · simp only [Option.filter_some, if_pos active]
    · simp only [Option.filter_some, if_neg active]

theorem exec_shuffles {e : (BitVec 7 → BitVec 7 → BitVec 7 → Instr) × (Nat → Nat → Nat → Option Nat)} (he : e ∈ shuffles) (s : State) :
    exec (e.1 d a b) s = shuffle e.2 d a b s := by
  fin_cases he <;> rfl

theorem shuffles_write : ∀ e ∈ shuffles, Writes (e.1 d a b) { flds := [.rw32 d true, .r32 a, .r32 b], scalar := true }
    fun c u => u.put32 c d (shuffled e.2 d a b c) :=
  fun e he s => (exec_shuffles d a b he s).trans (shuffle_eq e.2 d a b s)

end

/-- Settles O30: each form makes one write, of what it has read across the lanes of Active. -/
theorem laneExchange : Obligations.LaneExchange := by
  intro p q n d a b g w s vote ballot three get holds
  refine ⟨fun h => ⟨?_, ?_⟩, fun h => ?_, fun h e he => ?_, fun h => ?_⟩
  · exact (lany_writes p q).does (fun u => Touches.putPred' u _ p _) h
  · exact (lall_writes p q).does (fun u => Touches.putPred' u _ p _) h
  · exact (lbits_writes d q).does (fun u => Touches.put64' u _ d _) h
  · exact (shuffles_write d a b e he).does (fun u => Touches.put32' u _ d _) h
  · exact does_of_done_compared (exec_sget n a s) h rfl rfl (Touches.putScalar _ _ n _)

end Sys2Proof.Laws

end

section

/-! LEMMAS and the obligation O28. `exit` ends the lanes of Active (R226): while other lanes live the wave goes on; the last ones commit their wave, and with it
their block when no lane is left beside it (R153, R154). `trap` detaches its wave past the group (R227, R288). -/

namespace Sys2Proof.Laws

open Sys2Proof.Machine Sys2Proof.Safety Sys2Proof.Slice0

/-! ### The lanes of the wave -/

/-- A lane that has exited. -/
def gone (_ : Nat) (l : Lane) : Lane := { l with live := false, sleep := none }

/-- The issuing wave once the lanes of Active have exited. -/
def exited (c : Ctx) : Wave := onActive c gone (pastGroup c c.w)

theorem getElem?_exited_live (c : Ctx) (i : Nat) :
    (exited c).lanes[i]?.map (·.live) = c.w.lanes[i]?.map fun l => if c.phys.contains i then false else l.live := by
  simp only [exited, onActive, pastGroup, gone, List.getElem?_mapIdx, Option.map_map]
  congr 1
  funext l
  simp only [Function.comp_apply]
  split_ifs <;> rfl

/-- A lane lives on when it lives and is none of Active's. -/
theorem any_live_exited_iff (c : Ctx) : ((exited c).lanes.any (·.live)) = true ↔ ∃ i l, c.w.lanes[i]? = some l ∧ l.live = true ∧ i ∉ c.phys := by
  rw [List.any_eq_true]
  constructor
  · rintro ⟨l, hl, live⟩
    obtain ⟨i, found⟩ := List.mem_iff_getElem?.1 hl
    have same := getElem?_exited_live c i
    rw [found, Option.map_some, live] at same
    obtain ⟨before, there, lives⟩ := Option.map_eq_some_iff.1 same.symm
    split at lives
    · cases lives
    · next outside => exact ⟨i, before, there, lives, mt List.contains_iff_mem.2 outside⟩
  · rintro ⟨i, l, found, live, outside⟩
    have same := getElem?_exited_live c i
    rw [found, Option.map_some, if_neg (mt List.contains_iff_mem.1 outside), live] at same
    obtain ⟨after, there, lives⟩ := Option.map_eq_some_iff.1 same
    exact ⟨after, List.mem_iff_getElem?.2 ⟨i, there⟩, lives⟩

/-! ### The other waves of the block -/

/-- No lane lives in the block beside the wave, in another wave or a rack. -/
def AloneInBlock (s : State) (w : Wave) : Prop := ∀ x ∈ s.waves, x.team = w.team → x.blk = w.blk → x.wid ≠ w.wid → ∀ l ∈ x.lanes, l.live = false

section

variable {s u : State} {w : Wave}

theorem aloneInBlock_of_map {F : Wave → Wave} (waves : u.waves = s.waves.map F) (own : ∀ x, x.wid = w.wid → (F x).wid = w.wid)
    (others : ∀ x, x.wid ≠ w.wid → (F x).wid = x.wid ∧ (F x).team = x.team ∧ (F x).blk = x.blk ∧ (F x).lanes = x.lanes) :
    AloneInBlock u w ↔ AloneInBlock s w := by
  unfold AloneInBlock
  rw [waves, List.forall_mem_map]
  refine forall₂_congr fun x _ => ?_
  by_cases self : x.wid = w.wid
  · simp only [own x self, self, ne_eq, not_true, false_implies, implies_true]
  · obtain ⟨wid, team, blk, lanes⟩ := others x self
    rw [wid, team, blk, lanes]

theorem aloneInBlock_updWave {f : Wave → Wave} (own : ∀ x, x.wid = w.wid → (f x).wid = w.wid) : AloneInBlock (s.updWave w.wid f) w ↔ AloneInBlock s w :=
  aloneInBlock_of_map (F := fun x => if x.wid == w.wid then f x else x) rfl (fun x self => by simpa [self] using own x self)
    fun x other => by simp [other]

theorem aloneInBlock_published {x : Wave} (same : x.wid = w.wid) : AloneInBlock (published s x emptied) w ↔ AloneInBlock s w :=
  aloneInBlock_of_map (F := fun y => if y.wid = x.wid then emptied y else noting x y) rfl
    (fun y self => by rw [if_pos (self.trans same.symm)]; exact self)
    fun y other => by
      rw [same, if_neg other]
      unfold noting
      split <;> exact ⟨rfl, rfl, rfl, rfl⟩

theorem aloneInBlock_steer {c : Ctx} (same : c.w.wid = w.wid) (f : Nat → Lane → Lane) : AloneInBlock (s.steer c f) w ↔ AloneInBlock s w := by
  unfold State.steer State.advance State.onLanes
  rw [same]
  exact (aloneInBlock_updWave (by intro _ h; exact h)).trans (aloneInBlock_updWave (by intro _ h; exact h))

theorem all_gone_beside_iff : ((u.blockWaves w.team w.blk).all fun x => x.wid == w.wid || x.lanes.all fun l => !l.live) = true ↔ AloneInBlock u w := by
  simp only [State.blockWaves, AloneInBlock, List.all_eq_true, List.mem_filter, Bool.and_eq_true, Bool.or_eq_true, beq_iff_eq, Bool.not_eq_true', and_imp,
    or_iff_not_imp_left, ne_eq]

/-- The commits of a wave's end: its own, and its block's too when no lane lives beside it. -/
theorem exitCommits_of_alone (alone : AloneInBlock (u.commitWave w.wid true).1 w) :
    u.exitCommits w = ((u.commitWave w.wid true).1.commitBlock w.team w.blk true).1 :=
  if_pos (all_gone_beside_iff.2 alone)

theorem exitCommits_of_not_alone (beside : ¬AloneInBlock (u.commitWave w.wid true).1 w) : u.exitCommits w = (u.commitWave w.wid true).1 :=
  if_neg (mt all_gone_beside_iff.1 beside)

end

theorem exitCommits_issueCtx (sg : Sig) (g : Group) (w : Wave) (u : State) : u.exitCommits (issueCtx sg g w).w = u.exitCommits w := by
  unfold State.exitCommits
  rw [issueCtx_wid, issueCtx_team, issueCtx_blk]

/-! ### The instruction -/

abbrev exitForm : Sig := { flds := [.unused 0x7C, .unused 0x7C, .unused 0x7C], ends := true, pro := true }

def exitAnswers (c : Ctx) (s : State) : Res :=
  match c.w.prologue with
  | some p => .moved ((s.steer c gone).updWave c.w.wid fun w => { w with prologue := some { p with ended := some 0 } })
  | none =>
    if ((s.steer c gone).wave? c.w.wid).any fun w => w.lanes.any (·.live) then .moved (s.steer c gone)
    else if s.accessOut c.w.wid then .wait
    else if s.pannierPoison c.w.wid then .poisoned 5
    else if !((s.steer c gone).exitCommits c.w).overlaysFit (c.w.core / 2) then .fault Cause.overlayFull
    else .moved (((s.steer c gone).exitCommits c.w).tryFinish c.w.wid)

theorem exec_exit_eq (s : State) : exec .exit s = issue exitForm s exitAnswers := rfl

section

variable {g : Group} {w : Wave} {s : State}

/-- The state in which the lanes of Active have exited. -/
def lanesGone (g : Group) (w : Wave) (s : State) : State := (covered exitForm g w s).steer (issueCtx exitForm g w) gone

theorem lanesGone_wave? (wave : s.wave? g.wid = some w) : (lanesGone g w s).wave? (issueCtx exitForm g w).w.wid = some (exited (issueCtx exitForm g w)) := by
  rw [lanesGone, (Touches.steer _ _ gone).waves, if_pos rfl, wave?_issueCtx wave]
  rfl

theorem aloneInBlock_lanesGone : AloneInBlock (lanesGone g w s) w ↔ AloneInBlock s w :=
  (aloneInBlock_steer (issueCtx_wid ..) gone).trans (aloneInBlock_updWave fun _ _ => cover_wid ..)

theorem aloneInBlock_commitWave_lanesGone (wave : s.wave? g.wid = some w) :
    AloneInBlock ((lanesGone g w s).commitWave w.wid true).1 w ↔ AloneInBlock s w := by
  have found := lanesGone_wave? wave
  have same : (exited (issueCtx exitForm g w)).wid = w.wid := issueCtx_wid exitForm g w
  rw [issueCtx_wid, ← same] at found
  have commits := commitWave_of_clear found (lw := true) (.inl rfl)
  rw [same] at commits
  rw [commits]
  exact (aloneInBlock_published same).trans aloneInBlock_lanesGone

/-! ### What an exit does -/

theorem exitAnswers_of_prologue {p : Prologue} (runs : w.prologue = some p) :
    exitAnswers (issueCtx exitForm g w) (covered exitForm g w s) =
      .moved ((lanesGone g w s).updWave w.wid fun x => { x with prologue := some { p with ended := some 0 } }) := by
  unfold exitAnswers
  rw [issueCtx_prologue, runs, issueCtx_wid]
  rfl

section

variable (wave : s.wave? g.wid = some w) (outside : w.prologue = none)
include wave outside

theorem exitAnswers_of_live (lives : ∃ i l, w.lanes[i]? = some l ∧ l.live = true ∧ i ∉ (issueCtx exitForm g w).phys) :
    exitAnswers (issueCtx exitForm g w) (covered exitForm g w s) = .moved (lanesGone g w s) := by
  have live : ((lanesGone g w s).wave? (issueCtx exitForm g w).w.wid).any (fun x => x.lanes.any (·.live)) = true := by
    rw [lanesGone_wave? wave, Option.any_some, any_live_exited_iff, issueCtx_lanes]
    exact lives
  unfold exitAnswers
  rw [issueCtx_prologue, outside]
  exact if_pos live

/-- With no lane left and nothing outstanding, the exit commits, if what it publishes fits the overlay stores. -/
theorem exitAnswers_of_last (last : ∀ i l, w.lanes[i]? = some l → l.live = true → i ∈ (issueCtx exitForm g w).phys) (quiet : s.accessOut w.wid = false)
    (sound : s.pannierPoison w.wid = false) {v : State} (commits : (lanesGone g w s).exitCommits w = v) :
    exitAnswers (issueCtx exitForm g w) (covered exitForm g w s) =
      if v.overlaysFit (w.core / 2) then .moved (v.tryFinish w.wid) else .fault Cause.overlayFull := by
  have none_live : ¬((lanesGone g w s).wave? (issueCtx exitForm g w).w.wid).any (fun x => x.lanes.any (·.live)) = true := by
    rw [lanesGone_wave? wave, Option.any_some, any_live_exited_iff, issueCtx_lanes]
    rintro ⟨i, l, found, live, left⟩
    exact left (last i l found live)
  unfold exitAnswers
  rw [issueCtx_prologue, outside]
  refine (if_neg none_live).trans ?_
  rw [issueCtx_wid, issueCtx_core, exitCommits_issueCtx]
  refine (if_neg (ne_true_of_eq_false quiet)).trans ((if_neg (ne_true_of_eq_false sound)).trans ?_)
  rw [← commits]
  simp only [Bool.not_eq_true', ← Bool.not_eq_true, ite_not]
  rfl

end

end

/-! ### The obligation -/

theorem exitResults : ExitResults := by
  intro g w s sg c off u alone wave commits h
  refine ⟨fun outside lives => ?_, fun outside last quiet sound => ?_, fun p runs => ?_⟩
  · exact moves_of_moved (exec_exit_eq s) h rfl (exitAnswers_of_live h.wave outside lives) (Touches.steer _ _ gone)
  · have commits_of {v : State} (publishes : (lanesGone g w s).exitCommits w = v) : commits v := by
      have answers := exitAnswers_of_last h.wave outside last quiet sound publishes
      exact ⟨fun fits => leaves_of_moved (exec_exit_eq s) h (answers.trans (if_pos fits)),
        fun full => traps_of_fault (exec_exit_eq s) h (answers.trans (if_neg (ne_true_of_eq_false full)))⟩
    have alone_iff := aloneInBlock_commitWave_lanesGone h.wave
    exact ⟨fun beside => commits_of (exitCommits_of_not_alone (mt alone_iff.1 beside)), fun alone => commits_of (exitCommits_of_alone (alone_iff.2 alone))⟩
  · exact leaves_of_moved (exec_exit_eq s) h (exitAnswers_of_prologue runs)

theorem trapDetaches : TrapDetaches := by
  intro a g w s sg h
  refine leaves_of_moved (exec_trap a s) h ?_
  rw [issueCtx_wid, issueCtx_width]
  rfl

/-- Settles O28: an exit settles by what lives beside its lanes, in the wave and in the block; a trap detaches past its group. -/
theorem exitAndTrap : Obligations.ExitAndTrap := ⟨exitResults, trapDetaches⟩

end Sys2Proof.Laws

end

section

/-! LEMMAS and the obligation O32. `spawn` places threads in the racks of its block (R233), `racktm` sets their timer (R235), and `waitc` puts its lanes to sleep at
their group (R236 steps 1 and 2). -/

namespace Sys2Proof.Laws

open Sys2Proof.Machine Sys2Proof.Safety Sys2Proof.Slice0

/-! ### `spawn` -/

abbrev spawnForm (d a b : BitVec 7) : Sig := { flds := [.rw32 d true, .r64 a, .r32 b], scalar := true, ends := true }
abbrev spawnCompares (d a b : BitVec 7) (c : Ctx) (i : Nat) : List W64 := [c.src64 i a, (c.src32 i b).setWidth 64, (c.src32 i d).setWidth 64]

/-- The values that the thread of lane i carries of the registers of lane j. -/
def carriedOf (b : BitVec 7) (c : Ctx) (i j : Nat) : List W32 :=
  (List.range ((c.src32 i b).toNat % 128)).map fun k => (c.lane j).regs.getD ((c.src32 i b).toNat / 256 % 128 + k) 0

/-- The thread that a lane spawns. -/
def threadOf (d b : BitVec 7) (c : Ctx) (i : Nat) : Thread :=
  { spawned := true, tid := c.src32 i d, vals := carriedOf b c i i, shadow := carriedOf b c i (c.shadow i) }

/-- The state with a thread of each lane of Active placed, or not, and what each lane is told of it. -/
def spawnPlaced (d a b : BitVec 7) (c : Ctx) (s : State) : State × List (Nat × W32) :=
  c.act.foldl (fun acc i =>
    let r := acc.1.placeInRack c.w false ((c.src64 i a).setWidth 57) (threadOf d b c i)
    (r.1, acc.2 ++ [(i, if r.2 then 0 else 1)])) (s, [])

def spawnAnswers (d a b : BitVec 7) (c : Ctx) (s : State) : Res :=
  if c.act.any (spawnBad c a b) then .fault Cause.illegal
  else .done ((spawnPlaced d a b c s).1.put32 c d fun i => (assoc (spawnPlaced d a b c s).2 (c.index i)).getD 0)

theorem exec_spawn_eq (d a b : BitVec 7) (s : State) : exec (.spawn d a b) s = issueWith (spawnForm d a b) (spawnCompares d a b) s (spawnAnswers d a b) := by
  rw [exec_spawn, execSpawn]
  simp only [bits_low]
  rfl

theorem spawnBad_eq_false {a b : BitVec 7} {c : Ctx} {i : Nat} (aligned : (c.src64 i a).toNat % 4 = 0) (short : (c.src64 i a).toNat < 2 ^ 57)
    (fits : (c.src32 i b).toNat % 128 ≤ c.w.nregs)
    (stands : 0 < (c.src32 i b).toNat % 128 → (c.src32 i b).toNat / 256 % 128 + (c.src32 i b).toNat % 128 ≤ c.w.nregs) : spawnBad c a b i = false := by
  have target : codeAddr (c.src64 i a) = true := codeAddr_eq_true_iff.2 ⟨aligned, short⟩
  have first : bits (c.src32 i b).toNat 8 7 = (c.src32 i b).toNat / 256 % 128 := rfl
  have count : bits (c.src32 i b).toNat 0 7 = (c.src32 i b).toNat % 128 := bits_low ..
  simp only [spawnBad, target, first, count, Bool.not_true, Bool.false_or, Bool.or_eq_false_iff, Bool.and_eq_false_imp, decide_eq_false_iff_not,
    decide_eq_true_eq, gt_iff_lt, not_lt]
  exact ⟨fits, stands⟩

theorem spawnResults : SpawnResults := by
  intro d a b g w s
  refine ⟨fun h lawful => ?_, fun h low high => ?_⟩
  · have operands : ¬((issueCtx (spawnForm d a b) g w).act.any (spawnBad (issueCtx (spawnForm d a b) g w) a b)) = true :=
      not_any_of_eq_false fun i hi => by
        obtain ⟨aligned, short, fits, stands⟩ := lawful i hi
        rw [← issueCtx_nregs (spawnForm d a b) g w] at fits stands
        exact spawnBad_eq_false aligned short fits stands
    exact leaves_of_done (exec_spawn_eq d a b s) h (if_neg operands)
  · have within {t : Nat} (low : 16 ≤ t) (high : t ≤ 4096) : ¬(decide (t < 16) || decide (t > 4096)) = true := by simp [low, high]
    exact does_of_done_block (exec_racktm a s) h ((if_neg (within low high)).trans (by rw [issueCtx_team, issueCtx_blk])) (Touches.refl _ _)

/-! ### `waitc` -/

/-- The lanes of Active alone are changed. -/
theorem steer_congr {c : Ctx} {f f' : Nat → Lane → Lane} (same : ∀ i ∈ c.phys, f i = f' i) (s : State) : s.steer c f = s.steer c f' := by
  have lanes (i : Nat) (l : Lane) : (if c.phys.contains i then f i l else l) = if c.phys.contains i then f' i l else l := by
    split
    · next active => rw [same i (List.contains_iff_mem.1 active)]
    · rfl
  simp only [State.steer, State.onLanes, lanes]

abbrev waitForm (d a b : BitVec 7) : Sig := waiting [.w64 d true, .r64 a, .r32 b]
abbrev waitCompares (a b : BitVec 7) (c : Ctx) (i : Nat) : List W64 := [c.src64 i a, (c.src32 i b).setWidth 64]

/-- The place of a lane's word, or why it has none. -/
def waitPlace (a : BitVec 7) (c : Ctx) (s : State) (i : Nat) : Except Nat Nat :=
  if !plainAddr (c.src64 i a).toNat || (c.src64 i a).toNat % 4 ≠ 0 then .error Cause.illegal
  else (s.translate c.w.core (s.vfOf c.w) c.w.asid (c.src64 i a).toNat Need.monitor).map (·.1)

/-- A lane asleep at its group, its word at a place (R236). -/
def asleepAt (d a b : BitVec 7) (c : Ctx) (place i : Nat) (l : Lane) : Lane :=
  { l with
    pc := c.g.first
    yielded := false
    sleep := some { addr := c.src64 i a, dpa := place, cmp := c.src32 i b, dst := d.toNat, next := c.next, epoch := c.w.epoch, armed := false, hit := false,
                    ready := (c.w.slow.getLast?.map (·.ready)).getD 0 } }

/-- The state with a group's translations noted, and the accesses folded into a twin's signature. -/
def waitNoted (a b : BitVec 7) (c : Ctx) (s : State) : State :=
  c.act.foldl (fun u i => u.foldAccess c.w.team (c.src64 i a) ((c.src32 i b).setWidth 64) 0 0) (s.noteAll c.w (c.act.map fun i => (c.src64 i a).toNat))

def waitAnswers (d a b : BitVec 7) (c : Ctx) (s : State) : Res :=
  match firstCause (c.act.map (waitPlace a c s)) with
  | some cause => .fault cause
  | none => .moved ((waitNoted a b c s).steer c fun i l => asleepAt d a b c ((waitPlace a c s (c.index i)).toOption.getD 0) i l)

theorem exec_waitc_eq (d a b : BitVec 7) (s : State) : exec (.waitc d a b) s = issueWith (waitForm d a b) (waitCompares a b) s (waitAnswers d a b) := rfl

theorem waitNoted_issueCtx (a b : BitVec 7) (sg : Sig) (g : Group) (w : Wave) (s : State) :
    waitNoted a b (issueCtx sg g w) (covered sg g w s) =
      covered sg g w { s with
        teams := ((issueCtx sg g w).act.foldl (fun (u : State) i =>
          u.foldAccess w.team ((issueCtx sg g w).src64 i a) (((issueCtx sg g w).src32 i b).setWidth 64) 0 0) s).teams
        tlb := (s.noteAll w ((issueCtx sg g w).act.map fun i => ((issueCtx sg g w).src64 i a).toNat)).tlb } := by
  rw [waitNoted, noted_issueCtx, foldAccess_foldl_eq, foldAccess_foldl_eq, issueCtx_team]
  rfl

theorem waitPlace_of_found {a : BitVec 7} {sg : Sig} {g : Group} {w : Wave} {s : State} {dpa kind i : Nat}
    (plain : plainAddr ((issueCtx sg g w).src64 i a).toNat = true) (aligned : ((issueCtx sg g w).src64 i a).toNat % 4 = 0)
    (found : s.translate w.core (s.vfOf w) w.asid ((issueCtx sg g w).src64 i a).toNat Need.monitor = .ok (dpa, kind)) :
    waitPlace a (issueCtx sg g w) (covered sg g w s) i = .ok dpa := by
  unfold waitPlace
  rw [translate_issueCtx, found]
  exact if_neg (by simp [plain, aligned])

/-- A shadow sleeps on the word of its program lane. -/
theorem waitAnswers_of_found {d a b : BitVec 7} {c : Ctx} {s : State} {places : Nat → Nat} (found : ∀ i ∈ c.act, waitPlace a c s i = .ok (places i))
    (program : ∀ i ∈ c.phys, i % c.w.plan ∈ c.act) :
    waitAnswers d a b c s = .moved ((waitNoted a b c s).steer c fun i => asleepAt d a b c (places (i % c.w.plan)) i) := by
  have passed : firstCause (c.act.map (waitPlace a c s)) = none := by
    refine firstCause_of_ok fun cause failed => ?_
    obtain ⟨i, hi, failed⟩ := List.mem_map.1 failed
    cases (found i hi).symm.trans failed
  unfold waitAnswers
  rw [passed]
  refine congrArg Res.moved (steer_congr (fun i hi => ?_) _)
  rw [Ctx.index, found _ (program i hi)]
  rfl

theorem waitSleeps : WaitSleeps := by
  intro d a b g w s dpa kind sg c folded h found program
  have places (i : Nat) (hi : i ∈ c.act) : waitPlace a c (covered sg g w s) i = .ok (dpa i) := by
    obtain ⟨plain, aligned, translated⟩ := found i hi
    exact waitPlace_of_found plain aligned translated
  have answers := waitAnswers_of_found (d := d) (b := b) (c := issueCtx sg g w) places program
  rw [waitNoted_issueCtx] at answers
  refine moves_of_moved (exec_waitc_eq d a b s) h rfl answers ?_
  unfold asleepAt
  rw [issueCtx_epoch]
  exact Touches.steer _ c _

/-- Settles O32: the threads are placed lane by lane, the timer is set, and the lanes of Active sleep where they stand. -/
theorem spawnAndWaitResults : Obligations.SpawnAndWaitResults := ⟨spawnResults, waitSleeps⟩

end Sys2Proof.Laws

end

section

/-! LEMMAS and the obligation O22. Block and team barriers (R229, R147, R150, Table 50): a member that meets its barrier has arrived, and waits; the last one to
arrive completes it. -/

namespace Sys2Proof.Laws

open Sys2Proof.Machine Sys2Proof.Safety Sys2Proof.Slice0

/-! ### An arrival -/

/-- The barrier with the arrival of a wave, which replaces an earlier one of its own. -/
def joinedBy (b : Barrier) (wid : Nat) (arr : Arrival) : Barrier := { b with arrived := b.arrived.filter (fun x => x.1 != wid) ++ [(wid, arr)] }

/-- The state with an arrival noted: the barrier stands as given, and the wave waits at it. -/
def arrivalNoted (s : State) (w : Wave) (fn : Nat) (b : Barrier) : State := (s.setBar w fn (some b)).updWave w.wid Wave.atBarrier

theorem barFull_iff {s : State} {b : Barrier} : s.barFull b = true ↔ ∀ m ∈ s.stillMembers b, ∃ x ∈ b.arrived, x.1 = m := by
  simp [State.barFull]

/-- A wave meets a given barrier: it waits at one of another kind, or of which it is no member; else its arrival is noted, and completes the barrier when no
member is missing (R229). -/
def arriveIn (b : Barrier) (fn : Nat) (arr : Arrival) (c : Ctx) (s : State) (finish : Wave → Barrier → State → State) : Res :=
  if b.fn ≠ barKind fn || !b.members.contains c.w.wid then .wait
  else
    .moved (if s.barFull (joinedBy b c.w.wid arr) then finish c.w (joinedBy b c.w.wid arr) (arrivalNoted s c.w fn (joinedBy b c.w.wid arr))
      else arrivalNoted s c.w fn (joinedBy b c.w.wid arr))

theorem arriveAt_eq (fn : Nat) (arr : Ctx → Arrival) (c : Ctx) (s : State) (finish : Wave → Barrier → State → State) :
    arriveAt fn arr c s finish = arriveIn (meets s c.w fn) fn (arr c) c s finish := by
  have scope : (if barKind fn = 2 || fn = 0x12 then none else some c.w.blk) = if barKind fn = 2 ∨ fn = 0x12 then none else some c.w.blk := by simp
  unfold arriveAt meets
  cases s.bar c.w fn with
  | some b => rfl
  | none =>
    rw [← scope]
    rfl

section

variable (sg : Sig) (g : Group) (w : Wave)

theorem bar_issueCtx (s : State) (fn : Nat) : s.bar (issueCtx sg g w).w fn = s.bar w fn := by
  rw [State.bar, State.bar, issueCtx_team, issueCtx_blk]

theorem setBar_issueCtx (s : State) (fn : Nat) (b : Option Barrier) : s.setBar (issueCtx sg g w).w fn b = s.setBar w fn b := by
  rw [State.setBar, State.setBar, issueCtx_team, issueCtx_blk]

theorem meets_issueCtx (s : State) (fn : Nat) : meets s (issueCtx sg g w).w fn = meets s w fn := by
  rw [meets, meets, bar_issueCtx, issueCtx_team, issueCtx_blk]

theorem arrivalNoted_issueCtx (s : State) (fn : Nat) (b : Barrier) : arrivalNoted s (issueCtx sg g w).w fn b = arrivalNoted s w fn b := by
  rw [arrivalNoted, arrivalNoted, setBar_issueCtx, issueCtx_wid]

theorem overlayFull_issueCtx (s : State) (fn : Nat) (b : Barrier) : s.overlayFull (issueCtx sg g w).w fn b = s.overlayFull w fn b := by
  unfold State.overlayFull
  simp only [setBar_issueCtx]

end

/-- A member of its barrier completes it when every member that is still there has arrived, and waits at it when one has not. -/
def Arrives (i : Instr) (fn : Nat) (sg : Sig) (arr : Arrival) (finish : Barrier → State → State) (g : Group) (w : Wave) (s : State) : Prop :=
  let b := joinedBy (meets (covered sg g w s) w fn) w.wid arr
  let noted := arrivalNoted (covered sg g w s) w fn b
  Issues sg g w s → (meets (covered sg g w s) w fn).fn = barKind fn → w.wid ∈ (meets (covered sg g w s) w fn).members →
    ((∀ m ∈ (covered sg g w s).stillMembers b, ∃ x ∈ b.arrived, x.1 = m) → Leaves i sg g w s fun _ => finish b noted) ∧
    ((∃ m ∈ (covered sg g w s).stillMembers b, ∀ x ∈ b.arrived, x.1 ≠ m) → Leaves i sg g w s fun _ => noted)

theorem arrives_of_arriveAt {i : Instr} {fn : Nat} {sg : Sig} {arr : Ctx → Arrival} {finish : Wave → Barrier → State → State} {g : Group} {w : Wave}
    {s : State} {k : Ctx → State → Res} (meaning : exec i s = issue sg s k)
    (answers : k (issueCtx sg g w) (covered sg g w s) = arriveAt fn arr (issueCtx sg g w) (covered sg g w s) finish) :
    Arrives i fn sg (arr (issueCtx sg g w)) (finish (issueCtx sg g w).w) g w s := by
  intro h kind member
  have joins : ¬(decide ((meets (covered sg g w s) w fn).fn ≠ barKind fn) || !(meets (covered sg g w s) w fn).members.contains w.wid) = true := by
    simp [kind, member]
  rw [arriveAt_eq, meets_issueCtx, arriveIn, issueCtx_wid, if_neg joins, arrivalNoted_issueCtx] at answers
  refine ⟨fun all => ?_, fun missing => ?_⟩
  · exact leaves_of_moved meaning h (answers.trans (congrArg Res.moved (if_pos (barFull_iff.2 all))))
  · have incomplete : ¬(covered sg g w s).barFull (joinedBy (meets (covered sg g w s) w fn) w.wid (arr (issueCtx sg g w))) = true := by
      rw [barFull_iff]
      push Not
      exact missing
    exact leaves_of_moved meaning h (answers.trans (congrArg Res.moved (if_neg incomplete)))

/-! ### Completions -/

section

variable (sg : Sig) (g : Group) (w : Wave) (b : Barrier) (s : State)

theorem finishSync_issueCtx : finishSync (issueCtx sg g w).w b s = finishSync w b s := by
  rw [finishSync, finishSync, setBar_issueCtx]

theorem finishOpen_issueCtx (fn : Nat) : finishOpen fn (issueCtx sg g w).w b s = finishOpen fn w b s := by
  unfold finishOpen
  simp only [setBar_issueCtx]

theorem finishT_issueCtx : finishT (issueCtx sg g w).w b s = finishT w b s := by
  unfold finishT
  simp only [issueCtx_team, issueCtx_blk, issueCtx_core, setBar_issueCtx, overlayFull_issueCtx]

theorem finishD_issueCtx : finishD (issueCtx sg g w).w b s = finishD w b s := by
  unfold finishD
  simp only [issueCtx_team, issueCtx_core, overlayFull_issueCtx]

end

section

variable (w : Wave) (b : Barrier) (u : State)

/-- The commits that fit the overlay stores are made, those that do not detach the lowest participant (R153). -/
theorem finishT_eq : finishT w b u =
    let r := u.commitT w.team w.blk (b.arrived.map (·.1)) (b.arrived.all fun x => decide (3 ≤ x.2.fn))
    if r.1.overlaysFit (w.core / 2) then (r.1.setBar w 1 none).releaseAll b r.2 else u.overlayFull w 1 b := by
  simp only [finishT, Barrier.allLw, Bool.not_eq_true', ← Bool.not_eq_true, ite_not]

theorem finishD_eq : finishD w b u =
    let r := u.commitLower w.team (b.arrived.map (·.1))
    let gathers : Gather := { checked := !(b.arrived.all fun x => decide (3 ≤ x.2.fn)), final := false, lowered := true }
    if r.overlaysFit (w.core / 2) then r.updTeam w.team fun t => { t with gather := some gathers } else u.overlayFull w 2 b := by
  simp only [finishD, Barrier.allLw, Bool.not_eq_true', ← Bool.not_eq_true, ite_not]

end

/-! ### The instructions -/

section

variable {n : BitVec 1} {d : BitVec 7} {o : BitVec 20} {g : Group} {w : Wave} {s : State}

/-- The arrival of a wave that has nothing more to say. -/
def arrivalHere (g : Group) (fn : Nat) : Arrival := { fn := fn, dst := 0x7C, nw := true, target := 0, next := g.at_ + 4, first := g.first }

theorem bsync_arrives : Arrives .bsync 0x10 (bare false) (arrivalHere g 0x10) (finishSync w) g w s := by
  rw [← funext₂ (finishSync_issueCtx (bare false) g w)]
  exact arrives_of_arriveAt (exec_bsync s) rfl

theorem open_arrives {i : Instr} {fn : Nat} (selected : s.grp = some g) (meaning : exec i s = openBarrier fn o s) :
    Arrives i fn (openForm g o) { arrivalHere g fn with target := BitVec.ofInt 57 (targetOf g o) } (finishOpen fn w) g w s := by
  rw [← funext₂ fun b u => finishOpen_issueCtx (openForm g o) g w b u fn]
  rw [openBarrier, openSig_eq selected] at meaning
  exact arrives_of_arriveAt meaning rfl

theorem commit_arrives {i : Instr} {fn : Nat} {finish : Wave → Barrier → State → State} (meaning : exec i s = barrierCommit fn n d finish s)
    (same : ∀ b u, finish (issueCtx (commitForm n d) g w).w b u = finish w b u) (quiet : s.accessOut w.wid = false) (sound : s.pannierPoison w.wid = false)
    (ready : barKind fn = 2 → ∀ t, s.team? w.team = some t → t.gather = none) :
    Arrives i fn (commitForm n d) { arrivalHere g fn with dst := d.toNat, nw := n == 1 } (finish w) g w s := by
  rw [← funext₂ same]
  have idle : ¬(s.accessOut w.wid || (decide (barKind fn = 2) && ((s.team? w.team).bind (·.gather)).isSome)) = true := by
    rw [quiet, Bool.false_or, Bool.and_eq_true, decide_eq_true_eq]
    rintro ⟨device, gathers⟩
    obtain ⟨x, gathering⟩ := Option.isSome_iff_exists.1 gathers
    obtain ⟨t, found, gather⟩ := Option.bind_eq_some_iff.1 gathering
    cases (ready device t found).symm.trans gather
  refine arrives_of_arriveAt (sg := commitForm n d) (arr := fun c => { plainArrival fn c with dst := d.toNat, nw := n == 1 }) meaning ?_
  rw [issueCtx_wid, issueCtx_team]
  exact (if_neg idle).trans (if_neg (ne_true_of_eq_false sound))

end

theorem exec_opens {e : (BitVec 20 → Instr) × Nat} (he : e ∈ [(Instr.opnB, 0x11), (Instr.opnT, 0x12)]) (o : BitVec 20) (s : State) :
    exec (e.1 o) s = openBarrier e.2 o s := by
  fin_cases he <;> rfl

theorem exec_teamCommits {e : (BitVec 1 → BitVec 7 → Instr) × Nat} (he : e ∈ [(Instr.cmtT, 1), (Instr.cmtTLw, 4)]) (n : BitVec 1) (d : BitVec 7) (s : State) :
    exec (e.1 n d) s = barrierCommit e.2 n d finishT s := by
  fin_cases he <;> rfl

theorem exec_deviceCommits {e : (BitVec 1 → BitVec 7 → Instr) × Nat} (he : e ∈ [(Instr.cmtD, 2), (Instr.cmtDLw, 5)]) (n : BitVec 1) (d : BitVec 7)
    (s : State) : exec (e.1 n d) s = barrierCommit e.2 n d finishD s := by
  fin_cases he <;> rfl

/-- Settles O22: each form arrives at its barrier, with its own arrival and its own completion. -/
theorem barrierArrivals : Obligations.BarrierArrivals := by
  intro n d o g w s does here quiet fits
  refine ⟨bsync_arrives, fun e he h => ?_, fun ⟨quiet, sound⟩ e he => ?_, fun ⟨quiet, sound⟩ ready e he => ?_⟩
  · exact open_arrives h.selected (exec_opens he o s) h
  · have arrives := commit_arrives (exec_teamCommits he n d s) (finishT_issueCtx _ g w) quiet sound
      fun device => by fin_cases he <;> cases device
    rw [funext₂ (finishT_eq w)] at arrives
    exact arrives
  · have arrives := commit_arrives (exec_deviceCommits he n d s) (finishD_issueCtx _ g w) quiet sound fun _ => ready
    rw [funext₂ (finishD_eq w)] at arrives
    exact arrives

end Sys2Proof.Laws

end

section

/-! LEMMAS and the obligation O46. The rings of a function that acts (R240-R243): its registers take what a host writes, and firmware and the command processor read
them. -/

namespace Sys2Proof.Laws

open Sys2Proof.Machine Sys2Proof.Safety Sys2Proof.Slice0

/-! ### Functions that act -/

theorem vfReady_of {s : State} {v : Nat} (en : (s.vf v).en = true) (st : (s.vf v).st = 1) : s.vfReady v = true := by
  rw [State.vfReady, en, st]
  rfl

theorem pageActs_of {s : State} {v : Nat} (en : (s.vf v).en = true) (st : (s.vf v).st = 1) (hosted : s.hosted v = true) : s.pageActs v = true := by
  rw [State.pageActs, hosted, vfReady_of en st]
  rfl

theorem setRing_congr {s u : State} (same : u.vfs = s.vfs) (v k : Nat) (r : Ring) : (u.setRing v k r).vfs = (s.setRing v k r).vfs := by
  simp only [State.setRing, State.setVf, State.vf, same]

theorem ring_congr {s u : State} (same : u.vfs = s.vfs) (v k : Nat) : u.ring v k = s.ring v k := by
  simp only [State.ring, State.vf, same]

section

variable {r : Ring} {c : RingCfg}

theorem enabled_eq_false (off : r.malformed = true ∨ r.cfg = none ∨ ∃ y, r.cfg = some y ∧ y.en = false) : r.enabled = false := by
  obtain malformed | unset | ⟨y, set, off⟩ := off
  · simp [Ring.enabled, malformed]
  · simp [Ring.enabled, unset]
  · simp [Ring.enabled, set, off]

variable (formed : r.malformed = false) (cfg : r.cfg = some c) (on : c.en = true)

include cfg in
theorem slots_eq : r.slots = 2 ^ c.lgs := by rw [Ring.slots, cfg]; rfl

include formed cfg on in
theorem enabled_eq_true : r.enabled = true := by simp [Ring.enabled, formed, cfg, on]

end

/-! ### Tickets, publication, notification (R240, R242) -/

section

variable {s : State} {v k : Nat} {x : W64}

section

variable (hosted : s.hosted v = true) (ready : s.vfReady v = true)
include hosted

theorem ticketRead_disabled (off : (s.ring v k).enabled = false) :
    exec (.ticketRead v k) s = .next (s.reply (.value (0x4000000000000000 ||| (s.ring v k).tail.setWidth 64))) := by
  simp [execTicketRead, hosted, off]

include ready

theorem ticketRead_full (on : (s.ring v k).enabled = true) (full : ((s.ring v k).tail - (s.ring v k).head).toNat = (s.ring v k).slots) :
    exec (.ticketRead v k) s = .next (s.reply (.value (0x8000000000000000 ||| (s.ring v k).tail.setWidth 64))) := by
  simp [execTicketRead, hosted, ready, on, full]

theorem ticketRead_given (on : (s.ring v k).enabled = true) (room : ((s.ring v k).tail - (s.ring v k).head).toNat ≠ (s.ring v k).slots) :
    exec (.ticketRead v k) s =
      .next ((s.setRing v k { s.ring v k with tail := (s.ring v k).tail + 1 }).reply (.value ((s.ring v k).tail.setWidth 64))) := by
  rw [exec_ticketRead, execTicketRead]
  simp only [hosted, ready, on, Bool.not_true, Bool.or_self, Bool.false_eq_true, if_false, if_neg room]

end

section

variable (acts : s.pageActs v = true)
include acts

theorem publishWrite_bad (bad : ((s.ring v k).tail - (s.ring v k).head).toNat ≤ (x.setWidth 32 - (s.ring v k).head).toNat ∨
      (x.setWidth 32 : W32).toNat % (s.ring v k).slots ∈ (s.ring v k).bits) :
    exec (.publishWrite v k x) s =
      .next (s.setRing v k { s.ring v k with publish := x.setWidth 32, status := (s.ring v k).status ||| 1 }) := by
  rw [exec_publishWrite, execPublishWrite, acts, Bool.not_true, if_neg Bool.false_ne_true]
  refine if_neg fun fits => ?_
  rw [Bool.and_eq_true, decide_eq_true_eq, Bool.not_eq_true', ← Bool.not_eq_true, List.contains_iff_mem] at fits
  exact bad.elim (not_le.2 fits.1) fits.2

theorem publishWrite_noted (inside : (x.setWidth 32 - (s.ring v k).head).toNat < ((s.ring v k).tail - (s.ring v k).head).toNat)
    (new : (x.setWidth 32 : W32).toNat % (s.ring v k).slots ∉ (s.ring v k).bits) :
    exec (.publishWrite v k x) s =
      .next (s.setRing v k { s.ring v k with publish := x.setWidth 32, bits := (s.ring v k).bits ++ [(x.setWidth 32 : W32).toNat % (s.ring v k).slots] }) := by
  rw [exec_publishWrite, execPublishWrite, acts, Bool.not_true, if_neg Bool.false_ne_true]
  refine if_pos ?_
  rw [Bool.and_eq_true, decide_eq_true_eq, Bool.not_eq_true', ← Bool.not_eq_true, List.contains_iff_mem]
  exact ⟨inside, new⟩

theorem cheadWrite_stored :
    exec (.cheadWrite v k x) s = .next (s.setRing v k { s.ring v k with chead := x.setWidth 32 }).wakeRetry := by
  simp [execCheadWrite, acts]

end

theorem notifyWrite_noted (hosted : s.hosted v = true) (en : (s.vf v).en = true) (st : (s.vf v).st = 1) :
    exec (.notifyWrite v ⟨k, x⟩) s = .next (s.setRing v k { s.ring v k with notify := true, notifyWord := x }) := by
  simp [execNotifyWrite, hosted, en, st]

end

/-! ### Slots and configurations (R241, R242) -/

section

variable {s : State} {v k : Nat} (ready : s.vfReady v = true)
include ready

/-- The slot that is next is read, and its command waits. -/
theorem slotConsume_read {c : RingCfg} {u : State} {bs : List Byte} (on : (s.ring v k).enabled = true) (cfg : (s.ring v k).cfg = some c)
    (pending : (s.ring v k).head ≠ (s.ring v k).tail) (published : (s.ring v k).head.toNat % 2 ^ c.lgs ∈ (s.ring v k).bits)
    (fetched : s.fetchBytes v ((s.ring v k).asid.getD 0) (c.rbase + 64 * ((s.ring v k).head.toNat % 2 ^ c.lgs)) 64 = (u, .ok bs))
    (same : u.vfs = s.vfs) :
    ∃ t, exec (.slotConsume v k) s = .next t ∧
      t.vfs = (s.setRing v k { s.ring v k with
        bits := (s.ring v k).bits.filter (· != (s.ring v k).head.toNat % 2 ^ c.lgs), head := (s.ring v k).head + 1 }).vfs ∧
      ∃ cmd ∈ t.cmds, cmd.vf = v ∧ cmd.ring = k ∧ cmd.seq = (s.ring v k).head.toNat ∧ cmd.bytes = bs ∧ cmd.phase = .waiting := by
  have base : ((s.ring v k).cfg.map (·.rbase)).getD 0 = c.rbase := by rw [cfg]; rfl
  have listed : (s.ring v k).bits.contains ((s.ring v k).head.toNat % (s.ring v k).slots) = true := by
    rw [slots_eq cfg]
    exact List.contains_iff_mem.2 published
  rw [exec_slotConsume, execSlotConsume]
  simp only [ready, on, pending, listed, Bool.not_true, Bool.or_false, decide_false, Bool.false_eq_true, if_false]
  rw [base, slots_eq cfg, fetched]
  refine ⟨_, rfl, ?_, _, List.mem_append_right _ (List.mem_singleton_self _), rfl, rfl, rfl, rfl, rfl⟩
  rw [ring_congr same]
  exact setRing_congr same ..

/-- Firmware observes NOTIFY: the registers become the configuration, or the ring is malformed. -/
theorem configurationReread_observed {y : State} (notify : (s.ring v k).notify = true)
    (read : ((s.setRing v k { s.ring v k with notify := false }).bindRing v k).readGroups v
      ((((s.setRing v k { s.ring v k with notify := false }).bindRing v k).ring v k).asid.getD 0) = some y) :
    exec (.configurationReread v k) s = .next (y.setRing v k (if y.cfgMalformed v (y.ring v k)
      then { y.ring v k with malformed := true, status := (y.ring v k).status ||| 2 }
      else { y.ring v k with malformed := false, cfg := some (ringCfgOf (y.ring v k)) })) := by
  rw [exec_configurationReread, execConfigurationReread]
  simp only [notify, ready, Bool.not_true, Bool.or_self, Bool.false_eq_true, if_false, read]
  split <;> rfl

end

/-- Settles O46: each act of a host, of firmware and of the command processor on a ring. -/
theorem ringEvents : Obligations.RingEvents := by
  intro s v k x c u bs r q slot en st hosted
  have ready : s.vfReady v = true := vfReady_of en st
  have acts : s.pageActs v = true := pageActs_of en st hosted
  refine ⟨fun off => ticketRead_disabled hosted (enabled_eq_false off), fun formed cfg on => ?_, fun far => publishWrite_bad acts (.inl far),
    notifyWrite_noted hosted en st, cheadWrite_stored acts, fun notify _ read => configurationReread_observed ready notify read⟩
  have enabled : r.enabled = true := enabled_eq_true formed cfg on
  have slots : r.slots = 2 ^ c.lgs := slots_eq cfg
  refine ⟨fun full => ticketRead_full hosted ready enabled (full.trans slots.symm), fun _ again => publishWrite_bad acts (.inr ?_),
    fun room => ticketRead_given hosted ready enabled fun h => room (h.trans slots), fun inside new => ?_,
    fun pending published fetched same => slotConsume_read ready enabled cfg pending published fetched same⟩
  · rw [slots]
    exact again
  · rw [← slots] at new ⊢
    exact publishWrite_noted acts inside new

end Sys2Proof.Laws

end

section

/-! LEMMAS and the obligation O47. Writes of registers (R5, R6, Tables 77, 86, 87, 109): each field under its mask. -/

namespace Sys2Proof.Laws

open Sys2Proof.Machine Sys2Proof.Safety Sys2Proof.Slice0

/-! ### The fields that software writes -/

theorem baseMask_eq : baseMask = 0x01FFFFFFFFFFFFFF := by decide
theorem rcfgMask_eq : rcfgMask = 0x1F3F9F := by decide
theorem ccfgMask_eq : ccfgMask = 0x07FF001F := by decide
theorem rootMask_eq : rootMask = 0x01FFFFFFFFFFF000 := by decide
theorem s2rootMask_eq : s2rootMask = 0xFFFFFFF000 := by decide
theorem elbaseMask_eq : elbaseMask = 0x01FFFFFFFFFFF01F := by decide

/-! ### Registers of a ring -/

@[simp] theorem ring_setRing_same {s : State} {v k : Nat} (hv : v < s.vfs.length) (hk : k < (s.vf v).rings.length) (r : Ring) :
    (s.setRing v k r).ring v k = r := by
  have inside : k < ((s.vf v).rings.set k r).length := by rwa [List.length_set]
  simp [State.ring, State.setRing, State.setVf, State.vf, List.getD_eq_getElem?_getD, hv]
  simp [State.vf, List.getD_eq_getElem?_getD, hv] at hk
  simp [hk]

section

variable {s : State} {v : Nat}

theorem writeRing_of_acts (acts : s.pageActs v = true) (k : Nat) (f : Ring → Ring) : s.writeRing v k f = s.setRing v k (f (s.ring v k)) := if_pos acts

theorem writeRing_of_silent (silent : s.pageActs v = false) (k : Nat) (f : Ring → Ring) : s.writeRing v k f = s :=
  if_neg (by rw [silent]; exact Bool.false_ne_true)

/-- The page of a function that is off, or that no host reaches, does not act. -/
theorem pageActs_eq_false (off : (s.vf v).en = false ∨ s.hosted v = false) : s.pageActs v = false := by
  obtain off | unbound := off
  · simp [State.pageActs, State.vfReady, off]
  · simp [State.pageActs, unbound]

theorem setWidth_32_64 (x : W64) : ((x.setWidth 32 : W32).setWidth 64 : W64) = x &&& 0xFFFFFFFF := by
  have masked : x.toNat &&& 0xFFFFFFFF = x.toNat % 2 ^ 32 := Nat.and_two_pow_sub_one_eq_mod x.toNat 32
  apply BitVec.eq_of_toNat_eq
  rw [BitVec.toNat_setWidth, BitVec.toNat_setWidth, BitVec.toNat_and]
  refine Eq.trans ?_ masked.symm
  omega

/-- PUBLISH and NOTIFY read the value last written (R5). -/
theorem publish_read {k : Nat} {x : W64} {t : State} (hv : v < s.vfs.length) (hk : k < (s.vf v).rings.length) (acts : s.pageActs v = true)
    (written : exec (.publishWrite v k x) s = .next t) : t.readRegister (.publish v k) = x &&& 0xFFFFFFFF := by
  have kept : (t.ring v k).publish = x.setWidth 32 := by
    by_cases far : ((s.ring v k).tail - (s.ring v k).head).toNat ≤ (x.setWidth 32 - (s.ring v k).head).toNat ∨
        (x.setWidth 32 : W32).toNat % (s.ring v k).slots ∈ (s.ring v k).bits
    · rw [publishWrite_bad acts far] at written
      injection written with written
      rw [← written, ring_setRing_same hv hk]
    · obtain ⟨inside, new⟩ := not_or.1 far
      rw [publishWrite_noted acts (not_le.1 inside) new] at written
      injection written with written
      rw [← written, ring_setRing_same hv hk]
  rw [State.readRegister, kept, setWidth_32_64]

theorem notify_read {k : Nat} {x : W64} {t : State} (hv : v < s.vfs.length) (hk : k < (s.vf v).rings.length) (en : (s.vf v).en = true)
    (st : (s.vf v).st = 1) (hosted : s.hosted v = true) (written : exec (.notifyWrite v ⟨k, x⟩) s = .next t) : t.readRegister (.notify v k) = x := by
  rw [notifyWrite_noted hosted en st] at written
  injection written with written
  rw [State.readRegister, ← written, ring_setRing_same hv hk]

end

/-! ### PCTL and VFCTL (R265-R268) -/

/-- NEST_LIMIT stays as it is where the value lies outside 1 to 4 (Table 86). -/
theorem nest_eq (n old : Nat) : (if decide (n = 0 ∨ 4 < n) = true then old else n) = if 1 ≤ n ∧ n ≤ 4 then n else old := by
  simp only [decide_eq_true_eq]
  split <;> split <;> omega

/-- A write to PCTL sets the fields of the partition, then its owner (R266). -/
theorem writePctl_eq (s : State) (p : Nat) (x : W64) :
    s.writePctl p x =
      (s.setPart p
        { s.part p with
          fwm := x.extractLsb' 16 5
          pev := x.getLsbD 9
          nest := if 1 ≤ x.toNat % 8 ∧ x.toNat % 8 ≤ 4 then x.toNat % 8 else (s.part p).nest
          perr := decide (x.toNat % 8 = 0 ∨ 4 < x.toNat % 8) || ((s.part p).perr && !x.getLsbD 8) }).writeOwner p (x.toNat / 2 ^ 24 % 128) := by
  have low : bits x.toNat 0 3 = x.toNat % 8 := by simp [bits]
  have bad : (decide (x.toNat % 8 = 0) || decide (x.toNat % 8 ≥ 5)) = decide (x.toNat % 8 = 0 ∨ 4 < x.toNat % 8) := (Bool.decide_or ..).symm
  rw [State.writePctl, low]
  simp only [bad, nest_eq]
  rfl

/-- Settles O47: each register under its mask, and those whose write is an event of its own. -/
theorem registerWrites : Obligations.RegisterWrites := by
  intro s v k p x ring
  refine ⟨rfl, rfl, rfl, rfl, rfl, rfl, fun t hv hk en st hosted => ⟨publish_read hv hk (pageActs_of en st hosted), notify_read hv hk en st hosted⟩, rfl, ?_, ?_,
    ⟨fun free => ?_, fun owned => ?_⟩, ⟨fun on => ?_, fun off => ?_⟩, fun en st hosted => ?_, fun off => ?_, fun e he u hosted => ?_, fun r hr => ?_⟩
  · rw [exec_registerWrite, execRegisterWrite, elbaseMask_eq]
  · rw [exec_registerWrite, execRegisterWrite, s2rootMask_eq]
  · rw [exec_registerWrite, execRegisterWrite, writePctl_eq, free]
    rfl
  · rw [exec_registerWrite, execRegisterWrite, writePctl_eq, exec_partitionAssign, execPartitionAssign, Nat.mod_mod]
  · rw [exec_registerWrite, execRegisterWrite, State.writeVfctl, on]
    rfl
  · rw [exec_registerWrite, execRegisterWrite, State.writeVfctl, off]
    rfl
  · have acts : s.pageActs v = true := pageActs_of en st hosted
    simp only [exec_registerWrite, execRegisterWrite, writeRing_of_acts acts, if_pos acts, baseMask_eq, rcfgMask_eq, ccfgMask_eq, rootMask_eq, ring,
      and_self]
  · have silent : s.pageActs v = false := pageActs_eq_false off
    simp only [exec_registerWrite, execRegisterWrite, writeRing_of_silent silent, and_self]
  · rw [exec_registerWrite, execRegisterWrite, if_pos hosted, State.writeMsix, if_pos he]
  · fin_cases hr <;> rfl

end Sys2Proof.Laws

end

section

/-! LEMMAS for O49 and O50. What the ends of units leave alone: where work ends by itself, is killed, detaches or is logged, the partitions, the functions, their
contexts, commands, pages and cells stay, no launch begins, and a team that is dead stays dead. -/

namespace Sys2Proof.Laws

open Sys2Proof.Machine Sys2Proof.Safety Sys2Proof.Slice0

/-! ### What stays as work ends -/

/-- Partitions, functions, contexts, cached translations, commands, the owners of pages and cells. -/
def tenancy (s : State) : List Part × List Vf × List AsidBind × List TlbEntry × List Cmd × List (Nat × Nat) × List CellBlock :=
  (s.parts, s.vfs, s.asids, s.tlb, s.cmds, s.pages, s.cellBlocks)

/-- No team of a number is alive: it has gone, or is dead. -/
def OverFor (s : State) (id : Nat) : Prop := ∀ t, s.team? id = some t → t.phase = .dead

/-- `t` follows `s` with nothing but work that ends. -/
structure Keeps (s t : State) : Prop where
  core : tenancy t = tenancy s
  launches : ∀ l ∈ t.launches, ∃ k ∈ s.launches, k.vf = l.vf
  ends : ∀ id, OverFor s id → OverFor t id

theorem overFor_congr {s t : State} (same : t.teams = s.teams) (id : Nat) : OverFor t id ↔ OverFor s id := by
  simp only [OverFor, State.team?, same]

namespace Keeps

theorem refl (s : State) : Keeps s s := ⟨rfl, fun l hl => ⟨l, hl, rfl⟩, fun _ h => h⟩

section

variable {s t u : State}

theorem parts (h : Keeps s t) : t.parts = s.parts := congrArg (·.1) h.core
theorem vfs (h : Keeps s t) : t.vfs = s.vfs := congrArg (·.2.1) h.core
theorem asids (h : Keeps s t) : t.asids = s.asids := congrArg (·.2.2.1) h.core
theorem tlb (h : Keeps s t) : t.tlb = s.tlb := congrArg (·.2.2.2.1) h.core
theorem cmds (h : Keeps s t) : t.cmds = s.cmds := congrArg (·.2.2.2.2.1) h.core
theorem pages (h : Keeps s t) : t.pages = s.pages := congrArg (·.2.2.2.2.2.1) h.core
theorem cellBlocks (h : Keeps s t) : t.cellBlocks = s.cellBlocks := congrArg (·.2.2.2.2.2.2) h.core

theorem ite {c : Prop} [Decidable c] (yes : Keeps s t) (no : Keeps s u) : Keeps s (if c then t else u) := by
  split
  exacts [yes, no]

end

section

variable {s u : State} (h : Keeps s u)
include h

theorem trans {t : State} (k : Keeps u t) : Keeps s t :=
  ⟨k.core.trans h.core,
    fun l hl => by
      obtain ⟨j, hj, same⟩ := k.launches l hl
      obtain ⟨i, hi, same'⟩ := h.launches j hj
      exact ⟨i, hi, same'.trans same⟩,
    fun id ends => k.ends id (h.ends id ends)⟩

/-- A change of other fields. -/
theorem quiet {t : State} (core : tenancy t = tenancy u) (launches : t.launches = u.launches) (teams : t.teams = u.teams) : Keeps s t :=
  ⟨core.trans h.core, launches ▸ h.launches, fun id ends => (overFor_congr teams id).2 (h.ends id ends)⟩

theorem foldl {α : Type} {f : State → α → State} {l : List α} (step : ∀ u a, Keeps u (f u a)) : Keeps s (l.foldl f u) := by
  induction l generalizing u with
  | nil => exact h
  | cons a l ih => exact ih (h.trans (step u a))

theorem mapTeams {f : Team → Team} (ids : ∀ t, (f t).id = t.id) (dead : ∀ t, t.phase = .dead → (f t).phase = .dead) :
    Keeps s { u with teams := u.teams.map f } := by
  refine ⟨h.core, h.launches, fun id ends t found => ?_⟩
  rw [State.team?, List.find?_map, Option.map_eq_some_iff] at found
  obtain ⟨x, found, rfl⟩ := found
  simp only [Function.comp_def, ids] at found
  exact dead x (h.ends id ends x found)

theorem updTeam {team : Nat} {f : Team → Team} (ids : ∀ t, (f t).id = t.id) (dead : ∀ t, t.phase = .dead → (f t).phase = .dead) :
    Keeps s (u.updTeam team f) := by
  refine h.mapTeams (fun t => ?_) (fun t ends => ?_)
  · split
    exacts [ids t, rfl]
  · split
    exacts [dead t ends, ends]

theorem dropTeams {team : Nat} : Keeps s { u with teams := u.teams.filter fun x => x.id != team } := by
  refine ⟨h.core, h.launches, fun id ends t found => ?_⟩
  rw [State.team?, List.find?_filter] at found
  by_cases same : id = team
  · subst same
    have := List.find?_some found
    simp at this
  · refine h.ends id ends t (Eq.trans ?_ found)
    refine congrArg (List.find? · _) (funext fun x => ?_)
    by_cases it : x.id = id
    · simp [it, same]
    · simp [it]

theorem updLaunch {id : Nat} {f : Launch → Launch} (vfs : ∀ l, (f l).vf = l.vf) : Keeps s (u.updLaunch id f) := by
  refine ⟨h.core, fun l hl => ?_, h.ends⟩
  obtain ⟨k, hk, rfl⟩ := List.mem_map.1 hl
  obtain ⟨i, hi, same⟩ := h.launches k hk
  refine ⟨i, hi, ?_⟩
  split
  exacts [same.trans (vfs k).symm, same]

theorem filterLaunches {p : Launch → Bool} : Keeps s { u with launches := u.launches.filter p } :=
  ⟨h.core, fun l hl => h.launches l (List.mem_filter.1 hl).1, h.ends⟩

/-! ### Marks, tasks and records (R289-R296) -/

theorem forget {p : StoreLoc → Bool} : Keeps s (u.forget p) := by
  unfold State.forget
  split
  · exact h
  · exact h.quiet rfl rfl rfl

theorem reap : Keeps s u.reap := h.quiet rfl rfl rfl
theorem updRecord {rid : Nat} {f : Record → Record} : Keeps s (u.updRecord rid f) := h.quiet rfl rfl rfl
theorem updWave {wid : Nat} {f : Wave → Wave} : Keeps s (u.updWave wid f) := h.quiet rfl rfl rfl
theorem orFlags {launch : Nat} {f : BitVec 8} : Keeps s (u.orFlags launch f) := h.updLaunch fun _ => rfl
theorem chargeLaunch {launch ticks : Nat} : Keeps s (u.chargeLaunch launch ticks) := h.updLaunch fun _ => rfl
theorem deadTeam {launch status : Nat} : Keeps s (u.deadTeam launch status) := h.updLaunch fun _ => rfl
theorem enqueue {t : Task} {head : Bool} : Keeps s (u.enqueue t head) := h.quiet rfl rfl rfl
theorem dropFaultTask {rid : Nat} : Keeps s (u.dropFaultTask rid) := h.quiet rfl rfl rfl

theorem takeFlags {r : Record} : Keeps s (u.takeFlags r) := by
  unfold State.takeFlags
  split
  · exact h.updWave
  · exact h

theorem killRecord {rid : Nat} : Keeps s (u.killRecord rid) := by
  unfold State.killRecord
  refine dropFaultTask (updRecord ?_)
  split
  · exact h.takeFlags
  · exact h

theorem postFault {rid : Nat} : Keeps s (u.postFault rid) := by
  unfold State.postFault
  repeat' split
  · exact h
  · exact h.enqueue
  · exact h.quiet rfl rfl rfl
  · exact h

theorem repost {rids : List Nat} : Keeps s (u.repost rids) := by
  refine h.foldl fun u rid => ?_
  repeat' split
  · exact (refl u).updRecord.postFault
  all_goals exact refl u

theorem sendFor {vf link : Nat} {m : Nat → SpokeMsg} : Keeps s (u.sendFor vf link m) := by
  unfold State.sendFor
  split
  · exact h.quiet rfl rfl rfl
  · exact h

theorem releaseHolds {team : Nat} : Keeps s (u.releaseHolds team) := by
  unfold State.releaseHolds
  split
  · exact h
  · refine foldl (reap (repost (h.updTeam ?_ ?_))) (fun v _ => (refl v).sendFor)
    · exact fun _ => rfl
    · exact fun _ ends => ends

theorem sumFlags {w : Wave} : Keeps s (u.sumFlags w) := by
  unfold State.sumFlags
  split
  · exact h
  · exact h.orFlags

theorem makeRecord {x : UnitAt} {cause depth : Nat} {parent : W32} {place : Nat × Nat} {flags : BitVec 8} {faddr amask : W64} {body pan : List Byte}
    {deadline : Nat} : Keeps s (u.makeRecord x cause depth parent place flags faddr amask body pan deadline) :=
  h.quiet rfl rfl rfl

theorem makeNotice {x : UnitAt} {cause what : Nat} {a b : W64} {idx : W32} : Keeps s (u.makeNotice x cause what a b idx) := by
  unfold State.makeNotice
  split
  · exact h
  · exact ((h.makeRecord).updRecord).postFault

/-! ### Teams that are killed (R317, R318) -/

theorem relaunch {launch idx relaunches : Nat} : Keeps s (u.relaunch launch idx relaunches) := by
  unfold State.relaunch
  split
  · exact h
  · exact h.enqueue

theorem dropTeam {team : Nat} : Keeps s (u.dropTeam team) := by
  unfold State.dropTeam
  dsimp only
  refine forget ?_
  exact h.quiet rfl rfl rfl

theorem buryTeam {t : Team} {again : Bool} {code status : Nat} : Keeps s (u.buryTeam t again code status) := by
  have gone : Keeps s (({ u.releaseHolds t.id with teams := (u.releaseHolds t.id).teams.filter fun x => x.id != t.id } : State).reap) :=
    reap ((h.releaseHolds).dropTeams)
  unfold State.buryTeam
  dsimp only
  repeat' split
  · exact gone
  · exact gone.filterLaunches
  · exact gone
  · exact gone.relaunch
  · exact gone.deadTeam
  · exact gone.makeNotice
  · exact gone.deadTeam

theorem killOne {team : Nat} {again : Bool} {code status : Nat} : Keeps s (u.killOne team again code status) := by
  unfold State.killOne
  split
  · exact h
  next t _ =>
    split
    · exact h
    · let v := (u.teamWaves team).foldl State.sumFlags u
      let mine := (v.records.filter fun r => r.team == team && r.kind != .notice).map (·.id)
      have ended : Keeps s (mine.foldl State.killRecord v) :=
        foldl (h.foldl (fun v _ => (refl v).sumFlags)) (fun v _ => (refl v).killRecord)
      have charged := (ended.dropTeam (team := team)).chargeLaunch (launch := t.launch) (ticks := if t.secondary then 0 else t.charged)
      dsimp only
      split
      · refine buryTeam ?_
        exact charged.quiet rfl rfl rfl
      · refine reap (updTeam ?_ (fun _ => rfl) fun _ _ => rfl)
        exact charged.quiet rfl rfl rfl

theorem killTeam {team : Nat} {again : Bool} {code status : Nat} : Keeps s (u.killTeam team again code status) := by
  unfold State.killTeam
  split
  · exact h.killOne
  · exact h.killOne.killOne

/-! ### Launches and the work of contexts (R317, R255) -/

theorem endDoms {p : Dom → Bool} : Keeps s (u.endDoms p) := by
  unfold State.endDoms
  dsimp only
  refine foldl ?_ fun v d => foldl (refl v).repost.reap fun w _ => (refl w).sendFor
  exact h.forget.quiet rfl rfl rfl

theorem killLaunch {lid status : Nat} : Keeps s (u.killLaunch lid status) := by
  unfold State.killLaunch
  extract_lets teams fated killed rest
  have fates : Keeps s fated := by
    refine h.mapTeams (fun t => ?_) fun t ends => ?_
    · split <;> rfl
    · split
      exacts [ends, ends]
  have dead : Keeps s killed := fates.foldl fun v _ => (refl v).killOne
  have left : Keeps s rest := dead.quiet rfl rfl rfl
  exact (left.foldl fun v _ => (refl v).killRecord).reap.updLaunch fun _ => rfl

theorem killTasks {p : Launch → Bool} {dom : Dom → Bool} {status : Nat} : Keeps s (u.killTasks p dom status) :=
  foldl h.endDoms (fun v _ => (refl v).killLaunch)

theorem endContext {vf asid : Nat} : Keeps s (u.endContext vf asid) := h.killTasks

theorem endWork {lp : Launch → Bool} {tp : Team → Bool} {dp : Dom → Bool} {kp : Task → Bool} {rp : Record → Bool} :
    Keeps s (u.endWork lp tp dp kp rp) := by
  unfold State.endWork
  extract_lets ended killed rest
  have dead : Keeps s killed := h.killTasks.foldl fun v _ => (refl v).killTeam
  have left : Keeps s rest := dead.quiet rfl rfl rfl
  exact (left.foldl fun v _ => (refl v).killRecord.updRecord).reap

/-! ### Events that are logged, and lines (R163-R170, R294, R312) -/

theorem logEvent {e : Event} : Keeps s (u.logEvent e) := by
  unfold State.logEvent
  dsimp only
  split <;> exact h.quiet rfl rfl rfl

theorem logCore {core code action vf asid : Nat} : Keeps s (u.logCore core code action vf asid) := h.logEvent

theorem retire {page : Nat} : Keeps s (u.retire page).1 := by
  unfold State.retire
  split
  exacts [h, h.quiet rfl rfl rfl]

theorem queueFill {page : Nat} : Keeps s (u.queueFill page) := by
  unfold State.queueFill
  split
  exacts [h, h.quiet rfl rfl rfl]

theorem repair {loc : StoreLoc} : Keeps s (u.repair loc) := by
  unfold State.repair
  extract_lets mended noted
  have fewer : Keeps s mended := h.quiet rfl rfl rfl
  have logged : Keeps s noted := fewer.logEvent
  split
  · extract_lets page n counted
    have count : Keeps s counted := logged.quiet rfl rfl rfl
    split
    exacts [count.queueFill, count]
  · exact logged

theorem repairAt {p : StoreLoc → Bool} : Keeps s (u.repairAt p) := h.foldl fun v _ => (refl v).repair

theorem refetch {line : Nat} : Keeps s (u.refetch line) := by
  unfold State.refetch
  extract_lets bad fetched
  have fewer : Keeps s fetched := h.quiet rfl rfl rfl
  exact fewer.foldl fun v _ => (refl v).logEvent

theorem storeLine {e : Line} : Keeps s (u.storeLine e) := h.quiet rfl rfl rfl
theorem leaveCache {e : Line} : Keeps s (u.leaveCache e) := h.quiet rfl rfl rfl

theorem expelLine {e : Line} : Keeps s (u.expelLine e) := by
  unfold State.expelLine
  split
  exacts [h.storeLine.leaveCache, h.leaveCache]

theorem roomBelow {unit line : Nat} : Keeps s (u.roomBelow unit line) := by
  unfold State.roomBelow
  repeat' split
  exacts [h, h.quiet rfl rfl rfl, h.expelLine]

theorem sinkLine {e : Line} : Keeps s (u.sinkLine e) := quiet h.roomBelow rfl rfl rfl

theorem cleanLine {e : Line} {level : Nat} : Keeps s (u.cleanLine e level) := by
  unfold State.cleanLine
  repeat' split
  exacts [h, h.sinkLine, h, h.storeLine]

theorem ownerError {e : Line} : Keeps s (u.ownerError e) := by
  unfold State.ownerError
  extract_lets code cause ended r
  have logged : Keeps s ended := by
    unfold ended
    split
    exacts [h.logEvent, h.endContext.logEvent]
  have taken : Keeps s r.1 := by
    unfold r
    split
    exacts [logged.quiet rfl rfl rfl, logged.retire]
  split
  · exact taken.logEvent
  · exact taken.quiet rfl rfl rfl

theorem quarantine {l2 : Bool} {unit way : Nat} : Keeps s (u.quarantine l2 unit way) := by
  unfold State.quarantine
  extract_lets mine dirty shut cleaned held
  have closed : Keeps s shut := h.quiet rfl rfl rfl
  have clean : Keeps s cleaned := closed.foldl fun v e => by
    split
    exacts [(refl v).ownerError, (refl v).cleanLine]
  refine forget ?_
  exact clean.quiet rfl rfl rfl

theorem dirtyError {e : Line} : Keeps s (u.dirtyError e) := by
  unfold State.dirtyError
  extract_lets code cause owned
  have own : Keeps s owned := h.ownerError
  split
  · exact own
  · split
    exacts [own.logEvent, own.quarantine.logEvent]

theorem writeBack {e : Line} {level : Nat} : Keeps s (u.writeBack e level) := by
  unfold State.writeBack
  split
  exacts [h.dirtyError, h.cleanLine]

theorem putLines {p : Line → Bool} : Keeps s (u.putLines p) := by
  unfold State.putLines
  dsimp only
  refine h.foldl fun v e => ?_
  split
  · have back : Keeps v (v.writeBack e 1) := (refl v).writeBack
    exact back.quiet rfl rfl rfl
  · exact (refl v).quiet rfl rfl rfl

theorem consumeLine {dpa : Nat} : Keeps s (u.consumeLine dpa).1 := by
  have fresh (v : State) (line : Nat) (k : Keeps s v) : Keeps s (if v.errors.any (v.stale line) = true then v.refetch line else v) := by
    split
    exacts [k.refetch, k]
  unfold State.consumeLine
  split
  · exact h
  extract_lets line mended refreshed clean bad noted
  have mend : Keeps s mended := h.repairAt
  split
  · split
    exacts [mend.dirtyError, fresh _ _ mend]
  · have logged : Keeps s noted := (fresh _ _ mend).logEvent
    split
    · exact fresh _ _ mend
    · split
      · exact logged
      · refine queueFill ?_
        exact logged.quiet rfl rfl rfl

theorem consumeLines {dpas : List Nat} : Keeps s (u.consumeLines dpas).1 :=
  List.foldlRecOn (motive := fun acc : State × Bool => Keeps s acc.1) _ _ h fun _ k _ _ => k.consumeLine

end

end Keeps

end Sys2Proof.Laws

end

section

/-! LEMMAS for O50. A detach, and an operation that another partition performs, keep the partitions and the functions. -/

namespace Sys2Proof.Laws

open Sys2Proof.Machine Sys2Proof.Safety Sys2Proof.Slice0

namespace Keeps

section

variable {s u : State} (h : Keeps s u)
include h

/-! ### Waves, blocks, engine operations and copies that end (R147-R159, R184, R233) -/

theorem updBlock {team idx : Nat} {f : Block → Block} : Keeps s (u.updBlock team idx f) := h.quiet rfl rfl rfl
theorem updCopy {id : Nat} {f : Copy → Copy} : Keeps s (u.updCopy id f) := h.quiet rfl rfl rfl
theorem setHandle {team blk num : Nat} {f : Handle → Handle} : Keeps s (u.setHandle team blk num f) := h.quiet rfl rfl rfl
theorem freeResvs : Keeps s u.freeResvs := h.quiet rfl rfl rfl
theorem wakeRetry : Keeps s u.wakeRetry := h.quiet rfl rfl rfl
theorem keepA {w : Wave} : Keeps s (u.keepA w) := h.quiet rfl rfl rfl
theorem dropRemote {id : Nat} : Keeps s (u.dropRemote id) := h.quiet rfl rfl rfl
theorem backBefore {o : RemoteOp} {first : W57} : Keeps s (u.backBefore o first) := h.quiet rfl rfl rfl

theorem commitBlock {team idx : Nat} {lw : Bool} : Keeps s (u.commitBlock team idx lw).1 := by
  unfold State.commitBlock
  split
  · exact h
  · extract_lets r moved rest
    have move : Keeps s moved := h.updTeam (fun _ => rfl) fun _ ends => ends
    split
    exacts [h, move.quiet rfl rfl rfl]

theorem discardCopies {p : Copy → Bool} : Keeps s (u.discardCopies p) := by
  unfold State.discardCopies
  refine foldl (forget ?_) fun v _ => (refl v).setHandle
  exact h.quiet rfl rfl rfl

theorem startEnding {team : Nat} : Keeps s (u.startEnding team) := by
  unfold State.startEnding
  split
  · exact h
  · refine updTeam ?_ (fun _ => rfl) fun t ends => by simp [ends]
    exact h.quiet rfl rfl rfl

theorem endBlock {team blk : Nat} : Keeps s (u.endBlock team blk) := by
  unfold State.endBlock
  extract_lets committed released ended forgotten
  have commit : Keeps s committed := h.commitBlock
  have release : Keeps s released := commit.quiet rfl rfl rfl
  have done : Keeps s forgotten := release.updBlock.forget
  split
  exacts [done.startEnding, done]

theorem afterWave {team blk : Nat} : Keeps s (u.afterWave team blk) := by
  unfold State.afterWave
  extract_lets ws
  split
  · exact h
  · split
    exacts [h.endBlock, h.quiet rfl rfl rfl]

theorem finishWave {wid : Nat} : Keeps s (u.finishWave wid) := by
  unfold State.finishWave
  split
  · exact h
  · extract_lets summed gone
    have sum : Keeps s summed := h.sumFlags
    have rest : Keeps s gone := sum.quiet rfl rfl rfl
    exact rest.forget.afterWave

theorem tryFinish {wid : Nat} : Keeps s (u.tryFinish wid) := by
  unfold State.tryFinish
  split
  · exact h
  · split
    exacts [h.finishWave, h]

theorem endMma {id : Nat} {killed : Bool} : Keeps s (u.endMma id killed) := by
  unfold State.endMma
  split
  · exact h
  · extract_lets fewer marked summed
    have gone : Keeps s fewer := h.quiet rfl rfl rfl
    have mark : Keeps s marked := ite gone.updBlock gone
    have sum : Keeps s summed := ite mark.orFlags mark
    exact sum.freeResvs.tryFinish

theorem joinFlags {r : Record} : Keeps s (u.joinFlags r) := by
  unfold State.joinFlags
  split
  exacts [h.orFlags, h]

theorem endWave {wid : Nat} : Keeps s (u.endWave wid) := by
  unfold State.endWave
  split
  · exact h
  · extract_lets discarded flags forgotten waits
    have forgot : Keeps s forgotten := h.discardCopies.forget
    have fewer : Keeps s waits := forgot.quiet rfl rfl rfl
    exact fewer.updWave.tryFinish

theorem killWave {wid : Nat} : Keeps s (u.killWave wid) := (h.foldl fun v _ => (refl v).endMma).endWave

theorem completeCopy {id : Nat} : Keeps s (u.completeCopy id) := by
  unfold State.completeCopy
  repeat' split
  · exact h
  · refine setHandle ?_
    exact h.quiet rfl rfl rfl
  · exact h.quiet rfl rfl rfl
  · exact h
  · exact h

theorem forward {team : Nat} {r : Received} : Keeps s (u.forward team r) := by
  unfold State.forward
  repeat' split
  · exact h
  · exact h.updTeam (fun _ => rfl) fun _ ends => ends
  · exact h
  · exact h

theorem killSegment {id seg : Nat} : Keeps s (u.killSegment id seg) := by
  unfold State.killSegment
  split
  · exact h
  · extract_lets whole f completed
    have complete : Keeps s completed := h.updCopy.setHandle.completeCopy
    exact ite (complete.foldl fun v _ => (refl v).forward) complete

theorem killUnit {r : Record} : Keeps s (u.killUnit r) := by
  unfold State.killUnit
  split
  · exact h.killWave
  · exact h.killSegment
  · exact h.joinFlags.endMma
  · repeat' split
    exacts [h.deadTeam, h.killTeam, h]

/-! ### Faults of a unit (R288-R298, R312) -/

theorem poisonKill {team core asid code : Nat} : Keeps s (u.poisonKill team core asid code) := h.logCore.killTeam

theorem dropRecord {r : Record} : Keeps s (u.dropRecord r) := by
  unfold State.dropRecord
  extract_lets killed
  have dead : Keeps s killed := h.killTeam.dropFaultTask
  exact (dead.mapTeams (f := fun x => { x with holds := x.holds.filter (· != r.id) }) (fun _ => rfl) fun _ ends => ends).quiet rfl rfl rfl

theorem loseExtent {part extent : Nat} : Keeps s (u.loseExtent part extent) := h.foldl fun v _ => (refl v).dropRecord

theorem expire {r : Record} : Keeps s (u.expire r) := by
  unfold State.expire
  split
  exacts [h.killUnit.reap, h.killTeam.reap]

theorem nestMet {rid : Nat} : Keeps s (u.nestMet rid) := by
  unfold State.nestMet
  repeat' split
  · exact h
  · exact h
  · exact h.updRecord.postFault
  · exact h.updRecord.killRecord.expire
  · exact h.updRecord.killRecord.expire

theorem nestLimit {team : Nat} {kill : State → State} (kills : ∀ v, Keeps v (kill v)) : Keeps s (u.nestLimit team kill) := by
  unfold State.nestLimit
  extract_lets holds both away vf released met
  have release : Keeps s released := by
    refine h.mapTeams (fun t => ?_) fun t ends => ?_
    · split <;> rfl
    · split
      exacts [ends, ends]
  have meet : Keeps s met := (release.trans (kills _)).foldl fun v _ => (refl v).nestMet
  exact (meet.foldl fun v _ => (refl v).sendFor).reap

theorem serveRecord {rid : Nat} : Keeps s (u.serveRecord rid) := by
  unfold State.serveRecord
  split
  · exact h
  · split
    exacts [h.killRecord.expire.reap, h.postFault]

theorem serveParked {rid : Nat} : Keeps s (u.serveParked rid) := by
  unfold State.serveParked
  split
  · exact h
  · split
    exacts [h.quiet rfl rfl rfl, h.serveRecord]

theorem parkWave {w : Wave} {p : Pending} {depth : Nat} {parent : W32} {place : Nat × Nat} {waited : Bool} {deadline : Nat} :
    Keeps s (u.parkWave w p depth parent place waited deadline) := by
  unfold State.parkWave
  extract_lets x rid flags body pan drawn made
  have draw : Keeps s drawn := h.quiet rfl rfl rfl
  have make : Keeps s made := draw.makeRecord
  split
  · exact draw.poisonKill
  · split
    exacts [draw.killTeam.loseExtent, make.updWave.serveParked]

theorem detach {wid : Nat} {p : Pending} : Keeps s (u.detach wid p) := by
  unfold State.detach
  extract_lets free
  have freed : Keeps s free := h.quiet rfl rfl rfl
  split
  · exact freed
  · split
    · exact freed.updWave
    · extract_lets w' woken x
      have kept : Keeps s woken := freed.updWave.keepA.wakeRetry
      split
      · exact kept.nestLimit fun v => (refl v).killWave
      · split
        · refine updWave ?_
          exact kept.quiet rfl rfl rfl
        · exact kept.parkWave

/-! ### Operations that another partition performs (R159, R196) -/

theorem deliver {wid lane d : Nat} {pair : Bool} {v : W64} : Keeps s (u.deliver wid lane d pair v) := by
  unfold State.deliver State.deliverAt
  dsimp only
  split
  exacts [ite h.forget.updWave (ite h.updWave h), h]

theorem replied {wid : Nat} : Keeps s (u.replied wid) := by
  unfold State.replied
  split
  · exact h
  · split
    · split
      · exact h.updWave
      · extract_lets bad fewer woken
        have kept : Keeps s fewer := h.quiet rfl rfl rfl
        have wake : Keeps s woken := kept.updWave
        clear_value bad
        cases bad with
        | nil => exact wake
        | cons o rest =>
          dsimp only
          split
          exacts [wake.backBefore.detach, wake.detach]
    · exact h

theorem unperformed {o : RemoteOp} {before : Bool} : Keeps s (u.unperformed o before) := by
  unfold State.unperformed
  split
  · exact h.dropRemote
  · split
    · exact h.dropRemote
    · refine replied ?_
      exact h.quiet rfl rfl rfl

theorem answer {o : RemoteOp} {v : W64} : Keeps s (u.answer o v) := by
  unfold State.answer
  extract_lets dropped forwarded
  have drop : Keeps s dropped := h.dropRemote
  split
  · exact drop
  · have sent : Keeps s forwarded := by
      unfold forwarded
      split
      exacts [drop.forward, drop]
    exact sent.deliver.replied

end

end Keeps

end Sys2Proof.Laws

end

section

/-! LEMMAS for O50. Memory that is written, and operations that are performed, keep the partitions and the functions. -/

namespace Sys2Proof.Laws

open Sys2Proof.Machine Sys2Proof.Safety Sys2Proof.Slice0

namespace Keeps

section

variable {s u : State} (h : Keeps s u)
include h

/-! ### Device memory and banks (R160-R170, R190-R195) -/

theorem setAside {e : Line} : Keeps s (u.setAside e) := h.quiet rfl rfl rfl
theorem hitLine {line : Nat} : Keeps s (u.hitLine line) := h.quiet rfl rfl rfl
theorem setBank {b : Bank} : Keeps s (u.setBank b) := ite (h.quiet rfl rfl rfl) (h.quiet rfl rfl rfl)
theorem fillCleared {page : Nat} : Keeps s (u.fillCleared page) := ite (h.quiet rfl rfl rfl) h
theorem liftErrors {wr : Writer} {lines : List Nat} : Keeps s (u.liftErrors wr lines) := ite h (h.quiet rfl rfl rfl)
theorem clearPoison {ws : List Host.Cell} : Keeps s (u.clearPoison ws) := ite h (h.quiet rfl rfl rfl)

theorem room {l2 : Bool} {unit line : Nat} : Keeps s (u.room l2 unit line) := by
  unfold State.room
  split
  · exact h.roomBelow
  · split
    exacts [h, ite h.setAside (ite h.sinkLine h.leaveCache)]

theorem addLine {e : Line} : Keeps s (u.addLine e) := by
  unfold State.addLine
  extract_lets roomy
  have made : Keeps s roomy := h.room
  exact made.quiet rfl rfl rfl

theorem noteDirty {wr : Writer} {line : Nat} {below : Cells} : Keeps s (u.noteDirty wr line below) := by
  unfold State.noteDirty
  extract_lets unit
  split
  · refine ite (h.quiet rfl rfl rfl) (addLine ?_)
    exact h.quiet rfl rfl rfl
  · exact h.addLine

theorem writeMem {wr : Writer} {ws : List Host.Cell} : Keeps s (u.writeMem wr ws) := by
  unfold State.writeMem
  extract_lets pages lines filled old written cleared hit
  have fill : Keeps s filled := h.foldl fun v _ => (refl v).fillCleared
  have write : Keeps s written := fill.quiet rfl rfl rfl
  exact (write.liftErrors.clearPoison.foldl fun v _ => (refl v).hitLine).foldl fun v _ => (refl v).noteDirty

theorem writeUncached {wr : Writer} {ws : List Host.Cell} : Keeps s (u.writeUncached wr ws) := by
  unfold State.writeUncached
  extract_lets pages filled expelled lines
  have left : Keeps s expelled := (h.foldl fun v _ => (refl v).fillCleared).foldl fun v _ => (refl v).expelLine
  refine clearPoison ?_
  exact left.quiet rfl rfl rfl

theorem writeBase {team ta : Nat} {bs : List Byte} : Keeps s (u.writeBase team ta bs) :=
  h.forget.updTeam (fun _ => rfl) fun _ ends => ends

theorem bankMac {bk : Bank} {dpa b : Nat} : Keeps s (u.bankMac bk dpa b).1 :=
  List.foldlRecOn (motive := fun acc : State × Bank => Keeps s acc.1) _ _ h fun _ k _ _ => k.consumeLines

theorem performBank {o : BankOp} : Keeps s (u.performBank o) := by
  unfold State.performBank
  extract_lets bk ts b vals put mac bs sent cleared
  refine ite h (ite h.setBank (ite h.setBank (ite h.bankMac.setBank (ite h.forward.writeBase ?_))))
  have clear : Keeps s cleared := ite h.setBank h
  exact ite clear.writeUncached clear

theorem testWays {p : Nat} : Keeps s (u.testWays p) :=
  h.foldl fun v _ => ite ((refl v).quiet rfl rfl rfl) ((refl v).quiet rfl rfl rfl)

/-! ### Teams whose reductions have all been applied (R152) -/

theorem countEnd {t : Team} : Keeps s (u.countEnd t) := by
  unfold State.countEnd
  split
  · exact h
  · split
    exacts [h, ite h.filterLaunches (h.updLaunch fun _ => rfl)]

theorem endTeam {team : Nat} : Keeps s (u.endTeam team) := by
  unfold State.endTeam
  split
  exacts [h, h.releaseHolds.dropTeam.chargeLaunch.dropTeams.countEnd]

theorem applied {team : Nat} : Keeps s (u.applied team) := by
  unfold State.applied
  split
  · exact h
  · refine ite h ?_
    split
    · split
      exacts [h.buryTeam, h.dropTeams]
    · exact h.foldl fun v _ => (refl v).endTeam
    · exact h

end

end Keeps

/-! ### Exact cells that are written as well (R277) -/

/-- The partitions and the functions stay. -/
structure Stays (s t : State) : Prop where
  parts : t.parts = s.parts
  vfs : t.vfs = s.vfs

theorem Keeps.stays {s t : State} (h : Keeps s t) : Stays s t := ⟨h.parts, h.vfs⟩

namespace Stays

theorem refl (s : State) : Stays s s := ⟨rfl, rfl⟩

section

variable {s u : State} (h : Stays s u)
include h

theorem trans {t : State} (k : Stays u t) : Stays s t := ⟨k.parts.trans h.parts, k.vfs.trans h.vfs⟩

theorem foldl {α : Type} {f : State → α → State} {l : List α} (step : ∀ u a, Stays u (f u a)) : Stays s (l.foldl f u) := by
  induction l generalizing u with
  | nil => exact h
  | cons a l ih => exact ih (h.trans (step u a))

theorem setCell {dpa : Nat} {c : ExactCell} : Stays s (u.setCell dpa c) := ⟨h.parts, h.vfs⟩

theorem findCellError {dpa : Nat} : Stays s (u.findCellError dpa) := by
  unfold State.findCellError
  extract_lets here mended fewer poisoned
  have mend : Stays s mended := h.trans (Keeps.refl u).repairAt.stays
  split
  · have less : Stays s fewer := ⟨mend.parts, mend.vfs⟩
    exact less.setCell.trans (Keeps.refl _).logEvent.stays
  · exact mend

theorem applyRed {vf asid : Nat} {r : Red} : Stays s (u.applyRed vf asid r) := by
  unfold State.applyRed
  extract_lets found consumed n v
  split
  · exact h
  · split
    · exact h.findCellError.setCell
    · have consume : Stays s consumed.1 := h.trans (Keeps.refl u).consumeLine.stays
      split
      exacts [consume, consume.trans (Keeps.refl _).writeMem.stays]

theorem applyAll {p : Team → Bool} : Stays s (u.applyAll p) := by
  refine h.foldl fun v t => ?_
  have reds : Stays v (t.applyQ.foldl (fun s r => s.applyRed t.vf t.asid r) v) := (refl v).foldl fun w _ => (refl w).applyRed
  refine reds.trans ((Keeps.refl _).updTeam ?_ ?_).applied.stays
  · exact fun _ => rfl
  · exact fun _ ends => ends

theorem performRemote {o : RemoteOp} : Stays s (u.performRemote o) := by
  unfold State.performRemote
  extract_lets found drawn consumed n old stored
  split
  · have draw : Stays s drawn.2 := ⟨h.findCellError.parts, h.findCellError.vfs⟩
    exact draw.trans (Keeps.refl _).answer.stays
  · split
    · exact (h.trans (Keeps.refl u).forget.stays).setCell.trans (Keeps.refl _).answer.stays
    · have consume : Stays s consumed.1 := h.trans (Keeps.refl u).consumeLine.stays
      split
      · exact consume.trans (Keeps.refl _).unperformed.stays
      · exact consume.trans (Keeps.ite (Keeps.refl _).writeMem (Keeps.refl _)).answer.stays

theorem flushPages {pages : List Nat} : Stays s (u.flushPages pages) := by
  unfold State.flushPages
  extract_lets on keep performed banked
  have perform : Stays s performed := h.foldl fun v _ => (refl v).performRemote
  have bank : Stays s banked := perform.foldl fun v o => by
    have op := (Keeps.refl v).performBank (o := o)
    exact ⟨op.parts, op.vfs⟩
  exact ⟨bank.parts, bank.vfs⟩

end

end Stays

end Sys2Proof.Laws

end

section

/-! LEMMAS for O50. The host and device memory (R160, R162, R168). -/

namespace Sys2Proof.Laws

open Sys2Proof.Machine Sys2Proof.Safety Sys2Proof.Slice0

section

variable {s : State} {v dpa n : Nat} {data : List Byte}

theorem all_range_map {p : Nat → Bool} (a n : Nat) : ((List.range n).map (a + ·)).all p = true ↔ ∀ k < n, p (a + k) = true := by
  simp [List.all_eq_true]

theorem any_range_map {p : Nat → Bool} (a n : Nat) : ((List.range n).map (a + ·)).any p = true ↔ ∃ k < n, p (a + k) = true := by
  simp [List.any_eq_true]

theorem all_range_map_eq_false {p : Nat → Bool} {a n : Nat} (h : ∃ k < n, p (a + k) = false) : ((List.range n).map (a + ·)).all p = false := by
  simpa [List.all_eq_false] using h

theorem any_range_map_eq_false {p : Nat → Bool} {a n : Nat} (h : ∀ k < n, p (a + k) = false) : ((List.range n).map (a + ·)).any p = false := by
  simpa [List.any_eq_false] using h

/-! ### Lines without an error -/

theorem consumeLine_of_no_errors (errors : s.errors = []) (softs : s.softs = []) (a : Nat) : s.consumeLine a = (s, false) := by
  simp [State.consumeLine, errors, softs]

theorem consumeLines_of_no_errors (errors : s.errors = []) (softs : s.softs = []) (l : List Nat) : s.consumeLines l = (s, false) := by
  unfold State.consumeLines
  induction (l.map (· / 64)).eraseDups with
  | nil => rfl
  | cons a l ih => simpa [consumeLine_of_no_errors errors softs] using ih

/-! ### A host's access -/

theorem hostMem_unhosted (out : s.hosted v = false) : exec (.hostMemRead v dpa n) s = .next s ∧ exec (.hostMemWrite v dpa data) s = .next s := by
  simp [execHostMemRead, execHostMemWrite, out]

variable (hosted : s.hosted v = true)
include hosted

theorem hostMemRead_eq : exec (.hostMemRead v dpa n) s = .next (s.hostRequest { vf := v, dpa := dpa, len := n, data := none }) := by
  simp [execHostMemRead, hosted]

theorem hostMemWrite_eq : exec (.hostMemWrite v dpa data) s = .next (s.hostRequest { vf := v, dpa := dpa, len := data.length, data := some data }) := by
  simp [execHostMemWrite, hosted]

theorem hostMemRead_unreached (out : ∃ k < n, s.hostPage v (dpa + k) = false) : exec (.hostMemRead v dpa n) s = .next (s.reply .poison) := by
  rw [hostMemRead_eq hosted]
  simp [State.hostRequest, State.hostAccess, all_range_map_eq_false (p := fun a => s.hostPage v a) out]

theorem hostMemWrite_unreached (out : ∃ k < data.length, s.hostPage v (dpa + k) = false) : exec (.hostMemWrite v dpa data) s = .next s := by
  rw [hostMemWrite_eq hosted]
  simp [State.hostRequest, State.hostAccess, all_range_map_eq_false (p := fun a => s.hostPage v a) out]

theorem hostMemRead_waits (reach : ∀ k < n, s.hostPage v (dpa + k) = true) (held : ∃ k < n, s.lineHeld (dpa + k) = true) :
    exec (.hostMemRead v dpa n) s = .next { s with hostWait := s.hostWait ++ [{ vf := v, dpa := dpa, len := n, data := none }] } := by
  rw [hostMemRead_eq hosted]
  simp [State.hostRequest, State.hostAccess, (all_range_map (p := fun a => s.hostPage v a) dpa n).2 reach, (any_range_map dpa n).2 held]

theorem hostMemRead_reads (reach : ∀ k < n, s.hostPage v (dpa + k) = true) (free : ∀ k < n, s.lineHeld (dpa + k) = false) (errors : s.errors = [])
    (softs : s.softs = []) : exec (.hostMemRead v dpa n) s = .next (s.reply (.bytes (s.readBytes dpa n))).wakeRetry := by
  rw [hostMemRead_eq hosted]
  simp [State.hostRequest, State.hostAccess, (all_range_map (p := fun a => s.hostPage v a) dpa n).2 reach, any_range_map_eq_false free,
    consumeLines_of_no_errors errors softs]

section

variable (reach : ∀ k < data.length, s.hostPage v (dpa + k) = true)
include reach

theorem hostMemWrite_waits (fills : ∃ k < data.length, s.filling (dpa + k) = true) : exec (.hostMemWrite v dpa data) s =
    .next { s with hostWait := s.hostWait ++ [{ vf := v, dpa := dpa, len := data.length, data := some data }] } := by
  rw [hostMemWrite_eq hosted]
  simp [State.hostRequest, State.hostAccess, (all_range_map (p := fun a => s.hostPage v a) dpa data.length).2 reach, (any_range_map dpa _).2 fills]

theorem hostMemWrite_writes (free : ∀ k < data.length, s.filling (dpa + k) = false) : exec (.hostMemWrite v dpa data) s =
    .next (s.writeAs { vf := v, asid := 0, host := true, l2 := none } (cellsAt dpa data)).wakeRetry := by
  rw [hostMemWrite_eq hosted]
  simp [State.hostRequest, State.hostAccess, (all_range_map (p := fun a => s.hostPage v a) dpa data.length).2 reach, any_range_map_eq_false free]

end

omit hosted

/-! ### Writes of bank-engine regions (R162) -/

theorem mem_cellsAt (e : Host.Cell) : e ∈ cellsAt dpa data ↔ ∃ k, ∃ h : k < data.length, (dpa + k, data[k]) = e := by
  simp [cellsAt, List.mem_mapIdx]

variable {wr : Writer} {ws : List Host.Cell}

theorem mem_bankPages (e : Host.Cell) (he : e ∈ ws) :
    e.1 / 65536 ∈ ((ws.map fun e => e.1 / 65536).eraseDups).filter s.memSide ↔ s.memSide (e.1 / 65536) = true := by
  simp only [List.mem_filter, List.mem_eraseDups, List.mem_map, and_iff_right_iff_imp]
  exact fun _ => ⟨e, he, rfl⟩

theorem writeAs_cached (cached : ∀ e ∈ ws, s.memSide (e.1 / 65536) = false) : s.writeAs wr ws = s.writeMem wr ws := by
  have none : ((ws.map fun e => e.1 / 65536).eraseDups).filter s.memSide = [] := by
    simp only [List.filter_eq_nil_iff, List.mem_eraseDups, List.mem_map, forall_exists_index, and_imp]
    rintro page e he rfl
    simp [cached e he]
  simp [State.writeAs, none]

theorem writeAs_banks (some : ∃ e ∈ ws, s.memSide (e.1 / 65536) = true) : s.writeAs wr ws =
    (s.writeMem wr (ws.filter fun e => !s.memSide (e.1 / 65536))).writeUncached wr (ws.filter fun e => s.memSide (e.1 / 65536)) := by
  obtain ⟨e, he, side⟩ := some
  have any : (((ws.map fun e => e.1 / 65536).eraseDups).filter s.memSide).isEmpty = false :=
    List.isEmpty_eq_false_iff.2 (List.ne_nil_of_mem ((mem_bankPages e he).2 side))
  have same : ∀ e ∈ ws, (((ws.map fun e => e.1 / 65536).eraseDups).filter s.memSide).contains (e.1 / 65536) = s.memSide (e.1 / 65536) := fun e he =>
    Bool.eq_iff_iff.2 (List.contains_iff_mem.trans (mem_bankPages e he))
  simp only [State.writeAs, any]
  rw [List.filter_congr same, List.filter_congr fun e he => congrArg (! ·) (same e he)]
  rfl

end

theorem hostAccesses : HostAccesses := by
  intro s v dpa n data
  refine ⟨hostMem_unhosted, fun hosted => ⟨fun reach => ⟨hostMemRead_reads hosted reach, hostMemRead_waits hosted reach⟩, hostMemRead_unreached hosted, ?_,
    hostMemWrite_unreached hosted⟩⟩
  intro wr reach
  refine ⟨hostMemWrite_waits hosted reach, fun free => ⟨fun cached => ?_, fun ⟨k, hk, side⟩ => ?_⟩⟩
  · rw [hostMemWrite_writes hosted reach free, writeAs_cached fun e he => ?_]
    obtain ⟨k, hk, rfl⟩ := (mem_cellsAt e).1 he
    exact cached k hk
  · rw [hostMemWrite_writes hosted reach free, writeAs_banks ⟨_, (mem_cellsAt _).2 ⟨k, hk, rfl⟩, side⟩]

end Sys2Proof.Laws

end

section

/-! LEMMAS for O50. Pages that are zeroed, and the owners of partitions (R253, R254, R266, R274-R278). -/

namespace Sys2Proof.Laws

open Sys2Proof.Machine Sys2Proof.Safety Sys2Proof.Slice0

/-! ### Registers of a partition and of a function -/

section

variable {s : State}

theorem part_setPart_same {p : Nat} (hp : p < s.parts.length) (x : Part) : (s.setPart p x).part p = x := by
  simp [State.part, State.setPart, List.getD_eq_getElem?_getD, hp]

theorem vf_setVf_same {v : Nat} (hv : v < s.vfs.length) (x : Vf) : (s.setVf v x).vf v = x := by
  simp [State.vf, State.setVf, List.getD_eq_getElem?_getD, hv]

/-! ### Pages -/

theorem leaves_congr {t : State} (mem : t.mem = s.mem) (cleared : t.cleared = s.cleared) (l : List (Nat × Nat × Nat)) (table : Nat) :
    t.leaves l table = s.leaves l table := by
  have read (a n : Nat) : t.readNat a n = s.readNat a n := by simp only [State.readNat, State.readBytes, State.readByte, mem, cleared]
  induction l generalizing table with
  | nil => rfl
  | cons e l ih => simp only [State.leaves, State.validEntries, mem, cleared, read, ih]

/-- What of the state says which pages lie in a bank-engine region. -/
theorem bankPage_congr {t : State} (stays : Stays s t) (mem : t.mem = s.mem) (cleared : t.cleared = s.cleared) (banks : t.banks = s.banks)
    (pages : t.pages = s.pages) (page : Nat) : t.bankPage page = s.bankPage page := by
  simp only [State.bankPage, State.pageKind, State.pageOwner, State.vf, State.part, leaves_congr mem cleared, banks, pages, stays.parts, stays.vfs]

theorem get_eq_zero {m : Cells} {a : Nat} (h : ∀ e ∈ m, e.1 ≠ a) : Cells.get m a = 0 := by
  induction m with
  | nil => rfl
  | cons e m ih =>
    rw [Cells.get, if_neg (h e (by simp))]
    exact ih fun e he => h e (by simp [he])

/-- A page of which memory holds no byte reads zero. -/
theorem readByte_eq_zero {page : Nat} (h : ∀ e ∈ s.mem, e.1 / 65536 ≠ page) {k : Nat} (hk : k < 65536) : s.readByte (page * 65536 + k) = 0 := by
  unfold State.readByte
  split
  · rfl
  · exact get_eq_zero fun e he it => h e he (by omega)

theorem readByte_of_cleared {page : Nat} (h : page ∈ s.cleared) {k : Nat} (hk : k < 65536) : s.readByte (page * 65536 + k) = 0 := by
  have at_page : (page * 65536 + k) / 65536 = page := by omega
  simp [State.readByte, at_page, h]

theorem zeroPageAs_mem (page : Nat) (bank : Bool) : (s.zeroPageAs page bank).mem = s.mem.filter fun e => e.1 / 65536 != page := rfl

theorem mem_cleared_zeroPageAs_same (page : Nat) : page ∈ (s.zeroPageAs page false).cleared := by
  simp only [State.zeroPageAs, Bool.false_and, Bool.false_eq_true, if_false]
  split
  case isTrue h => simpa [State.hitPage] using h
  case isFalse => simp

theorem mem_cleared_zeroPageAs_other {page other : Nat} (ne : page ≠ other) (bank : Bool) (h : page ∈ s.cleared) :
    page ∈ (s.zeroPageAs other bank).cleared := by
  have kept : page ∈ (s.hitPage other).cleared := h
  simp only [State.zeroPageAs]
  repeat' split
  · simp [kept, ne]
  · exact kept
  · simp [kept]

/-- Pages that are zeroed one after another, each as what it was before. -/
def zeroPages (s : State) (bank : Nat → Bool) (pages : List Nat) : State :=
  pages.foldl (fun s x => (s.zeroPageAs x (bank x)).ungrant x) s

theorem mem_cleared_zeroPages {bank : Nat → Bool} {page : Nat} (plain : bank page = false) {pages : List Nat} (h : page ∈ pages ∨ page ∈ s.cleared) :
    page ∈ (zeroPages s bank pages).cleared := by
  induction pages generalizing s with
  | nil => simpa [zeroPages] using h
  | cons x pages ih =>
    refine ih (s := (s.zeroPageAs x (bank x)).ungrant x) ?_
    by_cases it : page = x
    · subst it
      rw [plain]
      exact Or.inr (mem_cleared_zeroPageAs_same page)
    · obtain h | h := h
      · exact Or.inl ((List.mem_cons.1 h).resolve_left it)
      · exact Or.inr (mem_cleared_zeroPageAs_other it _ h)

theorem stays_zeroPages (bank : Nat → Bool) (pages : List Nat) : Stays s (zeroPages s bank pages) := (Stays.refl s).foldl fun _ _ => ⟨rfl, rfl⟩

/-! ### Nothing of a partition or a function under way -/

theorem forget_none {p : StoreLoc → Bool} (none : ∀ e, p e = false) : s.forget p = s := by
  simp [State.forget, none]

/-- No launch, team, handler on a kernel-service port, record or operation on its way. -/
structure Idle (s : State) : Prop where
  launches : s.launches = []
  teams : s.teams = []
  doms : s.doms = []
  records : s.records = []
  remotes : s.remotes = []
  bankOps : s.bankOps = []

theorem endDoms_of_none (doms : s.doms = []) (p : Dom → Bool) : s.endDoms p = s := by
  cases s
  dsimp only at doms
  subst doms
  simp only [State.endDoms, List.filter_nil, List.any_nil, Bool.not_false, List.filter_true, List.foldl_nil]
  rw [forget_none fun e => by cases e <;> rfl]
  simp

theorem endWork_of_idle (idle : Idle s) (lp : Launch → Bool) (tp : Team → Bool) (dp : Dom → Bool) (kp : Task → Bool) (rp : Record → Bool) :
    s.endWork lp tp dp kp rp = { s with tasks := s.tasks.filter fun k => !kp k } := by
  obtain ⟨launches, teams, doms, records, -, -⟩ := idle
  have tasks : s.killTasks lp dp 6 = s := by simp [State.killTasks, endDoms_of_none doms, launches]
  cases s
  dsimp only at launches teams doms records
  subst launches teams doms records
  simp [State.endWork, State.reap, tasks]

theorem applyAll_of_idle (teams : s.teams = []) (p : Team → Bool) : s.applyAll p = s := by
  simp [State.applyAll, teams]

theorem testWays_cleared (p : Nat) : (s.testWays p).cleared = s.cleared := by
  refine List.foldlRecOn (motive := fun t : State => t.cleared = s.cleared) _ _ rfl fun t h e _ => ?_
  dsimp only
  split <;> exact h

end

end Sys2Proof.Laws

end

section

/-! LEMMAS for O50. Partitions that are freed and assigned (R253, R254, R266, R275). -/

namespace Sys2Proof.Laws

open Sys2Proof.Machine Sys2Proof.Safety Sys2Proof.Slice0

section

variable {s : State} {p : Nat}

/-- A partition that is freed: its registers, and what is left in its pages. -/
structure Freed (s : State) (p : Nat) (t : State) : Prop where
  owner : (t.part p).owner = 0x7F
  busy : (t.part p).busy = false
  pool : (t.part p).pool = none
  key : (t.part p).key = none
  queues : (t.part p).qen = BitVec.allOnes 64
  pages : ∀ e ∈ t.pages, e.2 ≠ p
  zeros : Idle s → ∀ page, (page, p) ∈ s.pages → s.bankPage page = false → ∀ k < 65536, t.readByte (page * 65536 + k) = 0
  parts : t.parts.length = s.parts.length

theorem Freed.wakeRetry {t : State} (h : Freed s p t) : Freed s p t.wakeRetry :=
  ⟨h.owner, h.busy, h.pool, h.key, h.queues, h.pages, h.zeros, h.parts⟩

theorem zeroPages_zip (bank : Nat → Bool) (pages : List Nat) :
    (pages.zip (pages.map bank)).foldl (fun (s : State) e => (s.zeroPageAs e.1 e.2).ungrant e.1) s = zeroPages s bank pages := by
  rw [← List.map_prod_left_eq_zip, List.foldl_map]
  rfl

/-- A partition that is freed, its work ended and what it has published applied. -/
def workEnded (s : State) (p : Nat) : State :=
  let here := fun (c : Nat) => partOfCore c == p
  let t := (s.endWork (fun l => l.part == p) (fun t => t.part == p) (fun d => d.part == p) (fun k => k.part == p) (fun r => r.part == p)).applyAll
    fun t => t.part == p
  { t with
    remotes := t.remotes.filter fun o => !here o.core
    bankOps := t.bankOps.filter fun o => !here o.core
    hostWait := t.hostWait.filter fun h => t.pageOwner (h.dpa / 65536) != some p }

/-- The pages of a partition. -/
def pagesOf (s : State) (p : Nat) : List Nat := (s.pages.filter fun e => e.2 == p).map (·.1)

/-- Its pages zeroed and owned by none. -/
def disowned (s : State) (p : Nat) : State :=
  let t := zeroPages (s.flushPages (pagesOf s p)) s.bankPage (pagesOf s p)
  { t with pages := t.pages.filter (fun e => e.2 != p), cellBlocks := t.cellBlocks.filter fun b => !(pagesOf s p).contains b.page }

/-- Its cores scrubbed. -/
def scrubbed (s : State) (p vf : Nat) : State := (s.scrubCores p vf false).testWays p

theorem freePartition_eq : ∃ t, t = scrubbed (disowned (workEnded s p) p) p (s.part p).owner ∧ s.freePartition p =
    t.setPart p { t.part p with owner := 0x7F, busy := false, qen := BitVec.allOnes 64, pool := none, key := none, leaving := false, resident := true } := by
  refine ⟨_, rfl, ?_⟩
  unfold scrubbed disowned
  rw [← zeroPages_zip]
  rfl

theorem workEnded_stays : Stays s (workEnded s p) := by
  have ended : Stays s (s.endWork (fun l => l.part == p) (fun t => t.part == p) (fun d => d.part == p) (fun k => k.part == p) (fun r => r.part == p)) :=
    (Keeps.refl s).endWork.stays
  constructor <;> simp only [workEnded]
  exacts [ended.applyAll.parts, ended.applyAll.vfs]

theorem disowned_stays : Stays s (disowned s p) := by
  have k : Stays s (zeroPages (s.flushPages (pagesOf s p)) s.bankPage (pagesOf s p)) := (Stays.refl s).flushPages.trans (stays_zeroPages _ _)
  exact ⟨k.parts, k.vfs⟩

theorem disowned_pages : ∀ e ∈ (disowned s p).pages, e.2 ≠ p := by
  intro e he
  simp only [disowned] at he
  simpa using (List.mem_filter.1 he).2

/-- A page of the partition outside the bank-engine regions is cleared. -/
theorem mem_cleared_disowned {page : Nat} (his : (page, p) ∈ s.pages) (plain : s.bankPage page = false) : page ∈ (disowned s p).cleared := by
  have listed : page ∈ pagesOf s p := List.mem_map.2 ⟨_, List.mem_filter.2 ⟨his, by simp⟩, rfl⟩
  simp only [disowned]
  exact mem_cleared_zeroPages plain (Or.inl listed)

theorem scrubCores_stays (vf : Nat) : Stays s (s.scrubCores p vf false) := ⟨rfl, rfl⟩

theorem scrubbed_stays (vf : Nat) : Stays s (scrubbed s p vf) := (scrubCores_stays vf).trans (Keeps.refl _).testWays.stays

theorem scrubbed_pages (vf : Nat) : (scrubbed s p vf).pages = s.pages := (Keeps.refl (s.scrubCores p vf false)).testWays.pages

theorem scrubbed_cleared (vf : Nat) : (scrubbed s p vf).cleared = s.cleared := testWays_cleared p

theorem workEnded_of_idle (idle : Idle s) : (workEnded s p).pages = s.pages ∧ ∀ page, (workEnded s p).bankPage page = s.bankPage page := by
  have teams : ({ s with tasks := s.tasks.filter fun k => !k.part == p } : State).teams = [] := idle.teams
  unfold workEnded
  rw [endWork_of_idle idle, applyAll_of_idle teams]
  exact ⟨rfl, bankPage_congr ⟨rfl, rfl⟩ rfl rfl rfl rfl⟩

theorem freePartition_freed (hp : p < s.parts.length) : Freed s p (s.freePartition p) := by
  obtain ⟨t, ht, eq⟩ := freePartition_eq (s := s) (p := p)
  have stays : Stays s t := ht ▸ (workEnded_stays.trans disowned_stays).trans (scrubbed_stays _)
  have inside : p < t.parts.length := by rwa [stays.parts]
  have regs := part_setPart_same inside
    { t.part p with owner := 0x7F, busy := false, qen := BitVec.allOnes 64, pool := none, key := none, leaving := false, resident := true }
  rw [← eq] at regs
  have pages_eq : (s.freePartition p).pages = (disowned (workEnded s p) p).pages := by rw [eq, State.setPart_pages, ht, scrubbed_pages]
  have cleared_eq : (s.freePartition p).cleared = (disowned (workEnded s p) p).cleared := by rw [eq, State.setPart_cleared, ht, scrubbed_cleared]
  constructor
  case pages =>
    intro e he
    exact disowned_pages e (pages_eq ▸ he)
  case zeros =>
    intro idle page his plain k hk
    obtain ⟨pages, banks⟩ := workEnded_of_idle (p := p) idle
    refine readByte_of_cleared ?_ hk
    rw [cleared_eq]
    exact mem_cleared_disowned (by rwa [pages]) (by rwa [banks])
  case parts => rw [eq, State.setPart_parts, List.length_set, stays.parts]
  all_goals rw [regs]

theorem wakeRetry_part : s.wakeRetry.part p = s.part p := rfl

/-! ### Writes to owner and QEN (R254, R266) -/

section

variable {v : Nat}

theorem writeOwner_busy (hp : p < 20) (busy : (s.part p).busy = true) : s.writeOwner p v = s.setPart p { s.part p with perr := true } := by
  simp [State.writeOwner, Config.partitions, hp, busy]

theorem writeOwner_refused (hp : p < 20) (hv : v ≠ 0x7F) (refused : 96 ≤ v ∨ 2 ≤ (s.vf v).st) :
    s.writeOwner p v = s.setPart p { s.part p with perr := true } := by
  have bad : ¬ 20 ≤ p := not_le.2 hp
  rw [State.writeOwner]
  simp [Config.partitions, bad, hv, refused]

variable (hp : p < 20) (idle : (s.part p).busy = false) (allowed : v = 0x7F ∨ v < 96 ∧ (s.vf v).st < 2)
include hp idle allowed

theorem writeOwner_eq : s.writeOwner p v = if v = (s.part p).owner then s
    else
      let t := if (s.part p).owner = 0x7F then s else s.freePartition p
      if v = 0x7F then t else t.assignPartition p v := by
  have inside : ¬ Config.partitions ≤ p := not_le.2 hp
  have good : ¬ (v ≠ 0x7F ∧ (96 ≤ v ∨ 2 ≤ (s.vf v).st)) := by omega
  rw [State.writeOwner]
  simp only [ge_iff_le, if_neg inside, idle, Bool.false_or]
  rw [if_neg (by simpa using good)]

end

/-- A partition that a function takes. -/
theorem assignPartition_part (hp : p < s.parts.length) (v : Nat) : ((s.assignPartition p v).part p).owner = v ∧
    ((s.assignPartition p v).part p).busy = false ∧ ((s.assignPartition p v).part p).pool = none ∧
    ((s.assignPartition p v).part p).key ≠ none ∧ ((s.assignPartition p v).part p).qclk = List.replicate 64 0 := by
  have scrub : (s.scrubCores p 0x7F false).parts = s.parts := (scrubCores_stays 0x7F).parts
  have regs := part_setPart_same (scrub ▸ hp) { (s.scrubCores p 0x7F false).part p with
    owner := v, busy := false, qclk := List.replicate 64 0, pool := none, key := some (s.scrubCores p 0x7F false).nextId }
  change (s.assignPartition p v).part p = _ at regs
  simp [regs]

end

theorem ownerWrites : OwnerWrites := by
  intro s p v x
  refine ⟨rfl, fun hp sized => ?_⟩
  have inside : p < s.parts.length := sized.1 ▸ hp
  have free : exec (.partitionFree p) s = .next (s.writeOwner p 0x7F).wakeRetry := rfl
  have assign : exec (.partitionAssign p v) s = .next (s.writeOwner p (v % 128)).wakeRetry := rfl
  refine ⟨fun busy => ?_, fun idle => ⟨fun unowned => ?_, fun owned => ?_, fun hv => ?_⟩⟩
  · rw [free, assign, writeOwner_busy hp busy, writeOwner_busy hp busy]
    exact ⟨rfl, rfl⟩
  · rw [free, writeOwner_eq hp idle (Or.inl rfl), if_pos unowned.symm]
  · rw [free, writeOwner_eq hp idle (Or.inl rfl), if_neg owned.symm, if_pos rfl, if_neg owned]
    have freed := (freePartition_freed inside).wakeRetry
    exact ⟨_, rfl, freed.owner, freed.busy, freed.pool, freed.key, freed.queues, freed.pages,
      fun launches teams doms records remotes bankOps => freed.zeros ⟨launches, teams, doms, records, remotes, bankOps⟩⟩
  · rw [assign, Nat.mod_eq_of_lt (by omega)]
    refine ⟨fun refused => ?_, fun function settled => ⟨fun same => ?_, fun other => ?_⟩⟩
    · rw [writeOwner_refused hp (by omega) refused]
    · rw [writeOwner_eq hp idle (Or.inr ⟨function, settled⟩), if_pos same.symm]
    · rw [writeOwner_eq hp idle (Or.inr ⟨function, settled⟩), if_neg other.symm, if_neg (by omega)]
      refine ⟨_, rfl, ?_⟩
      rw [wakeRetry_part]
      refine assignPartition_part ?_ v
      split
      · exact inside
      · rwa [(freePartition_freed inside).parts]

end Sys2Proof.Laws

end

section

/-! LEMMAS for O50. Functions that are enabled, disabled and reset, and logical devices (R264, R268, R269, R279). -/

namespace Sys2Proof.Laws

open Sys2Proof.Machine Sys2Proof.Safety Sys2Proof.Slice0

section

variable {s t : State} {v n : Nat}

/-- No command, launch, context or cached translation of a function; and how many functions there are. -/
structure Bare (v n : Nat) (s : State) : Prop where
  cmds : ∀ c ∈ s.cmds, c.vf ≠ v
  launches : ∀ l ∈ s.launches, l.vf ≠ v
  asids : ∀ a ∈ s.asids, a.vf ≠ v
  tlb : ∀ e ∈ s.tlb, e.vf ≠ v
  vfs : s.vfs.length = n

namespace Bare

theorem keeps (bare : Bare v n s) (k : Keeps s t) : Bare v n t where
  cmds := k.cmds ▸ bare.cmds
  launches l hl := by
    obtain ⟨m, hm, same⟩ := k.launches l hl
    exact same ▸ bare.launches m hm
  asids := k.asids ▸ bare.asids
  tlb := k.tlb ▸ bare.tlb
  vfs := k.vfs ▸ bare.vfs

theorem scrubCores (bare : Bare v n s) (p vf : Nat) : Bare v n (s.scrubCores p vf true) := by
  unfold State.scrubCores
  extract_lets mine gone lost back
  have written : Bare v n back := bare.keeps ((Keeps.refl s).foldl fun _ _ => (Keeps.refl _).writeBack)
  exact ⟨written.cmds, written.launches, written.asids, fun e he => written.tlb e (List.mem_filter.1 he).1, written.vfs⟩

theorem setVf (bare : Bare v n s) (w : Nat) (x : Vf) : Bare v n (s.setVf w x) :=
  ⟨bare.cmds, bare.launches, bare.asids, bare.tlb, by rw [State.setVf_vfs, List.length_set, bare.vfs]⟩

theorem wakeRetry (bare : Bare v n s) : Bare v n s.wakeRetry := ⟨bare.cmds, bare.launches, bare.asids, bare.tlb, bare.vfs⟩

end Bare

/-- A function that has been reset. -/
structure WasReset (v n : Nat) (s : State) : Prop where
  bare : Bare v n s
  rings : (s.vf v).rings = Vf.reset.rings
  gtbase : (s.vf v).gtbase = 0

theorem resetFunction_wasReset (hv : v < s.vfs.length) : WasReset v s.vfs.length (s.resetFunction v) := by
  unfold State.resetFunction
  extract_lets wids ended applied dropped scrubbed
  have stays : Stays s applied := (Keeps.refl s).endWork.stays.applyAll
  have drop : Bare v s.vfs.length dropped := by
    clear_value applied
    exact ⟨by simp [dropped], by simp [dropped], by simp [dropped], by simp [dropped], congrArg List.length stays.vfs⟩
  have scrub : Bare v s.vfs.length scrubbed := List.foldlRecOn _ _ drop fun _ bare _ _ => bare.scrubCores _ _
  have regs := vf_setVf_same (scrub.vfs.symm ▸ hv) { scrubbed.vf v with rings := Vf.reset.rings, gtbase := 0, gtcnt := 0, groups := [], gtable := [], msixTable := [] }
  exact ⟨scrub.setVf _ _, by rw [regs], by rw [regs]⟩

theorem WasReset.setVf (reset : WasReset v n s) (hv : v < n) {x : Vf} (rings : x.rings = (s.vf v).rings) (gtbase : x.gtbase = (s.vf v).gtbase) :
    WasReset v n (s.setVf v x) := by
  have regs := vf_setVf_same (reset.bare.vfs.symm ▸ hv) x
  exact ⟨reset.bare.setVf _ _, by rw [regs, rings, reset.rings], by rw [regs, gtbase, reset.gtbase]⟩

theorem WasReset.wakeRetry (reset : WasReset v n s) : WasReset v n s.wakeRetry := ⟨reset.bare.wakeRetry, reset.rings, reset.gtbase⟩

theorem wakeRetry_vf : s.wakeRetry.vf v = s.vf v := rfl

/-! ### Writes to VFCTL.en (R268) -/

theorem writeEn_same (b : Bool) (same : (s.vf v).en = b) : s.writeEn v b = s := by
  simp [State.writeEn, same]

theorem writeEn_true (hv : v < 96) (off : (s.vf v).en = false) :
    s.writeEn v true = s.setVf v { s.vf v with en := true, st := if s.scrubbing v then 3 else 1, ndrop := 0 } := by
  have inside : ¬ Config.functions ≤ v := not_le.2 hv
  simp [State.writeEn, inside, off]

theorem writeEn_false (hv : v < 96) (on : (s.vf v).en = true) :
    s.writeEn v false = (s.resetFunction v).setVf v { (s.resetFunction v).vf v with en := false, st := 0 } := by
  have inside : ¬ Config.functions ≤ v := not_le.2 hv
  simp [State.writeEn, inside, on]

theorem scrubbing_iff : s.scrubbing v = true ↔ ∃ p < 20, (s.part p).owner = v ∧ (s.part p).busy = true := by
  simp [State.scrubbing, Config.partitions, List.any_eq_true]

theorem scrubbing_eq_false (none : ∀ p < 20, (s.part p).owner = v → (s.part p).busy = false) : s.scrubbing v = false := by
  refine Bool.eq_false_iff.2 fun h => ?_
  obtain ⟨p, hp, owner, busy⟩ := scrubbing_iff.1 h
  simp [none p hp owner] at busy

/-! ### Logical devices (R264) -/

theorem logicalDeviceBind_bound {ld : Nat} (hld : ld < Config.logicalDevices) (free : ∀ e ∈ s.hosts, e.2 = n → e.1 = ld) :
    exec (.logicalDeviceBind ld n) s = .next { s with hosts := assocSet s.hosts ld n } := by
  have none : (s.hosts.any fun e => e.1 != ld && e.2 == n) = false := by
    simp only [List.any_eq_false, Bool.and_eq_true, bne_iff_ne, beq_iff_eq, not_and]
    exact fun e he other it => other (free e he it)
  simp [execLogicalDeviceBind, not_le.2 hld, none]

theorem logicalDeviceBind_refused {ld : Nat} (taken : ∃ e ∈ s.hosts, e.2 = n ∧ e.1 ≠ ld) : exec (.logicalDeviceBind ld n) s = .next s := by
  obtain ⟨e, he, it, other⟩ := taken
  have some : (s.hosts.any fun e => e.1 != ld && e.2 == n) = true := List.any_eq_true.2 ⟨e, he, by simp [it, other]⟩
  simp [execLogicalDeviceBind, some]

end

theorem functionWrites : FunctionWrites := by
  intro s v ld n x emptied enabled
  refine ⟨rfl, fun hv sized => ?_, fun hld => ⟨logicalDeviceBind_bound hld, logicalDeviceBind_refused⟩⟩
  have inside : v < s.vfs.length := sized.2 ▸ hv
  have enable : exec (.vfEnable v) s = .next (s.writeEn v true).wakeRetry := rfl
  have disable : exec (.vfDisable v) s = .next (s.writeEn v false).wakeRetry := rfl
  have leaves {t : State} (reset : WasReset v s.vfs.length t) : emptied t :=
    ⟨reset.rings, reset.gtbase, reset.bare.cmds, reset.bare.launches, reset.bare.asids, reset.bare.tlb⟩
  have reset := resetFunction_wasReset inside
  have there : v < (s.resetFunction v).vfs.length := by rwa [reset.bare.vfs]
  refine ⟨fun off => ⟨?_, fun idle => ?_, fun busy => ?_⟩, fun on => ⟨?_, ?_⟩, ?_⟩
  · rw [disable, writeEn_same _ off]
  · rw [enable, writeEn_true hv off, scrubbing_eq_false idle]
    rfl
  · rw [enable, writeEn_true hv off, scrubbing_iff.2 busy]
    rfl
  · rw [enable, writeEn_same _ on]
  · rw [disable, writeEn_false hv on]
    generalize s.resetFunction v = t at reset there
    refine ⟨_, rfl, ?_, ?_, leaves (WasReset.wakeRetry ?_)⟩
    · rw [wakeRetry_vf, vf_setVf_same there]
    · rw [wakeRetry_vf, vf_setVf_same there]
    · exact reset.setVf inside rfl rfl
  · simp only [exec_functionLevelReset, execFunctionLevelReset]
    generalize s.resetFunction v = t at reset there
    refine ⟨_, rfl, ?_, leaves (WasReset.wakeRetry ?_)⟩
    · rw [wakeRetry_vf, vf_setVf_same there]
    · exact reset.setVf inside rfl rfl

end Sys2Proof.Laws

end

section

/-! LEMMAS and the obligation O50. Pages that change their owner, the background scrub and exact-reduction pages (R274, R275, R277). -/

namespace Sys2Proof.Laws

open Sys2Proof.Machine Sys2Proof.Safety Sys2Proof.Slice0

section

variable {s : State} {page p v : Nat}

/-! ### Pages that are freed -/

/-- A page without an owner: the pages beside it are owned as before, and what it held has gone if it had an owner. -/
structure PageFreed (s : State) (page : Nat) (t : State) : Prop where
  gone : ∀ e ∈ t.pages, e.1 ≠ page
  others : ∀ e ∈ s.pages, e.1 ≠ page → e ∈ t.pages
  empty : s.pageOwner page ≠ none → ∀ e ∈ t.mem, e.1 / 65536 ≠ page

theorem assoc_eq_none_iff {β : Type} {l : List (Nat × β)} {k : Nat} : assoc l k = none ↔ ∀ e ∈ l, e.1 ≠ k := by
  simp [assoc]

theorem freePage_pageFreed : PageFreed s page (s.freePage page) := by
  unfold State.freePage
  cases owner : s.pageOwner page with
  | none => exact ⟨assoc_eq_none_iff.1 owner, fun _ he _ => he, fun owned => (owned owner).elim⟩
  | some p =>
    refine ⟨fun e he => ?_, fun e he other => ?_, fun _ e he => ?_⟩
    · simpa using (List.mem_filter.1 he).2
    · exact List.mem_filter.2 ⟨he, by simpa using other⟩
    · simpa using (List.mem_filter.1 he).2

namespace PageFreed

variable {t : State} (freed : PageFreed s page t)
include freed

theorem wakeRetry : PageFreed s page t.wakeRetry := ⟨freed.gone, freed.others, freed.empty⟩

theorem pageOwner : t.pageOwner page = none := assoc_eq_none_iff.2 freed.gone

theorem zeros (owned : s.pageOwner page ≠ none) : ∀ k < 65536, t.readByte (page * 65536 + k) = 0 := fun _ hk => readByte_eq_zero (freed.empty owned) hk

end PageFreed

/-! ### Changes of ownership (R274) -/

theorem pageOwnershipChange_busy (busy : s.pageBusy page = true) (o : Option Nat) : exec (.pageOwnershipChange page o) s = .next s := by
  simp [execPageOwnershipChange, busy]

section

variable (inside : page * 65536 < Config.deviceBytes) (still : s.pageBusy page = false)
include inside still

theorem pageOwnershipChange_none : exec (.pageOwnershipChange page none) s = .next (s.freePage page).wakeRetry := by
  simp [execPageOwnershipChange, not_le.2 inside, still]

theorem pageOwnershipChange_kept (kept : s.pageOwner page = some p ∨ s.pageGone page = true) : exec (.pageOwnershipChange page (some p)) s = .next s := by
  have stays : Config.partitions ≤ p ∨ s.pageOwner page = some p ∨ s.pageGone page = true := Or.inr kept
  simp [execPageOwnershipChange, not_le.2 inside, still, or_assoc, stays]

theorem pageOwnershipChange_some (hp : p < 20) (other : s.pageOwner page ≠ some p) (there : s.pageGone page = false) :
    exec (.pageOwnershipChange page (some p)) s = .next ({ s.freePage page with pages := (s.freePage page).pages ++ [(page, p)] } : State).wakeRetry := by
  simp [execPageOwnershipChange, not_le.2 inside, still, other, there, Config.partitions, not_le.2 hp]

end

theorem pageOwner_append {t : State} (free : t.pageOwner page = none) :
    ({ t with pages := t.pages ++ [(page, p)] } : State).pageOwner page = some p := by
  have none := assoc_eq_none_iff.1 free
  have missed : t.pages.find? (fun e => e.1 == page) = Option.none := by simpa using none
  simp [State.pageOwner, assoc, List.find?_append, missed]

/-! ### The background scrub and exact-reduction pages (R275, R277) -/

theorem backgroundScrub_cleared (cleared : page ∈ s.cleared) :
    exec (.backgroundScrub page) s = .next { s with mem := s.mem.filter fun e => e.1 / 65536 != page } := by
  simp [execBackgroundScrub, cleared]

section

variable (own : s.ownPage v page = true) (new : ∀ b ∈ s.cellBlocks, b.page ≠ page)
include own new

theorem cellBlockGrant_granted (room : (s.cellBlocks.filter fun b => pageStack b.page == pageStack page).length < Config.cellBlocks) :
    ∃ t, exec (.cellBlockGrant v page) s = .next t ∧ t.cellBlocks = s.cellBlocks ++ [{ page := page, cells := [] }] := by
  have fresh : (s.cellBlocks.any fun b => b.page == page) = false := by simpa using new
  simp only [exec_cellBlockGrant, execCellBlockGrant, own, fresh, ge_iff_le, not_le.2 room]
  exact ⟨_, rfl, (Keeps.refl _).putLines.wakeRetry.cellBlocks⟩

omit own new in
theorem cellBlockGrant_refused (full : Config.cellBlocks ≤ (s.cellBlocks.filter fun b => pageStack b.page == pageStack page).length) :
    exec (.cellBlockGrant v page) s = .next s := by
  simp [execCellBlockGrant, full]

end

end

theorem pageEvents : PageEvents := by
  intro s p v page zero
  refine ⟨fun inside still => ⟨?_, fun hp other there => ?_, pageOwnershipChange_kept inside still⟩, pageOwnershipChange_busy, backgroundScrub_cleared,
    fun own new => ⟨cellBlockGrant_granted own new, cellBlockGrant_refused⟩⟩
  · have freed := (freePage_pageFreed (s := s) (page := page)).wakeRetry
    exact ⟨_, pageOwnershipChange_none inside still, freed.pageOwner, freed.zeros, freed.others⟩
  · have freed := freePage_pageFreed (s := s) (page := page)
    rw [pageOwnershipChange_some inside still hp other there]
    generalize s.freePage page = t at freed
    refine ⟨_, rfl, pageOwner_append freed.pageOwner, freed.zeros, fun e he ne => ?_⟩
    exact List.mem_append_left _ (freed.others e he ne)

/-- Settles O50: partitions, functions, pages and host accesses, each command from the equation of its writes. -/
theorem partitionAndHostEvents : Obligations.PartitionAndHostEvents := ⟨ownerWrites, functionWrites, pageEvents, hostAccesses⟩

end Sys2Proof.Laws

end

section

/-! LEMMAS for O49. The dispatcher: tasks that are placed, teams that start, and waits (R252, R253, R256, R260). -/

namespace Sys2Proof.Laws

open Sys2Proof.Machine Sys2Proof.Safety Sys2Proof.Slice0

section

variable {s : State}

/-! ### The pair of a task (R256) -/

theorem pairsOf_sorted (part : Nat) : (pairsOf part).Pairwise (· < ·) := by
  simp only [pairsOf, List.pairwise_map]
  exact List.Pairwise.imp (fun h => by omega) List.pairwise_lt_range

/-- The first that passes of a rising list is the lowest that passes. -/
theorem head?_filter_of_lowest {l : List Nat} (rising : l.Pairwise (· < ·)) {p : Nat → Bool} {k : Nat} (hk : k ∈ l) (passes : p k = true)
    (lowest : ∀ q ∈ l, q < k → p q = false) : (l.filter p).head? = some k := by
  induction l with
  | nil => simp at hk
  | cons a l ih =>
    obtain ⟨above, rising⟩ := List.pairwise_cons.1 rising
    obtain rfl | hk := List.mem_cons.1 hk
    · simp [passes]
    · have fails := lowest a (by simp) (above k hk)
      rw [List.filter_cons_of_neg (by simp [fails])]
      exact ih rising hk fun q hq => lowest q (by simp [hq])

theorem choosePair_single {part p : Nat} {need : Nat → Need5} (hp : p ∈ pairsOf part) (fits : s.fitsOn need p = true)
    (lowest : ∀ q ∈ pairsOf part, q < p → s.fitsOn need q = false) (any : Bool) : s.choosePair part need false none any = some (p, none) := by
  have head : (s.candidates part need false).head? = some p :=
    head?_filter_of_lowest (pairsOf_sorted part) hp (by simp [fits]) fun q hq lt => by simp [lowest q hq lt]
  simp [State.choosePair, head]

/-! ### One team placed (R252) -/

theorem tryPlace_team {k : Task} {l : Launch} {idx p : Nat} (kind : k.kind = .team l.id idx) (launch : s.launch? l.id = some l) (grade : l.rcd.grade ≠ 2)
    (aff : k.aff = none) (hp : p ∈ pairsOf k.part) (fits : s.fitsOn l.rcd.needOn p = true)
    (lowest : ∀ q ∈ pairsOf k.part, q < p → s.fitsOn l.rcd.needOn q = false) :
    s.tryPlace k = .left ((s.dequeue k).placeTeam l idx k.relaunches p none) := by
  have single : (l.rcd.grade == 2) = false := by simpa using grade
  have hood : s.affHood l.vf l.asid k.aff = none := by rw [aff]; rfl
  simp [State.tryPlace, kind, launch, single, hood, choosePair_single hp fits lowest]

theorem dispatch_one {part : Nat} {k : Task} {t : State} (waiting : s.waiting part = [k]) (left : s.tryPlace k = .left t) : s.dispatch part = t := by
  simp [State.dispatch, waiting, left]

theorem placeTeam_single_teams (l : Launch) (idx relaunches pair : Nat) :
    (s.placeTeam l idx relaunches pair none).teams = s.teams ++ [newTeam l s.nextId idx pair relaunches none false] := rfl

theorem placeTeam_single_tasks (l : Launch) (idx relaunches pair : Nat) : (s.placeTeam l idx relaunches pair none).tasks = s.tasks := rfl

theorem noteResident_teams (part : Nat) : (s.noteResident part).teams = s.teams := by
  unfold State.noteResident
  split <;> rfl

theorem noteResident_tasks (part : Nat) : (s.noteResident part).tasks = s.tasks := by
  unfold State.noteResident
  split <;> rfl

/-! ### The dispatcher runs (R256, R261) -/

theorem taskDispatch_leaving {part : Nat} (leaving : (s.part part).leaving = true) : exec (.taskDispatch part) s = .next s := by
  simp [execTaskDispatch, leaving]

theorem taskDispatch_passes {part : Nat} (stays : (s.part part).leaving = false) (moved : (s.dispatch part).noteResident part ≠ s) :
    exec (.taskDispatch part) s = .next ((s.dispatch part).noteResident part).wakeRetry := by
  simp [execTaskDispatch, stays, moved]

theorem taskDispatch_places {part p idx : Nat} {k : Task} {l : Launch} (stays : (s.part part).leaving = false) (waiting : s.waiting part = [k])
    (kpart : k.part = part) (kind : k.kind = .team l.id idx) (launch : s.launch? l.id = some l) (grade : l.rcd.grade ≠ 2) (aff : k.aff = none)
    (hp : p ∈ pairsOf part) (fits : s.fitsOn l.rcd.needOn p = true) (lowest : ∀ q ∈ pairsOf part, q < p → s.fitsOn l.rcd.needOn q = false) :
    ∃ u x, exec (.taskDispatch part) s = .next u ∧ (∀ y ∈ u.tasks, y.id ≠ k.id) ∧ x ∈ u.teams ∧ x.launch = l.id ∧ x.idx = idx ∧ x.pair = p ∧
      x.phase = .staging ∧ x.twin = none := by
  subst kpart
  have placed := dispatch_one waiting (tryPlace_team kind launch grade aff hp fits lowest)
  have teams : ((s.dispatch k.part).noteResident k.part).teams = s.teams ++ [newTeam l s.nextId idx p k.relaunches none false] := by
    rw [noteResident_teams, placed]
    rfl
  have tasks : ((s.dispatch k.part).noteResident k.part).tasks = s.tasks.filter fun x => x.id != k.id := by
    rw [noteResident_tasks, placed]
    rfl
  have moved : (s.dispatch k.part).noteResident k.part ≠ s := fun same => by simpa [same] using congrArg List.length teams
  refine ⟨_, newTeam l s.nextId idx p k.relaunches none false, taskDispatch_passes stays moved, fun y hy => ?_, ?_, rfl, rfl, rfl, rfl, rfl⟩
  · rw [State.wakeRetry_tasks, tasks] at hy
    simpa using (List.mem_filter.1 hy).2
  · rw [State.wakeRetry_teams, teams]
    simp

/-! ### A team's waves start, and waits pass (R252, R256) -/

theorem teamStart_starts {t : Team} {l : Launch} (team : s.team? t.id = some t) (launch : s.launch? t.launch = some l) (staging : t.phase = .staging)
    (staged : ∀ c ∈ s.copies, c.team = t.id → ∀ i, c.kind ≠ .staging i) :
    exec (.teamStart t.id) s = .next (((List.range l.rcd.blocks).foldl (fun (u : State) b => (List.range l.rcd.waves).foldl (fun (u : State) i =>
      { u with waves := u.waves ++ [launchWave l t b i u.nextId (u.freeSlot (2 * t.pair + b % 2))], nextId := u.nextId + 1 }) u) s).updTeam t.id fun t =>
        { t with phase := .running, foreign := [] }).wakeRetry := by
  simp only [exec_teamStart, execTeamStart, team, launch]
  rw [if_neg]
  intro unready
  obtain ⟨c, hc, mine, kind⟩ : ∃ c ∈ s.copies, c.team = t.id ∧ _ := by simpa [staging] using unready
  split at kind
  next i is => exact staged c hc mine i is
  next => exact Bool.false_ne_true kind

theorem markTask_eq (n : Nat) (p : Task → Bool) (f : Task → Task) :
    s.markTask n p f = { s with tasks := s.tasks.map fun k => if k.id = n ∧ p k = true then f k else k } := by
  simp [State.markTask, updWhere]

end

theorem dispatchEvents : DispatchEvents := by
  intro s t l k part p idx n
  refine ⟨taskDispatch_passes, taskDispatch_leaving, taskDispatch_places, teamStart_starts, ?_, ?_⟩
  · simp [execAffinityWaitExpiry, markTask_eq]
  · simp [execStarvationBlock, markTask_eq]

end Sys2Proof.Laws

end

section

/-! LEMMAS for O48 and O49. Memory that is written leaves every unit, launch and register as it was. -/

namespace Sys2Proof.Laws

open Sys2Proof.Machine Sys2Proof.Safety Sys2Proof.Slice0

/-- `t` is `s` but for its lines, tags and marks, and the monitors of its waves. -/
def CacheOnly (s t : State) : Prop := ∃ l tg e sf w, t = { s with lines := l, tags := tg, errors := e, softs := sf, waves := w }

namespace CacheOnly

theorem refl (s : State) : CacheOnly s s := ⟨_, _, _, _, _, rfl⟩

theorem trans {s t u : State} (h : CacheOnly s t) (k : CacheOnly t u) : CacheOnly s u := by
  obtain ⟨_, _, _, _, _, rfl⟩ := h
  obtain ⟨_, _, _, _, _, rfl⟩ := k
  exact ⟨_, _, _, _, _, rfl⟩

theorem ite {s t u : State} {c : Prop} [Decidable c] (yes : CacheOnly s t) (no : CacheOnly s u) : CacheOnly s (if c then t else u) := by
  split
  exacts [yes, no]

theorem foldl {α : Type} {f : State → α → State} (step : ∀ u a, CacheOnly u (f u a)) (l : List α) (s : State) : CacheOnly s (l.foldl f s) := by
  induction l generalizing s with
  | nil => exact refl s
  | cons a l ih => exact (step s a).trans (ih _)

section

variable {s t : State} (h : CacheOnly s t)
include h

theorem mem : t.mem = s.mem := by obtain ⟨_, _, _, _, _, rfl⟩ := h; rfl
theorem cleared : t.cleared = s.cleared := by obtain ⟨_, _, _, _, _, rfl⟩ := h; rfl

theorem put (ws : List Host.Cell) (tags : List (Nat × Nat × Nat × Bool)) :
    CacheOnly { s with mem := Cells.putAll s.mem ws } { t with mem := Cells.putAll t.mem ws, tags := tags } := by
  obtain ⟨_, _, _, _, _, rfl⟩ := h
  exact ⟨_, _, _, _, _, rfl⟩

end

variable (s : State)

theorem forget (p : StoreLoc → Bool) : CacheOnly s (s.forget p) := ite (refl s) ⟨_, _, _, _, _, rfl⟩
theorem storeLine (e : Line) : CacheOnly s (s.storeLine e) := ⟨_, _, _, _, _, rfl⟩
theorem leaveCache (e : Line) : CacheOnly s (s.leaveCache e) := ⟨_, _, _, _, _, rfl⟩
theorem setAside (e : Line) : CacheOnly s (s.setAside e) := ⟨_, _, _, _, _, rfl⟩
theorem hitLine (line : Nat) : CacheOnly s (s.hitLine line) := ⟨_, _, _, _, _, rfl⟩
theorem wakeRetry : CacheOnly s s.wakeRetry := ⟨_, _, _, _, _, rfl⟩
theorem liftErrors (wr : Writer) (lines : List Nat) : CacheOnly s (s.liftErrors wr lines) := ite (refl s) ⟨_, _, _, _, _, rfl⟩
theorem clearPoison (ws : List Host.Cell) : CacheOnly s (s.clearPoison ws) := ite (refl s) ⟨_, _, _, _, _, rfl⟩

theorem expelLine (e : Line) : CacheOnly s (s.expelLine e) :=
  (ite (storeLine s e) (refl s)).trans (leaveCache _ e)

theorem roomBelow (unit line : Nat) : CacheOnly s (s.roomBelow unit line) := by
  unfold State.roomBelow
  split
  exacts [refl s, ite (setAside s _) (expelLine s _)]

theorem sinkLine (e : Line) : CacheOnly s (s.sinkLine e) := (roomBelow s _ _).trans ⟨_, _, _, _, _, rfl⟩

theorem room (l2 : Bool) (unit line : Nat) : CacheOnly s (s.room l2 unit line) := by
  unfold State.room
  refine ite (roomBelow s _ _) ?_
  split
  exacts [refl s, ite (setAside s _) (ite (sinkLine s _) (leaveCache s _))]

theorem addLine (e : Line) : CacheOnly s (s.addLine e) := (room s _ _ _).trans ⟨_, _, _, _, _, rfl⟩

theorem noteDirty (wr : Writer) (line : Nat) (below : Cells) : CacheOnly s (s.noteDirty wr line below) := by
  unfold State.noteDirty
  extract_lets unit
  split
  · exact ite ⟨_, _, _, _, _, rfl⟩ (trans ⟨_, _, _, _, _, rfl⟩ (addLine _ _))
  · exact addLine _ _

end CacheOnly

/-- `t` is `s` but for memory, its lines, tags, marks and zeros still to come, and the monitors of its waves. -/
def MemoryOnly (s t : State) : Prop :=
  ∃ m l tg e sf c w, t = { s with mem := m, lines := l, tags := tg, errors := e, softs := sf, cleared := c, waves := w }

namespace MemoryOnly

theorem refl (s : State) : MemoryOnly s s := ⟨_, _, _, _, _, _, _, rfl⟩

theorem trans {s t u : State} (h : MemoryOnly s t) (k : MemoryOnly t u) : MemoryOnly s u := by
  obtain ⟨_, _, _, _, _, _, _, rfl⟩ := h
  obtain ⟨_, _, _, _, _, _, _, rfl⟩ := k
  exact ⟨_, _, _, _, _, _, _, rfl⟩

theorem ite {s t u : State} {c : Prop} [Decidable c] (yes : MemoryOnly s t) (no : MemoryOnly s u) : MemoryOnly s (if c then t else u) := by
  split
  exacts [yes, no]

theorem foldl {α : Type} {f : State → α → State} (step : ∀ u a, MemoryOnly u (f u a)) (l : List α) (s : State) : MemoryOnly s (l.foldl f s) := by
  induction l generalizing s with
  | nil => exact refl s
  | cons a l ih => exact (step s a).trans (ih _)

section

variable {s t : State} (h : MemoryOnly s t)
include h

theorem teams : t.teams = s.teams := by obtain ⟨_, _, _, _, _, _, _, rfl⟩ := h; rfl
theorem launches : t.launches = s.launches := by obtain ⟨_, _, _, _, _, _, _, rfl⟩ := h; rfl
theorem tasks : t.tasks = s.tasks := by obtain ⟨_, _, _, _, _, _, _, rfl⟩ := h; rfl
theorem cellBlocks : t.cellBlocks = s.cellBlocks := by obtain ⟨_, _, _, _, _, _, _, rfl⟩ := h; rfl
theorem banks : t.banks = s.banks := by obtain ⟨_, _, _, _, _, _, _, rfl⟩ := h; rfl
theorem vfs : t.vfs = s.vfs := by obtain ⟨_, _, _, _, _, _, _, rfl⟩ := h; rfl
theorem parts : t.parts = s.parts := by obtain ⟨_, _, _, _, _, _, _, rfl⟩ := h; rfl
theorem cmds : t.cmds = s.cmds := by obtain ⟨_, _, _, _, _, _, _, rfl⟩ := h; rfl
theorem pages : t.pages = s.pages := by obtain ⟨_, _, _, _, _, _, _, rfl⟩ := h; rfl
theorem msix : t.msix = s.msix := by obtain ⟨_, _, _, _, _, _, _, rfl⟩ := h; rfl

end

end MemoryOnly

theorem CacheOnly.memoryOnly {s t : State} (h : CacheOnly s t) : MemoryOnly s t := by
  obtain ⟨_, _, _, _, _, rfl⟩ := h
  exact ⟨_, _, _, _, _, _, _, rfl⟩

/-- The pages that are written read no zeros still to come. -/
def filledFor (s : State) (ws : List Host.Cell) : State := ((ws.map fun e => e.1 / 65536).eraseDups).foldl State.fillCleared s

/-- The bytes are in memory. -/
def withBytes (s : State) (ws : List Host.Cell) : State := { filledFor s ws with mem := Cells.putAll (filledFor s ws).mem ws }

theorem writeMem_cacheOnly (s : State) (wr : Writer) (ws : List Host.Cell) : CacheOnly (withBytes s ws) (s.writeMem wr ws) := by
  unfold State.writeMem
  extract_lets pages lines filled old written cleared hit
  have clear : CacheOnly written cleared := (CacheOnly.liftErrors _ _ _).trans (CacheOnly.clearPoison _ _)
  exact (clear.trans (CacheOnly.foldl CacheOnly.hitLine lines cleared)).trans (CacheOnly.foldl (fun u l => CacheOnly.noteDirty u _ _ _) lines hit)

theorem writeUncached_cacheOnly (s : State) (wr : Writer) (ws : List Host.Cell) : CacheOnly (withBytes s ws) (s.writeUncached wr ws) := by
  unfold State.writeUncached
  extract_lets pages filled expelled lines
  have expel : CacheOnly filled expelled := CacheOnly.foldl CacheOnly.expelLine _ filled
  exact (expel.put ws _).trans (CacheOnly.clearPoison _ ws)

namespace MemoryOnly

variable (s : State)

theorem forget (p : StoreLoc → Bool) : MemoryOnly s (s.forget p) := (CacheOnly.forget s p).memoryOnly
theorem wakeRetry : MemoryOnly s s.wakeRetry := (CacheOnly.wakeRetry s).memoryOnly
theorem fillCleared (page : Nat) : MemoryOnly s (s.fillCleared page) := ite ⟨_, _, _, _, _, _, _, rfl⟩ (refl s)

theorem withBytes (ws : List Host.Cell) : MemoryOnly s (withBytes s ws) := (foldl fillCleared _ s).trans ⟨_, _, _, _, _, _, _, rfl⟩

theorem writeMem (wr : Writer) (ws : List Host.Cell) : MemoryOnly s (s.writeMem wr ws) := (withBytes s ws).trans (writeMem_cacheOnly s wr ws).memoryOnly

theorem writeUncached (wr : Writer) (ws : List Host.Cell) : MemoryOnly s (s.writeUncached wr ws) :=
  (withBytes s ws).trans (writeUncached_cacheOnly s wr ws).memoryOnly

theorem writeAs (wr : Writer) (ws : List Host.Cell) : MemoryOnly s (s.writeAs wr ws) :=
  ite (writeMem s wr ws) ((writeMem s wr _).trans (writeUncached _ wr _))

theorem replaceCells (a n : Nat) (cells : List Host.Cell) : MemoryOnly s (s.replaceCells a n cells) := by
  have clear : MemoryOnly s (s.clearRange a n) := trans ⟨_, _, _, _, _, _, _, rfl⟩ (forget _ _)
  exact clear.trans (writeAs _ _ _)

theorem replaceRange (a : Nat) (bs : List Byte) : MemoryOnly s (s.replaceRange a bs) := replaceCells s _ _ _

theorem writeImage (t : Team) (core a : Nat) : MemoryOnly s (s.writeImage t core a) := ite (refl s) (replaceCells s _ _ _)

end MemoryOnly

end Sys2Proof.Laws

end

section

/-! LEMMAS for O49. Teams and partitions that leave their cores (R255, R257, R258, R260, R261). -/

namespace Sys2Proof.Laws

open Sys2Proof.Machine Sys2Proof.Safety Sys2Proof.Slice0

section

variable {s : State} {t : Team}

/-! ### Orders (R257, R261) -/

/-- A team that an order takes off its cores. -/
def Movable (t : Team) : Prop := t.phase = .running ∨ t.phase = .ending ∨ t.phase = .staging

/-- A team and its twin drain. -/
def drainPair (s : State) (t : Team) (area : Nat) (renew : Bool) : State :=
  { s with teams := s.teams.map fun (x : Team) => if x.id ∈ t.pairUp then { x with phase := .draining, saveArea := area, renew := renew } else x }

theorem orderEviction_eq (team : s.team? t.id = some t) (area : Nat) (renew : Bool) :
    s.orderEviction t.id area renew = if (t.active || t.phase == .staging) = true then drainPair s t area renew else s := by
  simp only [State.orderEviction, team, drainPair, List.contains_iff_mem, Bool.not_eq_true', Bool.eq_false_iff, ne_eq, ite_not]

theorem active_of_movable (movable : Movable t) : (t.active || t.phase == .staging) = true := by
  obtain h | h | h := movable <;> rw [Team.active, h] <;> rfl

theorem orderEviction_movable (team : s.team? t.id = some t) (movable : Movable t) (area : Nat) (renew : Bool) :
    s.orderEviction t.id area renew = drainPair s t area renew := by
  rw [orderEviction_eq team, if_pos (active_of_movable movable)]

theorem budgetExpiry_orders (team : s.team? t.id = some t) (movable : Movable t) (spent : t.budget = some 0) (primary : t.secondary = false) :
    exec (.budgetExpiry t.id) s = .next (drainPair s t 0 true).wakeRetry := by
  have spends : (t.budget == some 0 && !t.secondary && (t.active || t.phase == .staging)) = true := by
    rw [spent, primary, active_of_movable movable]
    rfl
  simp [execBudgetExpiry, team, spends, orderEviction_movable team movable]

/-! ### Every team of a partition -/

/-- The teams of a number all drain, or the first is as it was. -/
def DrainsOr (t : Team) (s : State) : Prop := (∀ x ∈ s.teams, x.id = t.id → x.phase = .draining) ∨ s.team? t.id = some t

theorem orderEviction_cases (id area : Nat) (renew : Bool) :
    s.orderEviction id area renew = s ∨ ∃ x, s.team? id = some x ∧ s.orderEviction id area renew = drainPair s x area renew := by
  cases found : s.team? id with
  | none => exact Or.inl (by simp [State.orderEviction, found])
  | some x =>
    have same : x.id = id := by simpa using List.find?_some found
    subst same
    rw [orderEviction_eq found]
    split
    · exact Or.inr ⟨x, rfl, rfl⟩
    · exact Or.inl rfl

theorem drainPair_drains (y : Team) (mine : t.id ∈ y.pairUp) (area : Nat) (renew : Bool) :
    ∀ x ∈ (drainPair s y area renew).teams, x.id = t.id → x.phase = .draining := by
  intro x hx same
  obtain ⟨z, -, rfl⟩ := List.mem_map.1 hx
  by_cases hz : z.id ∈ y.pairUp
  · simp [hz]
  · rw [if_neg hz] at same
    exact absurd (same ▸ mine) hz

theorem drainPair_keeps_drained (y : Team) (drained : ∀ x ∈ s.teams, x.id = t.id → x.phase = .draining) (area : Nat) (renew : Bool) :
    ∀ x ∈ (drainPair s y area renew).teams, x.id = t.id → x.phase = .draining := by
  intro x hx same
  obtain ⟨z, hz, rfl⟩ := List.mem_map.1 hx
  by_cases mine : z.id ∈ y.pairUp
  · simp [mine]
  · rw [if_neg mine] at same ⊢
    exact drained z hz same

theorem drainPair_team? (y : Team) (other : t.id ∉ y.pairUp) (area : Nat) (renew : Bool) : (drainPair s y area renew).team? t.id = s.team? t.id := by
  have ids (x : Team) : (if x.id ∈ y.pairUp then { x with phase := .draining, saveArea := area, renew := renew } else x).id = x.id := by split <;> rfl
  rw [State.team?, State.team?, drainPair, List.find?_map]
  simp only [Function.comp_def, ids]
  cases found : s.teams.find? fun x => x.id == t.id with
  | none => rfl
  | some z =>
    have same : z.id = t.id := by simpa using List.find?_some found
    rw [Option.map_some, if_neg (same ▸ other)]

theorem orderEviction_keeps_drained (drained : ∀ x ∈ s.teams, x.id = t.id → x.phase = .draining) (id area : Nat) (renew : Bool) :
    ∀ x ∈ (s.orderEviction id area renew).teams, x.id = t.id → x.phase = .draining := by
  obtain same | ⟨y, -, eq⟩ := orderEviction_cases (s := s) id area renew
  · rwa [same]
  · rw [eq]
    exact drainPair_keeps_drained y drained area renew

theorem orderEviction_drainsOr (h : DrainsOr t s) (id area : Nat) (renew : Bool) : DrainsOr t (s.orderEviction id area renew) := by
  obtain drained | team := h
  · exact Or.inl (orderEviction_keeps_drained drained id area renew)
  · obtain same | ⟨y, -, eq⟩ := orderEviction_cases (s := s) id area renew
    · exact Or.inr (by rwa [same])
    · rw [eq]
      by_cases mine : t.id ∈ y.pairUp
      · exact Or.inl (drainPair_drains y mine area renew)
      · exact Or.inr ((drainPair_team? y mine area renew).trans team)

theorem orderEviction_drains (h : DrainsOr t s) (movable : Movable t) (area : Nat) (renew : Bool) :
    ∀ x ∈ (s.orderEviction t.id area renew).teams, x.id = t.id → x.phase = .draining := by
  obtain drained | team := h
  · exact orderEviction_keeps_drained drained t.id area renew
  · rw [orderEviction_movable team movable]
    exact drainPair_drains t (by simp [Team.pairUp]) area renew

/-- A team that one of the orders names drains after them. -/
theorem orderEvictions_drain (movable : Movable t) {l : List (Nat × Nat)} (named : ∃ e ∈ l, e.1 = t.id) (h : DrainsOr t s) :
    ∀ x ∈ (l.foldl (fun s e => s.orderEviction e.1 e.2 false) s).teams, x.id = t.id → x.phase = .draining := by
  induction l generalizing s with
  | nil => simp at named
  | cons e l ih =>
    by_cases first : e.1 = t.id
    · have drained : ∀ x ∈ (s.orderEviction e.1 e.2 false).teams, x.id = t.id → x.phase = .draining := by
        rw [first]
        exact orderEviction_drains h movable e.2 false
      exact List.foldlRecOn (motive := fun u : State => ∀ x ∈ u.teams, x.id = t.id → x.phase = .draining) l _ drained
        fun _ h e _ => orderEviction_keeps_drained h e.1 e.2 false
    · obtain ⟨a, ha, it⟩ := named
      have later := (List.mem_cons.1 ha).resolve_left fun same => first (same ▸ it)
      exact ih ⟨a, later, it⟩ (orderEviction_drainsOr h e.1 e.2 false)

theorem orderEviction_parts (id area : Nat) (renew : Bool) : (s.orderEviction id area renew).parts = s.parts := by
  obtain same | ⟨y, -, eq⟩ := orderEviction_cases (s := s) id area renew
  · rw [same]
  · rw [eq]
    rfl

theorem orderPartition_part {part : Nat} (inside : part < s.parts.length) (area : Nat) : ((s.orderPartition part area).part part).leaving = true := by
  unfold State.orderPartition
  extract_lets ts u
  have parts : u.parts = s.parts :=
    List.foldlRecOn (motive := fun v : State => v.parts = s.parts) _ _ rfl fun _ h e _ => (orderEviction_parts e.1 e.2 false).trans h
  rw [part_setPart_same (by rwa [parts])]

theorem orderPartition_drains {part : Nat} (team : s.team? t.id = some t) (here : t.part = part) (primary : t.secondary = false) (movable : Movable t)
    (area : Nat) : ∀ x ∈ (s.orderPartition part area).teams, x.id = t.id → x.phase = .draining := by
  refine orderEvictions_drain movable ?_ (Or.inr team)
  have listed : t ∈ s.teams.filter fun t => t.part == part && !t.secondary :=
    List.mem_filter.2 ⟨List.mem_of_find?_eq_some team, by simp [here, primary]⟩
  obtain ⟨i, hi, at_⟩ := List.getElem_of_mem listed
  exact ⟨_, List.mem_mapIdx.2 ⟨i, hi, rfl⟩, by rw [at_]⟩

/-! ### Images and the teams that are saved (R257, R258, R260) -/

theorem writeImages_teams : (s.writeImages t).teams = s.teams :=
  (MemoryOnly.foldl (fun u _ => MemoryOnly.writeImage u _ _ _) (s.imageCores t) s).teams

theorem writeImages_launches : (s.writeImages t).launches = s.launches :=
  (MemoryOnly.foldl (fun u _ => MemoryOnly.writeImage u _ _ _) (s.imageCores t) s).launches

theorem imageWrite_saves (team : s.team? t.id = some t) (draining : t.phase = .draining) (drained : ∀ i ∈ t.pairUp, s.drained i = true)
    (clean : s.errors = []) : exec (.imageWrite t.id) s = .next ((t.pairUp.foldl State.saveTeam (if s.wantsNotice t.launch Cause.preempt = true then
      (s.writeImages t).makeNotice (teamUnit t) Cause.preempt 0 (BitVec.ofNat 64 t.saveArea) (BitVec.ofNat 64 (s.imagesLen t)) (BitVec.ofNat 32 t.idx)
    else s.writeImages t)).queueSaved t.id).wakeRetry := by
  have all : t.pairUp.all s.drained = true := List.all_eq_true.2 drained
  simp [execImageWrite, team, draining, all, clean]

/-- A team as its image is saved. -/
def savedAs (id : Nat) (t : Team) : Team :=
  if t.id = id then { t with phase := .evicted true, bar := Barrier.kept t.bar, gather := t.gather.filter (·.final), pair := evictedPair } else t

theorem saveTeam_teams (id : Nat) : (s.saveTeam id).teams = s.teams.map (savedAs id) := by
  unfold State.saveTeam State.moveTeam
  dsimp only
  rw [(MemoryOnly.forget _ _).teams, State.updTeam, updWhere, List.map_map]
  refine List.map_congr_left fun x _ => ?_
  by_cases it : x.id = id <;> simp [savedAs, it]

theorem saveTeam_launches (id : Nat) : (s.saveTeam id).launches = s.launches := by
  unfold State.saveTeam State.moveTeam
  dsimp only
  rw [(MemoryOnly.forget _ _).launches]
  rfl

/-- What a team that is saved keeps. -/
structure SavedFrom (t u : Team) : Prop where
  id : u.id = t.id
  launch : u.launch = t.launch
  idx : u.idx = t.idx
  part : u.part = t.part
  primary : u.primary = t.primary
  evicted : t.phase = .evicted true → u.phase = .evicted true

theorem savedAs_savedFrom (id : Nat) (t : Team) : SavedFrom t (savedAs id t) := by
  unfold savedAs
  split
  exacts [⟨rfl, rfl, rfl, rfl, rfl, fun _ => rfl⟩, ⟨rfl, rfl, rfl, rfl, rfl, fun h => h⟩]

/-- The teams after some of them have been saved. -/
theorem saveTeams_teams (ids : List Nat) : ∃ f : Team → Team, (ids.foldl State.saveTeam s).teams = s.teams.map f ∧
    (ids.foldl State.saveTeam s).launches = s.launches ∧ ∀ x, SavedFrom x (f x) ∧ (x.id ∈ ids → (f x).phase = .evicted true) := by
  induction ids generalizing s with
  | nil => exact ⟨fun x => x, by simp, rfl, fun x => ⟨⟨rfl, rfl, rfl, rfl, rfl, fun h => h⟩, by simp⟩⟩
  | cons i ids ih =>
    obtain ⟨f, teams, launches, saved⟩ := ih (s := s.saveTeam i)
    refine ⟨fun x => f (savedAs i x), by rw [List.foldl_cons, teams, saveTeam_teams, List.map_map]; rfl, launches.trans (saveTeam_launches i), fun x => ?_⟩
    have first := savedAs_savedFrom i x
    obtain ⟨rest, done⟩ := saved (savedAs i x)
    refine ⟨⟨rest.id.trans first.id, rest.launch.trans first.launch, rest.idx.trans first.idx, rest.part.trans first.part, rest.primary.trans first.primary,
      fun h => rest.evicted (first.evicted h)⟩, fun named => ?_⟩
    by_cases it : x.id = i
    · exact rest.evicted (by simp [savedAs, it])
    · exact done (first.id.symm ▸ (List.mem_cons.1 named).resolve_left it)

theorem queueSaved_eq {u : State} {x : Team} {l : Launch} {id : Nat} (team : u.team? id = some x) (launch : u.launch? x.launch = some l) : u.queueSaved id =
    (u.updTeam x.primary fun x => { x with budget := if x.renew then l.rcd.fullBudget else x.budget }).enqueue
      { mkTask x.part l.queue l.rcd.prio (.saved x.primary) with aff := l.affOf x.idx } (!x.renew) := by
  simp [State.queueSaved, team, launch]

theorem imageWrite_queues {l : Launch} (team : s.team? t.id = some t) (draining : t.phase = .draining) (drained : ∀ i ∈ t.pairUp, s.drained i = true)
    (clean : s.errors = []) (launch : s.launch? t.launch = some l) (quiet : s.wantsNotice t.launch Cause.preempt = false) :
    ∃ v, exec (.imageWrite t.id) s = .next v ∧ v.mem = (s.writeImages t).mem ∧ (∀ x ∈ v.teams, x.id ∈ t.pairUp → x.phase = .evicted true) ∧
      ∃ k ∈ v.tasks, k.kind = .saved t.primary ∧ k.part = t.part ∧ k.queue = l.queue := by
  have eq := imageWrite_saves team draining drained clean
  rw [quiet, if_neg Bool.false_ne_true] at eq
  obtain ⟨f, teams, launches, saved⟩ := saveTeams_teams (s := s.writeImages t) t.pairUp
  have mem : (t.pairUp.foldl State.saveTeam (s.writeImages t)).mem = (s.writeImages t).mem := foldl_mem _ saveTeam_mem _ _
  generalize t.pairUp.foldl State.saveTeam (s.writeImages t) = u at eq teams launches mem
  rw [writeImages_teams] at teams
  have mine : u.team? t.id = some (f t) := by
    rw [State.team?, teams, List.find?_map]
    simp only [Function.comp_def, fun x => (saved x).1.id]
    exact congrArg (Option.map f) team
  have its : u.launch? (f t).launch = some l := by rw [State.launch?, launches, writeImages_launches, (saved t).1.launch]; exact launch
  rw [queueSaved_eq mine its] at eq
  refine ⟨_, eq, mem, ?_, ?_⟩
  · intro x hx named
    obtain ⟨y, hy, rfl⟩ := List.mem_map.1 hx
    rw [teams] at hy
    obtain ⟨z, -, rfl⟩ := List.mem_map.1 hy
    split at named <;> split
    all_goals exact (saved z).2 ((saved z).1.id ▸ named)
  · exact ⟨_, List.mem_append_right _ (List.mem_singleton.2 rfl), congrArg TaskKind.saved (saved t).1.primary, (saved t).1.part, rfl⟩

/-! ### A launch's deadline (R255) -/

theorem launchDeadlineExpiry_kills {l : Launch} {n : Nat} (launch : s.launch? l.id = some l) (deadline : l.deadline = some n)
    (passed : n ≤ s.qclock l.part l.queue) (left : l.left ≠ 0)
    (quiet : ((s.killLaunch l.id 6).updLaunch l.id fun l => { l with deadline := none }).wantsNotice l.id Cause.deadline = false) :
    exec (.launchDeadlineExpiry l.id) s = .next ((s.killLaunch l.id 6).updLaunch l.id fun l => { l with deadline := none }).wakeRetry := by
  have due : ¬ s.qclock l.part l.queue < n := not_lt.2 passed
  simp [execLaunchDeadlineExpiry, launch, deadline, due, left, quiet]

end

theorem evictionEvents : EvictionEvents := by
  intro s t l part area n ordered
  refine ⟨fun team movable => ⟨fun spent primary => budgetExpiry_orders team movable spent primary, ?_⟩, fun inside => ?_, fun team draining drained clean => ⟨?_, ?_⟩,
    fun launch deadline passed left _ quiet => launchDeadlineExpiry_kills launch deadline passed left quiet⟩
  · simp only [exec_evictionOrder, execEvictionOrder, orderEviction_movable team movable]
    rfl
  · exact ⟨_, rfl, orderPartition_part inside area, fun team here primary movable => orderPartition_drains team here primary movable area⟩
  · exact imageWrite_saves team draining drained clean
  · exact imageWrite_queues team draining drained clean

end Sys2Proof.Laws

end

section

/-! LEMMAS for O49. Bank contexts and exact cells that move (R259, R322, R348). -/

namespace Sys2Proof.Laws

open Sys2Proof.Machine Sys2Proof.Safety Sys2Proof.Slice0

/-! ### Errors that are repaired and logged (R313, R322) -/

/-- `t` is `s` but for the error log, the events it raises, and the soft marks that a repair takes. -/
def LogsOnly (s t : State) : Prop :=
  ∃ sf el as sc fi, t = { s with softs := sf, errlog := el, assist := as, softCount := sc, fills := fi }

namespace LogsOnly

theorem refl (s : State) : LogsOnly s s := ⟨_, _, _, _, _, rfl⟩

theorem trans {s t u : State} (h : LogsOnly s t) (k : LogsOnly t u) : LogsOnly s u := by
  obtain ⟨_, _, _, _, _, rfl⟩ := h
  obtain ⟨_, _, _, _, _, rfl⟩ := k
  exact ⟨_, _, _, _, _, rfl⟩

theorem foldl {α : Type} {f : State → α → State} (step : ∀ u a, LogsOnly u (f u a)) (l : List α) (s : State) : LogsOnly s (l.foldl f s) := by
  induction l generalizing s with
  | nil => exact refl s
  | cons a l ih => exact (step s a).trans (ih _)

section

variable {s t : State} (h : LogsOnly s t)
include h

theorem teams : t.teams = s.teams := by obtain ⟨_, _, _, _, _, rfl⟩ := h; rfl
theorem errors : t.errors = s.errors := by obtain ⟨_, _, _, _, _, rfl⟩ := h; rfl
theorem pages : t.pages = s.pages := by obtain ⟨_, _, _, _, _, rfl⟩ := h; rfl
theorem cellBlocks : t.cellBlocks = s.cellBlocks := by obtain ⟨_, _, _, _, _, rfl⟩ := h; rfl

end

variable (s : State)

theorem logEvent (e : Event) : LogsOnly s (s.logEvent e) := by
  unfold State.logEvent
  dsimp only
  split <;> exact ⟨_, _, _, _, _, rfl⟩

theorem queueFill (page : Nat) : LogsOnly s (s.queueFill page) := by
  unfold State.queueFill
  split
  exacts [refl s, ⟨_, _, _, _, _, rfl⟩]

theorem repair (loc : StoreLoc) : LogsOnly s (s.repair loc) := by
  unfold State.repair
  extract_lets mended noted
  have logged : LogsOnly s noted := trans ⟨_, _, _, _, _, rfl⟩ (logEvent mended _)
  split
  · extract_lets page n counted
    have count : LogsOnly s counted := logged.trans ⟨_, _, _, _, _, rfl⟩
    split
    exacts [count.trans (queueFill _ _), count]
  · exact logged

theorem repairAt (p : StoreLoc → Bool) : LogsOnly s (s.repairAt p) := foldl repair _ s

end LogsOnly

section

variable {s : State}

theorem repairAt_of_sound {p : StoreLoc → Bool} (sound : ∀ e ∈ s.softs, p e = false) : s.repairAt p = s := by
  have none : s.softs.filter p = [] := List.filter_eq_nil_iff.2 fun e he => by simp [sound e he]
  rw [State.repairAt, none]
  rfl

/-! ### Bank contexts (R348) -/

/-- A mark in the engine of a pseudo-channel. -/
def inBank (pc : Nat) (e : StoreLoc) : Prop := ∃ k, e = .bank pc k

theorem bankPoisoned_of_sound {page : Nat} (errors : ∀ e ∈ s.errors, ¬inBank (pseudoChannel (page * 65536)) e)
    (softs : ∀ e ∈ s.softs, ¬inBank (pseudoChannel (page * 65536)) e) : s.bankPoisoned page = s := by
  unfold State.bankPoisoned
  extract_lets pc mine mended
  have miss {e : StoreLoc} (h : ¬inBank pc e) : mine e = false := by
    cases e
    case bank k i => exact beq_eq_false_iff_ne.2 fun same => h ⟨i, by rw [same]⟩
    all_goals rfl
  have same : mended = s := repairAt_of_sound fun e he => miss (softs e he)
  have none : mended.errors.find? mine = none := by
    rw [same]
    exact List.find?_eq_none.2 fun e he => by simp [miss (errors e he)]
  rw [none, same]

theorem saveBank_of_sound {page : Nat} (area : Nat) (errors : ∀ e ∈ s.errors, ¬inBank (pseudoChannel (page * 65536)) e)
    (softs : ∀ e ∈ s.softs, ¬inBank (pseudoChannel (page * 65536)) e) : exec (.jobMemoryMove (.saveBank page area)) s =
      .next (s.replaceRange area ((s.bankOf (pseudoChannel (page * 65536))).image page)).wakeRetry := by
  simp only [exec_jobMemoryMove, execJobMemoryMove, bankPoisoned_of_sound errors softs]

theorem buryTeam_ends (t : Team) (again : Bool) (code status : Nat) : OverFor (s.buryTeam t again code status) t.id := by
  unfold State.buryTeam
  extract_lets released buried
  have gone : OverFor buried t.id := fun x found => by
    have kept := (List.mem_filter.1 (List.mem_of_find?_eq_some found)).2
    have same := List.find?_some found
    simp only [beq_iff_eq] at same
    simp [same] at kept
  have after {u : State} (k : Keeps buried u) : OverFor u t.id := k.ends _ gone
  split
  · exact gone
  · repeat' split
    exacts [after (Keeps.refl _).filterLaunches, gone, after (Keeps.refl _).relaunch, after (Keeps.refl _).deadTeam, after (Keeps.refl _).makeNotice,
      after (Keeps.refl _).deadTeam]

theorem updTeam_dead_ends {f : Team → Team} (dead : ∀ t, (f t).phase = .dead) (team : Nat) : OverFor (s.updTeam team f) team := by
  intro t found
  obtain ⟨x, -, rfl⟩ := List.mem_map.1 (List.mem_of_find?_eq_some found)
  have same := List.find?_some found
  by_cases mine : x.id = team
  · simp [mine, dead]
  · simp [mine] at same

/-- A team that is killed is not alive afterwards (R317). -/
theorem killOne_ends (team : Nat) (again : Bool) (code status : Nat) : OverFor (s.killOne team again code status) team := by
  unfold State.killOne
  split
  next missing => exact fun t found => by rw [missing] at found; cases found
  next t found =>
    have same : t.id = team := by simpa using List.find?_some found
    split
    next dead => exact fun x hx => by rw [found] at hx; cases hx; exact dead
    next =>
      extract_lets summed mine dropped charged rest
      split
      · exact same ▸ buryTeam_ends t again code status
      · exact (Keeps.refl _).reap.ends _ (updTeam_dead_ends (fun _ => rfl) team)

theorem killOnes_end {again : Bool} {code status id : Nat} {ids : List Nat} (named : id ∈ ids) :
    OverFor (ids.foldl (fun s i => s.killOne i again code status) s) id := by
  induction ids generalizing s with
  | nil => cases named
  | cons i ids ih =>
    obtain rfl | later := List.mem_cons.1 named
    · exact ((Keeps.refl (s.killOne id again code status)).foldl fun _ _ => (Keeps.refl _).killOne).ends _ (killOne_ends id again code status)
    · exact ih later

/-- Poisoned words of a bank context end every team of the page's partition. -/
theorem bankPoisoned_ends {page : Nat} (poisoned : ∃ k, StoreLoc.bank (pseudoChannel (page * 65536)) k ∈ s.errors) {x : Team} (hx : x ∈ s.teams)
    (here : some x.part = s.pageOwner page) : OverFor (s.bankPoisoned page) x.id := by
  obtain ⟨k, poisoned⟩ := poisoned
  unfold State.bankPoisoned
  extract_lets pc mine mended
  have mend : LogsOnly s mended := LogsOnly.repairAt s mine
  cases found : mended.errors.find? mine with
  | none => exact absurd (List.find?_eq_none.1 found _ (mend.errors ▸ poisoned)) (by simp [mine, pc])
  | some e =>
    dsimp only
    have log (v : Event) : LogsOnly s (mended.logEvent v) := mend.trans (LogsOnly.logEvent _ v)
    refine killOnes_end (List.mem_map.2 ⟨x, List.mem_filter.2 ⟨?_, ?_⟩, rfl⟩)
    · rwa [(log _).teams]
    · rw [State.pageOwner, (log _).pages]
      exact beq_iff_eq.2 here

theorem saveBank_ends {page : Nat} (area : Nat) (poisoned : ∃ k, StoreLoc.bank (pseudoChannel (page * 65536)) k ∈ s.errors) :
    ∃ v, exec (.jobMemoryMove (.saveBank page area)) s = .next v ∧
      ∀ x ∈ s.teams, some x.part = s.pageOwner page → ∀ y, v.team? x.id = some y → y.phase = .dead := by
  refine ⟨_, rfl, fun x hx here => ?_⟩
  have moved := (MemoryOnly.replaceRange (s.bankPoisoned page) area ((s.bankOf (pseudoChannel (page * 65536))).image page)).trans (MemoryOnly.wakeRetry _)
  exact (overFor_congr moved.teams _).2 (bankPoisoned_ends poisoned hx here)

/-! ### A bank context that comes back (R348) -/

theorem bankOf_congr {t : State} (banks : t.banks = s.banks) (pc : Nat) : t.bankOf pc = s.bankOf pc := by rw [State.bankOf, State.bankOf, banks]

theorem bankOf_setBank (b : Bank) : (s.setBank b).bankOf b.pc = b := by
  unfold State.setBank
  split
  next held =>
    have same (x : Bank) : ((if (x.pc == b.pc) = true then b else x).pc == b.pc) = (x.pc == b.pc) := by
      split
      next it => simpa using it.symm
      next => rfl
    obtain ⟨y, found⟩ := Option.isSome_iff_exists.1 (List.find?_isSome.2 (List.any_eq_true.1 held))
    have its : y.pc = b.pc := by simpa using List.find?_some found
    simp only [State.bankOf, updWhere, List.find?_map, Function.comp_def, same, found, Option.map_some, its, beq_self_eq_true, if_true, Option.getD_some]
  next missing =>
    have none : s.banks.find? (fun x => x.pc == b.pc) = none := by simpa using missing
    simp [State.bankOf, List.find?_append, none]

theorem noteBankPage_mem {dpa : Nat} (plain : dpa / 65536 ∉ s.cleared) : (s.noteBankPage dpa).mem = s.mem := by
  have stays : s.cleared.contains (dpa / 65536) = false := by simpa using plain
  unfold State.noteBankPage
  simp only [stays]
  split
  · rfl
  · rw [setBank_mem, putLines_mem]
    rfl

theorem restoreBank_restores (page area : Nat) : ∃ v, exec (.jobMemoryMove (.restoreBank page area)) s = .next v ∧
    (page ∉ s.cleared → v.mem = s.mem) ∧ ∃ pages, v.bankOf (pseudoChannel (page * 65536)) = bankFrom (pseudoChannel (page * 65536)) pages (s.readBytes area 12352) := by
  have at_page : page * 65536 / 65536 = page := by omega
  refine ⟨_, rfl, fun plain => ?_, ((s.noteBankPage (page * 65536)).bankOf (pseudoChannel (page * 65536))).pages, ?_⟩
  · rw [State.wakeRetry_mem, forget_mem, setBank_mem, noteBankPage_mem (by rwa [at_page])]
  · exact (bankOf_congr ((MemoryOnly.forget _ _).trans (MemoryOnly.wakeRetry _)).banks _).trans (bankOf_setBank (bankFrom _ _ _))

/-! ### Exact cells (R259, R322) -/

/-- A mark in a cell of a page. -/
def inCells (page : Nat) (e : StoreLoc) : Prop := ∃ a, e = .cell a ∧ a / 65536 = page

theorem findCellError_of_sound {dpa : Nat} (errors : ∀ e ∈ s.errors, ¬inCells (dpa / 65536) e) (softs : ∀ e ∈ s.softs, ¬inCells (dpa / 65536) e) :
    s.findCellError dpa = s := by
  unfold State.findCellError
  extract_lets here mended fewer poisoned
  have miss {e : StoreLoc} (h : ¬inCells (dpa / 65536) e) : here e = false := by
    cases e
    case cell a => exact beq_eq_false_iff_ne.2 fun same => h ⟨a, rfl, by omega⟩
    all_goals rfl
  have same : mended = s := repairAt_of_sound fun e he => miss (softs e he)
  have none : mended.errors.any here = false := by
    rw [same]
    exact List.any_eq_false.2 fun e he => by simp [miss (errors e he)]
  rw [none, if_neg Bool.false_ne_true, same]

theorem cell_congr {t : State} (cells : t.cellBlocks = s.cellBlocks) (dpa : Nat) : t.cell dpa = s.cell dpa := by rw [State.cell, State.cell, cells]

/-- A page has a cell block. -/
def HasCells (s : State) (page : Nat) : Prop := ∃ b ∈ s.cellBlocks, b.page = page

theorem hasCells_congr {t : State} (cells : t.cellBlocks = s.cellBlocks) (page : Nat) : HasCells t page ↔ HasCells s page := by rw [HasCells, HasCells, cells]

section

variable {β : Type} (l : List (Nat × β)) (v : β)

theorem assoc_assocSet_same (k : Nat) : assoc (assocSet l k v) k = some v := by
  unfold assocSet assoc
  split
  next held =>
    have same (e : Nat × β) : ((if (e.1 == k) = true then (k, v) else e).1 == k) = (e.1 == k) := by
      split
      next it => simpa using it.symm
      next => rfl
    obtain ⟨y, found⟩ := Option.isSome_iff_exists.1 (List.find?_isSome.2 (List.any_eq_true.1 held))
    have its := List.find?_some found
    simp only [List.find?_map, Function.comp_def, same, found, Option.map_some, its, if_true]
  next missing =>
    have none : l.find? (fun e => e.1 == k) = none := List.find?_eq_none.2 fun e he it => missing (List.any_eq_true.2 ⟨e, he, it⟩)
    simp [List.find?_append, none]

theorem assoc_assocSet_other {k j : Nat} (ne : k ≠ j) : assoc (assocSet l j v) k = assoc l k := by
  unfold assocSet assoc
  split
  next =>
    have same (e : Nat × β) : ((if (e.1 == j) = true then (j, v) else e).1 == k) = (e.1 == k) := by
      split
      next it => simp [beq_iff_eq.1 it]
      next => rfl
    simp only [List.find?_map, Function.comp_def, same]
    cases found : l.find? fun e => e.1 == k with
    | none => rfl
    | some y =>
      have its : y.1 = k := by simpa using List.find?_some found
      simp [its, ne]
  next => simp [List.find?_append, ne.symm]

theorem assoc_filter_same (k : Nat) : assoc (l.filter fun e => e.1 != k) k = none := by
  simp [assoc]

theorem assoc_filter_other {k j : Nat} (ne : k ≠ j) : assoc (l.filter fun e => e.1 != j) k = assoc l k := by
  simp only [assoc, List.find?_filter]
  refine congrArg (Option.map _) (congrArg (List.find? · l) (funext fun e => ?_))
  by_cases it : e.1 = k <;> simp [it, ne]

end

/-- A cell block with one cell set. -/
def setIn (dpa : Nat) (c : ExactCell) (b : CellBlock) : CellBlock :=
  if (b.page == dpa / 65536) = true then
    { b with cells := if c = ExactCell.zero then b.cells.filter fun e => e.1 != dpa / 64 else assocSet b.cells (dpa / 64) c }
  else b

theorem setCell_cellBlocks (dpa : Nat) (c : ExactCell) : (s.setCell dpa c).cellBlocks = s.cellBlocks.map (setIn dpa c) := rfl

theorem setIn_page (dpa : Nat) (c : ExactCell) (b : CellBlock) : (setIn dpa c b).page = b.page := by
  unfold setIn
  split <;> rfl

theorem setIn_cell_same {dpa : Nat} {b : CellBlock} (here : b.page = dpa / 65536) (c : ExactCell) : (setIn dpa c b).cell dpa = c := by
  simp only [setIn, here, beq_self_eq_true, if_true, CellBlock.cell]
  split
  next zero => rw [assoc_filter_same, zero, Option.getD_none]
  next => rw [assoc_assocSet_same, Option.getD_some]

theorem setIn_cell_other {dpa other : Nat} (ne : dpa / 64 ≠ other / 64) (c : ExactCell) (b : CellBlock) : (setIn other c b).cell dpa = b.cell dpa := by
  unfold setIn CellBlock.cell
  split
  · dsimp only
    split
    · rw [assoc_filter_other _ ne]
    · rw [assoc_assocSet_other _ _ ne]
  · rfl

theorem find?_setCell (page dpa : Nat) (c : ExactCell) : (s.setCell dpa c).cellBlocks.find? (fun b => b.page == page) =
    (s.cellBlocks.find? fun b => b.page == page).map (setIn dpa c) := by
  simp only [setCell_cellBlocks, List.find?_map, Function.comp_def, setIn_page]

theorem hasCells_setCell {page dpa : Nat} (h : HasCells s page) (c : ExactCell) : HasCells (s.setCell dpa c) page := by
  obtain ⟨b, hb, here⟩ := h
  exact ⟨_, List.mem_map.2 ⟨b, hb, rfl⟩, (setIn_page dpa c b).trans here⟩

theorem cell_setCell_same {dpa : Nat} (h : HasCells s (dpa / 65536)) (c : ExactCell) : (s.setCell dpa c).cell dpa = c := by
  obtain ⟨b, hb, here⟩ := h
  obtain ⟨y, found⟩ := Option.isSome_iff_exists.1 (List.find?_isSome (p := fun b : CellBlock => b.page == dpa / 65536).2 ⟨b, hb, by simp [here]⟩)
  have its : y.page = dpa / 65536 := by simpa using List.find?_some found
  simp only [State.cell, find?_setCell, found, Option.map_some, setIn_cell_same its]

theorem cell_setCell_other {dpa other : Nat} (ne : dpa / 64 ≠ other / 64) (c : ExactCell) : (s.setCell other c).cell dpa = s.cell dpa := by
  simp only [State.cell, find?_setCell]
  cases s.cellBlocks.find? fun b => b.page == dpa / 65536 with
  | none => rfl
  | some b => exact setIn_cell_other ne c b

/-! ### Cells that are saved (R259, R322) -/

section

variable {page area : Nat}

theorem saveCells_eq (h : HasCells s page) (applied : ∀ t ∈ s.teams, t.applyQ = []) : exec (.jobMemoryMove (.saveCells page area)) s =
    .next (((List.range 1024).foldl (fun (s : State) i => s.findCellError (page * 65536 + 64 * i)) s).replaceRange area ((List.range 1024).flatMap
      fun i => (((List.range 1024).foldl (fun (s : State) i => s.findCellError (page * 65536 + 64 * i)) s).cell (page * 65536 + 64 * i)).entry)).wakeRetry := by
  have block : (s.cellBlocks.any fun b => b.page == page) = true := by
    obtain ⟨b, hb, here⟩ := h
    exact List.any_eq_true.2 ⟨b, hb, beq_iff_eq.2 here⟩
  have none : (s.teams.any fun t => !t.applyQ.isEmpty) = false := List.any_eq_false.2 fun t ht => by simp [applied t ht]
  simp only [exec_jobMemoryMove, execJobMemoryMove, block, none]
  rfl

theorem saveCells_of_sound (h : HasCells s page) (applied : ∀ t ∈ s.teams, t.applyQ = []) (errors : ∀ e ∈ s.errors, ¬inCells page e)
    (softs : ∀ e ∈ s.softs, ¬inCells page e) : exec (.jobMemoryMove (.saveCells page area)) s =
      .next (s.replaceRange area ((List.range 1024).flatMap fun i => (s.cell (page * 65536 + 64 * i)).entry)).wakeRetry := by
  have same : (List.range 1024).foldl (fun (s : State) i => s.findCellError (page * 65536 + 64 * i)) s = s := by
    refine List.foldlRecOn (motive := fun u : State => u = s) _ _ rfl fun u hu i hi => ?_
    have at_page : (page * 65536 + 64 * i) / 65536 = page := by have := List.mem_range.1 hi; omega
    subst hu
    exact findCellError_of_sound (by rwa [at_page]) (by rwa [at_page])
  rw [saveCells_eq h applied, same]

/-- The cell at an address is poisoned, or an error in it has still to be found. -/
structure Poisons (s : State) (dpa : Nat) : Prop where
  block : HasCells s (dpa / 65536)
  marked : StoreLoc.cell dpa ∈ s.errors ∨ (s.cell dpa).poison = true

theorem findCellError_keeps_error {dpa other : Nat} (ne : dpa / 64 ≠ other / 64) (error : StoreLoc.cell dpa ∈ s.errors) :
    StoreLoc.cell dpa ∈ (s.findCellError other).errors := by
  unfold State.findCellError
  extract_lets here mended fewer c poisoned
  have mend : LogsOnly s mended := LogsOnly.repairAt s here
  have still : StoreLoc.cell dpa ∈ mended.errors := by rwa [mend.errors]
  split
  · rw [(LogsOnly.logEvent poisoned _).errors]
    exact List.mem_filter.2 ⟨still, by simp [here, ne]⟩
  · exact still

/-- An access to a cell leaves the cells as they are, or poisons that cell, which an error there does. -/
theorem findCellError_cellBlocks (dpa : Nat) : ((s.findCellError dpa).cellBlocks = s.cellBlocks ∧ StoreLoc.cell dpa ∉ s.errors) ∨
    (s.findCellError dpa).cellBlocks = (s.setCell dpa { s.cell dpa with poison := true }).cellBlocks := by
  unfold State.findCellError
  extract_lets here mended fewer c poisoned
  have mend : LogsOnly s mended := LogsOnly.repairAt s here
  split
  next =>
    have same : c = s.cell dpa := cell_congr mend.cellBlocks dpa
    have blocks : fewer.cellBlocks = s.cellBlocks := mend.cellBlocks
    right
    rw [(LogsOnly.logEvent poisoned _).cellBlocks, setCell_cellBlocks, setCell_cellBlocks, blocks, same]
  next none =>
    refine Or.inl ⟨mend.cellBlocks, fun error => none (List.any_eq_true.2 ⟨StoreLoc.cell dpa, ?_, beq_self_eq_true (dpa / 64)⟩)⟩
    rwa [mend.errors]

theorem findCellError_hasCells {page dpa : Nat} (h : HasCells s page) : HasCells (s.findCellError dpa) page := by
  obtain ⟨same, -⟩ | set := findCellError_cellBlocks (s := s) dpa
  · exact (hasCells_congr same page).2 h
  · exact (hasCells_congr set page).2 (hasCells_setCell h _)

theorem findCellError_cell_other {dpa other : Nat} (ne : dpa / 64 ≠ other / 64) : (s.findCellError other).cell dpa = s.cell dpa := by
  obtain ⟨same, -⟩ | set := findCellError_cellBlocks (s := s) other
  · exact cell_congr same dpa
  · exact (cell_congr set dpa).trans (cell_setCell_other ne _)

theorem findCellError_poisons_other {dpa other : Nat} (ne : dpa / 64 ≠ other / 64) (h : Poisons s dpa) : Poisons (s.findCellError other) dpa :=
  ⟨findCellError_hasCells h.block, h.marked.imp (findCellError_keeps_error ne) fun poison => by rwa [findCellError_cell_other ne]⟩

theorem findCellError_poisons_same {dpa : Nat} (h : Poisons s dpa) : ((s.findCellError dpa).cell dpa).poison = true := by
  obtain ⟨same, clean⟩ | set := findCellError_cellBlocks (s := s) dpa
  · rw [cell_congr same]
    exact h.marked.resolve_left clean
  · rw [cell_congr set, cell_setCell_same h.block]

/-- The passes over the cells of a page keep a poison that is there or still to be found; the one over its own cell finds it. -/
theorem findCellErrors_poisons {base i : Nat} (aligned : base % 64 = 0) (l : List Nat) (h : Poisons s (base + 64 * i)) :
    i ∈ l ∨ (s.cell (base + 64 * i)).poison = true →
      ((l.foldl (fun (s : State) j => s.findCellError (base + 64 * j)) s).cell (base + 64 * i)).poison = true := by
  induction l generalizing s with
  | nil => simp
  | cons j l ih =>
    by_cases it : j = i
    · subst it
      have found := findCellError_poisons_same h
      exact fun _ => ih ⟨findCellError_hasCells h.block, Or.inr found⟩ (Or.inr found)
    · have ne : (base + 64 * i) / 64 ≠ (base + 64 * j) / 64 := by omega
      refine fun due => ih (findCellError_poisons_other ne h) (due.imp (fun named => ?_) fun poison => ?_)
      · exact (List.mem_cons.1 named).resolve_left fun same => it same.symm
      · rwa [findCellError_cell_other ne]

theorem saveCells_poisons (h : HasCells s page) (applied : ∀ t ∈ s.teams, t.applyQ = []) {i : Nat} (hi : i < 1024)
    (error : StoreLoc.cell (page * 65536 + 64 * i) ∈ s.errors) :
    ∃ v, exec (.jobMemoryMove (.saveCells page area)) s = .next v ∧ (v.cell (page * 65536 + 64 * i)).poison = true := by
  have at_page : (page * 65536 + 64 * i) / 65536 = page := by omega
  have marked : Poisons s (page * 65536 + 64 * i) := ⟨by rwa [at_page], Or.inl error⟩
  refine ⟨_, saveCells_eq h applied, ?_⟩
  rw [cell_congr ((MemoryOnly.replaceRange _ _ _).trans (MemoryOnly.wakeRetry _)).cellBlocks]
  exact findCellErrors_poisons (by omega) _ marked (Or.inl (List.mem_range.2 hi))

end

/-! ### Cells that come back -/

theorem setCells_mem (base : Nat) (c : Nat → ExactCell) (l : List Nat) :
    (l.foldl (fun (t : State) i => t.setCell (base + 64 * i) (c i)) s).mem = s.mem := by
  rw [foldl_mem]
  exact fun _ _ => rfl

theorem setCells_cells (base : Nat) (c : Nat → ExactCell) (n : Nat) (h : ∀ i < n, HasCells s ((base + 64 * i) / 65536)) (aligned : base % 64 = 0) :
    (∀ page, HasCells s page → HasCells ((List.range n).foldl (fun (t : State) i => t.setCell (base + 64 * i) (c i)) s) page) ∧
    ∀ i < n, ((List.range n).foldl (fun (t : State) i => t.setCell (base + 64 * i) (c i)) s).cell (base + 64 * i) = c i := by
  induction n with
  | zero => exact ⟨fun _ h => h, fun i hi => absurd hi (Nat.not_lt_zero i)⟩
  | succ n ih =>
    obtain ⟨blocks, cells⟩ := ih fun i hi => h i (by omega)
    simp only [List.range_succ, List.foldl_append, List.foldl_cons, List.foldl_nil]
    refine ⟨fun page held => hasCells_setCell (blocks page held) _, fun i hi => ?_⟩
    obtain rfl | lt := Nat.eq_or_lt_of_le (Nat.lt_succ_iff.1 hi)
    · exact cell_setCell_same (blocks _ (h i hi)) _
    · rw [cell_setCell_other (by omega), cells i lt]

theorem restoreCells_restores (page area : Nat) (h : HasCells s page) : ∃ v, exec (.jobMemoryMove (.restoreCells page area)) s = .next v ∧ v.mem = s.mem ∧
    ∀ i < 1024, v.cell (page * 65536 + 64 * i) = cellFrom (s.readBytes (area + 64 * i) 64) := by
  have block : (s.cellBlocks.any fun b => b.page == page) = true := by
    obtain ⟨b, hb, here⟩ := h
    exact List.any_eq_true.2 ⟨b, hb, beq_iff_eq.2 here⟩
  have at_page {i : Nat} (hi : i < 1024) : (page * 65536 + 64 * i) / 65536 = page := by omega
  obtain ⟨-, cells⟩ := setCells_cells (s := s) (page * 65536) (fun i => cellFrom (s.readBytes (area + 64 * i) 64)) 1024 (fun i hi => by rwa [at_page hi]) (by omega)
  simp only [exec_jobMemoryMove, execJobMemoryMove, block, Bool.not_true, Bool.false_eq_true, if_false]
  refine ⟨_, rfl, ?_, fun i hi => ?_⟩
  · rw [State.wakeRetry_mem, forget_mem]
    exact setCells_mem (page * 65536) (fun i => cellFrom (s.readBytes (area + 64 * i) 64)) _
  · rw [cell_congr ((MemoryOnly.forget _ _).trans (MemoryOnly.wakeRetry _)).cellBlocks]
    exact cells i hi

end

end Sys2Proof.Laws

end

section

/-! LEMMAS for O49. The records of an evicted team go to another partition (R311). -/

namespace Sys2Proof.Laws

open Sys2Proof.Machine Sys2Proof.Safety Sys2Proof.Slice0

/-! ### A place in a pool that no record has (R289) -/

section

variable {s : State} {part : Nat}

/-- No record of a partition's pool has a place. -/
def PlaceFree (s : State) (part : Nat) (place : Nat × Nat) : Prop := place.2 < 64 ∧ ∀ y ∈ s.records, y.part = part → (y.extent, y.slot) ≠ place

theorem freeExtent_free {depth : Nat} {wave : Bool} {place : Nat × Nat} (found : s.freeExtent part depth wave = some place) : PlaceFree s part place := by
  unfold State.freeExtent at found
  split at found
  · cases found
  next nest _ =>
    obtain ⟨⟨lo, n⟩, -, found⟩ := List.exists_of_findSome?_eq_some found
    have slot {e : Nat} (taken : (((List.range 64).find? fun k => !(s.records.filter fun r => r.part == part).any fun r => r.extent == e && r.slot == k).map
        fun k => (e, k)) = some place) : PlaceFree s part place := by
      obtain ⟨k, first, rfl⟩ := Option.map_eq_some_iff.1 taken
      have unused := List.find?_some first
      refine ⟨List.mem_range.1 (List.mem_of_find?_eq_some first), fun y hy here same => ?_⟩
      obtain ⟨extent, slot⟩ := Prod.ext_iff.1 same
      simp only [Bool.not_eq_true', List.any_eq_false] at unused
      exact unused y (List.mem_filter.2 ⟨hy, by simp [here]⟩) (by simp at extent slot; simp [extent, slot])
    have empty (taken : (((List.range n).find? fun i => !(s.records.filter fun r => r.part == part).any fun r => r.extent == lo + i).map
        fun i => (lo + i, 0)) = some place) : PlaceFree s part place := by
      obtain ⟨i, first, rfl⟩ := Option.map_eq_some_iff.1 taken
      have unused := List.find?_some first
      refine ⟨Nat.succ_pos 63, fun y hy here same => ?_⟩
      simp only [Bool.not_eq_true', List.any_eq_false] at unused
      exact unused y (List.mem_filter.2 ⟨hy, by simp [here]⟩) (by simpa using (Prod.ext_iff.1 same).1)
    dsimp only at found
    split at found
    · exact empty found
    · split at found
      exacts [slot found, empty found]

theorem placeFor_free {depth : Nat} {wave : Bool} {place : Nat × Nat} (found : s.placeFor part depth wave = some place) : PlaceFree s part place := by
  unfold State.placeFor at found
  split at found
  · cases found
  · exact freeExtent_free found

/-! ### One record moves -/

/-- The generation that a pool has given a place. -/
def genAt (s : State) (part n : Nat) : Option Nat := (s.gens.find? fun g => g.1 == (part, n)).map (·.2)

/-- What a record keeps and takes as it moves. -/
structure MovedRecord (s : State) (part : Nat) (place : Nat × Nat) (y z : Record) : Prop where
  id : z.id = y.id
  inPart : z.part = part
  extent : z.extent = place.1
  slot : z.slot = place.2
  state : z.state = y.state
  body : z.body = y.body
  ord : z.ord = s.ordinal part
  gen : z.gen = ((genAt s part (place.1 * 64 + place.2)).getD 0 + 1) % 64
  deadline : z.deadline = s.qclock part y.clock + (y.deadline - s.qclock y.part y.clock)

/-- What one record's move does. -/
structure MoveStep (s : State) (part : Nat) (r : Record) (place : Nat × Nat) (t : State) : Prop where
  free : PlaceFree s part place
  parts : t.parts = s.parts
  moved : ∃ z ∈ t.records, MovedRecord s part place r z
  others : ∀ y ∈ s.records, y.id ≠ r.id → y ∈ t.records
  back : ∀ z ∈ t.records, z.id ≠ r.id → z ∈ s.records
  there : ∀ z ∈ t.records, z.id = r.id → z.part = part ∧ (z.extent, z.slot) = place
  gens : ∀ n, n ≠ place.1 * 64 + place.2 → genAt t part n = genAt s part n
  tasks : ∀ k ∈ t.tasks, (k.kind = .fault r.id → k.part = part) ∧ (k.kind ≠ .fault r.id → k ∈ s.tasks)
  keeps : ∀ k ∈ s.tasks, k.kind ≠ .fault r.id → k ∈ t.tasks
  posted : r.pkind = 1 ∨ r.pkind = 2 → ∃ k ∈ t.tasks, k.kind = .fault r.id ∧ k.part = part ∧ k.queue = r.queue ∧ k.prio = r.prio

/-- A record at its new place. -/
def placedAt (s : State) (part : Nat) (place : Nat × Nat) (r : Record) : Record :=
  { r with part := part, extent := place.1, slot := place.2, gen := ((genAt s part (place.1 * 64 + place.2)).getD 0 + 1) % 64, ord := s.ordinal part,
           deadline := s.qclock part r.clock + (r.deadline - s.qclock r.part r.clock) }

/-- The pool with a record at its new place, before its task is posted again. -/
def moveTo (s : State) (part rid : Nat) (place : Nat × Nat) : State :=
  let t := (s.dropFaultTask rid).updRecord rid (placedAt s part place)
  { t with gens := (t.gens.filter fun g => g.1 != (part, place.1 * 64 + place.2)) ++
      [((part, place.1 * 64 + place.2), ((genAt s part (place.1 * 64 + place.2)).getD 0 + 1) % 64)] }

theorem moveRecord_eq {r : Record} {t : State} (record : s.record? r.id = some r) (moves : s.moveRecord part r.id = some t) :
    ∃ place, PlaceFree s part place ∧ t = (moveTo s part r.id place).postFault r.id := by
  simp only [State.moveRecord, record] at moves
  split at moves
  · cases moves
  next place found =>
    cases moves
    exact ⟨place, placeFor_free (Option.filter_eq_some_iff.1 found).1, rfl⟩

/-- A post changes the flags of its record at most. -/
theorem postFault_records (rid : Nat) : ∃ f : Record → Record, (s.postFault rid).records = s.records.map f ∧
    ∀ y, (y.id ≠ rid → f y = y) ∧ ∃ fl, f y = { y with flags := fl } := by
  have same : ∃ f : Record → Record, s.records = s.records.map f ∧ ∀ y, (y.id ≠ rid → f y = y) ∧ ∃ fl, f y = { y with flags := fl } :=
    ⟨fun y => y, by simp, fun y => ⟨fun _ => rfl, y.flags, rfl⟩⟩
  unfold State.postFault
  split
  · exact same
  · split
    · exact same
    · split
      · refine ⟨fun y => if (y.id == rid) = true then { y with flags := y.flags ||| 8 } else y, rfl, fun y => ?_⟩
        by_cases it : y.id = rid
        · simp [it]
        · simp only [beq_eq_false_iff_ne.2 it, Bool.false_eq_true, if_false, true_and, implies_true]
          exact ⟨y.flags, rfl⟩
      · exact same

theorem postFault_tasks {rid : Nat} {r : Record} (record : s.record? rid = some r) : (s.postFault rid).tasks = s.tasks ∧ ¬(r.pkind = 1 ∨ r.pkind = 2) ∨
    ∃ k, (s.postFault rid).tasks = s.tasks ++ [k] ∧ k.kind = .fault rid ∧ k.part = r.part ∧ k.queue = r.queue ∧ k.prio = r.prio := by
  simp only [State.postFault, record, Bool.or_eq_true, decide_eq_true_eq]
  split
  · exact Or.inr ⟨_, rfl, rfl, rfl, rfl, rfl⟩
  next other =>
    split
    exacts [Or.inl ⟨rfl, other⟩, Or.inl ⟨rfl, other⟩]

theorem postFault_gens (rid : Nat) : (s.postFault rid).gens = s.gens := by
  unfold State.postFault
  repeat' split
  all_goals rfl

theorem postFault_parts (rid : Nat) : (s.postFault rid).parts = s.parts := by
  unfold State.postFault
  repeat' split
  all_goals rfl

theorem moveTo_record? {r : Record} (record : s.record? r.id = some r) (place : Nat × Nat) :
    (moveTo s part r.id place).record? r.id = some (placedAt s part place r) := by
  have ids (y : Record) : (if (y.id == r.id) = true then placedAt s part place y else y).id = y.id := by split <;> rfl
  rw [State.record?] at record
  simp only [State.record?, moveTo, State.updRecord, updWhere, List.find?_map, Function.comp_def, ids]
  rw [show (s.dropFaultTask r.id).records = s.records from rfl, record]
  simp

theorem genAt_moveTo {rid n : Nat} {place : Nat × Nat} (ne : n ≠ place.1 * 64 + place.2) : genAt (moveTo s part rid place) part n = genAt s part n := by
  have key : (part, n) ≠ (part, place.1 * 64 + place.2) := fun same => ne (Prod.ext_iff.1 same).2
  have others (g : (Nat × Nat) × Nat) :
      decide ((g.1 != (part, place.1 * 64 + place.2)) = true ∧ (g.1 == (part, n)) = true) = (g.1 == (part, n)) := by
    by_cases it : g.1 = (part, n)
    · simp [it, ne]
    · simp [it]
  have fresh : ((part, place.1 * 64 + place.2) == (part, n)) = false := beq_eq_false_iff_ne.2 key.symm
  simp only [genAt, moveTo, List.find?_append, List.find?_filter, others, List.find?_cons, fresh, List.find?_nil, Option.or_none]
  rfl

/-- The records after one has moved and been posted. -/
theorem moved_records (rid : Nat) (place : Nat × Nat) : ∃ g : Record → Record, ((moveTo s part rid place).postFault rid).records = s.records.map g ∧
    ∀ y, (y.id ≠ rid → g y = y) ∧ (y.id = rid → ∃ fl, g y = { placedAt s part place y with flags := fl }) := by
  obtain ⟨f, records, keeps⟩ := postFault_records (s := moveTo s part rid place) rid
  refine ⟨fun y => f (if (y.id == rid) = true then placedAt s part place y else y), ?_, fun y => ⟨fun other => ?_, fun same => ?_⟩⟩
  · rw [records, ← Function.comp_def, ← List.map_map]
    rfl
  · simp only [beq_eq_false_iff_ne.2 other, Bool.false_eq_true, if_false]
    exact (keeps y).1 other
  · simp only [same, beq_self_eq_true, if_true]
    exact (keeps _).2

theorem dropFaultTask_tasks {rid : Nat} (k : Task) : k ∈ (s.dropFaultTask rid).tasks ↔ k ∈ s.tasks ∧ k.kind ≠ .fault rid := by
  unfold State.dropFaultTask
  rw [List.mem_filter]
  refine and_congr_right fun _ => ?_
  cases k.kind <;> simp

theorem moveRecord_step {r : Record} {t : State} (record : s.record? r.id = some r) (moves : s.moveRecord part r.id = some t) :
    ∃ place, MoveStep s part r place t := by
  obtain ⟨place, free, rfl⟩ := moveRecord_eq record moves
  have there := moveTo_record? (part := part) record place
  have tasks (k : Task) : k ∈ (moveTo s part r.id place).tasks ↔ k ∈ s.tasks ∧ k.kind ≠ .fault r.id := dropFaultTask_tasks k
  obtain ⟨g, records, keeps⟩ := moved_records (s := s) (part := part) r.id place
  have listed : r ∈ s.records := List.mem_of_find?_eq_some record
  have ids (y : Record) : (g y).id = y.id := by
    by_cases same : y.id = r.id
    · obtain ⟨fl, eq⟩ := (keeps y).2 same
      rw [eq]
      rfl
    · rw [(keeps y).1 same]
  refine ⟨place, free, postFault_parts _, ⟨g r, records ▸ List.mem_map.2 ⟨r, listed, rfl⟩, ?_⟩, fun y hy other => ?_, fun z hz other => ?_, fun z hz same => ?_,
    fun n ne => ?_, ?_, ?_, ?_⟩
  · obtain ⟨fl, eq⟩ := (keeps r).2 rfl
    rw [eq]
    exact ⟨rfl, rfl, rfl, rfl, rfl, rfl, rfl, rfl, rfl⟩
  · rw [records]
    exact List.mem_map.2 ⟨y, hy, (keeps y).1 other⟩
  · rw [records] at hz
    obtain ⟨y, hy, rfl⟩ := List.mem_map.1 hz
    rw [ids] at other
    rwa [(keeps y).1 other]
  · rw [records] at hz
    obtain ⟨y, hy, rfl⟩ := List.mem_map.1 hz
    rw [ids] at same
    obtain ⟨fl, eq⟩ := (keeps y).2 same
    rw [eq]
    exact ⟨rfl, rfl⟩
  · rw [genAt, postFault_gens]
    exact genAt_moveTo ne
  · intro k hk
    obtain ⟨same, -⟩ | ⟨p, posted, kind, here, -⟩ := postFault_tasks there
    · rw [same] at hk
      exact ⟨fun kind => absurd kind ((tasks k).1 hk).2, fun _ => ((tasks k).1 hk).1⟩
    · rw [posted] at hk
      obtain hk | hk := List.mem_append.1 hk
      · exact ⟨fun kind => absurd kind ((tasks k).1 hk).2, fun _ => ((tasks k).1 hk).1⟩
      · rw [List.mem_singleton.1 hk]
        exact ⟨fun _ => here, fun other => absurd kind other⟩
  · intro k hk other
    obtain ⟨same, -⟩ | ⟨p, posted, -⟩ := postFault_tasks there
    · rw [same]
      exact (tasks k).2 ⟨hk, other⟩
    · rw [posted]
      exact List.mem_append_left _ ((tasks k).2 ⟨hk, other⟩)
  · intro kinds
    obtain ⟨-, silent⟩ | ⟨p, posted, its⟩ := postFault_tasks there
    · exact absurd kinds silent
    · exact ⟨p, posted ▸ List.mem_append_right _ (List.mem_singleton_self p), its⟩

/-! ### The records of a team, one after another -/

/-- A record that has arrived in the new pool. -/
structure Arrived (s : State) (part : Nat) (r : Record) (w : State) (z : Record) : Prop where
  mem : z ∈ w.records
  id : z.id = r.id
  inPart : z.part = part
  slot : z.slot < 64
  state : z.state = r.state
  body : z.body = r.body
  ord : z.ord = s.ordinal part
  alone : ∀ y ∈ w.records, y.id ≠ r.id → y.part = part → (y.extent, y.slot) ≠ (z.extent, z.slot)
  gen : z.gen = ((genAt s part (z.extent * 64 + z.slot)).getD 0 + 1) % 64
  deadline : z.deadline = s.qclock part r.clock + (r.deadline - s.qclock r.part r.clock)
  tasks : ∀ k ∈ w.tasks, k.kind = .fault r.id → k.part = part
  posted : r.pkind = 1 ∨ r.pkind = 2 → ∃ k ∈ w.tasks, k.kind = .fault r.id ∧ k.part = part ∧ k.queue = r.queue ∧ k.prio = r.prio

/-- What has come of a move after the records with some numbers. -/
structure Progress (s : State) (part : Nat) (done : List Nat) (w : State) : Prop where
  parts : w.parts = s.parts
  rest : ∀ y ∈ s.records, y.id ∉ done → y ∈ w.records
  back : ∀ y ∈ w.records, y.id ∉ done → y ∈ s.records
  gens : ∀ n, genAt w part n = genAt s part n ∨ ∃ y ∈ w.records, y.id ∈ done ∧ y.part = part ∧ y.slot < 64 ∧ y.extent * 64 + y.slot = n
  arrived : ∀ r ∈ s.records, r.id ∈ done → ∃ z, Arrived s part r w z

theorem Progress.refl : Progress s part [] s := ⟨rfl, fun _ h _ => h, fun _ h _ => h, fun _ => Or.inl rfl, by simp⟩

theorem ordinal_congr {t : State} (parts : t.parts = s.parts) (p : Nat) : t.ordinal p = s.ordinal p := by simp only [State.ordinal, State.part, parts]

theorem qclock_congr {t : State} (parts : t.parts = s.parts) (p q : Nat) : t.qclock p q = s.qclock p q := by simp only [State.qclock, State.part, parts]

section

variable {w t : State} {done : List Nat} {r : Record} {place : Nat × Nat} (progress : Progress s part done w) (step : MoveStep w part r place t)
include progress step

omit progress in
/-- A record that had arrived stays where it is. -/
theorem arrived_stays (new : r.id ∉ done) {y z : Record} (hy : y.id ∈ done) (arrived : Arrived s part y w z) : Arrived s part y t z := by
  have ne : y.id ≠ r.id := fun same => new (same ▸ hy)
  have mem : z ∈ t.records := step.others z arrived.mem (arrived.id.symm ▸ ne)
  refine { arrived with mem := mem, alone := fun x hx other here => ?_, tasks := fun k hk kind => ?_, posted := fun kinds => ?_ }
  · by_cases it : x.id = r.id
    · rw [(step.there x hx it).2]
      exact (step.free.2 z arrived.mem arrived.inPart).symm
    · exact arrived.alone x (step.back x hx it) other here
  · exact arrived.tasks k ((step.tasks k hk).2 (by rw [kind]; simpa using ne)) kind
  · obtain ⟨k, hk, kind, its⟩ := arrived.posted kinds
    exact ⟨k, step.keeps k hk (by rw [kind]; simpa using ne), kind, its⟩

/-- The record that moves arrives. -/
theorem arrives : ∃ z, Arrived s part r t z := by
  obtain ⟨z, mem, moved⟩ := step.moved
  have slot : z.slot < 64 := moved.slot ▸ step.free.1
  refine ⟨z, ⟨mem, moved.id, moved.inPart, slot, moved.state, moved.body, ?_, ?_, ?_, ?_, fun k hk => (step.tasks k hk).1, step.posted⟩⟩
  · rw [moved.ord, ordinal_congr progress.parts]
  · intro y hy other here
    rw [moved.extent, moved.slot]
    exact step.free.2 y (step.back y hy other) here
  · have same : genAt w part (place.1 * 64 + place.2) = genAt s part (place.1 * 64 + place.2) := by
      refine (progress.gens _).resolve_right ?_
      rintro ⟨y, hy, -, here, small, key⟩
      have lt := step.free.1
      exact step.free.2 y hy here (Prod.ext (by dsimp only; omega) (by dsimp only; omega))
    rw [moved.gen, same, moved.extent, moved.slot]
  · rw [moved.deadline, qclock_congr progress.parts, qclock_congr progress.parts]

theorem progress_step (new : r.id ∉ done) (single : ∀ y ∈ s.records, y.id = r.id → y = r) : Progress s part (r.id :: done) t := by
  constructor
  case parts => exact step.parts.trans progress.parts
  case rest =>
    intro y hy out
    obtain ⟨ne, out⟩ := not_or.1 (mt List.mem_cons.2 out)
    exact step.others y (progress.rest y hy out) ne
  case back =>
    intro y hy out
    obtain ⟨ne, out⟩ := not_or.1 (mt List.mem_cons.2 out)
    exact progress.back y (step.back y hy ne) out
  case gens =>
    intro n
    by_cases key : n = place.1 * 64 + place.2
    · obtain ⟨z, mem, moved⟩ := step.moved
      exact Or.inr ⟨z, mem, by simp [moved.id], moved.inPart, moved.slot ▸ step.free.1, by rw [key, moved.extent, moved.slot]⟩
    · rw [step.gens n key]
      refine (progress.gens n).imp_right ?_
      rintro ⟨y, hy, named, its⟩
      exact ⟨y, step.others y hy fun same => new (same ▸ named), List.mem_cons_of_mem _ named, its⟩
  case arrived =>
    intro y hy named
    obtain same | named := List.mem_cons.1 named
    · rw [single y hy same]
      exact arrives progress step
    · obtain ⟨z, arrived⟩ := progress.arrived y hy named
      exact ⟨z, arrived_stays step new named arrived⟩

end

theorem moveRecords_none (l : List Nat) : l.foldl (fun (o : Option State) rid => o.bind fun s => s.moveRecord part rid) none = none := by
  induction l with
  | nil => rfl
  | cons i l ih => exact ih

/-- The records with the numbers of a list move one after another. -/
theorem progress_moves {u : State} (unique : (s.records.map (·.id)).Nodup) {l done : List Nat} (distinct : l.Nodup) (new : ∀ i ∈ l, i ∉ done)
    (known : ∀ i ∈ l, ∃ r ∈ s.records, r.id = i) {w : State} (progress : Progress s part done w)
    (moves : l.foldl (fun (o : Option State) rid => o.bind fun s => s.moveRecord part rid) (some w) = some u) :
    ∃ all, (∀ i ∈ l, i ∈ all) ∧ (∀ i ∈ done, i ∈ all) ∧ Progress s part all u := by
  induction l generalizing done w with
  | nil =>
    cases moves
    exact ⟨done, by simp, fun _ h => h, progress⟩
  | cons i l ih =>
    obtain ⟨out, apart⟩ := List.nodup_cons.1 distinct
    obtain ⟨r, hr, rfl⟩ := known i (by simp)
    have fresh : r.id ∉ done := new _ (by simp)
    have single (y : Record) (hy : y ∈ s.records) (same : y.id = r.id) : y = r := List.inj_on_of_nodup_map unique hy hr same
    have record : w.record? r.id = some r := by
      obtain ⟨y, found⟩ := Option.isSome_iff_exists.1 (List.find?_isSome (p := fun x : Record => x.id == r.id).2 ⟨r, progress.rest r hr fresh, by simp⟩)
      have same : y.id = r.id := by simpa using List.find?_some found
      rw [State.record?, found, single y (progress.back y (List.mem_of_find?_eq_some found) (same ▸ fresh)) same]
    rw [List.foldl_cons, Option.bind_some] at moves
    cases moved : w.moveRecord part r.id with
    | none =>
      rw [moved, moveRecords_none] at moves
      cases moves
    | some w' =>
      rw [moved] at moves
      obtain ⟨place, step⟩ := moveRecord_step record moved
      have unseen : ∀ j ∈ l, j ∉ r.id :: done := fun j hj again =>
        (List.mem_cons.1 again).elim (fun same => out (same ▸ hj)) (new j (List.mem_cons_of_mem _ hj))
      obtain ⟨all, later, before, progress⟩ := ih apart unseen (fun j hj => known j (by simp [hj])) (progress_step progress step fresh single) moves
      exact ⟨all, fun j hj => (List.mem_cons.1 hj).elim (fun same => same ▸ before _ (by simp)) (later j), fun j hj => before j (by simp [hj]), progress⟩

end

/-! ### The move of a team's records (R311) -/

section

variable {s u : State} {t : Team} {part : Nat}

theorem recordMove_moves (team : s.team? t.id = some t) (away : ∃ x, t.phase = .evicted x) (other : t.part ≠ part) (owner : (s.part part).owner = t.vf)
    (still : ∀ r ∈ s.records, r.team ∈ t.pairUp → r.kind ≠ .notice → r.state ≠ .claimed ∧ r.state ≠ .resuming)
    (moves : ((s.records.filter fun r => t.pairUp.contains r.team && r.kind != .notice && r.state != .killed).map (·.id)).foldl
      (fun (o : Option State) rid => o.bind fun s => s.moveRecord part rid) (some s) = some u) :
    ∃ v, exec (.recordMove t.id part) s = .next v ∧ v.teams = u.teams.map (fun x => if t.pairUp.contains x.id then { x with part := part } else x) ∧
      v.mem = u.mem ∧ v.records = u.records ∧ ∀ n, (∀ k ∈ v.tasks, k.kind = .fault n → k ∈ u.tasks) ∧ ∀ k ∈ u.tasks, k.kind = .fault n → k ∈ v.tasks := by
  obtain ⟨x, away⟩ := away
  have free : ((s.records.filter fun r => t.pairUp.contains r.team && r.kind != .notice && r.state != .killed).any
      fun r => r.state == .claimed || r.state == .resuming) = false := by
    refine List.any_eq_false.2 fun r hr => ?_
    obtain ⟨hr, test⟩ := List.mem_filter.1 hr
    simp only [Bool.and_eq_true, List.contains_iff_mem, bne_iff_ne] at test
    obtain ⟨claimed, resuming⟩ := still r hr test.1.1 test.1.2
    simp [claimed, resuming]
  simp only [exec_recordMove, execRecordMove, team, away, other, owner, free, moves]
  rw [if_neg (by simp)]
  refine ⟨_, rfl, rfl, rfl, rfl, fun n => ⟨fun k hk kind => ?_, fun k hk kind => ?_⟩⟩
  · obtain ⟨y, hy, eq⟩ := List.mem_map.1 hk
    split at eq
    next i saved =>
      have same : k.kind = .saved i := by
        rw [← eq, ← saved]
        split <;> rfl
      rw [same] at kind
      cases kind
    next => exact eq ▸ hy
  · refine List.mem_map.2 ⟨k, hk, ?_⟩
    rw [kind]

end

end Sys2Proof.Laws

end

section

/-! LEMMAS and the obligation O49. The items of a moving job together (R259, R311, R348). -/

namespace Sys2Proof.Laws

open Sys2Proof.Machine Sys2Proof.Safety Sys2Proof.Slice0

theorem bankFrom_allBank (pc : Nat) (pages : List Nat) (bs : List Byte) : (bankFrom pc pages bs).allBank = decide (leAt bs 8 1 % 2 = 1) := rfl

theorem bankFrom_x (pc : Nat) (pages : List Nat) (bs : List Byte) {r i : Nat} (hr : r < 16) (hi : i < 256) :
    ((bankFrom pc pages bs).x.getD r []).getD i 0 = BitVec.ofNat 16 (leAt bs (64 + 512 * r + 2 * i) 2) := by
  simp [bankFrom, List.getD_eq_getElem?_getD, hr, hi]

theorem bankFrom_acc (pc : Nat) (pages : List Nat) (bs : List Byte) {r i : Nat} (hr : r < 16) (hi : i < 64) :
    ((bankFrom pc pages bs).acc.getD r []).getD i 0 = BitVec.ofNat 32 (leAt bs (64 + 8192 + 256 * r + 4 * i) 4) := by
  simp [bankFrom, List.getD_eq_getElem?_getD, hr, hi]

/-- Every record of a team that moves has arrived, and its task waits in the new partition alone. -/
theorem recordMove_arrives {s u : State} {t : Team} {part : Nat} (unique : (s.records.map (·.id)).Nodup)
    (moves : ((s.records.filter fun r => t.pairUp.contains r.team && r.kind != .notice && r.state != .killed).map (·.id)).foldl
      (fun (o : Option State) rid => o.bind fun s => s.moveRecord part rid) (some s) = some u)
    {r : Record} (hr : r ∈ s.records) (mine : r.team ∈ t.pairUp) (kind : r.kind ≠ .notice) (alive : r.state ≠ .killed) : ∃ z, Arrived s part r u z := by
  have known : ∀ i ∈ (s.records.filter fun r => t.pairUp.contains r.team && r.kind != .notice && r.state != .killed).map (·.id), ∃ r ∈ s.records, r.id = i := by
    intro i hi
    obtain ⟨y, hy, rfl⟩ := List.mem_map.1 hi
    exact ⟨y, (List.mem_filter.1 hy).1, rfl⟩
  have distinct := unique.sublist (List.Sublist.map (fun r : Record => r.id) (List.filter_sublist (l := s.records)
    (p := fun r => t.pairUp.contains r.team && r.kind != .notice && r.state != .killed)))
  obtain ⟨all, moved, -, progress⟩ := progress_moves unique distinct (fun _ _ => List.not_mem_nil) known Progress.refl moves
  exact progress.arrived r hr (moved r.id (List.mem_map.2 ⟨r, List.mem_filter.2 ⟨hr, by simp [mine, kind, alive]⟩, rfl⟩))

theorem moveEvents : MoveEvents := by
  intro s u t part area page pc at_ sound
  refine ⟨fun ⟨errors, softs⟩ => saveBank_of_sound area errors softs, saveBank_ends area, ?_,
    fun block => ⟨fun applied => ⟨fun ⟨errors, softs⟩ => ?_, fun i hi error => ?_⟩, ?_⟩, fun team away other owner still moves => ?_⟩
  · obtain ⟨v, eq, mem, pages, bank⟩ := restoreBank_restores (s := s) page area
    refine ⟨v, eq, fun plain _ => mem plain, ?_, fun r hr i hi => ?_, fun r hr i hi => ?_⟩ <;> rw [bank]
    · exact bankFrom_allBank _ _ _
    · exact bankFrom_x _ _ _ hr hi
    · exact bankFrom_acc _ _ _ hr hi
  · exact saveCells_of_sound block applied errors softs
  · exact saveCells_poisons block applied hi error
  · exact restoreCells_restores page area block
  · obtain ⟨v, eq, teams, mem, records, tasks⟩ := recordMove_moves team away other owner still moves
    refine ⟨v, eq, fun x hx named => ?_, mem.trans (moveRecords_mem s part _ u moves), fun unique _ r hr mine kind alive => ?_⟩
    · rw [teams] at hx
      obtain ⟨y, -, rfl⟩ := List.mem_map.1 hx
      by_cases it : t.pairUp.contains y.id = true
      · rw [if_pos it]
      · rw [if_neg it] at named
        exact absurd (List.contains_iff_mem.2 named) it
    · obtain ⟨z, arrived⟩ := recordMove_arrives unique moves hr mine kind alive
      refine ⟨z, records ▸ arrived.mem, arrived.id, arrived.inPart, arrived.state, arrived.body, arrived.ord, records ▸ arrived.alone, arrived.gen, arrived.deadline,
        fun k hk its => arrived.tasks k ((tasks r.id).1 k hk its) its, fun kinds => ?_⟩
      obtain ⟨k, hk, its, rest⟩ := arrived.posted kinds
      exact ⟨k, (tasks r.id).2 k hk its, its, rest⟩

/-- Settles O49: dispatch, eviction and moves, each event from the equation of its transition and the invariant of the records that move. -/
theorem schedulingEvents : Obligations.SchedulingEvents := ⟨dispatchEvents, evictionEvents, moveEvents⟩

end Sys2Proof.Laws

end

section

/-! LEMMAS for O48. Launch records that are malformed (R248, Table 83). -/

namespace Sys2Proof.Laws

open Sys2Proof.Machine Sys2Proof.Safety Sys2Proof.Slice0

/-! ### Bytes of a record -/

theorem leAt_one (b : List Byte) (k : Nat) : leAt b k 1 = (b.getD k 0).toNat := by
  have head : b.getD k 0 = (b.drop k).headD 0 := by simp [List.getD_eq_getElem?_getD, List.headD_eq_head?_getD]
  rw [head, leAt]
  cases b.drop k with
  | nil => rfl
  | cons x bs => simp [leNat]

/-- A byte of a range is not zero. -/
theorem any_nonzero (b : List Byte) (lo n : Nat) : ((b.drop lo).take n).any (· ≠ 0) = true ↔ ∃ k, lo ≤ k ∧ k < lo + n ∧ leAt b k 1 ≠ 0 := by
  have byte (k : Nat) : leAt b k 1 ≠ 0 ↔ ∃ x, b[k]? = some x ∧ x ≠ 0 := by
    rw [leAt_one, List.getD_eq_getElem?_getD]
    cases b[k]? with
    | none => simp
    | some x =>
      have zero : x.toNat ≠ 0 ↔ x ≠ 0 := not_congr (BitVec.toNat_inj (y := 0#8))
      simp [zero]
  simp only [List.any_eq_true, decide_eq_true_eq, byte, List.mem_iff_getElem?, List.getElem?_take, List.getElem?_drop]
  constructor
  · rintro ⟨x, ⟨i, at_⟩, nonzero⟩
    split at at_
    next lt => exact ⟨lo + i, by omega, by omega, x, at_, nonzero⟩
    next => cases at_
  · rintro ⟨k, above, below, x, at_, nonzero⟩
    refine ⟨x, ⟨k - lo, ?_⟩, nonzero⟩
    rw [if_pos (by omega), show lo + (k - lo) = k by omega, at_]

/-! ### Regions -/

section

variable {r : Region}

theorem regionBad_iff : regionBad r = true ↔ (3 < r.dir ∨ r.spad % 64 ≠ 0 ∨ 2 ^ 22 ≤ r.spad) ∨
    r.dir ≠ 0 ∧ (r.size % 64 ≠ 0 ∨ r.size < 64 ∨ 0x200000 < r.spad + r.size) := by
  simp only [regionBad, Bool.or_eq_true, Bool.and_eq_true, decide_eq_true_eq, ne_eq, decide_not, Bool.not_eq_true', decide_eq_false_iff_not]
  omega

/-- Two used regions overlap. -/
def Overlaps (r q : Region) : Prop := r.dir ≠ 0 ∧ q.dir ≠ 0 ∧ r.spad < q.spad + q.size ∧ q.spad < r.spad + r.size

theorem regionsOverlap_iff (rs : List Region) : regionsOverlap rs = true ↔ ¬ rs.Pairwise fun r q => ¬ Overlaps r q := by
  induction rs with
  | nil => simp [regionsOverlap]
  | cons r rs ih =>
    rw [regionsOverlap, Bool.or_eq_true, ih, List.pairwise_cons, not_and_or]
    refine or_congr ?_ Iff.rfl
    simp [Overlaps, overlap, and_assoc]

theorem overlaps_symm {r q : Region} (h : Overlaps r q) : Overlaps q r := ⟨h.2.1, h.1, h.2.2.2, h.2.2.1⟩

theorem regionsOverlap_map_range (f : Nat → Region) (n : Nat) :
    regionsOverlap ((List.range n).map f) = true ↔ ∃ i j, i < n ∧ j < n ∧ i ≠ j ∧ Overlaps (f i) (f j) := by
  rw [regionsOverlap_iff, List.pairwise_map, List.pairwise_iff_getElem]
  simp only [List.length_range, List.getElem_range, not_forall, not_not]
  constructor
  · rintro ⟨i, j, hi, hj, lt, meet⟩
    exact ⟨i, j, hi, hj, lt.ne, meet⟩
  · rintro ⟨i, j, hi, hj, ne, meet⟩
    obtain lt | lt := Nat.lt_or_gt_of_ne ne
    · exact ⟨i, j, hi, hj, lt, meet⟩
    · exact ⟨j, i, hj, hi, lt, overlaps_symm meet⟩

theorem le_foldl_top (rs : List Region) (m : Nat) : m ≤ rs.foldl (fun m r => if r.dir = 0 then m else max m (r.spad + r.size)) m := by
  induction rs generalizing m with
  | nil => exact le_rfl
  | cons q rs ih =>
    refine le_trans ?_ (ih _)
    dsimp only
    split
    exacts [le_rfl, le_max_left _ _]

/-- The least V covers every used region. -/
theorem le_viewFor {rs : List Region} (hr : r ∈ rs) (used : r.dir ≠ 0) : r.spad + r.size ≤ viewFor rs := by
  have top (m : Nat) : r.spad + r.size ≤ rs.foldl (fun m r => if r.dir = 0 then m else max m (r.spad + r.size)) m := by
    induction rs generalizing m with
    | nil => cases hr
    | cons q rs ih =>
      obtain rfl | later := List.mem_cons.1 hr
      · rw [List.foldl_cons, if_neg used]
        exact (le_max_right _ _).trans (le_foldl_top rs _)
      · exact ih later _
  have least := top 0
  unfold viewFor
  dsimp only
  omega

end

/-! ### The record -/

/-- A field of a launch record outside its regions breaks Table 83. -/
def fieldsBroken (b : List Byte) : Prop :=
  2 ^ 57 ≤ leAt b 0 8 ∨ leAt b 0 8 % 4 ≠ 0 ∨ leAt b 8 1 ∉ [16, 32, 64] ∨ leAt b 9 1 = 0 ∨ 120 < leAt b 9 1 ∨ leAt b 10 1 = 0 ∨ 16 < leAt b 10 1 ∨
    leAt b 11 1 = 0 ∨ 8 < leAt b 11 1 ∨ 6144 < leAt b 16 2 ∨ 15 < leAt b 18 1 ∨ 2 < leAt b 19 1 ∨ 262144 < leAt b 20 4 ∨ leAt b 20 4 % 256 ≠ 0 ∨
    1835008 < leAt b 24 4 ∨ leAt b 24 4 % 65536 ≠ 0 ∨ 1 < leAt b 28 1 ∨ leAt b 29 3 ≠ 0

/-- A used region ends above V or above 0x1C_0000. -/
def Overhangs (b : List Byte) (r : Region) : Prop :=
  r.dir ≠ 0 ∧ (0x1C0000 < r.spad + r.size ∨ leAt b 24 4 ≠ 0 ∧ leAt b 24 4 < r.spad + r.size)

theorem overhangs_iff (b : List Byte) {r : Region} (hr : r ∈ (launchRecOf b).regions) :
    (r.dir ≠ 0 ∧ min (launchRecOf b).view 1835008 < r.spad + r.size) ↔ Overhangs b r := by
  have view : (launchRecOf b).view = if leAt b 24 4 = 0 then viewFor (launchRecOf b).regions else leAt b 24 4 := rfl
  unfold Overhangs
  refine and_congr_right fun used => ?_
  have least := le_viewFor hr used
  rw [view]
  split <;> omega

theorem recordMalformed_iff_parts (b : List Byte) : recordMalformed b = true ↔ fieldsBroken b ∨ (∃ k, 80 ≤ k ∧ k < 80 + 48 ∧ leAt b k 1 ≠ 0) ∨
    (∃ r ∈ (launchRecOf b).regions, regionBad r = true) ∨ regionsOverlap (launchRecOf b).regions = true ∨ ∃ r ∈ (launchRecOf b).regions, Overhangs b r := by
  have ends : ((launchRecOf b).regions.any fun g => g.dir ≠ 0 && decide (g.spad + g.size > min (launchRecOf b).view 1835008)) = true ↔
      ∃ r ∈ (launchRecOf b).regions, Overhangs b r := by
    simp only [List.any_eq_true, Bool.and_eq_true, decide_eq_true_eq]
    exact exists_congr fun r => and_congr_right fun hr => overhangs_iff b hr
  rw [← any_nonzero, ← ends, ← List.any_eq_true]
  unfold recordMalformed
  dsimp only
  rw [Bool.or_eq_true, Bool.or_eq_true, Bool.or_eq_true, Bool.or_eq_true]
  simp only [or_assoc]
  refine or_congr ?_ Iff.rfl
  simp only [fieldsBroken, Bool.or_eq_true, decide_eq_true_eq, beq_iff_eq, Bool.not_eq_true', Bool.or_eq_false_iff, beq_eq_false_iff_ne,
    List.mem_cons, List.not_mem_nil, or_false]
  simp only [launchRecOf]
  omega

/-- The fields of region i of a record. -/
theorem exists_regionBad (b : List Byte) : (∃ i < 8, regionBad (regionAt b i) = true) ↔
    (∃ i < 8, 3 < leAt b (128 + 24 * i + 19) 1 ∨ leAt b (128 + 24 * i + 16) 3 % 64 ≠ 0 ∨ 2 ^ 22 ≤ leAt b (128 + 24 * i + 16) 3) ∨
    ∃ i, (i < 8 ∧ leAt b (128 + 24 * i + 19) 1 ≠ 0) ∧ (leAt b (128 + 24 * i + 20) 4 % 64 ≠ 0 ∨ leAt b (128 + 24 * i + 20) 4 < 64 ∨
      0x200000 < leAt b (128 + 24 * i + 16) 3 + leAt b (128 + 24 * i + 20) 4) := by
  simp only [regionBad_iff, and_assoc]
  rw [← exists_or]
  exact exists_congr fun i => and_or_left

theorem exists_overlaps (b : List Byte) : (∃ i j, i < 8 ∧ j < 8 ∧ i ≠ j ∧ Overlaps (regionAt b i) (regionAt b j)) ↔
    ∃ i j, (i < 8 ∧ leAt b (128 + 24 * i + 19) 1 ≠ 0) ∧ (j < 8 ∧ leAt b (128 + 24 * j + 19) 1 ≠ 0) ∧ i ≠ j ∧
      leAt b (128 + 24 * i + 16) 3 < leAt b (128 + 24 * j + 16) 3 + leAt b (128 + 24 * j + 20) 4 ∧
      leAt b (128 + 24 * j + 16) 3 < leAt b (128 + 24 * i + 16) 3 + leAt b (128 + 24 * i + 20) 4 := by
  refine exists_congr fun i => exists_congr fun j => ?_
  constructor
  · rintro ⟨hi, hj, ne, usedI, usedJ, below, above⟩
    exact ⟨⟨hi, usedI⟩, ⟨hj, usedJ⟩, ne, below, above⟩
  · rintro ⟨⟨hi, usedI⟩, ⟨hj, usedJ⟩, ne, below, above⟩
    exact ⟨hi, hj, ne, usedI, usedJ, below, above⟩

theorem exists_overhangs (b : List Byte) : (∃ i < 8, Overhangs b (regionAt b i)) ↔
    ∃ i, (i < 8 ∧ leAt b (128 + 24 * i + 19) 1 ≠ 0) ∧ (0x1C0000 < leAt b (128 + 24 * i + 16) 3 + leAt b (128 + 24 * i + 20) 4 ∨
      leAt b 24 4 ≠ 0 ∧ leAt b 24 4 < leAt b (128 + 24 * i + 16) 3 + leAt b (128 + 24 * i + 20) 4) :=
  exists_congr fun _ => and_assoc.symm

theorem recordBroken_iff_parts (b : List Byte) : recordBroken b ↔ fieldsBroken b ∨ (∃ k, 80 ≤ k ∧ k < 80 + 48 ∧ leAt b k 1 ≠ 0) ∨
    (∃ r ∈ (launchRecOf b).regions, regionBad r = true) ∨ regionsOverlap (launchRecOf b).regions = true ∨ ∃ r ∈ (launchRecOf b).regions, Overhangs b r := by
  have regions (P : Region → Prop) : (∃ r ∈ (launchRecOf b).regions, P r) ↔ ∃ i < 8, P (regionAt b i) := by
    simp [launchRecOf]
  have pairs : regionsOverlap (launchRecOf b).regions = true ↔ ∃ i j, i < 8 ∧ j < 8 ∧ i ≠ j ∧ Overlaps (regionAt b i) (regionAt b j) :=
    regionsOverlap_map_range (regionAt b) 8
  rw [regions, regions, pairs, exists_regionBad, exists_overlaps, exists_overhangs]
  unfold recordBroken fieldsBroken
  simp only [or_assoc, Nat.reduceAdd]

/-- A record is malformed exactly where R248 says so. -/
theorem recordMalformed_iff (b : List Byte) : recordMalformed b = true ↔ recordBroken b := (recordMalformed_iff_parts b).trans (recordBroken_iff_parts b).symm

end Sys2Proof.Laws

end

section

/-! LEMMAS for O48. Commands that start, launches and prologues (R243, R245-R248). -/

namespace Sys2Proof.Laws

open Sys2Proof.Machine Sys2Proof.Safety Sys2Proof.Slice0

section

variable {s : State} {c : Cmd} {l : Launch}

/-! ### A command that may start -/

/-- The command waits, may start, and its slot is well formed and of kind k. -/
def MayRun (s : State) (c : Cmd) (k : Nat) : Prop :=
  s.cmd? c.vf c.ring c.seq = some c ∧ c.phase = .waiting ∧ s.mayStart c = true ∧ slotMalformed c.bytes = false ∧ leAt c.bytes 0 1 = k

theorem startCmd_of_mayRun {k : Nat} (run : MayRun s c k) (f : Cmd → State) : s.startCmd c.vf c.ring c.seq k f = f c := by
  obtain ⟨found, waiting, may, sound, kind⟩ := run
  have phase : (c.phase != .waiting) = false := by rw [waiting]; rfl
  simp [State.startCmd, found, phase, may, sound, kind]

theorem nopCommand_finishes (run : MayRun s c 0) : exec (.nopCommand c.vf c.ring c.seq) s = .next (s.finishCmd c 0 0).wakeRetry :=
  congrArg Host.Outcome.next (startCmd_of_mayRun run _)

theorem barrier_finishes (run : MayRun s c 2) (first : s.earlierCmds c = []) :
    exec (.barrier c.vf c.ring c.seq) s = .next (s.finishCmd c 0 0).wakeRetry := by
  have step := startCmd_of_mayRun run fun c => if (s.earlierCmds c).isEmpty then (s.finishCmd c 0 0).wakeRetry else s
  exact congrArg Host.Outcome.next (step.trans (by simp [first]))

/-! ### Launches by their id -/

theorem launch?_updLaunch (found : s.launch? l.id = some l) {f : Launch → Launch} (ids : ∀ x, (f x).id = x.id) :
    (s.updLaunch l.id f).launch? l.id = some (f l) := by
  have same : ((fun x : Launch => x.id == l.id) ∘ fun x => if x.id == l.id then f x else x) = fun x => x.id == l.id := by
    funext x
    by_cases it : x.id = l.id <;> simp [it, ids]
  have first : s.launches.find? (fun x => x.id == l.id) = some l := found
  rw [State.launch?, State.updLaunch, updWhere, List.find?_map, same, first]
  simp

theorem launch?_append {t : State} {n : Nat} (new : t.launch? l.id = none) :
    ({ t with launches := t.launches ++ [l], nextId := n } : State).launch? l.id = some l := by
  have none : t.launches.find? (fun x => x.id == l.id) = none := new
  simp [State.launch?, List.find?_append, none]

theorem updLaunch_updLaunch {id : Nat} {f g : Launch → Launch} (ids : ∀ x, (f x).id = x.id) :
    (s.updLaunch id f).updLaunch id g = s.updLaunch id fun x => g (f x) := by
  have merged : updWhere (updWhere s.launches (fun x => x.id == id) f) (fun x => x.id == id) g = updWhere s.launches (fun x => x.id == id) fun x => g (f x) := by
    simp only [updWhere, List.map_map, List.map_inj_left, Function.comp_apply]
    intro x _
    by_cases it : x.id = id <;> simp [it, ids]
  exact congrArg (fun launches => ({ s with launches := launches } : State)) merged

/-! ### Teams that wait in their queue (R253) -/

/-- The task of team k of a launch. -/
def teamTask (l : Launch) (r : LaunchRec) (k : Nat) : Task :=
  { mkTask l.part l.queue r.prio (.team l.id k) with aff := if r.aff = 0 then none else some (unsignedOf 64 ((r.aff : Int) + (k : Int) * r.affs)) }

/-- The launch holds its record and policy, and the teams of its record are enqueued. -/
def entered (s : State) (l : Launch) (r : LaunchRec) (p : Option Policy) (consumed : Nat) : State :=
  (List.range r.teams).foldl (fun (s : State) (k : Nat) => s.enqueue (teamTask l r k) false)
    (s.updLaunch l.id fun l => { l with rcd := r, policy := p, deadline := if r.deadline = 0 then none else some (consumed + r.deadline.toNat), left := r.teams })

theorem enqueueAll_eq (f : Nat → Task) (n : Nat) : (List.range n).foldl (fun (s : State) (k : Nat) => s.enqueue (f k) false) s =
    { s with
      tasks := s.tasks ++ (List.range n).map fun k => { f k with id := s.nextId + k, order := ((s.nextId + k : Nat) : Int) }
      nextId := s.nextId + n } := by
  induction n with
  | zero => simp
  | succ n ih =>
    rw [List.range_succ, List.foldl_append, ih]
    simp [State.enqueue, Nat.add_assoc]

theorem entered_eq (r : LaunchRec) (p : Option Policy) (consumed : Nat) : entered s l r p consumed =
    { (s.updLaunch l.id fun l => { l with
        rcd := r, policy := p, deadline := if r.deadline = 0 then none else some (consumed + r.deadline.toNat), left := r.teams }) with
      tasks := s.tasks ++ (List.range r.teams).map fun k => { teamTask l r k with id := s.nextId + k, order := ((s.nextId + k : Nat) : Int) }
      nextId := s.nextId + r.teams } := enqueueAll_eq (teamTask l r) r.teams

theorem entered_mem (r : LaunchRec) (p : Option Policy) (consumed : Nat) : (entered s l r p consumed).mem = s.mem := by
  rw [entered_eq]; rfl

theorem entered_cmds (r : LaunchRec) (p : Option Policy) (consumed : Nat) : (entered s l r p consumed).cmds = s.cmds := by
  rw [entered_eq]; rfl

theorem entered_launch? (found : s.launch? l.id = some l) (r : LaunchRec) (p : Option Policy) (consumed : Nat) : (entered s l r p consumed).launch? l.id =
    some { l with rcd := r, policy := p, left := r.teams, deadline := if r.deadline = 0 then none else some (consumed + r.deadline.toNat) } := by
  rw [entered_eq]
  exact launch?_updLaunch found fun _ => rfl

theorem entered_tasks (r : LaunchRec) (p : Option Policy) (consumed : Nat) {k : Nat} (hk : k < r.teams) :
    { teamTask l r k with id := s.nextId + k, order := ((s.nextId + k : Nat) : Int) } ∈ (entered s l r p consumed).tasks := by
  rw [entered_eq]
  exact List.mem_append_right _ (List.mem_map.2 ⟨k, List.mem_range.2 hk, rfl⟩)

/-! ### A record is launched (R248) -/

/-- Where the conditions of R248 on the record's fields and policy hold, its placing decides. -/
def placed (s : State) (l : Launch) (r : LaunchRec) (p : Option Policy) (consumed : Nat) : State :=
  if !r.placeable l.part then s.updLaunch l.id (concluded 4 0) else entered s l r p consumed

variable {x : State} {b : List Byte} {consumed : Nat}

theorem enterLaunch_malformed (found : x.launch? l.id = some l) (broken : recordBroken b) :
    x.enterLaunch l.id consumed b = some (x.updLaunch l.id (concluded 3 0)) := by
  simp only [State.enterLaunch, found, (recordMalformed_iff b).2 broken, if_true]
  rfl

section

variable (found : x.launch? l.id = some l) (sound : ¬recordBroken b)
include found sound

theorem enterLaunch_refused (cap : min 2 ((x.vf l.vf).hpol.toNat / 64 % 4) < (launchRecOf b).grade) :
    x.enterLaunch l.id consumed b = some (x.updLaunch l.id (concluded 5 0)) := by
  have well : recordMalformed b = false := Bool.eq_false_iff.2 ((recordMalformed_iff b).not.2 sound)
  have refused : (launchRecOf b).grade > x.gradeCap l.vf := cap
  simp only [State.enterLaunch, found, well, refused, Bool.false_eq_true, if_false, if_true]
  rfl

variable (cap : (launchRecOf b).grade ≤ min 2 ((x.vf l.vf).hpol.toNat / 64 % 4))
include cap

theorem enterLaunch_free (free : (launchRecOf b).fpolicy = 0) : x.enterLaunch l.id consumed b = some (placed x l (launchRecOf b) none consumed) := by
  have well : recordMalformed b = false := Bool.eq_false_iff.2 ((recordMalformed_iff b).not.2 sound)
  have granted : ¬(launchRecOf b).grade > x.gradeCap l.vf := Nat.not_lt.2 cap
  simp only [State.enterLaunch, found, well, granted, free, Bool.false_eq_true, if_false, if_true]
  rfl

variable (bound : (launchRecOf b).fpolicy ≠ 0) {u : State}
include bound

theorem enterLaunch_lost {cause : Nat} (lost : x.fetchBytes l.vf l.asid (launchRecOf b).fpolicy 2112 = (u, .fail cause)) :
    x.enterLaunch l.id consumed b = some (u.updLaunch l.id (concluded 8 cause)) := by
  have well : recordMalformed b = false := Bool.eq_false_iff.2 ((recordMalformed_iff b).not.2 sound)
  have granted : ¬(launchRecOf b).grade > x.gradeCap l.vf := Nat.not_lt.2 cap
  simp only [State.enterLaunch, found, well, granted, bound, lost, Bool.false_eq_true, if_false]
  rfl

variable {pb : List Byte} (fetched : x.fetchBytes l.vf l.asid (launchRecOf b).fpolicy 2112 = (u, .ok pb))
include fetched

theorem enterLaunch_badPolicy (bad : policyMalformed (launchRecOf b).fpolicy pb = true) :
    x.enterLaunch l.id consumed b = some (u.updLaunch l.id (concluded 3 0)) := by
  have well : recordMalformed b = false := Bool.eq_false_iff.2 ((recordMalformed_iff b).not.2 sound)
  have granted : ¬(launchRecOf b).grade > x.gradeCap l.vf := Nat.not_lt.2 cap
  simp only [State.enterLaunch, found, well, granted, bound, fetched, bad, Bool.false_eq_true, if_false, if_true]
  rfl

theorem enterLaunch_policy (good : policyMalformed (launchRecOf b).fpolicy pb = false) :
    x.enterLaunch l.id consumed b = some (placed u l (launchRecOf b) (some (policyOf pb)) consumed) := by
  have well : recordMalformed b = false := Bool.eq_false_iff.2 ((recordMalformed_iff b).not.2 sound)
  have granted : ¬(launchRecOf b).grade > x.gradeCap l.vf := Nat.not_lt.2 cap
  simp only [State.enterLaunch, found, well, granted, bound, fetched, good, Bool.false_eq_true, if_false]
  rfl

end

theorem placed_unplaceable {r : LaunchRec} (nowhere : r.placeable l.part = false) (p : Option Policy) : placed s l r p consumed = s.updLaunch l.id (concluded 4 0) := by
  rw [placed, nowhere]; rfl

theorem placed_placeable {r : LaunchRec} (somewhere : r.placeable l.part = true) (p : Option Policy) : placed s l r p consumed = entered s l r p consumed := by
  rw [placed, somewhere]; rfl

/-- A step that launches a record does what R248 says. -/
theorem enters {i : Instr} (step : ∀ u, x.enterLaunch l.id consumed b = some u → exec i s = .next u.wakeRetry) : Enters i s x l consumed b := by
  unfold Enters
  extract_lets r ends runs
  intro found
  have run {u : State} {p : Option Policy} (launch : u.launch? l.id = some l) (eq : x.enterLaunch l.id consumed b = some (placed u l r p consumed)) : runs u p := by
    refine ⟨fun nowhere => ?_, fun somewhere => ?_⟩
    · rw [placed_unplaceable nowhere] at eq
      exact step _ eq
    · rw [placed_placeable somewhere] at eq
      refine ⟨_, step _ eq, entered_mem r p consumed, entered_cmds r p consumed, entered_launch? launch r p consumed, fun k hk => ?_⟩
      exact ⟨_, entered_tasks r p consumed hk, rfl, rfl, rfl, rfl, rfl, rfl⟩
  refine ⟨fun broken => step _ (enterLaunch_malformed found broken), fun sound cap => step _ (enterLaunch_refused found sound cap), fun sound cap => ⟨fun free => ?_,
    fun bound u => ⟨fun cause lost => step _ (enterLaunch_lost found sound cap bound lost), fun pb fetched launch => ⟨fun bad => ?_, fun good => ?_⟩⟩⟩⟩
  · exact run found (enterLaunch_free found sound cap free)
  · exact step _ (enterLaunch_badPolicy found sound cap bound fetched bad)
  · exact run launch (enterLaunch_policy found sound cap bound fetched good)

/-! ### A prologue starts (R245) -/

section

variable (found : x.launch? l.id = some l) (head : List Byte) {u : State}
include found

theorem startPrologue_lost {cause : Nat} (lost : x.stageRanges l.vf l.asid c.bytes = (u, .fail cause)) :
    x.startPrologue l.id c head = some (u.updLaunch l.id (concluded 8 cause)) := by
  simp only [State.startPrologue, found, lost]
  rfl

variable {rs : List Byte} (staged : x.stageRanges l.vf l.asid c.bytes = (u, .ok rs))
include staged

/-- The state in which the host is asked to run the prologue. -/
def assisted (u : State) (l : Launch) (head : List Byte) : State :=
  { (u.updLaunch l.id fun l => { l with area := head }) with assist := u.assist ++ [.prologue l.id] }

/-- The wave of the prologue of a launch. -/
def waveFor (u : State) (l : Launch) (c : Cmd) (area : List Byte) : Wave := prologueWave u.nextId l.id l.asid (BitVec.ofNat 57 (leAt c.bytes 16 8)) area

theorem startPrologue_assisted (assist : (u.part l.part).fwm.getLsbD 1 = true) : x.startPrologue l.id c head = some (assisted u l head) := by
  simp only [State.startPrologue, found, staged, assist, if_true]
  rfl

theorem startPrologue_runs (hardware : (u.part l.part).fwm.getLsbD 1 = false) : x.startPrologue l.id c head =
    some { u with waves := u.waves ++ [waveFor u l c (head ++ rs ++ zeros (4096 - 0x400 - rs.length))], nextId := u.nextId + 1 } := by
  simp only [State.startPrologue, found, staged, hardware, Bool.false_eq_true, if_false]
  rfl

end

theorem startsPrologue {i : Instr} {head : List Byte} (step : ∀ u, x.startPrologue l.id c head = some u → exec i s = .next u.wakeRetry) :
    StartsPrologue i s x l c head := by
  intro u found
  refine ⟨fun cause lost => step _ (startPrologue_lost found head lost), fun rs staged => ⟨fun assist => ?_, fun hardware => ?_⟩⟩
  · refine ⟨_, step _ (startPrologue_assisted found head staged assist), List.mem_append_right _ (List.mem_singleton_self _), ?_⟩
    exact List.length_map _
  · refine ⟨_, step _ (startPrologue_runs found head staged hardware), waveFor u l c (head ++ rs ++ zeros (4096 - 0x400 - rs.length)), ?_,
      rfl, rfl, rfl, rfl, rfl, rfl, rfl, ⟨_, rfl, rfl, rfl, rfl, rfl⟩, _, rfl, rfl, rfl, rfl, rfl⟩
    rw [State.wakeRetry_waves]
    exact List.mem_map.2 ⟨waveFor u l c _, List.mem_append_right _ (List.mem_singleton_self _), rfl⟩

/-! ### A launch is fetched (R245) -/

/-- The launch of a command whose record has been fetched in `t`. -/
def freshLaunch (s t : State) (c : Cmd) (b : List Byte) (p q : Nat) : Launch :=
  { id := t.nextId, vf := c.vf, ring := c.ring, seq := c.seq, asid := (s.ring c.vf c.ring).asid.getD 0, part := p, queue := q, rcd := launchRecOf b,
    policy := none, deadline := none, left := 0, deadTeams := 0, status := none, flags := 0, ticks := 0, repeats := 0, again := false, handler := none,
    sup := false, cause := 0, area := [] }

/-- That launch is there, and its command runs it. -/
def openLaunch (t : State) (c : Cmd) (l : Launch) : State :=
  ({ t with launches := t.launches ++ [l], nextId := t.nextId + 1 } : State).setCmd { c with phase := .running t.nextId }

theorem openLaunch_launch? {t : State} (new : t.launch? l.id = none) : (openLaunch t c l).launch? l.id = some l := launch?_append (n := t.nextId + 1) new

section

variable {t : State} {p q : Nat} {b : List Byte} (run : MayRun s c 1) (queue : s.ringQueue c.vf c.ring = some (p, q))
include run queue

theorem launch_lost {cause : Nat} (lost : s.fetchBytes c.vf ((s.ring c.vf c.ring).asid.getD 0) (leAt c.bytes 8 8) 320 = (t, .fail cause)) :
    exec (.launch c.vf c.ring c.seq) s = .next (t.finishCmd c 8 cause).wakeRetry := by
  refine congrArg Host.Outcome.next ((startCmd_of_mayRun run _).trans ?_)
  simp only [queue, lost]

variable (fetched : s.fetchBytes c.vf ((s.ring c.vf c.ring).asid.getD 0) (leAt c.bytes 8 8) 320 = (t, .ok b))
include fetched

theorem launch_enters (direct : leAt c.bytes 16 8 = 0) {u : State}
    (enter : (openLaunch t c (freshLaunch s t c b p q)).enterLaunch t.nextId c.consumed b = some u) :
    exec (.launch c.vf c.ring c.seq) s = .next u.wakeRetry := by
  refine congrArg Host.Outcome.next ((startCmd_of_mayRun run _).trans ?_)
  unfold openLaunch freshLaunch at enter
  simp only [queue, fetched, direct, if_true, enter]

theorem launch_startsPrologue (prologue : leAt c.bytes 16 8 ≠ 0) {u : State}
    (start : (openLaunch t c (freshLaunch s t c b p q)).startPrologue t.nextId c (b ++ List.replicate 704 0) = some u) :
    exec (.launch c.vf c.ring c.seq) s = .next u.wakeRetry := by
  refine congrArg Host.Outcome.next ((startCmd_of_mayRun run _).trans ?_)
  unfold openLaunch freshLaunch at start
  have area : zeros (0x400 - 320) = List.replicate 704 0 := rfl
  simp only [queue, fetched, prologue, if_false, area, start]

end

/-! ### A prologue ends (R246) -/

/-- The wave runs the prologue of a launch, and it has ended. -/
def endedPrologue (id : Nat) (w : Wave) : Bool :=
  match w.prologue with
  | some p => p.launch == id && p.ended.isSome
  | none => false

/-- The wave of a launch's prologue has ended with e, and no handler's group is running. -/
structure Ended (s : State) (l : Launch) (w : Wave) (pr : Prologue) (e : Nat) : Prop where
  grp : s.grp = none
  wave : s.waves.find? (endedPrologue l.id) = some w
  prologue : w.prologue = some pr
  ended : pr.ended = some e
  launch : s.launch? l.id = some l

/-- The state without that wave. -/
def withoutWave (s : State) (w : Wave) : State := { s with waves := s.waves.filter fun y => y.wid != w.wid }

/-- What a launch keeps of its prologue's area. -/
def keepArea (pr : Prologue) (l : Launch) : Launch := { l with area := pr.area.take 1024 }

/-- A launch asks for a repeat (R246). -/
def asksRepeat (s31 : W64) (l : Launch) : Bool := s31 == 2 && decide (l.repeats < 255)

section

variable {w : Wave} {pr : Prologue} {e : Nat} (h : Ended s l w pr e)
include h

theorem prologueEnd_eq : exec (.prologueEnd l.id) s =
    if e ≥ 256 then .next ((withoutWave s w).endLaunch l.id 8 (e - 256)).wakeRetry
    else if e ≠ 0 then .next ((withoutWave s w).endLaunch l.id 2 e).wakeRetry
    else (((withoutWave s w).prologueOutcome l.id (w.sregs.getD 31 0) pr.area).map fun u => Host.Outcome.next u.wakeRetry).getD (.next s) := by
  obtain ⟨grp, wave, prologue, ended, -⟩ := h
  have rest : ({ s with waves := s.waves.filter fun y => y.wid != w.wid, grp := if s.grp.any (fun g => g.wid == w.wid) then none else s.grp } : State) =
      withoutWave s w := by
    cases s
    dsimp only at grp
    subst grp
    rfl
  rw [exec_prologueEnd]
  unfold execPrologueEnd
  split
  next none => cases none.symm.trans wave
  next y some =>
    obtain rfl : y = w := Option.some.inj (some.symm.trans wave)
    simp only [prologue, Option.bind_some, ended, Option.map_some, rest]
    cases (withoutWave s y).prologueOutcome l.id (y.sregs.getD 31 0) pr.area <;> rfl

theorem prologueEnd_unfetched (unfetched : 256 ≤ e) : exec (.prologueEnd l.id) s = .next ((withoutWave s w).updLaunch l.id (concluded 8 (e - 256))).wakeRetry := by
  rw [prologueEnd_eq h, if_pos unfetched]
  rfl

theorem prologueEnd_faulted (pos : 0 < e) (low : e < 256) : exec (.prologueEnd l.id) s = .next ((withoutWave s w).updLaunch l.id (concluded 2 e)).wakeRetry := by
  rw [prologueEnd_eq h, if_neg (Nat.not_le.2 low), if_pos pos.ne']
  rfl

variable (exits : e = 0)
include exits

theorem prologueEnd_exits {u : State} (outcome : (withoutWave s w).prologueOutcome l.id (w.sregs.getD 31 0) pr.area = some u) :
    exec (.prologueEnd l.id) s = .next u.wakeRetry := by
  rw [prologueEnd_eq h, if_neg (by omega), if_neg (not_not.2 exits), outcome]
  rfl

theorem prologueEnd_cancelled (cancel : w.sregs.getD 31 0 = 1) :
    exec (.prologueEnd l.id) s = .next ((withoutWave s w).updLaunch l.id fun y => concluded 1 0 (keepArea pr y)).wakeRetry := by
  have launch : (withoutWave s w).launch? l.id = some l := h.launch
  refine prologueEnd_exits h exits ?_
  simp only [State.prologueOutcome, launch, cancel]
  exact congrArg some (updLaunch_updLaunch fun _ => rfl)

theorem prologueEnd_illegal (zero : w.sregs.getD 31 0 ≠ 0) (one : w.sregs.getD 31 0 ≠ 1) (two : w.sregs.getD 31 0 ≠ 2) :
    exec (.prologueEnd l.id) s = .next ((withoutWave s w).updLaunch l.id fun y => concluded 2 Cause.illegal (keepArea pr y)).wakeRetry := by
  have launch : (withoutWave s w).launch? l.id = some l := h.launch
  refine prologueEnd_exits h exits ?_
  simp only [State.prologueOutcome, launch, zero, one, two, decide_false, Bool.or_self, Bool.false_eq_true, if_false]
  exact congrArg some (updLaunch_updLaunch fun _ => rfl)

theorem prologueEnd_enters (goes : w.sregs.getD 31 0 = 0 ∨ w.sregs.getD 31 0 = 2) {y : Cmd} (cmd : s.cmdOf l = some y) {u : State}
    (enter : ((withoutWave s w).updLaunch l.id fun y => { keepArea pr y with again := asksRepeat (w.sregs.getD 31 0) y }).enterLaunch l.id y.consumed
      (pr.area.take 320) = some u) : exec (.prologueEnd l.id) s = .next u.wakeRetry := by
  have launch : (withoutWave s w).launch? l.id = some l := h.launch
  have merged : (((withoutWave s w).updLaunch l.id (keepArea pr)).updLaunch l.id fun y => { y with again := asksRepeat (w.sregs.getD 31 0) y }) =
      (withoutWave s w).updLaunch l.id fun y => { keepArea pr y with again := asksRepeat (w.sregs.getD 31 0) y } := updLaunch_updLaunch fun _ => rfl
  refine prologueEnd_exits h exits ?_
  rw [← enter, ← merged]
  have test : (decide (w.sregs.getD 31 0 = 0) || decide (w.sregs.getD 31 0 = 2)) = true := by simpa using goes
  simp only [State.prologueOutcome, launch, test, if_true]
  have consumed (x : State) (cmds : x.cmds = s.cmds) : ((x.cmdOf l).map (·.consumed)).getD 0 = y.consumed := by
    rw [State.cmdOf, State.cmd?, cmds]
    exact congrArg (fun o => (o.map Cmd.consumed).getD 0) cmd
  rw [consumed]
  · rfl
  · rfl

end

/-! ### A launch repeats its prologue (R246) -/

theorem prologueRepeat_starts (launch : s.launch? l.id = some l) (again : l.again = true) (unsettled : l.status = none) (idle : s.launchBusy l = false)
    (cmd : s.cmdOf l = some c) {u : State}
    (start : (s.updLaunch l.id fun l => { l with again := false, repeats := l.repeats + 1 }).startPrologue l.id c l.area = some u) :
    exec (.prologueRepeat l.id) s = .next u.wakeRetry := by
  simp only [exec_prologueRepeat, execPrologueRepeat, launch, again, unsettled, idle, cmd, start, Bool.not_true, Option.isSome_none, Bool.or_self,
    Bool.false_eq_true, if_false]

end

end Sys2Proof.Laws

end

section

/-! LEMMAS for O48. Memory reads the bytes written and, elsewhere, as before. -/

namespace Sys2Proof.Laws

open Sys2Proof.Machine Sys2Proof.Safety Sys2Proof.Slice0

section

variable {s t : State} {ws : List Host.Cell}

theorem readByte_congr (mem : t.mem = s.mem) (cleared : t.cleared = s.cleared) (a : Nat) : t.readByte a = s.readByte a := by
  simp only [State.readByte, mem, cleared]

theorem CacheOnly.readByte (h : CacheOnly s t) (a : Nat) : t.readByte a = s.readByte a := readByte_congr h.mem h.cleared a

theorem get_filter (m : Cells) {p : Nat → Bool} {a : Nat} (kept : p a = true) : Cells.get (m.filter fun e => p e.1) a = Cells.get m a := by
  induction m with
  | nil => rfl
  | cons e m ih =>
    by_cases it : e.1 = a
    · simp [it, kept, Cells.get]
    · by_cases stays : p e.1 = true <;> simp [stays, it, Cells.get, ih]

/-- Zeros still to come read as the zeros that fill the page. -/
theorem readByte_filled {page : Nat} (mem : t.mem = s.mem.filter fun e => e.1 / 65536 != page) (cleared : t.cleared = s.cleared.filter (· != page))
    (due : page ∈ s.cleared) (a : Nat) : t.readByte a = s.readByte a := by
  by_cases there : a / 65536 = page
  · have zero : Cells.get t.mem a = 0 := get_eq_zero fun e he it => by
      rw [mem, List.mem_filter, it, there] at he
      simp at he
    simp [State.readByte, there, due, zero]
  · have same : Cells.get t.mem a = Cells.get s.mem a := by
      rw [mem]
      exact get_filter s.mem (p := fun x => x / 65536 != page) (by simpa using there)
    simp [State.readByte, cleared, there, same]

theorem readByte_fillCleared (page a : Nat) : (s.fillCleared page).readByte a = s.readByte a := by
  unfold State.fillCleared
  split
  next due =>
    rw [Bool.and_eq_true, List.contains_iff_mem] at due
    exact readByte_filled rfl rfl due.1 a
  next => rfl

theorem not_mem_cleared_fillCleared {page : Nat} (owned : (s.pageOwner page).isSome = true) : page ∉ (s.fillCleared page).cleared := by
  unfold State.fillCleared
  split
  · simp
  next kept => simpa [owned] using kept

theorem mem_cleared_of_fillCleared {page x : Nat} (h : x ∈ (s.fillCleared page).cleared) : x ∈ s.cleared := by
  unfold State.fillCleared at h
  split at h
  · exact (List.mem_filter.1 h).1
  · exact h

theorem pageOwner_fillCleared (page x : Nat) : (s.fillCleared page).pageOwner x = s.pageOwner x := by
  rw [State.pageOwner, (MemoryOnly.fillCleared s page).pages]
  rfl

theorem readByte_fillAll (pages : List Nat) (a : Nat) : (pages.foldl State.fillCleared s).readByte a = s.readByte a := by
  induction pages generalizing s with
  | nil => rfl
  | cons page pages ih => exact ih.trans (readByte_fillCleared page a)

theorem mem_cleared_of_fillAll {pages : List Nat} {x : Nat} (h : x ∈ (pages.foldl State.fillCleared s).cleared) : x ∈ s.cleared := by
  induction pages generalizing s with
  | nil => exact h
  | cons page pages ih => exact mem_cleared_of_fillCleared (ih h)

theorem not_mem_cleared_fillAll {pages : List Nat} {x : Nat} (hx : x ∈ pages) (owned : (s.pageOwner x).isSome = true) :
    x ∉ (pages.foldl State.fillCleared s).cleared := by
  induction pages generalizing s with
  | nil => cases hx
  | cons page pages ih =>
    obtain rfl | later := List.mem_cons.1 hx
    · exact fun due => not_mem_cleared_fillCleared owned (mem_cleared_of_fillAll due)
    · exact ih later (by rwa [pageOwner_fillCleared])

/-! ### Bytes written -/

theorem memoryOk_filledFor (ok : MemoryOk s) : MemoryOk (filledFor s ws) := wf_fillAll _ s ok

theorem readByte_withBytes_outside (ok : MemoryOk s) {a : Nat} (outside : ∀ e ∈ ws, e.1 ≠ a) : (withBytes s ws).readByte a = s.readByte a := by
  have fills : (filledFor s ws).readByte a = s.readByte a := readByte_fillAll _ a
  have put := get_putAll_outside ws (filledFor s ws).mem a (memoryOk_filledFor ok) outside
  rw [← fills]
  simp only [State.readByte, withBytes, put]

theorem cellsAt_cons (d : Nat) (x : Byte) (bs : List Byte) : cellsAt d (x :: bs) = (d, x) :: cellsAt (d + 1) bs := by
  simp [cellsAt, List.mapIdx_cons, Nat.add_comm, Nat.add_left_comm]

theorem get_putAll_cellsAt {m : Cells} (ok : Memory.wf m = true) (d : Nat) (bs : List Byte) {j : Nat} (hj : j < bs.length) :
    Cells.get (Cells.putAll m (cellsAt d bs)) (d + j) = bs.getD j 0 := by
  induction bs generalizing m d j with
  | nil => cases hj
  | cons x bs ih =>
    have put : Cells.putAll m (cellsAt d (x :: bs)) = Cells.putAll (Cells.put m d x) (cellsAt (d + 1) bs) := by rw [cellsAt_cons]; rfl
    have ok' : Memory.wf (Cells.put m d x) = true := wf_put m d x ok
    rw [put]
    cases j with
    | zero =>
      rw [get_putAll_outside _ _ _ ok', get_put m d x ok, if_pos (by rfl)]
      · rfl
      · intro e he
        obtain ⟨k, hk, rfl⟩ := (mem_cellsAt e).1 he
        dsimp only
        omega
    | succ j =>
      have later := ih ok' (d + 1) (Nat.lt_of_succ_lt_succ hj)
      rwa [show d + (j + 1) = d + 1 + j by omega, List.getD_cons_succ]

/-- The bytes bs stand at d in `t`; every other byte is as it was in `s`. -/
structure Written (s t : State) (d : Nat) (bs : List Byte) : Prop where
  inside : ∀ j < bs.length, t.readByte (d + j) = bs.getD j 0
  outside : ∀ a, a < d ∨ d + bs.length ≤ a → t.readByte a = s.readByte a

variable {d : Nat} {bs : List Byte}

theorem withBytes_written (ok : MemoryOk s) (owned : ∀ j < bs.length, (s.pageOwner ((d + j) / 65536)).isSome = true) :
    Written s (withBytes s (cellsAt d bs)) d bs := by
  refine ⟨fun j hj => ?_, fun a outside => readByte_withBytes_outside ok fun e he => ?_⟩
  · have page : (d + j) / 65536 ∈ ((cellsAt d bs).map fun e => e.1 / 65536).eraseDups :=
      List.mem_eraseDups.2 (List.mem_map.2 ⟨_, (mem_cellsAt _).2 ⟨j, hj, rfl⟩, rfl⟩)
    have there : (d + j) / 65536 ∉ (filledFor s (cellsAt d bs)).cleared := not_mem_cleared_fillAll page (owned j hj)
    have put := get_putAll_cellsAt (memoryOk_filledFor (ws := cellsAt d bs) ok) d bs hj
    simp only [State.readByte, withBytes, List.contains_iff_mem, there, if_false, put]
  · obtain ⟨k, hk, rfl⟩ := (mem_cellsAt e).1 he
    dsimp only
    omega

theorem writeAs_written (ok : MemoryOk s) (owned : ∀ j < bs.length, (s.pageOwner ((d + j) / 65536)).isSome = true)
    (inPage : ∀ j < bs.length, (d + j) / 65536 = d / 65536) (wr : Writer) : Written s (s.writeAs wr (cellsAt d bs)) d bs := by
  have pages {e : Host.Cell} (he : e ∈ cellsAt d bs) : e.1 / 65536 = d / 65536 := by
    obtain ⟨j, hj, rfl⟩ := (mem_cellsAt e).1 he
    exact inPage j hj
  by_cases side : s.memSide (d / 65536) = true ∧ cellsAt d bs ≠ []
  · obtain ⟨e, he⟩ := List.exists_mem_of_ne_nil _ side.2
    have none : (cellsAt d bs).filter (fun e => !s.memSide (e.1 / 65536)) = [] :=
      List.filter_eq_nil_iff.2 fun e he => by simp [pages he, side.1]
    have all : (cellsAt d bs).filter (fun e => s.memSide (e.1 / 65536)) = cellsAt d bs :=
      List.filter_eq_self.2 fun e he => by simp [pages he, side.1]
    rw [writeAs_banks ⟨e, he, by rw [pages he]; exact side.1⟩, none, all]
    have same : CacheOnly s (s.writeMem wr []) := writeMem_cacheOnly s wr []
    have ok' : MemoryOk (s.writeMem wr []) := by unfold MemoryOk; rwa [same.mem]
    obtain ⟨inside, outside⟩ := withBytes_written (s := s.writeMem wr []) (d := d) (bs := bs) ok' fun j hj => by
      rw [State.pageOwner, same.memoryOnly.pages]
      exact owned j hj
    have put := writeUncached_cacheOnly (s.writeMem wr []) wr (cellsAt d bs)
    exact ⟨fun j hj => (put.readByte _).trans (inside j hj), fun a out => (put.readByte a).trans ((outside a out).trans (same.readByte a))⟩
  · rw [writeAs_cached fun e he => ?_]
    · obtain ⟨inside, outside⟩ := withBytes_written ok owned
      have put := writeMem_cacheOnly s wr (cellsAt d bs)
      exact ⟨fun j hj => (put.readByte _).trans (inside j hj), fun a out => (put.readByte a).trans (outside a out)⟩
    · rw [pages he]
      exact Bool.eq_false_iff.2 fun yes => side ⟨yes, List.ne_nil_of_mem he⟩

end

end Sys2Proof.Laws

end

section

/-! LEMMAS for O48. The owners of dirty lines (R168). -/

namespace Sys2Proof.Laws

open Sys2Proof.Machine Sys2Proof.Safety Sys2Proof.Slice0

/-- Each dirty line was written last by a function, an ASID and a side for which `P` holds. -/
def DirtyOnly (P : Nat → Nat → Bool → Prop) (s : State) : Prop := ∀ y ∈ s.lines, y.dirty = true → P y.vf y.asid y.host

namespace DirtyOnly

section

variable {P : Nat → Nat → Bool → Prop} {s t : State} (h : DirtyOnly P s)
include h

theorem congr (lines : t.lines = s.lines) : DirtyOnly P t := by
  unfold DirtyOnly
  rwa [lines]

theorem filter {p : Line → Bool} (lines : t.lines = s.lines.filter p) : DirtyOnly P t := by
  intro y hy dirty
  rw [lines] at hy
  exact h y (List.mem_filter.1 hy).1 dirty

theorem update {p : Line → Bool} {f : Line → Line} (lines : t.lines = updWhere s.lines p f)
    (kept : ∀ x ∈ s.lines, (f x).dirty = true → P (f x).vf (f x).asid (f x).host) : DirtyOnly P t := by
  intro y hy dirty
  rw [lines] at hy
  obtain ⟨x, hx, rfl⟩ := List.mem_map.1 hy
  by_cases it : p x = true
  · rw [if_pos it] at dirty ⊢
    exact kept x hx dirty
  · rw [if_neg it] at dirty ⊢
    exact h x hx dirty

theorem storeLine (e : Line) : DirtyOnly P (s.storeLine e) := h.update rfl fun _ _ dirty => nomatch dirty
theorem leaveCache (e : Line) : DirtyOnly P (s.leaveCache e) := h.filter rfl
theorem setAside (e : Line) : DirtyOnly P (s.setAside e) := h.update rfl fun x hx dirty => h x hx dirty

theorem expelLine (e : Line) : DirtyOnly P (s.expelLine e) := by
  unfold State.expelLine
  split
  · exact (h.storeLine e).leaveCache e
  · exact h.leaveCache e

theorem roomBelow (unit line : Nat) : DirtyOnly P (s.roomBelow unit line) := by
  unfold State.roomBelow
  split
  · exact h
  · split
    exacts [h.setAside _, h.expelLine _]

theorem sinkLine {e : Line} (owner : e.dirty = true → P e.vf e.asid e.host) : DirtyOnly P (s.sinkLine e) :=
  (h.roomBelow (stackOf e.dpa) (e.dpa / 64)).update rfl fun _ _ dirty => owner dirty

omit h in
theorem mem_of_victimLine {l2 : Bool} {unit line : Nat} {e : Line} (found : s.victimLine l2 unit line = some e) : e ∈ s.lines := by
  unfold State.victimLine at found
  extract_lets set at found
  have inSet : e ∈ set := by
    split at found
    · cases found
    · obtain first | ⟨-, head⟩ := (Option.orElse_eq_some _ _ _).1 found
      · exact List.mem_of_find?_eq_some first
      · exact List.mem_of_head? head
  exact (List.mem_filter.1 inSet).1

theorem room (l2 : Bool) (unit line : Nat) : DirtyOnly P (s.room l2 unit line) := by
  unfold State.room
  split
  · exact h.roomBelow unit line
  · split
    · exact h
    next e found =>
      repeat' split
      · exact h.setAside e
      · exact h.sinkLine fun dirty => h e (mem_of_victimLine found) dirty
      · exact h.leaveCache e

theorem addLine {e : Line} (owner : e.dirty = true → P e.vf e.asid e.host) : DirtyOnly P (s.addLine e) := by
  intro y hy dirty
  obtain old | new := List.mem_append.1 hy
  · exact h.room _ _ _ y old dirty
  · cases List.mem_singleton.1 new
    exact owner dirty

variable {wr : Writer} (writer : P wr.vf wr.asid wr.host)
include writer

theorem noteDirty (line : Nat) (below : Cells) : DirtyOnly P (s.noteDirty wr line below) := by
  unfold State.noteDirty
  extract_lets unit
  split
  · dsimp only
    split
    · exact h.update rfl fun _ _ _ => writer
    · exact addLine (h.filter (p := fun x => x.dpa / 64 != line) rfl) fun _ => writer
  · exact h.addLine fun _ => writer

theorem noteDirtyAll (below : Nat → Cells) (lines : List Nat) : DirtyOnly P (lines.foldl (fun s l => s.noteDirty wr l (below l)) s) :=
  List.foldlRecOn (motive := DirtyOnly P) _ _ h fun _ k _ _ => k.noteDirty writer _ _

end

section

variable {s : State}

theorem fillCleared_lines (page : Nat) : (s.fillCleared page).lines = s.lines := by
  unfold State.fillCleared
  split <;> rfl

theorem fillAll_lines (pages : List Nat) : (pages.foldl State.fillCleared s).lines = s.lines :=
  List.foldlRecOn (motive := fun t : State => t.lines = s.lines) _ _ rfl fun _ k page _ => (fillCleared_lines page).trans k

theorem liftErrors_lines (wr : Writer) (lines : List Nat) : (s.liftErrors wr lines).lines = s.lines := by
  unfold State.liftErrors
  split <;> rfl

theorem clearPoison_lines (ws : List Host.Cell) : (s.clearPoison ws).lines = s.lines := by
  unfold State.clearPoison
  split <;> rfl

theorem hitAll_lines (lines : List Nat) : (lines.foldl State.hitLine s).lines = s.lines :=
  List.foldlRecOn (motive := fun t : State => t.lines = s.lines) _ _ rfl fun _ k _ _ => k

variable {P : Nat → Nat → Bool → Prop} (h : DirtyOnly P s) {wr : Writer} (writer : P wr.vf wr.asid wr.host)
include h writer

theorem writeMem (ws : List Host.Cell) : DirtyOnly P (s.writeMem wr ws) := by
  unfold State.writeMem
  extract_lets pages lines filled old written cleared hit
  refine noteDirtyAll (h.congr ?_) writer _ lines
  exact (hitAll_lines lines).trans ((clearPoison_lines ws).trans ((liftErrors_lines wr lines).trans (fillAll_lines pages)))

omit writer in
theorem writeUncached (ws : List Host.Cell) : DirtyOnly P (s.writeUncached wr ws) := by
  unfold State.writeUncached
  extract_lets pages filled expelled lines
  have expel : DirtyOnly P expelled := List.foldlRecOn (motive := DirtyOnly P) _ _ (h.congr (fillAll_lines pages)) fun _ k e _ => k.expelLine e
  exact expel.congr (clearPoison_lines ws)

theorem writeAs (ws : List Host.Cell) : DirtyOnly P (s.writeAs wr ws) := by
  unfold State.writeAs
  dsimp only
  split
  · exact h.writeMem writer ws
  · exact (h.writeMem writer _).writeUncached _

end

end DirtyOnly

/-! ### Memory without errors -/

/-- No error is marked. -/
structure Sound (s : State) : Prop where
  errors : s.errors = []
  softs : s.softs = []

section

variable {s : State} (sound : Sound s)
include sound

theorem writeBack_of_sound (e : Line) : s.writeBack e 1 = if e.dirty then s.storeLine e else s := by
  rw [State.writeBack, lineBad_eq_false sound.errors, Bool.and_false, if_neg Bool.false_ne_true]
  cases dirty : e.dirty <;> simp [State.cleanLine, dirty]

theorem storeLine_of_sound (e : Line) : ∃ lines tags, s.storeLine e = { s with lines := lines, tags := tags } := by
  obtain ⟨errors, softs⟩ := sound
  cases s
  dsimp only at errors softs
  subst errors softs
  exact ⟨_, _, rfl⟩

end

/-- `t` is `s` but for its lines and tags. -/
def TagsOnly (s t : State) : Prop := ∃ lines tags, t = { s with lines := lines, tags := tags }

namespace TagsOnly

variable {s t u : State}

theorem refl (s : State) : TagsOnly s s := ⟨_, _, rfl⟩

theorem trans (h : TagsOnly s t) (k : TagsOnly t u) : TagsOnly s u := by
  obtain ⟨_, _, rfl⟩ := h
  obtain ⟨_, _, rfl⟩ := k
  exact ⟨_, _, rfl⟩

theorem cacheOnly (h : TagsOnly s t) : CacheOnly s t := by
  obtain ⟨_, _, rfl⟩ := h
  exact ⟨_, _, _, _, _, rfl⟩

theorem sound (h : TagsOnly s t) (k : Sound s) : Sound t := by
  obtain ⟨_, _, rfl⟩ := h
  exact ⟨k.errors, k.softs⟩

theorem foldl {α : Type} {f : State → α → State} (step : ∀ u, Sound u → ∀ a, TagsOnly u (f u a)) (k : Sound s) (l : List α) : TagsOnly s (l.foldl f s) :=
  List.foldlRecOn (motive := TagsOnly s) _ _ (refl s) fun u h a _ => h.trans (step u (h.sound k) a)

theorem writeBack (k : Sound s) (e : Line) : TagsOnly s (s.writeBack e 1) := by
  rw [writeBack_of_sound k]
  split
  exacts [storeLine_of_sound k e, refl s]

theorem putLines (k : Sound s) (p : Line → Bool) : TagsOnly s (s.putLines p) := by
  refine foldl (fun u k e => ?_) k _
  have back : TagsOnly u (if e.dirty then u.writeBack e 1 else u) := by
    split
    exacts [writeBack k e, refl u]
  exact back.trans ⟨_, _, rfl⟩

theorem cleanContext (k : Sound s) (vf asid : Nat) : TagsOnly s (s.cleanContext vf asid) := foldl (fun _ k e => writeBack k e) k _

end TagsOnly

/-! ### Lines that are written back -/

section

variable {s : State} (sound : Sound s)
include sound

theorem DirtyOnly.putLines {P : Nat → Nat → Bool → Prop} (h : DirtyOnly P s) (p : Line → Bool) : DirtyOnly P (s.putLines p) := by
  have step : Sound (s.putLines p) ∧ DirtyOnly P (s.putLines p) := by
    refine List.foldlRecOn (motive := fun u => Sound u ∧ DirtyOnly P u) _ _ ⟨sound, h⟩ fun u ⟨k, d⟩ e _ => ?_
    have back : Sound (if e.dirty then u.writeBack e 1 else u) ∧ DirtyOnly P (if e.dirty then u.writeBack e 1 else u) := by
      split
      next dirty =>
        refine ⟨(TagsOnly.writeBack k e).sound k, ?_⟩
        rw [writeBack_of_sound k, if_pos dirty]
        exact d.storeLine e
      next => exact ⟨k, d⟩
    exact ⟨⟨back.1.errors, back.1.softs⟩, back.2.filter rfl⟩
  exact step.2

/-- After lines are written back, a dirty line is one of the others, as it was. -/
theorem writeBacks_dirty {l : List Line} (dirty : ∀ e ∈ l, e.dirty = true) {y : Line} (hy : y ∈ (l.foldl (fun s e => s.writeBack e 1) s).lines)
    (still : y.dirty = true) : y ∈ s.lines ∧ ∀ e ∈ l, y.dpa ≠ e.dpa := by
  induction l generalizing s with
  | nil => exact ⟨hy, by simp⟩
  | cons e l ih =>
    obtain ⟨mem, others⟩ := ih ((TagsOnly.writeBack sound e).sound sound) (fun x hx => dirty x (List.mem_cons_of_mem _ hx)) hy
    rw [writeBack_of_sound sound, if_pos (dirty e List.mem_cons_self)] at mem
    obtain ⟨x, hx, rfl⟩ := List.mem_map.1 mem
    by_cases it : x.dpa = e.dpa
    · simp [it] at still
    · rw [if_neg (by simpa using it)] at others ⊢
      exact ⟨hx, List.forall_mem_cons.2 ⟨it, others⟩⟩

theorem dirtyOnly_cleanContext (vf asid : Nat) : DirtyOnly (fun v a host => ¬(v = vf ∧ a = asid ∧ host = false)) (s.cleanContext vf asid) := by
  rintro y hy still ⟨hvf, hasid, hhost⟩
  obtain ⟨mem, others⟩ := writeBacks_dirty sound (fun e he => by simpa using (Bool.and_eq_true _ _ ▸ (List.mem_filter.1 he).2).1) hy still
  exact others y (List.mem_filter.2 ⟨mem, by simp [still, hvf, hasid, hhost]⟩) rfl

end

end Sys2Proof.Laws

end

section

/-! LEMMAS for O48. A command completes (R244, Table 81). -/

namespace Sys2Proof.Laws

open Sys2Proof.Machine Sys2Proof.Safety Sys2Proof.Slice0

section

variable {s t : State}

/-! ### What a completion reads -/

theorem TagsOnly.translate (h : TagsOnly s t) (core vf asid va : Nat) (need : Need) : t.translate core vf asid va need = s.translate core vf asid va need := by
  obtain ⟨_, _, rfl⟩ := h
  rfl

theorem TagsOnly.lineHeld (h : TagsOnly s t) (d : Nat) : t.lineHeld d = s.lineHeld d := by
  obtain ⟨_, _, rfl⟩ := h
  rfl

/-- The registers, commands, messages, launches and page owners are as they were. -/
structure RegistersSame (s t : State) : Prop where
  vfs : t.vfs = s.vfs
  cmds : t.cmds = s.cmds
  msix : t.msix = s.msix
  launches : t.launches = s.launches
  pages : t.pages = s.pages

theorem RegistersSame.refl : RegistersSame s s := ⟨rfl, rfl, rfl, rfl, rfl⟩

theorem RegistersSame.trans {u : State} (h : RegistersSame s t) (k : RegistersSame t u) : RegistersSame s u :=
  ⟨k.vfs.trans h.vfs, k.cmds.trans h.cmds, k.msix.trans h.msix, k.launches.trans h.launches, k.pages.trans h.pages⟩

theorem MemoryOnly.registersSame (h : MemoryOnly s t) : RegistersSame s t := ⟨h.vfs, h.cmds, h.msix, h.launches, h.pages⟩

theorem TagsOnly.registersSame (h : TagsOnly s t) : RegistersSame s t := h.cacheOnly.memoryOnly.registersSame

/-! ### A record in a bank-engine region (R162) -/

theorem setBank_cleared (b : Bank) : (s.setBank b).cleared = s.cleared := by
  unfold State.setBank
  split <;> rfl

theorem setBank_lines (b : Bank) : (s.setBank b).lines = s.lines := by
  unfold State.setBank
  split <;> rfl

theorem setBank_registersSame (b : Bank) : RegistersSame s (s.setBank b) := by
  unfold State.setBank
  split <;> exact ⟨rfl, rfl, rfl, rfl, rfl⟩

/-- A page's zeros still to come are filled in. -/
def filledPage (s : State) (page : Nat) : State :=
  if s.cleared.contains page then { s with mem := s.mem.filter (fun e => e.1 / 65536 != page), cleared := s.cleared.filter (· != page) } else s

theorem filledPage_memoryOnly (page : Nat) : MemoryOnly s (filledPage s page) := .ite ⟨_, _, _, _, _, _, _, rfl⟩ (.refl s)

theorem filledPage_lines (page : Nat) : (filledPage s page).lines = s.lines := by
  unfold filledPage
  split <;> rfl

theorem filledPage_readByte (page a : Nat) : (filledPage s page).readByte a = s.readByte a := by
  unfold filledPage
  split
  next due => exact readByte_filled rfl rfl (List.contains_iff_mem.1 due) a
  next => rfl

theorem filledPage_sound (sound : Sound s) (page : Nat) : Sound (filledPage s page) := by
  unfold filledPage
  split
  exacts [⟨sound.errors, sound.softs⟩, sound]

theorem noteBankPage_eq (d : Nat) : s.noteBankPage d =
    if (s.bankOf (pseudoChannel d)).pages.contains (d / 65536) then filledPage s (d / 65536)
    else ((filledPage s (d / 65536)).putLines fun e => e.dpa / 65536 == d / 65536).setBank
      { s.bankOf (pseudoChannel d) with pages := (s.bankOf (pseudoChannel d)).pages ++ [d / 65536] } := rfl

section

variable (sound : Sound s) (d : Nat)
include sound

theorem noteBankPage_registersSame : RegistersSame s (s.noteBankPage d) := by
  rw [noteBankPage_eq]
  have fill := (filledPage_memoryOnly (s := s) (d / 65536)).registersSame
  split
  · exact fill
  · exact (fill.trans (TagsOnly.putLines (filledPage_sound sound _) _).registersSame).trans (setBank_registersSame _)

theorem noteBankPage_readByte (a : Nat) : (s.noteBankPage d).readByte a = s.readByte a := by
  rw [noteBankPage_eq]
  split
  · exact filledPage_readByte _ a
  · have put := (TagsOnly.putLines (filledPage_sound sound (d / 65536)) fun e => e.dpa / 65536 == d / 65536).cacheOnly
    exact (readByte_congr (setBank_mem _ _) (setBank_cleared _) a).trans ((put.readByte a).trans (filledPage_readByte _ a))

theorem DirtyOnly.noteBankPage {P : Nat → Nat → Bool → Prop} (h : DirtyOnly P s) : DirtyOnly P (s.noteBankPage d) := by
  rw [noteBankPage_eq]
  have fill : DirtyOnly P (filledPage s (d / 65536)) := h.congr (filledPage_lines _)
  split
  · exact fill
  · exact (fill.putLines (filledPage_sound sound _) _).congr (setBank_lines _)

end

/-! ### The record is written, or lost -/

/-- CTAIL advances, the vector is signalled and the command is gone. -/
def reported (s : State) (c : Cmd) (vector : Nat) (lost : Bool) : State :=
  let r := s.ring c.vf c.ring
  let u := s.setRing c.vf c.ring { r with ctail := r.ctail + 1, status := if lost then r.status ||| 4 else r.status }
  { u with
    msix := if (u.vf c.vf).en then u.msix ++ [(c.vf, vector)] else u.msix
    cmds := u.cmds.filter fun x => !(x.vf == c.vf && x.ring == c.ring && x.seq == c.seq) }

/-- The configuration that a ring completes with. -/
def ringCfg (s : State) (c : Cmd) : RingCfg := (s.ring c.vf c.ring).cfg.getD (ringCfgOf (s.ring c.vf c.ring))

/-- Where a command's record belongs. -/
def recordAt (s : State) (c : Cmd) : Nat := (ringCfg s c).cbase + 32 * ((s.ring c.vf c.ring).ctail.toNat % (s.ring c.vf c.ring).entries)

/-- The translation of that place. -/
def recordPlace (s : State) (c : Cmd) : Except Nat (Nat × Nat) :=
  s.translate Config.cores c.vf ((s.ring c.vf c.ring).asid.getD 0) (recordAt s c) Need.completion

/-- The front end writes completion records (R168). -/
def recordWriter : Writer := { vf := 0x7F, asid := 0, host := false, l2 := none }

/-- The bytes of a record are in memory. -/
def withRecord (s : State) (d kind : Nat) (bs : List Byte) : State := (if kind = 1 then s.noteBankPage d else s).writeAs recordWriter (cellsAt d bs)

variable {c : Cmd} {status cause repeats ticks : Nat} {flags : BitVec 8}

theorem complete_lost (out : 2 ^ 57 < recordAt s c + 32 ∨ ∃ x, recordPlace s c = .error x) :
    s.complete c status cause repeats flags ticks = some (reported s c (ringCfg s c).vector true) := by
  unfold State.complete
  extract_lets r cfg va asid fin
  by_cases beyond : va + 32 > 2 ^ 57
  · rw [if_pos beyond]
    rfl
  · obtain ⟨x, place⟩ := out.resolve_left beyond
    have place : s.translate Config.cores c.vf asid va Need.completion = .error x := place
    rw [if_neg beyond, place]
    rfl

theorem complete_written {d kind : Nat} (inside : recordAt s c + 32 ≤ 2 ^ 57) (place : recordPlace s c = .ok (d, kind)) (free : s.lineHeld d = false) :
    s.complete c status cause repeats flags ticks = some (reported (withRecord s d kind (completionRecord c.seq status flags cause repeats ticks)) c
      (ringCfg s c).vector false) := by
  unfold State.complete
  extract_lets r cfg va asid fin
  have below : ¬va + 32 > 2 ^ 57 := Nat.not_lt.2 inside
  have place : s.translate Config.cores c.vf asid va Need.completion = .ok (d, kind) := place
  rw [if_neg below, place]
  dsimp only
  rw [free, if_neg Bool.false_ne_true]
  rfl

theorem completionRecord_eq : completionRecord c.seq status flags cause repeats ticks = leBytes 4 c.seq ++
    [BitVec.ofNat 8 status, flags, BitVec.ofNat 8 (if status = 2 ∨ status = 8 then cause else 0), BitVec.ofNat 8 repeats] ++ leBytes 8 ticks ++
    List.replicate 16 0 := by
  simp [completionRecord, leBytes, zeros]

theorem length_completionRecord : (completionRecord c.seq status flags cause repeats ticks).length = 32 := by
  simp [completionRecord, leBytes, zeros]

section

variable {d : Nat} (kind : Nat) {bs : List Byte} (sound : Sound s)
include sound

theorem withRecord_registersSame : RegistersSame s (withRecord s d kind bs) := by
  refine RegistersSame.trans ?_ (MemoryOnly.writeAs _ _ _).registersSame
  split
  exacts [noteBankPage_registersSame sound d, .refl]

theorem DirtyOnly.withRecord {P : Nat → Nat → Bool → Prop} (h : DirtyOnly P s) (writer : P 0x7F 0 false) : DirtyOnly P (withRecord s d kind bs) := by
  refine DirtyOnly.writeAs ?_ writer _
  split
  exacts [h.noteBankPage sound d, h]

theorem withRecord_written (ok : MemoryOk s) (owned : (s.pageOwner (d / 65536)).isSome = true) (inPage : ∀ j < bs.length, (d + j) / 65536 = d / 65536) :
    Written s (withRecord s d kind bs) d bs := by
  have noted (x : State) (ok : MemoryOk x) (pages : x.pages = s.pages) (reads : ∀ a, x.readByte a = s.readByte a) :
      Written s (x.writeAs recordWriter (cellsAt d bs)) d bs := by
    obtain ⟨inside, outside⟩ := writeAs_written ok (fun j hj => by rw [inPage j hj, State.pageOwner, pages]; exact owned) inPage recordWriter
    exact ⟨inside, fun a out => (outside a out).trans (reads a)⟩
  unfold Laws.withRecord
  split
  · exact noted _ (wf_noteBankPage s d ok) (noteBankPage_registersSame sound d).pages (noteBankPage_readByte sound d)
  · exact noted s ok rfl fun _ => rfl

end

/-! ### What is reported -/

theorem vf_setRing_en (v k : Nat) (r : Ring) : ((s.setRing v k r).vf v).en = (s.vf v).en := by
  by_cases hv : v < s.vfs.length
  · rw [State.setRing, vf_setVf_same hv]
  · simp [State.setRing, State.setVf, State.vf, List.getD_eq_getElem?_getD, hv]

theorem reported_vfs (h : RegistersSame s t) (vector : Nat) (lost : Bool) : (reported t c vector lost).vfs = (s.setRing c.vf c.ring
    { s.ring c.vf c.ring with
      ctail := (s.ring c.vf c.ring).ctail + 1, status := (s.ring c.vf c.ring).status ||| if lost then 4 else 0 }).vfs := by
  have ring : t.ring c.vf c.ring = s.ring c.vf c.ring := by simp only [State.ring, State.vf, h.vfs]
  unfold reported
  dsimp only
  rw [setRing_congr h.vfs, ring]
  cases lost <;> simp

theorem reported_msix (h : RegistersSame s t) (vector : Nat) (lost : Bool) :
    (reported t c vector lost).msix = if (s.vf c.vf).en = true then s.msix ++ [(c.vf, vector)] else s.msix := by
  have en : (t.vf c.vf).en = (s.vf c.vf).en := by rw [State.vf, h.vfs]; rfl
  unfold reported
  dsimp only
  rw [vf_setRing_en, en, ← h.msix]
  rfl

theorem reported_cmds (vector : Nat) (lost : Bool) : ∀ y ∈ (reported s c vector lost).cmds, ¬(y.vf = c.vf ∧ y.ring = c.ring ∧ y.seq = c.seq) := by
  rintro y hy ⟨hvf, hring, hseq⟩
  have gone := (List.mem_filter.1 hy).2
  simp [hvf, hring, hseq] at gone

end

end Sys2Proof.Laws

end

section

/-! LEMMAS for O48. What holds once a command has completed (R244, R168). -/

namespace Sys2Proof.Laws

open Sys2Proof.Machine Sys2Proof.Safety Sys2Proof.Slice0

section

variable {s : State} {c : Cmd} {status cause repeats ticks : Nat} {flags : BitVec 8}

/-- How a step completes a command: the lines of `clean` are written back before, `drops` is what becomes of the launches, and `also` holds after. -/
structure CompletesWith (i : Instr) (s clean : State) (drops : List Launch → List Launch) (c : Cmd) (status cause repeats : Nat) (flags : BitVec 8) (ticks : Nat)
    (also : State → Prop) : Prop where
  cleaned : TagsOnly s clean
  step : ∀ u, clean.complete c status cause repeats flags ticks = some u → exec i s = .next ({ u with launches := drops u.launches } : State).wakeRetry
  after : ∀ t, t.launches = drops s.launches → (∀ P, P 0x7F 0 false → DirtyOnly P clean → DirtyOnly P t) → also t

variable {i : Instr} {clean : State} {drops : List Launch → List Launch} {also : State → Prop} (h : CompletesWith i s clean drops c status cause repeats flags ticks also)
include h

/-- A command that is reported from `u`, which holds the registers of `s`. -/
theorem CompletesWith.reported {u : State} {vector : Nat} {lost : Bool} (reports : clean.complete c status cause repeats flags ticks = some (reported u c vector lost))
    (same : RegistersSame s u) (dirty : ∀ P, P 0x7F 0 false → DirtyOnly P clean → DirtyOnly P u) : ∃ t, exec i s = .next t ∧
      (also t ∧ t.vfs = (s.setRing c.vf c.ring { s.ring c.vf c.ring with
          ctail := (s.ring c.vf c.ring).ctail + 1, status := (s.ring c.vf c.ring).status ||| if lost then 4 else 0 }).vfs ∧
        t.msix = (if (s.vf c.vf).en = true then s.msix ++ [(c.vf, vector)] else s.msix) ∧ ∀ y ∈ t.cmds, ¬(y.vf = c.vf ∧ y.ring = c.ring ∧ y.seq = c.seq)) ∧
      t.mem = u.mem ∧ t.cleared = u.cleared :=
  ⟨_, h.step _ reports, ⟨h.after _ (congrArg drops same.launches) dirty, reported_vfs same vector lost, reported_msix same vector lost, reported_cmds vector lost⟩,
    rfl, rfl⟩

theorem CompletesWith.ring : clean.ring c.vf c.ring = s.ring c.vf c.ring := by
  simp only [State.ring, State.vf, h.cleaned.registersSame.vfs]

theorem CompletesWith.place : recordAt clean c = recordAt s c ∧ ringCfg clean c = ringCfg s c ∧ recordPlace clean c = recordPlace s c := by
  have cfg : ringCfg clean c = ringCfg s c := by rw [ringCfg, h.ring]; rfl
  have at_ : recordAt clean c = recordAt s c := by rw [recordAt, h.ring, cfg]; rfl
  refine ⟨at_, cfg, ?_⟩
  rw [recordPlace, h.ring, at_, h.cleaned.translate]
  rfl

end

/-- A step that completes a command does what R244 says. -/
theorem reports {s : State} {c : Cmd} {status cause repeats ticks : Nat} {flags : BitVec 8} {i : Instr} {drops : List Launch → List Launch}
    {also : State → Prop} (h : Sound s → ∃ clean, CompletesWith i s clean drops c status cause repeats flags ticks also) :
    Reports i s c status cause repeats flags ticks also := by
  unfold Reports
  extract_lets r cfg va place rec_ done
  intro errors softs ok
  obtain ⟨clean, completes⟩ := h ⟨errors, softs⟩
  obtain ⟨at_, ringCfg_, place_⟩ := completes.place
  refine ⟨fun out => ?_, fun d kind inside found free aligned owned => ?_⟩
  · have lost := complete_lost (status := status) (cause := cause) (repeats := repeats) (flags := flags) (ticks := ticks) (s := clean) (c := c)
      (by rw [at_, place_]; exact out)
    obtain ⟨t, step, kept, mem, -⟩ := completes.reported lost completes.cleaned.registersSame fun _ _ k => k
    rw [ringCfg_] at kept
    exact ⟨t, step, kept, mem.trans completes.cleaned.cacheOnly.mem⟩
  · have sound : Sound clean := completes.cleaned.sound ⟨errors, softs⟩
    have written := complete_written (status := status) (cause := cause) (repeats := repeats) (flags := flags) (ticks := ticks) (s := clean) (c := c)
      (by rw [at_]; exact inside) (place_.trans found) ((completes.cleaned.lineHeld d).trans free)
    obtain ⟨t, step, kept, mem, cleared⟩ := completes.reported written (completes.cleaned.registersSame.trans (withRecord_registersSame kind sound))
      fun _ writer k => k.withRecord kind sound writer
    have length : (completionRecord c.seq status flags cause repeats ticks).length = 32 := length_completionRecord
    obtain ⟨bytes, others⟩ := withRecord_written kind (d := d) (bs := completionRecord c.seq status flags cause repeats ticks) sound
      (by unfold MemoryOk; rwa [completes.cleaned.cacheOnly.mem]) (by rw [State.pageOwner, completes.cleaned.registersSame.pages]; exact owned)
      fun j hj => by omega
    rw [ringCfg_] at kept
    rw [length] at bytes others
    refine ⟨t, step, kept, fun j hj => ?_, fun a out => ?_⟩
    · rw [readByte_congr mem cleared, bytes j hj, completionRecord_eq]
    · rw [readByte_congr mem cleared, others a out, completes.cleaned.cacheOnly.readByte]

/-! ### The commands that complete -/

section

variable {s : State} {c : Cmd} {also : State → Prop} (found : s.cmd? c.vf c.ring c.seq = some c) (turn : s.inTurn c = true)
include found turn

theorem commandComplete_finished {status cause repeats : Nat} (phase : c.phase = .finished status cause repeats) :
    Reports (.commandComplete c.vf c.ring c.seq) s c status cause repeats c.flags c.ticks fun _ => True := by
  refine reports (drops := id) fun _ => ⟨s, .refl s, fun u complete => ?_, fun _ _ _ => trivial⟩
  simp only [exec_commandComplete, execCommandComplete, found, phase, turn, if_true, complete]
  rfl

theorem commandComplete_unreadable {cause : Nat} (phase : c.phase = .unreadable cause) (may : s.mayStart c = true) :
    Reports (.commandComplete c.vf c.ring c.seq) s c 8 cause 0 0 0 fun _ => True := by
  refine reports (drops := id) fun _ => ⟨s, .refl s, fun u complete => ?_, fun _ _ _ => trivial⟩
  simp only [exec_commandComplete, execCommandComplete, found, phase, turn, may, Bool.and_self, if_true, complete]
  rfl

variable {l : Launch} (phase : c.phase = .running l.id) (launch : s.launch? l.id = some l) (idle : s.launchBusy l = false)
  (ended : l.again = false ∨ l.status.isSome = true) (remotes : ∀ o ∈ s.remotes, o.launch ≠ l.id) (bankOps : ∀ o ∈ s.bankOps, o.launch ≠ l.id)
include phase launch idle ended remotes bankOps

theorem commandComplete_running (sound : Sound s) {u : State}
    (complete : (s.cleanContext l.vf l.asid).complete c (l.status.getD 0) l.cause l.repeats l.flags l.ticks = some u) :
    exec (.commandComplete c.vf c.ring c.seq) s = .next ({ u with launches := u.launches.filter fun x => x.id != l.id } : State).wakeRetry := by
  have same : (s.cleanContext l.vf l.asid).launch? l.id = some l := by
    rw [State.launch?, (TagsOnly.cleanContext sound l.vf l.asid).registersSame.launches]
    exact launch
  have settled : (l.again && l.status.isNone) = false := by
    obtain no | some := ended
    · rw [no, Bool.false_and]
    · rw [Option.isNone_eq_false_iff.2 some, Bool.and_false]
  have noRemote : (s.remotes.any fun o => o.launch == l.id) = false := by simpa using remotes
  have noBank : (s.bankOps.any fun o => o.launch == l.id) = false := by simpa using bankOps
  simp only [exec_commandComplete, execCommandComplete, found, phase, launch, idle, turn, settled, noRemote, noBank, Bool.not_true, Bool.or_self,
    Bool.false_eq_true, if_false, same, Option.getD_some, complete, Option.map_some]

theorem commandComplete_launch (function : l.vf < 96) : Reports (.commandComplete c.vf c.ring c.seq) s c (l.status.getD 0) l.cause l.repeats l.flags l.ticks
    fun t => (∀ y ∈ t.launches, y.id ≠ l.id) ∧ ∀ y ∈ t.lines, y.dirty = true → ¬(y.vf = l.vf ∧ y.asid = l.asid ∧ y.host = false) := by
  refine reports (drops := List.filter fun x => x.id != l.id) fun sound => ⟨s.cleanContext l.vf l.asid, TagsOnly.cleanContext sound _ _, fun u complete => ?_, ?_⟩
  · exact commandComplete_running found turn phase launch idle ended remotes bankOps sound complete
  · intro t launches dirty
    refine ⟨fun y hy => ?_, dirty _ (fun it => ?_) (dirtyOnly_cleanContext sound l.vf l.asid)⟩
    · rw [launches] at hy
      simpa using (List.mem_filter.1 hy).2
    · omega

end

end Sys2Proof.Laws

end

section

/-! PROOF of O48 (R243-R249, Tables 81-83). -/

namespace Sys2Proof.Laws

open Sys2Proof.Machine Sys2Proof.Safety Sys2Proof.Slice0

/-- Settles O48: a command that may start does its kind, a prologue's end decides its launch, and a command completes with its record and status. -/
theorem commandEvents : Obligations.CommandEvents := by
  unfold Obligations.CommandEvents
  intro s t c l w pr b p q e st x n
  extract_lets run asid fresh opened finished launches ends completes rest kept s31 again
  refine ⟨fun may => nopCommand_finishes may, fun may first => barrier_finishes may first, fun may queue => ⟨fun cause lost => launch_lost may queue lost,
    fun fetched new => ⟨fun direct => ?_, fun prologue => ?_⟩⟩, ?_, ?_, fun found turn => ⟨fun phase => ?_, fun phase may => ?_, ?_⟩⟩
  · exact enters fun u enter => launch_enters may queue fetched direct enter
  · exact startsPrologue fun u start => launch_startsPrologue may queue fetched prologue start
  · intro grp wave prologue ended launch
    have h : Ended s l w pr e := ⟨grp, wave, prologue, ended, launch⟩
    refine ⟨prologueEnd_unfetched h, prologueEnd_faulted h, fun exits => ⟨fun goes y cmd => ?_, prologueEnd_cancelled h exits, prologueEnd_illegal h exits⟩⟩
    exact enters fun u enter => prologueEnd_enters h exits goes cmd enter
  · intro launch repeats unsettled idle cmd
    exact startsPrologue fun u start => prologueRepeat_starts launch repeats unsettled idle cmd start
  · exact commandComplete_finished found turn phase
  · exact commandComplete_unreadable found turn phase may
  · intro phase launch idle ended remotes bankOps function
    exact commandComplete_launch found turn phase launch idle ended remotes bankOps function

end Sys2Proof.Laws

end
